-- ==== Sys2Proof/Word.lean ====
section
/-! DEFINITION. The word types of the hub: one byte, a 32-bit register and a 64-bit register (R6, R7, R14). -/
namespace Sys2Proof

/-- One byte. -/
abbrev Byte := BitVec 8

/-- A 32-bit register or half of a 64-bit one (R14). -/
abbrev Word := BitVec 32

/-- A 64-bit register (R14). -/
abbrev DWord := BitVec 64

end Sys2Proof
end

