-- ==== Sys2Proof/Payload.lean ====
section
/-! DEFINITION. The operands of the commands: what a message, a record, a reading or a request carries, field by field. -/
namespace Sys2Proof

/-- Who makes a register, doorbell or window access: firmware through the internal image, or the host, with the IDE stream on
which a TLP with the T bit came (R310). -/
inductive BusSrc where
  | firmware
  | host (tee : Option Nat)
  deriving DecidableEq, Repr

/-- Parts of the family (R21, R22); the fuses name one. -/
inductive Part where
  | x768 | x672 | e768 | l768
  deriving DecidableEq, Repr

/-- One entry of the population record (R49 layout table, 64 bytes). -/
structure PopSite where
  populated : Bool
  coherent : Bool
  protocol : Nat
  modules : Nat
  powerLimitW : Nat
  makerId : Nat
  partId : Nat
  revisionMajor : Nat
  tempLimitC : Nat
  coherentCacheKib : Nat
  rootDigest : Nat
  deriving DecidableEq, Repr

/-- The population record of the MRAM store (layout table before R49). -/
structure PopRecord where
  format : Nat
  reworkCount : Nat
  partnerCode : List Nat
  populationCode : List Nat
  sites : List PopSite
  certDigest : Nat
  signature : Nat
  deriving DecidableEq, Repr

/-- The 16-byte identity block of a chiplet (R40). -/
structure IdentityBlock where
  lo : DWord
  hi : DWord
  deriving DecidableEq, Repr

/-- A chiplet's answer to one SPDM request of its attestation (R42, R449). -/
structure SpdmAnswer where
  refused : Bool
  rootDigest : Nat
  nonce : Nat
  measurement : Nat
  signature : Nat
  deriving DecidableEq, Repr

/-- What reading a stored word or sector finds (R59, R168): nothing, an error the code corrects, or one it cannot. -/
inductive Ecc where
  | clean | corrected | uncorrectable
  deriving DecidableEq, Repr

/-- Who made a memory request (R175): an issuer with a context, or firmware on its own behalf. -/
inductive Origin where
  | ctx (c : Nat)
  | firmware
  deriving DecidableEq, Repr

/-- Where the answer to a memory request goes; `part` is one line of a request that was cut into lines. -/
inductive Port where
  | host
  | site (n : Nat)
  | fabric (conn : Nat)
  | engine (cls : Nat)
  | part (id i : Nat)
  deriving DecidableEq, Repr

/-- One memory transaction within a 256-byte unit: who asks, the class of R183, where, and for a write the bytes with
their enables (`none` leaves a byte as it stands), with the poison mark that came with them. `ecc` is what the stack's check finds if
the request reads the stack. -/
structure MemReq where
  tag : Nat
  origin : Origin
  port : Port
  cls : Nat
  addr : Nat
  len : Nat
  data : Option (List (Option Byte))
  poison : Bool
  ecc : Ecc
  deriving DecidableEq, Repr

/-- A request that comes off the torus for a tile (R151, R154): the request, and the links on which a word of its flits was corrected. -/
structure TileRequest where
  body : MemReq
  corrected : List Nat
  deriving DecidableEq, Repr

/-- The module of a site on which a message arrives (R258). -/
structure SiteModule where
  site : Nat
  module : Nat
  deriving DecidableEq, Repr

/-- What the supplies show when PERST_N is released (R416, R500): whether the main rails are in range, and the addresses of the regulators that do
not answer. -/
structure RailReport where
  inRange : Bool
  absent : List Nat
  deriving DecidableEq, Repr

/-- Whose network request ends without a response (R153): an issued descriptor of a ring, a tile's dispatch, or a request with a tag
from the host, a site or the fabric. -/
inductive Timed where
  | ring (r seq : Nat)
  | tile (t : Nat)
  | request (tag : Nat)
  deriving DecidableEq, Repr

/-- The header of a message from a chiplet (R258, R278): the physical module it arrived on, its tag, its site-virtual address if it
carries one, and whether an opcode, state or reserved bit of it is one that R279 discards. -/
structure SysMsg where
  module : Nat
  tag : Nat
  va : Option Nat
  bad : Bool
  deriving DecidableEq, Repr

/-- One class's sample at a controller at an epoch's end (R186, R190): demand by side, the number of the epoch's responses
and the sum of their latencies in ns, the credits received, and the bandwidth served over the last 1 ms in GB/s. -/
structure ClassSample where
  cls : Nat
  demandRd : Nat
  demandWr : Nat
  latCount : Nat
  latSum : Nat
  served : Nat
  deriving DecidableEq, Repr

/-- A controller's sample at an epoch's end (R190): mean admitted transactions, and the classes. -/
structure CtlSample where
  ctl : Nat
  occ : Nat
  classes : List ClassSample
  deriving DecidableEq, Repr

/-- The signed bedrock manifest (R179). `digest` stands for the SHA-384 of the whole manifest. -/
structure Manifest where
  granuleCount : Nat
  imageVersion : Nat
  contentId : Nat
  ownerKeyDigest : Nat
  crcs : List Nat
  digest : Nat
  signature : Nat
  deriving DecidableEq, Repr

/-- What a link block carries (R316): the payload of a block in transit, one part of a message of this package's own (its opcode,
sequence number and connection), or nothing. -/
inductive LinkPay where
  | empty
  | data (bytes : List Byte)
  | own (op seq conn part_ : Nat)
  deriving DecidableEq, Repr

/-- A block on a Teurn link, field by field (R316). -/
structure LinkBlock where
  seq : Nat
  lane : Nat
  kind : Nat
  ack : Nat
  nak : Bool
  creditLane : Nat
  creditCount : Nat
  dest : Nat
  flow : Nat
  pay : LinkPay
  deriving DecidableEq, Repr

/-- The header of a message that arrives on a connection (R324): the receiver's entry, the sender's device ID, the sequence, tag and
address, the poison and err bits, and whether its authentication tag verified. -/
structure FabHdr where
  conn : Nat
  src : Nat
  seq : Nat
  tag : Nat
  addr : Nat
  poison : Bool
  err : Bool
  authentic : Bool
  deriving DecidableEq, Repr

/-- A cairn (R330). -/
structure Cairn where
  kind : Nat
  device : Nat
  seq : Nat
  health : Nat
  epoch : Nat
  manager : Nat
  deputy : Nat
  flags : Nat
  slowDelay : Nat
  timeTx : Nat
  timeOffset : Nat
  tiles : Nat
  stackCount : Nat
  sites : Nat
  ports : Nat
  fatal : Nat
  neighbours : List Nat
  maskA : Nat
  maskB : Nat
  roster : Nat
  slowDevice : Nat
  slowSeq : Nat
  deriving DecidableEq, Repr

/-- A device identity as a JOIN shows it (R331, R332): the digest of its public key, its serial, whether it is a CM2 identity, and
whether its chain and signature verify. -/
structure Identity where
  digest : Nat
  serial : Nat
  cm2 : Bool
  genuine : Bool
  deriving DecidableEq, Repr

/-- An entry of the roster (R331). -/
structure RosterEntry where
  digest : Nat
  serial : Nat
  enrolled : Bool
  deriving DecidableEq, Repr

/-- A frame at a stream port (R358–R360): whether its frame check held and its destination MAC is the port's own, the sender's MAC, whether it
is an unfragmented UDP datagram of the supported kind with good checksums, its VLAN ID if it is tagged, its IP addresses, the UDP destination
port and payload, and whether it found the port's ingress buffer full (R370). -/
structure StreamFrame where
  fcsOk : Bool
  ownMac : Bool
  srcMac : Nat
  supported : Bool
  vlan : Option Nat
  v6 : Bool
  src : Nat
  dst : Nat
  udpPort : Nat
  udp : List Byte
  full : Bool
  deriving DecidableEq, Repr

end Sys2Proof
end

