-- ==== Sys2Proof/Syntax.lean ====
section
/-! DEFINITION. The commands of the block: one constructor per row of spec/opcode_table.json, with the row's operands. -/
namespace Sys2Proof

/-- A command that the block takes from outside, or a point that one of its own timers or engines reaches. -/
inductive Instr where
  /-- GLB_COMMIT (R25). A write of 1 to GLB_COMMIT checks the GLB set (DUTY_MODE, GLB_DRV_INFO) and, if it is consistent, switches it in at once. -/
  | glbCommit (v : Word)
  /-- GLB_SUBST_CMD (R29). A write of GLB_SUBST_CMD arms one context or every context for pending substitutions, or is discarded when bit 5 of DUTY_ACTIVE is 0. -/
  | glbSubstCmd (v : Word)
  /-- QUIESCENT_POINT (R242). When a context's ring set becomes idle, the hub performs the pending substitutions before it fetches anything more for that context. -/
  | quiescentPoint (ctx : Nat)
  /-- POP_WRITE (R49). A management command that writes the population record once, after checking its signature and limits. -/
  | popWrite (tag : Nat) (record : PopRecord) (genuine : Bool)
  /-- REWORK (R49). A management command that replaces the population record with a Burusk-signed rework record, refusing a third one. -/
  | rework (tag : Nat) (record : PopRecord) (genuine : Bool)
  /-- SITE_POWER_TELEMETRY (R36). Every 1 ms, firmware reads each site's rail power from the board's regulators. -/
  | sitePowerTelemetry (n : Nat) (watts : Option Nat)
  /-- POWER_OVERRUN_TIMEOUT (R36). A site that has drawn more than its limit for 10 ms is sent the power-cap message over the sideband. -/
  | powerOverrunTimeout (n : Nat)
  /-- POWER_CAP_DEADLINE (R36). When a site's draw is still over its limit 10 ms after the power-cap message, the hub fences it with cause power overrun. -/
  | powerCapDeadline (n : Nat)
  /-- TEMPERATURE_REQUEST (R43). Every 10 ms, the hub sends each site a sideband temperature request. -/
  | temperatureRequest
  /-- TEMPERATURE_REPORT (R43). A chiplet's temperature answer may lead to a power cap at half the limit, or to a fence for a thermal trip. -/
  | temperatureReport (n tempC : Nat)
  /-- TEMPERATURE_SILENCE (R43). When a site has sent no temperature answer for 100 ms, the hub treats the silence as a thermal trip. -/
  | temperatureSilence (n : Nat)
  /-- THERMAL_TRIP_MESSAGE (R43). On a chiplet's thermal-trip message, the hub deasserts SITE_PWREN within 1 ms and fences the site with cause thermal. -/
  | thermalTripMessage (n : Nat)
  /-- SITE_PGOOD_RISE (R44). When SITE_PGOOD rises, the hub starts SCLK and then starts sideband training on every module of the site. -/
  | sitePgoodRise (n : Nat)
  /-- SITE_PGOOD_TIMEOUT (R44). A site whose SITE_PGOOD has not risen by 25 ms is fenced with cause power-good timeout. -/
  | sitePgoodTimeout (n : Nat)
  /-- SIDEBAND_UP (R44). A module's sideband coming up moves the site to IDENTIFYING and starts the identity read. -/
  | sidebandUp (n m : Nat)
  /-- SIDEBAND_TIMEOUT (R44). A site with no sideband up on any module by 40 ms is fenced with cause sideband timeout. -/
  | sidebandTimeout (n : Nat)
  /-- IDENTITY_BLOCK_READ (R40). The hub compares the identity block it has read with the population record, and fences the site on a mismatch or starts attestation. -/
  | identityBlockRead (n : Nat) (block : IdentityBlock)
  /-- IDENTITY_TIMEOUT (R40). A site whose identity block is not readable within 50 ms is fenced with cause identity timeout. -/
  | identityTimeout (n : Nat)
  /-- SPDM_RESPONSE (R42). The hub checks a chiplet's SPDM answer; a failure fences the site, and a completed attestation opens the site aperture and coherence. -/
  | spdmResponse (n : Nat) (answer : SpdmAnswer)
  /-- SPDM_TIMEOUT (R42). A chiplet SPDM request left unanswered for 100 ms fences the site with cause attestation failure. -/
  | spdmTimeout (n : Nat)
  /-- SITE_PGOOD_FALL (R46). When SITE_PGOOD falls on an active site, the hub fences it, discards its requests, poisons its modified and owned lines and completes its in-flight requests with SITE_DARK. -/
  | sitePgoodFall (n : Nat)
  /-- SITE_RESET_TIMEOUT (R48). A chiplet that has not presented its identity again within 20 ms of a blanket reset is power-cycled. -/
  | siteResetTimeout (n : Nat)
  /-- SITE_POWER_CYCLE_END (R48). 10 ms after SITE_PWREN was deasserted for a power cycle, the hub reasserts it and repeats the site bring-up timeline. -/
  | sitePowerCycleEnd (n : Nat)
  /-- SITE_COMMIT (R50). A write of 1 to SITE_COMMIT checks the site's power and link sets and commits them at the site's safe point. -/
  | siteCommit (n : Nat) (v : Word)
  /-- DISPATCH_START (R53). A tile starts its next queued dispatch once its previous one has ended, loading the initial kernel state. -/
  | dispatchStart (tile : Nat)
  /-- MCFG (R65). Sets the array form, the operand formats, the schedule and the rounding once every earlier matrix instruction has completed. -/
  | mcfg (tile : Nat)
  /-- MLOADB (R61). Loads a stationary buffer from scratch, together with its scale image or its slices. -/
  | mloadb (tile : Nat)
  /-- MSTREAM (R61). Streams n rows or lines through the array into an accumulator bank, under the mask and the optional escalation map. -/
  | mstream (tile : Nat)
  /-- MDRAIN (R69). Converts accumulator rows to the drain format and writes them to scratch. -/
  | mdrain (tile : Nat)
  /-- MZERO (R62). Clears one accumulator bank, or the combine bank, together with its fed bits. -/
  | mzero (tile : Nat)
  /-- MFENCE (R63). Stalls the core until every earlier matrix, vector and drain write has completed. -/
  | mfence (tile : Nat)
  /-- MFENCE_RELEASE (R63). The last earlier write completes, and a stalled MFENCE releases the core. -/
  | mfenceRelease (tile : Nat)
  /-- TDMA (R72). Queues a tile DMA command and translates its address, which may raise a segment fault. -/
  | tdma (tile : Nat)
  /-- TDMAF (R73). Queues a tile DMA command that issues only after every earlier command of the tile has completed. -/
  | tdmaf (tile : Nat)
  /-- TDMA_COMPLETE (R73). All writes of a tile DMA command have reached their destination, which frees its tag. -/
  | tdmaComplete (tile tag : Nat)
  /-- TWAIT (R73). Stalls the core until no tile DMA command with a tag in the mask is outstanding. -/
  | twait (tile : Nat)
  /-- TWAIT_RELEASE (R73). The last command named by a waiting TWAIT completes, which releases the core. -/
  | twaitRelease (tile : Nat)
  /-- TPOLL (R74). Stalls the core until an aligned scratch word differs from a given value. -/
  | tpoll (tile : Nat)
  /-- TPOLL_RELEASE (R74). A write that lands in the polled word's bank row is re-read, and the TPOLL ends if the word differs. -/
  | tpollRelease (tile : Nat)
  /-- TEND (R230). Ends the kernel with a 16-bit result once all earlier work has completed. -/
  | tend (tile : Nat)
  /-- FENCE_I (R54). Flushes the control core's instruction buffer. -/
  | fenceI (tile : Nat)
  /-- KERNEL_TRAP (R52). An illegal or out-of-range access, an illegal instruction, an ECALL or an EBREAK traps to firmware, which ends the dispatch with KERNEL_TRAP. -/
  | kernelTrap (tile : Nat)
  /-- KERNEL_TIMEOUT (R77). A dispatch that reaches its time limit completes with KERNEL_TIMEOUT, and its core, tile DMA and array are reset. -/
  | kernelTimeout (tile : Nat)
  /-- SCRATCH_WINDOW_ACCESS (R60). Another agent reads or writes a logical tile's scratch through its scratch window. -/
  | scratchWindowAccess (req : MemReq)
  /-- TILE_FAILURE (R75). A parity error in a tile fences the tile, and its dispatch completes with TILE_LOST. -/
  | tileFailure (tile cause : Nat)
  /-- VLD (R71). Vector load of 64 bytes from scratch. -/
  | vld (tile : Nat)
  /-- VST (R71). Vector store of 64 bytes to scratch. -/
  | vst (tile : Nat)
  /-- VADD (R71). Vector add. -/
  | vadd (tile : Nat)
  /-- VSUB (R71). Vector subtract. -/
  | vsub (tile : Nat)
  /-- VMUL (R71). Vector multiply. -/
  | vmul (tile : Nat)
  /-- VFMA (R71). Vector fused multiply-add with one rounding. -/
  | vfma (tile : Nat)
  /-- VMAX (R71). Vector maximum, with NaN propagation. -/
  | vmax (tile : Nat)
  /-- VMIN (R71). Vector minimum, with NaN propagation. -/
  | vmin (tile : Nat)
  /-- VCVT (R71). Converts a vector between element types. -/
  | vcvt (tile : Nat)
  /-- VREDSUM (R71). Sums the lanes of a vector in a fixed pairwise order. -/
  | vredsum (tile : Nat)
  /-- VBCAST (R71). Broadcasts an integer register into every lane. -/
  | vbcast (tile : Nat)
  /-- VMVX (R71). Moves lane 0 of a vector to an integer register, sign-extended. -/
  | vmvx (tile : Nat)
  /-- VEXP2 (R71). Vector power of two. -/
  | vexp2 (tile : Nat)
  /-- VRECIP (R71). Vector reciprocal. -/
  | vrecip (tile : Nat)
  /-- VSIDE (R95). Adds the outlier sidecar contributions to one accumulator row. -/
  | vside (tile : Nat)
  /-- PERF_COUNTER_WRAP (R476). A 48-bit performance counter wraps, which sets its overflow bit, posts an event and raises perf_ovf. -/
  | perfCounterWrap (tile which : Nat)
  /-- PACKET_EJECT (R154). A packet arrives for a tile; if the tile's quad is asleep, the packet starts the wake and waits in the ejection buffer. -/
  | packetEject (req : TileRequest)
  /-- FLIT_REPLAY (R151). A flit with an uncorrectable word is replayed from the sender's replay buffer. -/
  | flitReplay (link corrected : Nat) (third : Bool)
  /-- ROUTE_SWITCHOVER (R151). After its in-flight requests have drained, an interface switches to the newly committed route tables. -/
  | routeSwitchover
  /-- ROUTER_LOSS (R152). An uncorrectable router error loses the router and its cluster, fences the 18 tiles and starts route recomputation. -/
  | routerLoss (cluster : Nat)
  /-- NOC_REQUEST_TIMEOUT (R153). A request with no response after timeout_us fails at its agent with NOC_TIMEOUT, or with all ones on the host path. -/
  | nocRequestTimeout (who : Timed)
  /-- NOC_LATE_RESPONSE (R153). A response that arrives after its timeout is discarded and counted. -/
  | nocLateResponse
  /-- NOC_COMMIT (R146). Firmware commits NOC_CFG and the shadowed route entries, and the commit is refused if any entry is illegal. -/
  | nocCommit (v : Word)
  /-- NOC_PLL_UNLOCK (R463). An NoC PLL that stays unlocked for 1 ms is a fatal error that stops the package. -/
  | nocPllUnlock
  /-- MEMORY_READ (R166). A read request reaches its HBM controller, is checked against the owner map and is served, poison included. -/
  | memoryRead (req : MemReq)
  /-- MEMORY_WRITE (R165). A write request enters the write-combining buffer or the write queue and is acknowledged. -/
  | memoryWrite (req : MemReq)
  /-- WCB_AGE_EXPIRY (R165). A write-combining buffer entry older than wcb_age_us is written out. -/
  | wcbAgeExpiry (line : Nat)
  /-- WRITE_BURST_RELEASE (R163). Held writes are issued in a burst once 24 are queued or the oldest has waited 2 µs. -/
  | writeBurstRelease (ctl ch pc : Nat)
  /-- REQUEST_AGE_PROMOTION (R163). A request that has waited 10 µs moves to level 2 of the pseudo-channel scheduler. -/
  | requestAgePromotion (sector : Nat)
  /-- SCRUB_VISIT (R168). A controller reads a sector on its scrub pass and rewrites it if it corrects an error. -/
  | scrubVisit (addr : Nat) (ecc : Ecc)
  /-- PPR_REPAIR (R169). An HBM_PPR_CMD repair repairs the oldest listed row, or marks its cell for retirement. -/
  | pprRepair
  /-- PPR_DISMISS (R169). An HBM_PPR_CMD dismiss removes the oldest row from the list and leaves it in service. -/
  | pprDismiss
  /-- STACK_TEMP_READ (R173). Every 1 ms, a controller reads its stack's hottest sensor and applies the stack thresholds. -/
  | stackTempRead (stack tempC : Nat)
  /-- GRAN_SET (R176). The SET command applies an owner and a mode to a range of granules. -/
  | granSet
  /-- GRAN_SET_ZERO (R176). The SET_ZERO command applies an owner and a mode to a range of granules and zeroes them. -/
  | granSetZero
  /-- GRAN_READ (R176). The READ command loads HBM_GRAN_ATTR from one granule's owner map entry. -/
  | granRead
  /-- GRAN_DRAIN_DONE (R176). Once a granule's admitted requests have drained, its new entry is distributed, the granule is zeroed if needed and waiting requests proceed. -/
  | granDrainDone
  /-- ZEROING_PASS (R177). Background zeroing reaches a fresh granule, zeroes it and clears its fresh bit. -/
  | zeroingPass (granule : Nat)
  /-- BEDROCK_BLOCK (R180). An arriving bedrock granule block is checked against the manifest CRC-64 and, if it passes, rewritten and its parked reads released. -/
  | bedrockBlock (granule : Nat) (data : List Byte) (digest : Nat)
  /-- BEDROCK_FETCH_TIMEOUT (R180). A bedrock fetch that has not arrived within 20 ms is tried from the deputy, or fails and leaves the granule poisoned. -/
  | bedrockFetchTimeout (granule : Nat)
  /-- BEDROCK_SUPPLY (R180). A write of HBM_BR_SUPPLY hands the hub a driver-supplied block, which is checked and rewritten. -/
  | bedrockSupply (v : DWord)
  /-- BEDROCK_SUPPLY_TIMEOUT (R180). In host-assisted mode, when no block has passed 1 s after poisoning, the parked reads get POISON and the hub fetches the granule itself. -/
  | bedrockSupplyTimeout (granule : Nat)
  /-- HBM_COMMIT (R182). A write of 1 to HBM_COMMIT commits HBM_CFG at once after the range checks. -/
  | hbmCommit (v : Word)
  /-- REG_EPOCH (R190). At each 256 ns epoch end, every controller recomputes its class limits, priority steps and budget, and applies a pending REG commit. -/
  | regEpoch (samples : List CtlSample)
  /-- REG_COMMIT (R189). A write of 1 to REG_COMMIT checks the floors and targets for admission and, if accepted, schedules the set for the next epoch boundary. -/
  | regCommit (v : Word)
  /-- CREDIT_SEND (R184). A source interface that regains a credit of the class sends a request that was waiting for it. -/
  | creditSend (cls ctl : Nat)
  /-- XLAT_INV (R206). A write of XLAT_INV commits a context's set and bumps the generations of the named segments, then waits for old transfers to drain. -/
  | xlatInv (v : Word) (internal : Bool)
  /-- INVALIDATION_DONE (R206). Once old-generation transfers have drained, the hub posts the commit's tag in last_done and sends inv_vector. -/
  | invalidationDone
  /-- FAULT_RESUME (R212). An XLAT_RESUME resume makes every agent joined to a fault record translate again and frees the record. -/
  | faultResume (index : Nat)
  /-- FAULT_ABORT (R212). An XLAT_RESUME abort handles every joined agent as in hardware mode and frees the record. -/
  | faultAbort (index : Nat)
  /-- SITE_REQUEST (R202). A chiplet's request arriving at a site port is translated through the bound context and served, or answered with an error. -/
  | siteRequest (site : SiteModule) (tag va len : Nat) (write : Bool) (data : List (Option Byte)) (poison : Bool)
  /-- DOORBELL (R223). A doorbell write delivers a new tail, which is accepted or halts the ring as tail moved backward, and carries the wake hint. -/
  | doorbell (src : BusSrc) (write : Bool) (off size : Nat) (v : Word)
  /-- DESCRIPTOR_FETCH (R219). The queue manager reads descriptors ahead of issue and translates their addresses, or halts the ring on fetch failed. -/
  | descriptorFetch (ring : Nat)
  /-- NOP (R225). A NOP descriptor completes with SUCCESS when it issues. -/
  | nop (ring : Nat)
  /-- HAMPER (R232). A HAMPER descriptor runs up to 63 sub-descriptors in order under one completion. -/
  | hamper (ring : Nat)
  /-- HAMPER_NEXT_SUB (R233). Once a sub-descriptor of a hamper completes, the next one issues, or the hamper ends on an error. -/
  | hamperNextSub (ring : Nat)
  /-- COPY (R228). A mover COPY descriptor copies bytes, optionally passing them through a CRC unit and comparing the result. -/
  | copy (ring : Nat)
  /-- FILL (R228). A mover FILL descriptor writes a repeating 8-byte pattern. -/
  | fill (ring : Nat)
  /-- WRITE_IMM (R228). A mover WRITE_IMM descriptor writes up to 32 immediate bytes once every earlier descriptor has drained. -/
  | writeImm (ring : Nat)
  /-- LEGACY_NOP (R234). A CM2 format-1 NOP on a legacy ring. -/
  | legacyNop (ring : Nat)
  /-- LEGACY_COPY (R234). A CM2 format-1 COPY on a legacy ring. -/
  | legacyCopy (ring : Nat)
  /-- LEGACY_FILL (R234). A CM2 format-1 FILL on a legacy ring. -/
  | legacyFill (ring : Nat)
  /-- MOVER_TRANSFER (R204). A mover issues the next transfer of a descriptor after a generation check, which may lead to re-translation or to STALE_GEN. -/
  | moverTransfer (ring : Nat)
  /-- DISPATCH (R229). A DISPATCH descriptor issues a kernel to a range of logical tiles, checking the tile range and any generation entry. -/
  | dispatch (ring : Nat)
  /-- DISPATCH_PLACEMENT (R230). The dispatcher places a dispatch on every tile of its range, once every tile queue has room. -/
  | dispatchPlacement (ring : Nat)
  /-- COMPLETION_WRITE (R236). Once a descriptor's writes have drained and earlier records exist, the hub writes its completion record. -/
  | completionWrite (ring : Nat)
  /-- MODERATION_TIMEOUT (R239). When mod_us has passed since the first unsignalled record, the ring's MSI-X vector is sent. -/
  | moderationTimeout (ring : Nat)
  /-- WAKE_HOLD_EXPIRY (R224). A compute ring's wake hold ends, after which its quads may sleep. -/
  | wakeHoldExpiry (ring : Nat)
  /-- QM_COMMIT (R244). A write of QM_COMMIT checks and commits one ring's set, and may enable or disable the ring. -/
  | qmCommit (v : Word)
  /-- RESTART (R221). QM_RING_CMD RESTART writes the kept records and returns a halted ring to ACTIVE. -/
  | restart (ring : Nat)
  /-- ABORT (R221). QM_RING_CMD ABORT writes the kept records, completes every unissued descriptor with ABORTED and reactivates the ring empty. -/
  | abort (ring : Nat)
  /-- CRC_DATA (R250). Feeds one range of bytes through a CRC unit, optionally starting afresh and comparing the result. -/
  | crcData (ring : Nat)
  /-- CRC_BLOCKS (R251). Checks a run of blocks, each from init with its own fold prefix, and writes or compares the values. -/
  | crcBlocks (ring : Nat)
  /-- CRC_SAVE (R252). Writes the CRC unit's 16-byte state record to memory. -/
  | crcSave (ring : Nat)
  /-- CRC_LOAD (R252). Loads a CRC unit's state from a 16-byte record. -/
  | crcLoad (ring : Nat)
  /-- CRC_UNIT_CLAIM (R248). A waiting user claims a CRC unit once the unit becomes free, and is refused if it continues another context's value. -/
  | crcUnitClaim (unit : Nat)
  /-- CRC_PARITY_ERROR (R253). A CRC unit's parity error fences the unit and ends its holder with ENGINE_LOST. -/
  | crcParityError (unit : Nat)
  /-- CRC_CTL_WRITE (R249). A BAR0 write of CRC_CTL sets the unit's owner and polynomial, or is discarded. -/
  | crcCtlWrite (src : BusSrc) (unit : Nat) (v : Word)
  /-- CRC_VAL_WRITE (R255). A BAR0 write of CRC_VAL sets the unit's running value, or is discarded. -/
  | crcValWrite (src : BusSrc) (unit : Nat) (v : DWord)
  /-- MODULE_TRAINED (R262). A site module finishes mainband training at a rate and width and enters WIDTHCHECK. -/
  | moduleTrained (n m rate repaired version : Nat)
  /-- RATE_ATTEMPT_TIMEOUT (R262). A module that has not trained within 20 ms at one rate tries the next rate, or moves down the ladder. -/
  | rateAttemptTimeout (n m : Nat) (spent : Bool)
  /-- WIDTH_CHECK_ANSWER (R264). The chiplet's width-check answer either passes the module into service or counts a mismatch and retrains the module. -/
  | widthCheckAnswer (n m : Nat) (half : Bool) (rate version : Nat) (lanesMatch : Bool)
  /-- WIDTH_CHECK_TIMEOUT (R264). A width-check answer later than 20 µs counts as a mismatch. -/
  | widthCheckTimeout (n m : Nat)
  /-- MODULE_RETRAIN (R265). A module past its replay limit, or with a flit failing three replays, retrains and goes down the recovery ladder. -/
  | moduleRetrain (n m replays crcErrors : Nat) (third : Bool)
  /-- MODULE_LINK_DOWN (R265). A module's UCIe link goes down, or its mainband clock stops without L1, and the module retrains. -/
  | moduleLinkDown (n m : Nat)
  /-- SPREAD_ANSWER (R259). The chiplet answers SPREAD with the epoch; open transactions are re-issued and the held entries released. -/
  | spreadAnswer (n epoch : Nat)
  /-- SPREAD_TIMEOUT (R259). An unanswered SPREAD is re-sent, and after the third silence the site is fenced with cause sideband timeout. -/
  | spreadTimeout (n : Nat)
  /-- ENTRY_LEND (R260). Spread entries held for 150 µs are lent to the least-loaded in-service logical module. -/
  | entryLend (n m : Nat)
  /-- MODULE_L1_ENTRY (R268). A module idle for 10 µs with l1_enable set enters L1. -/
  | moduleL1Entry (n m : Nat)
  /-- SITE_REC_RETRY (R269). SITE_REC_CMD RETRY retries the pending module's recovery step. -/
  | siteRecRetry (n m : Nat)
  /-- SITE_REC_SPARE (R269). SITE_REC_CMD SPARE moves the pending logical module to the spare module. -/
  | siteRecSpare (n m : Nat)
  /-- SITE_REC_HALF (R269). SITE_REC_CMD HALF retrains the pending module at half width. -/
  | siteRecHalf (n m : Nat)
  /-- SITE_REC_RETIRE (R269). SITE_REC_CMD RETIRE retires the pending module. -/
  | siteRecRetire (n m : Nat)
  /-- SITE_REC_RETRAIN (R269). SITE_REC_CMD RETRAIN retrains an ACTIVE or L1 module with a fresh rate search. -/
  | siteRecRetrain (n m : Nat)
  /-- SITE_AWAIT_TIMEOUT (R269). A site module left in AWAIT for 100 ms without a valid choice takes the hardware-mode step. -/
  | siteAwaitTimeout (n m : Nat)
  /-- SB_READ (R272). A go write with write clear starts a sideband mailbox read of the chiplet's register space. -/
  | sbRead (n : Nat) (size8 : Bool)
  /-- SB_WRITE (R272). A go write with write set starts a sideband mailbox write into the chiplet's register space. -/
  | sbWrite (n : Nat) (size8 : Bool)
  /-- SB_RESPONSE (R272). The chiplet's answer ends a sideband mailbox access and clears busy. -/
  | sbResponse (n : Nat) (refused : Bool) (data : DWord)
  /-- RDSHARED (R280). A chiplet RdShared is served by the home with Data E or S after any snoops. -/
  | rdshared (site : Nat) (m : SysMsg)
  /-- RDOWN (R280). A chiplet RdOwn invalidates every other holder and grants Data M. -/
  | rdown (site : Nat) (m : SysMsg)
  /-- UPGRADE (R280). A chiplet Upgrade invalidates every other holder and grants M. -/
  | upgrade (site : Nat) (m : SysMsg)
  /-- RDCURR (R280). A chiplet RdCurr returns the current data without granting a state. -/
  | rdcurr (site : Nat) (m : SysMsg)
  /-- WRLINE (R280). A chiplet WrLine invalidates every holder and writes the line. -/
  | wrline (site : Nat) (m : SysMsg) (bytes : List Byte) (poison : Bool)
  /-- WRPARTIAL (R280). A chiplet WrPartial invalidates every holder and merges its masked bytes. -/
  | wrpartial (site : Nat) (m : SysMsg) (bytes : List (Option Byte)) (poison : Bool)
  /-- WBDIRTY (R280). A chiplet WbDirty writes the line back, or is acknowledged stale. -/
  | wbdirty (site : Nat) (m : SysMsg) (bytes : List Byte) (poison : Bool)
  /-- EVICTCLEAN (R280). A chiplet EvictClean drops its filter entry. -/
  | evictclean (site : Nat) (m : SysMsg)
  /-- SYSTINI_ACK (R283). A chiplet's Ack ends a grant transaction and unblocks the line. -/
  | systiniAck (site : Nat) (m : SysMsg)
  /-- SNPRSP (R281). A chiplet's snoop response gives its state, with data if it has them, to the waiting home transaction. -/
  | snprsp (site : Nat) (m : SysMsg) (state : Nat) (data : Option (List Byte)) (poison : Bool)
  /-- APRSP (R279). A chiplet's response to a hub aperture read or write completes that access. -/
  | aprsp (site : Nat) (m : SysMsg) (data : List Byte) (poison : Bool)
  /-- CXL_RDSHARED (R285). A CXL.cache RdShared is served as RdShared with GO-S. -/
  | cxlRdshared (site : Nat) (m : SysMsg)
  /-- CXL_RDANY (R285). A CXL.cache RdAny is served as RdShared with GO-E or GO-S. -/
  | cxlRdany (site : Nat) (m : SysMsg)
  /-- CXL_RDOWN (R285). A CXL.cache RdOwn is served as RdOwn. -/
  | cxlRdown (site : Nat) (m : SysMsg)
  /-- CXL_RDOWNNODATA (R285). A CXL.cache RdOwnNoData is served as Upgrade with GO-E. -/
  | cxlRdownnodata (site : Nat) (m : SysMsg)
  /-- CXL_RDCURR (R285). A CXL.cache RdCurr is served as RdCurr with GO-I. -/
  | cxlRdcurr (site : Nat) (m : SysMsg)
  /-- CXL_WRINV (R285). A CXL.cache WrInv is served as WrLine with GO-I. -/
  | cxlWrinv (site : Nat) (m : SysMsg) (bytes : List Byte) (poison : Bool)
  /-- CXL_CLEANEVICT (R285). A CXL.cache CleanEvict or CleanEvictNoData is served as EvictClean. -/
  | cxlCleanevict (site : Nat) (m : SysMsg)
  /-- CXL_DIRTYEVICT (R285). A CXL.cache DirtyEvict is served as WbDirty by GO-WritePull. -/
  | cxlDirtyevict (site : Nat) (m : SysMsg) (bytes : List Byte) (poison : Bool)
  /-- CXL_CLFLUSH (R285). A CXL.cache CLFlush invalidates the chiplet's own copy through the home. -/
  | cxlClflush (site : Nat) (m : SysMsg)
  /-- SNOOP_LIMIT_EXPIRY (R284). A missing SnpRsp at snoop_limit_us drops the entry, poisoning the line if it was held X or O. -/
  | snoopLimitExpiry (site tag : Nat)
  /-- ACK_LIMIT_EXPIRY (R284). A missing Ack at snoop_limit_us is treated as acknowledged. -/
  | ackLimitExpiry (site tag : Nat)
  /-- COH_COMMIT (R290). A write of 1 to COH_COMMIT commits COH_CFG at once. -/
  | cohCommit (v : Word)
  /-- CONFIG_REQUEST (R294). A PCIe configuration request is answered, or gets Request Retry Status before HUB_READY. -/
  | configRequest (write : Bool) (off : Nat) (v : Word)
  /-- BAR4_ACCESS (R298). A host BAR4 request is split into lines and mapped through the window table to the hub address space. -/
  | bar4Access (tag b len : Nat) (write : Bool) (data : List (Option Byte)) (tee : Option Nat)
  /-- UNSUPPORTED_REQUEST (R296). An inbound AtomicOp, I/O request or unexpected message is answered as Unsupported Request. -/
  | unsupportedRequest (off : Nat)
  /-- OUTBOUND_COMPLETION (R300). A host completion to an outbound read delivers its data, poisons the sectors, or ends with HOST_ERROR. -/
  | outboundCompletion (tag : Nat) (ok poison : Bool) (data : List Byte)
  /-- OUTBOUND_TIMEOUT (R300). An outbound read with no completion within cto_ms completes with HOST_ERROR. -/
  | outboundTimeout (tag : Nat)
  /-- KEEPALIVE_TIMER (R300). Every 50 µs, a waiting outbound or peer transfer sends a keep-alive flit that restarts its NoC timer. -/
  | keepaliveTimer
  /-- MSIX_UNMASK (R302). Unmasking an MSI-X vector with its pending bit set sends the message once. -/
  | msixUnmask (vector : Nat)
  /-- L0P_ENTRY (R303). Low traffic for 100 µs moves the host link to L0p at x8. -/
  | l0pEntry
  /-- L0P_EXIT (R303). Traffic above 60 % of x8 returns the host link to full width. -/
  | l0pExit
  /-- LINK_L1_ENTRY (R303). A host link idle for l1_idle_us enters L1. -/
  | linkL1Entry
  /-- L12_ENTRY (R303). A host link in L1 for 100 µs enters L1.2. -/
  | l12Entry
  /-- LINK_STATE_EXIT (R303). A TLP to send brings the host link out of L1 or L1.2. -/
  | linkStateExit
  /-- D3HOT_ENTRY (R304). Entry to D3hot stops ring fetching and lets idle quads sleep. -/
  | d3hotEntry
  /-- D0_RETURN (R304). The return from D3hot to D0 resumes fetching, and WAKE_N is released. -/
  | d0Return
  /-- FLR (R306). A function level reset resets the function, drops the IDE keys, ends outbound requests and runs a blanket. -/
  | flr
  /-- HOT_RESET (R306). A hot reset resets the function and runs a blanket. -/
  | hotReset
  /-- LINK_DISABLE (R306). A link disable resets the function and runs a blanket. -/
  | linkDisable
  /-- LINK_LOSS (R306). A host link loss not caused by PERST_N resets the function and runs a blanket. -/
  | linkLoss
  /-- LINK_RETRAINED (R306). The host link retrains with its partner, and link_up returns to 1. -/
  | linkRetrained (speed width : Nat) (flit : Bool)
  /-- GET_VERSION (R308). SPDM GET_VERSION request to the endpoint responder. -/
  | getVersion
  /-- GET_CAPABILITIES (R308). SPDM GET_CAPABILITIES request. -/
  | getCapabilities
  /-- NEGOTIATE_ALGORITHMS (R308). SPDM NEGOTIATE_ALGORITHMS request. -/
  | negotiateAlgorithms
  /-- GET_DIGESTS (R308). SPDM GET_DIGESTS request. -/
  | getDigests
  /-- GET_CERTIFICATE (R308). SPDM GET_CERTIFICATE request returning the DeviceID chain. -/
  | getCertificate
  /-- CHALLENGE (R308). SPDM CHALLENGE request signed with the device identity key. -/
  | challenge (nonce : Nat)
  /-- GET_MEASUREMENTS (R308). SPDM GET_MEASUREMENTS request returning measurement blocks 1 to 6. -/
  | getMeasurements (index nonce : Nat)
  /-- KEY_EXCHANGE (R308). SPDM KEY_EXCHANGE request opening a secured session. -/
  | keyExchange (share : Nat)
  /-- FINISH (R308). SPDM FINISH request completing session setup. -/
  | finish (genuine : Bool)
  /-- KEY_UPDATE (R308). SPDM KEY_UPDATE request. -/
  | keyUpdate
  /-- HEARTBEAT (R308). SPDM HEARTBEAT request. -/
  | heartbeat
  /-- END_SESSION (R308). SPDM END_SESSION request. -/
  | endSession
  /-- KEY_SET (R443). A vendor-defined SPDM KEY_SET loads a tenant fabric slot after any drain. -/
  | keySet (slot key : Nat)
  /-- KEY_CLEAR (R443). A vendor-defined SPDM KEY_CLEAR empties a tenant fabric slot. -/
  | keyClear (slot : Nat)
  /-- IDE_KM_PROGRAM (R309). IDE_KM messages program the keys of a selective IDE stream. -/
  | ideKmProgram (stream key : Nat)
  /-- IDE_TLP_FAILURE (R309). A TLP failing its IDE check or arriving out of sequence is discarded, makes its stream insecure and sends the interface to ERROR. -/
  | ideTlpFailure (stream : Nat)
  /-- LOCK_INTERFACE (R447). TDISP LOCK_INTERFACE, accepted after a blanket, re-attests the sites and moves the interface to CONFIG_LOCKED. -/
  | lockInterface
  /-- START_INTERFACE (R310). TDISP START_INTERFACE moves the interface to RUN. -/
  | startInterface
  /-- STOP_INTERFACE (R311). TDISP STOP_INTERFACE runs a blanket and returns the interface to CONFIG_UNLOCKED. -/
  | stopInterface
  /-- HOST_COMMIT (R312). A write of 1 to HOST_COMMIT checks and commits HOST_CFG and the window and outbound tables. -/
  | hostCommit (v : Word)
  /-- PORT_TRAINED (R314). A Teurn port finishes training, learns its neighbour and goes UP. -/
  | portTrained (port neighbour version : Nat)
  /-- PORT_TRAINING_MISMATCH (R313). Every 1 s, a port whose partner runs another mode, or is its own package, posts an event. -/
  | portTrainingMismatch (port : Nat)
  /-- PORT_RETRAIN (R315). A Teurn port past retry_limit resends, with a block failing three resends or with lanes losing lock, starts a retrain. -/
  | portRetrain (port : Nat)
  /-- PORT_RETRAIN_RESULT (R315). A port retrain ends: the port goes UP, falls back to x4, goes DOWN, or enters AWAIT. -/
  | portRetrainResult (port : Nat) (ok : Bool)
  /-- PORT_REC_RETRY (R315). FAB_PORT_REC RETRY retries the failed port step. -/
  | portRecRetry (port : Nat)
  /-- PORT_REC_HALF (R315). FAB_PORT_REC HALF retrains the port at x4. -/
  | portRecHalf (port : Nat)
  /-- PORT_REC_DOWN (R315). FAB_PORT_REC DOWN takes the port DOWN. -/
  | portRecDown (port : Nat)
  /-- PORT_AWAIT_TIMEOUT (R315). A port left in AWAIT for 100 ms takes the hardware-mode step. -/
  | portAwaitTimeout (port : Nat)
  /-- LINK_BLOCK_RECEIVE (R317). A Teurn link block is checked for CRC and sequence, then accepted, discarded or NAKed, and acks and credits are processed. -/
  | linkBlockReceive (port : Nat) (b : LinkBlock) (crcOk : Bool)
  /-- LINK_RESEND_TIMER (R317). A link block unacknowledged for 2 µs is resent together with all later blocks. -/
  | linkResendTimer (port : Nat)
  /-- WRITE (R326). An arriving fabric WRITE message is checked against its connection and performed in sequence order. -/
  | write (h : FabHdr) (bytes : List Byte)
  /-- READ (R326). An arriving fabric READ message is checked and answered with READ_RSP. -/
  | read (h : FabHdr) (len : Nat)
  /-- ATOMIC (R326). An arriving fabric ATOMIC message is checked, performed and answered with ATOMIC_RSP. -/
  | atomic (h : FabHdr) (kind a b : Nat)
  /-- READ_RSP (R325). An arriving READ_RSP delivers read data, poison or err to the requester. -/
  | readRsp (h : FabHdr) (bytes : List Byte)
  /-- ATOMIC_RSP (R325). An arriving ATOMIC_RSP completes the requester's atomic. -/
  | atomicRsp (h : FabHdr) (old : Nat)
  /-- ACK (R325). An arriving fabric ACK retires the acknowledged sequenced messages. -/
  | ack (h : FabHdr) (ack : Nat)
  /-- ACK_TIMER (R325). 1 µs after the first unacknowledged performed message, the receiver sends ACK. -/
  | ackTimer (conn : Nat)
  /-- MSG_RESEND_TIMER (R325). A message unacknowledged for 100 µs is resent with all later messages, on a new flow. -/
  | msgResendTimer (conn : Nat)
  /-- OPEN (R323). An arriving OPEN is answered with OPEN_ACK when a matching enabled entry exists, and the session key is derived. -/
  | openMsg (src index slot nonce : Nat)
  /-- OPEN_ACK (R323). An arriving OPEN_ACK derives the session key and moves the connection to OPEN. -/
  | openAck (conn src index nonce : Nat)
  /-- OPEN_RETRY_TIMER (R327). A connection that is opening or BROKEN sends OPEN again on its retry timer. -/
  | openRetryTimer (conn : Nat)
  /-- CLOSE (R328). An arriving CLOSE ends the peer's unfinished transfers with PEER_UNREACHABLE and moves the entry to CLOSED. -/
  | close (h : FabHdr)
  /-- REKEY (R323). An arriving REKEY derives a fresh session key for later messages. -/
  | rekey (h : FabHdr) (nonce : Nat)
  /-- REKEY_THRESHOLD (R323). A direction nearing 2^32 messages under one key sends REKEY. -/
  | rekeyThreshold (conn : Nat)
  /-- SESSION_LIMIT_V1 (R337). A version-1 connection nearing 2^32 messages drains, closes and reopens with a new key. -/
  | sessionLimitV1 (conn : Nat)
  /-- PEER_LIMIT_EXPIRY (R327). A message unacknowledged for peer_limit_ms makes the connection BROKEN and fails its transfers with PEER_UNREACHABLE. -/
  | peerLimitExpiry (conn : Nat)
  /-- CAIRN_SEND (R330). Every 10 ms, the package sends its cairn with a freshly worked-out health code. -/
  | cairnSend
  /-- CAIRN (R330). An arriving cairn is accepted, updating roles, liveness, the roster check, wake and slow-member extensions. -/
  | cairn (h : FabHdr) (c : Cairn)
  /-- MEMBER_SILENT (R330). A member silent for 31 ms is marked lost and reported, and LOST is sent. -/
  | memberSilent (member : Nat)
  /-- DEPUTY_CLAIM (R334). A deputy that finds its manager silent claims the role at epoch + 1 and names a new deputy. -/
  | deputyClaim
  /-- WORKER_CLAIM_TIMER (R334). A worker m with no kind-2 cairn for 60 + 10m ms claims the manager role. -/
  | workerClaimTimer
  /-- TOP_CLAIM_TIMER (R336). A group manager whose top manager and top deputy are both silent claims the top role after its staggered delay. -/
  | topClaimTimer
  /-- MANAGER_LISTEN_EXPIRY (R329). At bring-up, manager_member claims at epoch 1 after 31 ms with no manager cairn heard. -/
  | managerListenExpiry
  /-- CLAIM (R335). An arriving CLAIM is followed when its epoch wins and the claimant is enrolled. -/
  | claim (h : FabHdr) (top : Bool) (epoch deputy : Nat)
  /-- JOIN (R332). An arriving JOIN is checked against the roster, and the joiner is admitted in its role or quarantined. -/
  | join (src nonce : Nat) (id : Identity) (roster : List RosterEntry)
  /-- JOIN_ACK (R332). An arriving JOIN_ACK delivers the epoch, roles, roster digest and management keys. -/
  | joinAck (src : Nat) (top : Bool) (epoch manager deputy : Nat) (quarantined : Bool) (roster groupKey : Nat) (sysKey : Option Nat)
  /-- JOIN_RETRY (R332). An unanswered JOIN is re-sent every 100 ms. -/
  | joinRetry
  /-- ROSTER (R331). A roster fetch or reply over a firmware connection updates a member's roster copy. -/
  | roster (h : FabHdr) (reply : Option (List RosterEntry))
  /-- MAP (R321). An arriving fabric map message updates the fabric map from which routes are computed. -/
  | map (h : FabHdr) (groupLevel : Bool) (lists : List (Nat × List Nat))
  /-- FWD_RECOMPUTE (R321). After a fabric map change, firmware computes and writes the forwarding entries. -/
  | fwdRecompute
  /-- FAB_COMMIT (R338). A write of 1 to FAB_COMMIT checks and commits FAB_CFG, the connection entries and the port modes. -/
  | fabCommit (v : Word)
  /-- ALLREDUCE (R343). Collective ALLREDUCE over the communicator's ranks. -/
  | allreduce (ring : Nat)
  /-- REDUCE_SCATTER (R343). Collective REDUCE_SCATTER, in which each rank keeps its own reduced piece. -/
  | reduceScatter (ring : Nat)
  /-- ALLGATHER (R343). Collective ALLGATHER of every rank's piece. -/
  | allgather (ring : Nat)
  /-- BROADCAST (R343). Collective BROADCAST from the root rank. -/
  | broadcast (ring : Nat)
  /-- BARRIER (R341). Collective BARRIER, which completes when every member has issued it. -/
  | barrier (ring : Nat)
  /-- READY (R346). An arriving READY grants credit and is matched to an open collective or held in the READY table. -/
  | ready (h : FabHdr) (comm cseq step credit op count fmt redop xsExp root : Nat)
  /-- DATA (R346). Arriving collective DATA is reduced or stored within credit and advances the collective's step. -/
  | data (h : FabHdr) (comm cseq step offset : Nat) (data : List Byte)
  /-- COLL_ABORT (R351). An arriving collective ABORT completes the local collective with MEMBER_LOST. -/
  | collAbort (h : FabHdr) (comm cseq status device rank : Nat)
  /-- EXTEND (R350). An arriving EXTEND adds a slow member's delay to the deadlines of the matching collectives, at most once per cairn seq. -/
  | extend (h : FabHdr) (device delay cairnSeq : Nat)
  /-- LOST (R352). An arriving LOST fails every open collective that names the lost member. -/
  | lost (h : FabHdr) (device : Nat)
  /-- STEP (R348). An arriving STEP message from the manager releases a waiting collective step. -/
  | step (h : FabHdr) (comm cseq engine slot : Nat)
  /-- COLL_STEP (R348). A write of COLL_STEP releases a slot's waiting step in host-assisted mode. -/
  | collStep (v : Word)
  /-- COLL_DEADLINE (R351). A collective whose deadline passes completes with COLL_TIMEOUT and sends ABORT. -/
  | collDeadline (engine slot : Nat)
  /-- COLL_ENGINE_PARITY (R351). A collective engine's parity error fences the engine and ends its collectives with ENGINE_LOST. -/
  | collEngineParity (engine : Nat)
  /-- MIRROR_SET (R353). Installs a mirror entry over a local region and a buddy area. -/
  | mirrorSet (ring : Nat)
  /-- MIRROR_SYNC (R355). Copies every dirty block into the open half, writes the trailer and flips the half. -/
  | mirrorSync (ring : Nat)
  /-- MIRROR_CLEAR (R353). Frees a mirror entry once its writes have drained. -/
  | mirrorClear (ring : Nat)
  /-- MIRROR_BLOCK_COPY (R354). When capacity allows, an engine copies a dirty 64 KiB block into the open half. -/
  | mirrorBlockCopy (entry : Nat)
  /-- COLL_COMMIT (R357). A write of 1 to COLL_COMMIT commits COLL_CFG at once. -/
  | collCommit (v : Word)
  /-- STREAM_FRAME (R359). A frame arriving on a stream port is checked and matched to a flow, then written to the spill ring or dropped with its gap accounting. -/
  | streamFrame (port : Nat) (frame : StreamFrame)
  /-- END_OF_FLOW_FRAME (R365). An end-of-flow frame closes a learned flow, or is only taken for its seq on an installed flow. -/
  | endOfFlowFrame (port : Nat) (frame : StreamFrame)
  /-- ARP_REQUEST (R358). An ARP request for a stream port's address is answered. -/
  | arpRequest (port addr : Nat)
  /-- NEIGHBOR_SOLICITATION (R358). An IPv6 neighbour solicitation for the port's address is answered with an advertisement. -/
  | neighborSolicitation (port addr : Nat)
  /-- STREAM_PORT_LINK (R358). A stream port's link comes up or drops, which starts or stops its frame reception. -/
  | streamPortLink (port : Nat) (up : Bool)
  /-- SPILL_WRITE_ACK (R368). Once a record's earlier writes are acknowledged, the port writes the record header. -/
  | spillWriteAck (flow : Nat)
  /-- INBOX_DELIVERY (R372). The ingest unit copies a frame record into the next inbox slot of a filter tile, or counts it undelivered. -/
  | inboxDelivery (flow : Nat)
  /-- DECISION_WORD (R373). A decision word forwarded from the decision array is taken for its undecided record, or counted stale or late. -/
  | decisionWord
  /-- DECISION_CUTOFF (R374). At a record's cutoff, the decision is issued, as the flow's default if none arrived. -/
  | decisionCutoff (flow : Nat)
  /-- FLOW_IDLE_TIMEOUT (R365). A learned flow without a frame for idle_ms enters CLOSING. -/
  | flowIdleTimeout (flow : Nat)
  /-- INSTALL (R362). STRM_CTX_CMD INSTALL checks an entry image and installs a flow or generation entry. -/
  | install (src : BusSrc)
  /-- FREE (R362). STRM_CTX_CMD FREE frees an entry, sending a flow into CLOSING. -/
  | free (src : BusSrc)
  /-- CTX_READ (R379). STRM_CTX_CMD READ copies an entry into STRM_CTX_DATA0–7. -/
  | ctxRead (src : BusSrc)
  /-- STRM_RELEASE (R377). Moves a flow's head, releasing records and freeing slots. -/
  | strmRelease (ring : Nat)
  /-- STRM_WATCH (R377). Completes once every record before the target has been decided, reporting lost and defaulted counts. -/
  | strmWatch (ring : Nat)
  /-- STRM_COMMIT (R379). A write of 1 to STRM_COMMIT checks and commits the templates and port configurations. -/
  | strmCommit (v : Word)
  /-- STREAM_ENGINE_PARITY (R378). A stream engine parity error fences the engine, halts the stream rings and posts a fatal event. -/
  | streamEngineParity
  /-- PPS_IN_EDGE (R383). A PPS_IN edge is stamped, and when accepted it runs the servo or acquisition. -/
  | ppsInEdge (falling : Bool) (age : Nat)
  /-- PPS_LOSS_TIMEOUT (R383). 1.5 s without an accepted PPS edge sends the manager to HOLDOVER. -/
  | ppsLossTimeout
  /-- TIME_EXCHANGE_TIMER (R386). Every 10 ms, a package sends TIME_REQ to its parent. -/
  | timeExchangeTimer
  /-- TIME_REQ (R386). An arriving TIME_REQ is stamped and answered with TIME_RSP. -/
  | timeReq (port t1 : Nat) (authentic : Bool)
  /-- TIME_RSP (R386). An arriving TIME_RSP yields the offset and path delay to the parent. -/
  | timeRsp (port t1 t2 t3 : Nat) (offset : DWord) (state hops : Nat) (authentic : Bool)
  /-- PARENT_SERVO_UPDATE (R383). Every 100 ms, the servo corrects the rate from the best recent parent exchange. -/
  | parentServoUpdate
  /-- PARENT_RESELECT (R382). After a fabric map change, firmware chooses the time parent again. -/
  | parentReselect
  /-- SYSREF_LOSS (R385). Loss of SYSREF switches the counter to the always-on clock, stops the site clocks and holds the PLLs. -/
  | sysrefLoss
  /-- SYSREF_RETURN (R385). On SYSREF's return, the PLLs relock and the counter enters HOLDOVER without a step. -/
  | sysrefReturn
  /-- TIME_STEER (R388). A write of TIME_STEER in host-assisted mode sets the counter rate. -/
  | timeSteer (v : DWord)
  /-- STEER_TIMEOUT (R388). 1 s without a steering write puts the counter into holdover at its last rate. -/
  | steerTimeout
  /-- TIME_SEC_NEXT (R384). A firmware write of TIME_SEC_NEXT arms the seconds for the next step. -/
  | timeSecNext (src : BusSrc) (v : Word)
  /-- TIME_COMMIT (R394). Firmware commits TIME_CFG and TIME_TOUT_CFG at once. -/
  | timeCommit (src : BusSrc) (v : Word)
  /-- TRIG_IN_EDGE (R390). An enabled TRIG_IN edge is stamped into its FIFO, or counted as an overflow. -/
  | trigInEdge (k : Nat) (falling : Bool)
  /-- TIN_POP (R390). A read of the low half of TIME_TIN_TS pops the oldest stamp. -/
  | tinPop (k : Nat)
  /-- TOUT_SCHEDULE (R391). A write of TIME_TOUT_SCHED queues a driver edge on TRIG_OUT, or counts it late. -/
  | toutSchedule (o : Nat) (v : DWord)
  /-- TRIG_OUT_EDGE (R391). At a queued edge's due time, the output is driven active for pulse_ns. -/
  | trigOutEdge (o : Nat)
  /-- PPS_OUT_PULSE (R392). At every second boundary of the counter, PPS_OUT goes active for pps_out_ms. -/
  | ppsOutPulse
  /-- QUAD_SLEEP (R398). A quad idle for sleep_idle_us stops its PLL and enters ASLEEP. -/
  | quadSleep (quad : Nat)
  /-- QUAD_WAKE_REQUEST (R399). A wake request starts a sleeping quad's PLL, within the limit of 16 starts per µs. -/
  | quadWakeRequest (quad : Nat)
  /-- QUAD_PLL_LOCK (R399). A quad PLL locks and the quad runs, releasing its waiting work and accesses. -/
  | quadPllLock (quad : Nat)
  /-- QUAD_PLL_LOCK_TIMEOUT (R400). A quad PLL not locked after 7 µs is restarted once, and after a second failure the quad is fenced. -/
  | quadPllLockTimeout (quad : Nat)
  /-- REGISTER_PATH_TIMEOUT (R403). A host register access to a fenced or unwoken domain completes at 50 µs with all ones. -/
  | registerPathTimeout
  /-- RAIL_TELEMETRY (R404). Every 1 ms, firmware reads the hub rails' telemetry. -/
  | railTelemetry (hubW pkgW uj : Nat)
  /-- CAPPING_PERIOD (R407). At each capping period end, the loop adjusts the tile clock and applies a pending PWR commit or set point. -/
  | cappingPeriod (p : Nat)
  /-- PWR_SETPOINT (R408). A write of PWR_SETPOINT sets the host-assisted clock for the end of the period. -/
  | pwrSetpoint (v : Word)
  /-- CAPPING_FALLBACK (R408). When two capping periods end without a set point, firmware's loop takes over capping. -/
  | cappingFallback
  /-- PWR_COMMIT (R414). A write of 1 to PWR_COMMIT checks the envelope and control set and schedules it for the end of the period. -/
  | pwrCommit (v : Word)
  /-- PWRBRAKE_ASSERT (R409). PWRBRAKE_N going low divides every running quad's clock by 4 within 1 µs. -/
  | pwrbrakeAssert
  /-- PWRBRAKE_RELEASE (R409). 100 µs after PWRBRAKE_N has gone high, the divider is removed. -/
  | pwrbrakeRelease
  /-- DIE_TEMP_READ (R410). Every 1 ms, firmware reads the hub die sensors and applies the die thresholds. -/
  | dieTempRead (hubC : Nat)
  /-- SAG_DETECT (R412). VAON or V1P8 below its sag threshold for 100 ns puts the hub in sag. -/
  | sagDetect (vaon v1p8 : Bool)
  /-- SAG_END (R412). After 10 ms above the clear levels, the sag ends and the buffered MRAM records are written. -/
  | sagEnd
  /-- RAIL_OUT_OF_RANGE (R497). A main rail out of range for 10 µs posts a kind 0x0D event. -/
  | railOutOfRange (rail : Nat)
  /-- PALERT_ASSERT (R500). PALERT_N going low makes firmware read every regulator's STATUS. -/
  | palertAssert (status : List Nat)
  /-- VAON_POWER_ON (R438). At VAON power-on, the boot ROM checks the life cycle, derives the identity and runs the best valid firmware copy. -/
  | vaonPowerOn (maddr : Nat)
  /-- PERST_N_ASSERT (R417). Asserting PERST_N resets everything outside the always-on domain and stops any bring-up. -/
  | perstNAssert
  /-- PERST_N_RELEASE (R418). Releasing PERST_N starts the bring-up timeline. -/
  | perstNRelease (rails : RailReport) (sysref late : Bool)
  /-- ROUTE_FLINT_END (R418). At 20 ms, router and link flint ends and firmware commits the route tables. -/
  | routeFlintEnd (nocPll : Bool) (routers links segments dead : List Nat)
  /-- TILE_FLINT_END (R420). At 90 ms, tile flint ends and every tile without a passing verdict is marked failed. -/
  | tileFlintEnd (failed : List Nat) (corrected : List (Nat × Nat)) (plls movers crcs colls : List Nat) (strm core : Bool)
  /-- STACK_TRAINING_END (R418). At 150 ms, stack training and controller flint end, and failed stacks are absent. -/
  | stackTrainingEnd (absent failed : List Nat)
  /-- CLUSTER_BINDING (R423). Firmware enables clusters, binds tiles and distributes the logical-to-physical map. -/
  | clusterBinding
  /-- HUB_READY_SET (R426). At 400 ms, the readiness record is valid and HUB_READY is set with the outcome. -/
  | hubReadySet (readyMs : Nat)
  /-- BLANKET (R450). The operator's BLANKET command starts a blanket, running phase 1 rows 1 and 2. -/
  | blanket (tag : Nat)
  /-- SEC_BLANKET (R450). A driver write of go to SEC_BLANKET requests a blanket. -/
  | secBlanket (src : BusSrc) (v : Word)
  /-- BLANKET_DRAINED (R451). Once the drains of row 2 end, the blanket replaces the keys, freshens the memory, resets the sites and zeroes the SRAM. -/
  | blanketDrained
  /-- BLANKET_ATTESTED (R451). Once the sites are re-attested, the blanket performs substitutions, resets fields, rewrites the readiness record and ends phase 1. -/
  | blanketAttested
  /-- SEC_SLOT_CMD (R457). A write of SEC_SLOT_CMD empties a tenant fabric slot under R444. -/
  | secSlotCmd (src : BusSrc) (v : Word)
  /-- SLOT_DRAIN_DONE (R444). Once a slot's transfers have drained and its connections closed, the key is changed and the generations bumped. -/
  | slotDrainDone (slot : Nat)
  /-- LC_NONCE (R436). The management command LC_NONCE returns a nonce for an END_OF_LIFE request. -/
  | lcNonce (tag : Nat)
  /-- LC_EOL (R436). The management command LC_EOL checks the signed token, runs blanket phase 1 and programs END_OF_LIFE. -/
  | lcEol (tag nonce : Nat) (genuine : Bool)
  /-- SVN_COMMIT (R439). The management command SVN_COMMIT raises the fused security version counter to the running svn. -/
  | svnCommit (tag : Nat)
  /-- FW_WRITE (R438). The management command FW_WRITE writes a firmware image into the copy that is not running. -/
  | fwWrite (tag svn major minor digest : Nat) (genuine : Bool)
  /-- BEDROCK_INSTALL (R454). The management command BEDROCK_INSTALL checks a manifest and loads bedrock under a new key. -/
  | bedrockInstall (tag : Nat) (m : Manifest) (host : Option Nat)
  /-- BEDROCK_REMOVE (R455). The management command BEDROCK_REMOVE removes bedrock at the next blanket. -/
  | bedrockRemove (tag : Nat)
  /-- HEARTBEAT_LOSS (R462). The watchdog finds the management controller's heartbeat missing for 1 ms and records a fatal error. -/
  | heartbeatLoss
  /-- FATAL_PARITY (R463). A parity or state error in the queue manager or the XLAT block is a fatal error. -/
  | fatalParity (xlat : Bool)
  /-- EVENT_COALESCE_TIMER (R468). When the 1 ms window for a code and unit ends, the held occurrences are posted in the next entry. -/
  | eventCoalesceTimer (code unit : Nat)
  /-- RAS_INJECT (R478). A write of RAS_INJECT arms an error on the next read of a scratch word or memory sector, or is refused. -/
  | rasInject (v : DWord)
  /-- FATAL_CLEAR (R472). The management command FATAL_CLEAR erases fatal log entries up to a sequence number. -/
  | fatalClear (tag seq : Nat)
  /-- MGMT_READ (R506). The management READ command returns BAR0 bytes in the operator's view. -/
  | mgmtRead (tag off len : Nat)
  /-- MGMT_WRITE (R506). The management WRITE command writes RAS_ALERT or RAS_ALERT_EN and refuses every other target. -/
  | mgmtWrite (tag off : Nat) (v : Word)
  /-- EVT_ACK (R470). The management EVT_ACK command acknowledges events for the operator's reader. -/
  | evtAck (tag seq : Nat)
  /-- WAKE (R305). The management WAKE command drives WAKE_N when enabled. -/
  | wake (tag : Nat)
  /-- CONFIG (R506). The management CONFIG command stores a configuration item in the MRAM store. -/
  | config (tag item sub : Nat) (vals : List Nat)
  /-- FENCE_CLEAR (R422). The management FENCE_CLEAR command clears entries of the in-service fence list. -/
  | fenceClear (tag : Nat) (slots : List Nat)
  /-- ROSTER_CMD (R331). The management ROSTER command changes the roster on the manager. -/
  | rosterCmd (tag op m : Nat) (e : RosterEntry) (cm2 : Bool)
  /-- FLINT (R437). The management FLINT command runs flint from the boot ROM. -/
  | flint (tag : Nat) (failed : List Nat)
  /-- MGMT_RESPONSE_READ (R506). A response read returns the status and payload of the current or last management command. -/
  | mgmtResponseRead
  /-- I3C_ENTDAA (R505). I3C ENTDAA assigns the hub a dynamic address, after which it answers in I3C. -/
  | i3cEntdaa (addr : Nat)
  /-- I3C_SETDASA (R505). I3C SETDASA assigns a dynamic address from the static address. -/
  | i3cSetdasa (target addr : Nat)
  /-- I3C_RSTDAA (R505). I3C RSTDAA returns the hub to SMBus target operation. -/
  | i3cRstdaa
  /-- REGISTER_WRITE (R481). A write to a register that has no row of its own is applied field by field under its access codes, with events for discarded or reserved fields. -/
  | registerWrite (src : BusSrc) (off size : Nat) (v : DWord)
  /-- CONTROL_CORE_INSTRUCTION (R52). The control core executes one standard RV64IMAC instruction, such as a scratch load, store, atomic or CSR write of mscs, mscb or mdctl. -/
  | controlCoreInstruction (tile : Nat)
  /-- REGISTER_READ (R14). A BAR0 read captures the upper half of a 64-bit register on a lower-half read, wakes a sleeping quad on the host register path, or is refused as an Unsupported Request for a wrong size. -/
  | registerRead (src : BusSrc) (off size : Nat)
  /-- MOVER_PARITY_ERROR (R238). A mover fails its parity or state check and is fenced, and the rings it serves complete with ENGINE_LOST and halt. -/
  | moverParityError (mover : Nat)
  /-- EXPRESS_LINK_LOSS (R151). An express spine segment loses one of its links and runs at half bandwidth; losing both is a fatal package stop. -/
  | expressLinkLoss (segment : Nat)
  /-- SITE_PWREN_ASSERT (R44). 5 ms after the release of PERST_N, the hub asserts SITE_PWREN for each populated site, which enters POWERING. -/
  | sitePwrenAssert
  /-- SUBSTITUTIONS_END (R242). The tile rebinds and the cell retirement copies at a quiescent point end, and the waiting requests to the granule and the waiting fetches of the context proceed. -/
  | substitutionsEnd (ctx : Nat)
  /-- LC_TEST_TRANSITION (R434). At Burusk's request, the boot ROM moves the life cycle from BLANK to TEST or from TEST to PRODUCTION, fusing the UDS, serial, variant and debug-disable fuses. -/
  | lcTestTransition (serial : Nat) (part : Part) (quads : List Nat)
  /-- GROUP_KEY_GRACE_END (R446). 1 s after a new group management key, members stop accepting messages under the old key. -/
  | groupKeyGraceEnd
  /-- VAON_POWER_OFF (R503). VAON is lost: the always-on domain, its sag buffer and the device identity key are lost, and the outputs float. -/
  | vaonPowerOff
  deriving DecidableEq, Repr

end Sys2Proof
end

