-- ==== Sys2Proof/Decode.lean ====
section
/-! DEFINITION. Words of the opcode table. The hub is modelled as a block: spec/opcode_table.json gives its commands no bits, so no word spells one. -/
namespace Sys2Proof

/-- The command that a word of the opcode table spells: none, since no row gives bits. [DESIGN CHOICE, log 7] -/
def decodeTableWord (_nbits _w : Nat) : Option Instr := none

end Sys2Proof
end

