-- ==== Sys2Proof/Config.lean ====
section
/-! DEFINITION. What the spec leaves open: values that an implementation fixes and values that are free. Each is an opaque constant, so nothing can be proved about its value; a statement about one holds for every value. -/
namespace Sys2Proof.Config

/-- The n-th free value of a run: stands for a value the spec leaves undefined (State.free counts them). -/
opaque freeValue : Nat → BitVec 64

/-- The DRAM bank that a cell row of a pseudo-channel falls in: R157 names "a fixed order" and does not give it. -/
opaque bankOfCellRow : Nat → Nat

/-- The first of the four DRAM rows of that bank that a cell row fills (R157). -/
opaque rowOfCellRow : Nat → Nat

/-- How detail1 of a fatal entry packs the two end stops of an express segment (R463 names them and gives no layout). -/
opaque endStops : Nat → Nat → BitVec 64

/-- Soft post-package repairs that one bank can take (R169 names the resource, not its size). -/
opaque pprPerBank : Nat

/-- A choice among the results that the spec allows a vector instruction on given operands: a 1-ulp result (R70), the payload of a NaN,
a value that no rule states. Numbered by purpose and applied to the operands, so that equal operands give equal results (R103). -/
opaque vecChoice : Nat → List Nat → Nat

/-- The order in which VREDSUM pairs the lanes of a type (R71): the spec fixes one order and does not give it. -/
opaque redOrder : Nat → Nat

/-- Words of secret and cryptographic functions that the spec names but cannot give: numbered by purpose, applied to
the values they depend on. -/
opaque crypto : Nat → List Nat → Nat

/-- The flow hash that the messages of a connection start with (R316): no rule gives it. -/
opaque flowHash : Nat → Nat

/-- The core voltage in mV that the fuses of a unit give for a clock in MHz (R404 says that it is fused per unit). -/
opaque vcoreMv : Nat → Nat

/-- Whether a signature or a certificate chain verifies, by purpose, over the values signed. -/
opaque verifies : Nat → List Nat → Bool

/-- The region of the MRAM store that records of a kind lie in (R477 names 1,024 regions and no place for any record). -/
opaque mramRegion : Nat → Nat

end Sys2Proof.Config
end

