-- ==== Sys2Proof/Machine/Bits.lean ====
section
/-! DEFINITION. Bit fields, byte order and sparse tables: the plain helpers that the state and every meaning use (R6, R7). -/
namespace Sys2Proof.Machine

/-- Bits [hi:lo] of a number (R6). -/
def bits (v hi lo : Nat) : Nat := v >>> lo % 2 ^ (hi + 1 - lo)

/-- A number with bits [hi:lo] replaced (R6). -/
def putBits (v hi lo x : Nat) : Nat :=
  v - (bits v hi lo) <<< lo + (x % 2 ^ (hi + 1 - lo)) <<< lo

/-- Bit i of a number as a truth value. -/
def bit (v i : Nat) : Bool := v.testBit i

/-- A truth value as one bit. -/
def ofBool (b : Bool) : Nat := if b then 1 else 0

/-- The little-endian value of a byte list, first byte least significant (R7). -/
def leValue : List Byte → Nat
  | [] => 0
  | b :: t => b.toNat + 256 * leValue t

/-- The n little-endian bytes of a value (R7). -/
def leBytes : Nat → Nat → List Byte
  | 0, _ => []
  | n + 1, v => BitVec.ofNat 8 v :: leBytes n (v / 256)

/-- A w-bit field read as a two's complement number. -/
def signed (w v : Nat) : Int :=
  if v % 2 ^ w < 2 ^ (w - 1) then (v % 2 ^ w : Nat) else (v % 2 ^ w : Nat) - (2 ^ w : Nat)

/-- The w-bit two's complement encoding of an integer. -/
def unsigned (w : Nat) (i : Int) : Nat := (i % (2 ^ w : Nat)).toNat

/-- A counter of `w` bits that stops at its largest value (R476). -/
def satAdd (w v k : Nat) : Nat := min (v + k) (2 ^ w - 1)

/-- A field of a register: the register's BAR0 offset and the field's bits. -/
structure Fld where
  off : Nat
  hi : Nat
  lo : Nat
  deriving DecidableEq, Repr

/-- The access codes of R10 that some register of the part uses. -/
inductive Access where
  | ro | rw | wo | w1c | rwc
  deriving DecidableEq, Repr

/-- One field of a register table: bits, access code and reset value (R10, R13). -/
structure FieldDesc where
  hi : Nat
  lo : Nat
  acc : Access
  reset : Nat
  deriving DecidableEq, Repr

/-- One register table: name, BAR0 offset of its first copy, width in bits, index dimensions (count, stride) and fields. -/
structure RegDesc where
  name : String
  base : Nat
  width : Nat
  dims : List (Nat × Nat)
  fields : List FieldDesc
  deriving DecidableEq, Repr

/-- A table with few entries that differ from a default: key and entry pairs in rising key order. -/
abbrev Sparse (α : Type) := List (Nat × α)

/-- The entry under a key, or the default. -/
def Sparse.get {α : Type} (d : α) : Sparse α → Nat → α
  | [], _ => d
  | (k, v) :: t, a => if a = k then v else Sparse.get d t a

/-- The table with the entry under a key replaced. -/
def Sparse.put {α : Type} : Sparse α → Nat → α → Sparse α
  | [], a, v => [(a, v)]
  | (k, w) :: t, a, v =>
    if a < k then (a, v) :: (k, w) :: t
    else if a = k then (a, v) :: t
    else (k, w) :: Sparse.put t a v

/-- The table without the entry under a key, which then reads as the default. -/
def Sparse.del {α : Type} : Sparse α → Nat → Sparse α
  | [], _ => []
  | (k, w) :: t, a => if a = k then Sparse.del t a else (k, w) :: Sparse.del t a

/-- The table with the entry under a key changed by a function. -/
def Sparse.upd {α : Type} (d : α) (t : Sparse α) (a : Nat) (f : α → α) : Sparse α :=
  t.put a (f (t.get d a))

end Sys2Proof.Machine
end

