-- ==== Sys2Proof/Machine/Operands.lean ====
section
/-! DEFINITION. Number formats: element encodings, block scales, exact values, rounding and the encodings of results (R66, R70, R79–R84, R90, R92, R105). -/
namespace Sys2Proof.Machine

/-! ### Exact values and grids -/

/-- floor(log2) of num / den × 2^q, for a num that is not 0. -/
def floorLog2 (num den : Nat) (q : Int) : Int :=
  let l : Int := (Nat.log2 num : Int) - (Nat.log2 den : Int)
  let fits : Bool := if 0 ≤ l then decide (den * 2 ^ l.toNat ≤ num) else decide (den ≤ num * 2 ^ (-l).toNat)
  (if fits then l else l - 1) + q

/-- num / den × 2^q measured in units of 2^g: numerator and denominator. -/
def onGrid (num : Int) (den : Nat) (q g : Int) : Int × Nat :=
  if g ≤ q then (num * 2 ^ (q - g).toNat, den) else (num, den * 2 ^ (g - q).toNat)

/-- Rounding modes: nearest even, towards zero, and stochastic with the 16-bit r of R92. -/
inductive Rnd where
  | nearest
  | zero
  | stochastic (r : Nat)
  deriving DecidableEq, Repr

/-- A quotient rounded to an integer. -/
def roundQuot (m : Rnd) (num : Int) (den : Nat) : Int :=
  let f := num / (den : Int)
  let rem := (num % (den : Int)).toNat
  match m with
  | .nearest => if den < 2 * rem ∨ (2 * rem = den ∧ f % 2 ≠ 0) then f + 1 else f
  | .zero => if num < 0 ∧ rem ≠ 0 then f + 1 else f
  | .stochastic r => if 65536 ≤ rem * 65536 / den + r then f + 1 else f

/-- A binary floating-point format: mantissa bits, exponent bits, least and largest normal exponents, and the largest finite value as
k × 2^g (R79, R90, R105). -/
structure Flt where
  m : Nat
  w : Nat
  emin : Int
  maxK : Nat
  maxG : Int
  deriving DecidableEq, Repr

def fltE2m1 : Flt := { m := 1, w := 2, emin := 0, maxK := 3, maxG := 1 }
def fltE4m3 : Flt := { m := 3, w := 4, emin := -6, maxK := 14, maxG := 5 }
def fltE5m2 : Flt := { m := 2, w := 5, emin := -14, maxK := 7, maxG := 13 }
def fltBf16 : Flt := { m := 7, w := 8, emin := -126, maxK := 255, maxG := 120 }
def fltFp16 : Flt := { m := 10, w := 5, emin := -14, maxK := 2047, maxG := 5 }
def fltFp32 : Flt := { m := 23, w := 8, emin := -126, maxK := 2 ^ 24 - 1, maxG := 104 }
def fltFp64 : Flt := { m := 52, w := 11, emin := -1022, maxK := 2 ^ 53 - 1, maxG := 971 }

/-- Bits of a format. -/
def Flt.bitsOf (f : Flt) : Nat := 1 + f.w + f.m

/-- A value rounded onto a format's grid, its exponents unbounded above: k and g of k × 2^g. -/
def Flt.round (f : Flt) (m : Rnd) (num : Int) (den : Nat) (q : Int) : Int × Int :=
  if num = 0 then (0, f.emin - f.m)
  else
    let g := max (floorLog2 num.natAbs den q) f.emin - f.m
    let p := onGrid num den q g
    (roundQuot m p.1 p.2, g)

/-- Whether |k| × 2^g lies beyond a format's largest finite value. -/
def Flt.beyond (f : Flt) (k : Nat) (g : Int) : Bool :=
  if f.maxG ≤ g then decide (f.maxK < k * 2 ^ (g - f.maxG).toNat) else decide (f.maxK * 2 ^ (f.maxG - g).toNat < k)

/-- The code of k × 2^g, which the format holds. -/
def Flt.code (f : Flt) (neg : Bool) (k : Nat) (g : Int) : Nat :=
  let (k, g) := if k = 2 ^ (f.m + 1) then (2 ^ f.m, g + 1) else (k, g)
  let body := if k < 2 ^ f.m then k else (g + f.m - f.emin + 1).toNat * 2 ^ f.m + (k - 2 ^ f.m)
  body + ofBool neg * 2 ^ (f.m + f.w)

/-- The code of the largest finite value. -/
def Flt.maxCode (f : Flt) (neg : Bool) : Nat := f.code neg f.maxK f.maxG

/-- The code of infinity of an IEEE 754 format. -/
def Flt.infCode (f : Flt) (neg : Bool) : Nat := (2 ^ f.w - 1) * 2 ^ f.m + ofBool neg * 2 ^ (f.m + f.w)

/-- What a code of an IEEE 754 format means. -/
inductive FVal where
  | nan
  | inf (neg : Bool)
  | fin (neg : Bool) (m : Nat) (q : Int)
  deriving DecidableEq, Repr

/-- The sign bit of a code. -/
def Flt.negOf (f : Flt) (c : Nat) : Bool := bit c (f.m + f.w)

/-- A finite code's significand and the exponent of its last place, subnormals included. -/
def Flt.parts (f : Flt) (c : Nat) : Nat × Int :=
  let e := bits c (f.m + f.w - 1) f.m
  let x := c % 2 ^ f.m
  if e = 0 then (x, f.emin - f.m) else (2 ^ f.m + x, f.emin - f.m + (e - 1 : Nat))

/-- A code of an IEEE 754 format read. -/
def Flt.decode (f : Flt) (c : Nat) : FVal :=
  let e := bits c (f.m + f.w - 1) f.m
  if e = 2 ^ f.w - 1 then (if c % 2 ^ f.m = 0 then .inf (f.negOf c) else .nan)
  else .fin (f.negOf c) (f.parts c).1 (f.parts c).2

/-- An exact value in an IEEE 754 format, rounded to nearest even, with overflow to infinity; `neg` is the sign of a zero. -/
def Flt.encode (f : Flt) (neg : Bool) (num : Int) (den : Nat) (q : Int) : Nat :=
  if num = 0 then f.code neg 0 0
  else
    let (k, g) := f.round .nearest num den q
    if f.beyond k.natAbs g then f.infCode (decide (num < 0)) else f.code (decide (num < 0)) k.natAbs g

/-- A NaN: quiet, with a sign and payload that the spec leaves open. -/
def Flt.nanCode (f : Flt) (choice : Nat) : Nat :=
  (2 ^ f.w - 1) * 2 ^ f.m + 2 ^ (f.m - 1) + choice % 2 ^ (f.m - 1) + (choice / 2 ^ (f.m - 1)) % 2 * 2 ^ (f.m + f.w)

/-- A finite value's signed significand. -/
def signedOf (neg : Bool) (m : Nat) : Int := if neg then -(m : Int) else m

/-! ### Narrow elements (R79, R80) -/

/-- Bits of an element of a format code (R65, R79). -/
def fmtBits (c : Nat) : Nat :=
  if c < 4 then 4 else if c < 6 then 2 else if c = 6 then 1 else if c < 11 then 8 else if c < 13 then 16 else if c = 13 then 32 else 64

/-- Whether a format code is narrow, a slice format, or reserved (R65). -/
def fmtNarrow (c : Nat) : Bool := decide (c ≤ 6)
def fmtSlice (c : Nat) : Bool := decide (8 ≤ c ∧ c ≤ 14)

/-- Whether a narrow format carries block scales (R82). -/
def fmtBlock (c : Nat) : Bool := c == 2 || c == 3

/-- The integer that the multipliers use for an element: E2M1 in half units (R79). -/
def narrowInt (fmt code : Nat) : Int :=
  if fmt = 0 then signed 4 code
  else if fmt < 4 then
    let e := bits code 2 1
    let m := bits code 0 0
    signedOf (bit code 3) (if e = 0 then m else (2 + m) * 2 ^ (e - 1))
  else if fmt = 4 then signed 2 code
  else if fmt = 5 then (if code % 4 = 1 then 1 else if code % 4 = 3 then -1 else 0)
  else if code % 2 = 0 then 1 else -1

/-- The element unit as a power of two (R88): halves for E2M1. -/
def narrowUnit (fmt : Nat) : Int := if fmt = 1 ∨ fmt = 2 ∨ fmt = 3 then -1 else 0

/-- The elements packed in a byte from its least significant end (R80). -/
def unpackByte (fmt : Nat) (b : Byte) : List Nat :=
  let w := fmtBits fmt
  (List.range (8 / w)).map (fun i => b.toNat / 2 ^ (w * i) % 2 ^ w)

/-- The elements of a plane (R80). -/
def unpack (fmt : Nat) (bs : List Byte) : List Int := (bs.flatMap (unpackByte fmt)).map (narrowInt fmt)

/-! ### Block scales (R82–R84) -/

/-- The signed significand and exponent of an FP8 E4M3 scale, or none for NaN (R82, R88). -/
def e4m3Scale (c : Nat) : Option (Int × Int) :=
  if c % 128 = 127 then none
  else some (signedOf (fltE4m3.negOf c) (fltE4m3.parts c).1, (fltE4m3.parts c).2)

/-- Sixteen elements of an operand with one scale: the elements, and the element unit plus the scale as significand and exponent; `nan` when
the scale is NaN. -/
structure Gran where
  elems : List Int
  sig : Int
  exp : Int
  nan : Bool
  deriving DecidableEq, Repr

/-- Bytes of a scale record that covers k elements (R83). -/
def recordBytesOf (fmt k : Nat) : Nat := if fmt = 3 then k / 16 + 1 else if fmt = 2 then k / 32 else 0

/-- The scale of the i-th sixteen elements of an operand of k elements from its record (R82, R83). -/
def granScale (fmt k i : Nat) (rec_ : List Byte) : Option (Int × Int) :=
  let b (j : Nat) : Nat := ((rec_[j]?).getD 0).toNat
  if fmt = 2 then (if b (i / 2) = 255 then none else some (1, (b (i / 2) : Int) - 127))
  else if fmt = 3 then
    if b (k / 16) = 255 then none
    else (e4m3Scale (b i)).map (fun (p : Int × Int) => (p.1, p.2 + (b (k / 16) : Int) - 127))
  else some (1, 0)

/-- The list cut into sixteens. -/
def sixteens (n : Nat) (xs : List Int) : List (List Int) := (List.range n).map (fun i => (xs.drop (16 * i)).take 16)

/-- An operand vector of k elements as sixteens with their scales (R79–R84). -/
def granulesOf (fmt k : Nat) (elems : List Int) (rec_ : List Byte) : List Gran :=
  (sixteens (k / 16) elems).zipIdx.map (fun (p : List Int × Nat) =>
    match granScale fmt k p.2 rec_ with
    | some (g, e) => { elems := p.1, sig := g, exp := e + narrowUnit fmt, nan := false }
    | none => { elems := p.1, sig := 0, exp := 0, nan := true })

/-! ### Slices (R105–R107) -/

/-- Slices of an element of a slice format (R105). -/
def sliceCount (fmt : Nat) : Nat := if fmt ≤ 11 then 2 else if fmt = 12 then 3 else if fmt = 13 then 6 else 14

/-- The floating-point format of a slice format code other than INT8. -/
def sliceFlt (fmt : Nat) : Flt :=
  if fmt = 9 then fltE4m3 else if fmt = 10 then fltE5m2 else if fmt = 11 then fltBf16 else if fmt = 12 then fltFp16
  else if fmt = 13 then fltFp32 else fltFp64

/-- An element of a slice format: special (R108), or sign, M and q (R105). -/
inductive SliceElem where
  | special
  | num (neg : Bool) (m : Nat) (q : Int)
  deriving DecidableEq, Repr

/-- A slice-format code read (R105, R108). -/
def sliceElem (fmt c : Nat) : SliceElem :=
  if fmt = 8 then .num (decide (signed 8 c < 0)) (signed 8 c).natAbs 0
  else if fmt = 9 then (if c % 128 = 127 then .special else .num (fltE4m3.negOf c) (fltE4m3.parts c).1 (fltE4m3.parts c).2)
  else match (sliceFlt fmt).decode c with
    | .fin neg m q => .num neg m q
    | _ => .special

/-- An aligned element of a block (R107): M as sliced, its sign and its offset; a special or zero element has M 0. -/
structure SliceDigit where
  neg : Bool
  m : Nat
  off : Nat
  special : Bool
  deriving DecidableEq, Repr

/-- A block aligned to its maximum (R107): the elements and the q of offset 0. -/
def alignBlock (fmt : Nat) (xs : List SliceElem) : List SliceDigit × Int :=
  let qs := xs.filterMap (fun x => match x with | .num _ m q => if m = 0 then none else some q | .special => none)
  let qm := (qs.head?).map (fun q => qs.foldl max q) |>.getD 0
  let fp8 := fmt == 9 || fmt == 10
  (xs.map (fun x => match x with
    | .special => ({ neg := false, m := 0, off := 0, special := true } : SliceDigit)
    | .num neg m q =>
      if m = 0 then { neg := false, m := 0, off := 0, special := false }
      else
        let d := (qm - q).toNat
        if fp8 then { neg := neg, m := m * 2 ^ (3 - d % 4), off := d / 4 * 4, special := false }
        else { neg := neg, m := m, off := d, special := false }),
   if fp8 then qm - 3 else qm)

/-- The slice of rank i of an element (R106). -/
def SliceDigit.slice (d : SliceDigit) (s i : Nat) : Int := signedOf d.neg (d.m / 16 ^ (s - 1 - i) % 16)

/-- Elements of w bits from a byte list, little-endian (R7, R105). -/
def codesOf (w : Nat) (bs : List Byte) : List Nat :=
  (List.range (bs.length * 8 / w)).map (fun i => leValue ((bs.drop (i * (w / 8))).take (w / 8)))

/-! ### The rounding LFSR (R92) -/

/-- One step of the 32-bit Galois LFSR. -/
def lfsrStep (v : Nat) : Nat := if v % 2 = 1 then (v / 2) ^^^ 0x80200003 else v / 2

/-- One update: 16 steps. -/
def lfsrUpdate (v : Nat) : Nat := (List.range 16).foldl (fun x _ => lfsrStep x) v

/-- The state at dispatch start. -/
def lfsrStart (seed tile : Nat) : Nat :=
  let v := (seed ^^^ (tile * 0x00010001)) % 2 ^ 32
  if v = 0 then 1 else v

end Sys2Proof.Machine
end

