-- ==== Sys2Proof/Machine/StBase.lean ====
section
/-! DEFINITION. The records of State for events, logs, fuses, sites, memory, regulation, translation and the network. -/
namespace Sys2Proof.Machine

/-- One entry of the event log (R465). `extra` is bits [31:22] of the word at +0x10, used by kind 0x12 alone (R516). -/
structure Event where
  seq : Nat
  code : Nat
  cls : Nat
  opOnly : Bool
  ctx : Option Nat
  time : Nat
  unit : Nat
  block : Nat
  extra : Nat
  boot : Nat
  count : Nat
  detail : Nat
  deriving DecidableEq, Repr

/-- A running 1 ms window of R468 for one pair of code and unit: the occurrences held and the last of them. -/
structure EvtWindow where
  code : Nat
  unit : Nat
  held : Nat
  last : Option Event
  deriving DecidableEq, Repr

/-- One entry of the fatal log (R471); the words at +0x18 are kept packed. -/
structure FatalEntry where
  seq : Nat
  code : Nat
  boot : Nat
  time : Nat
  unit : Nat
  block : Nat
  powerOns : Nat
  status : Nat
  detail0 : Nat
  detail1 : Nat
  deriving DecidableEq, Repr

/-- The event log of the always-on domain (R465, R468, R470), the armed injection: kind and address (R478), and the operator's history of error
counts (R456, R474): what blankets and resets have cleared from each register, and the totals as the operator last saw them renewed. -/
structure EvtSt where
  slots : Sparse Event
  boot : Nat
  windows : List EvtWindow
  opAck : Nat
  inject : Option (Nat × Nat)
  past : Sparse DWord
  shown : Sparse DWord
  unsent : List Nat
  deriving DecidableEq, Repr

/-- One site's life outside its registers (R36, R39, R43, R44, R48). `overrun` is the step of R36 that runs: 0 none,
1 over the limit, 2 power-cap message sent. `opening` says that an attested site waits for the entries of its untrained modules
to be lent (R262). -/
structure SiteSt where
  pwren : Bool
  pgood : Bool
  sclk : Bool
  aperture : Bool
  overrun : Nat
  readings : List Nat
  tempReports : Nat
  tempAsked : Bool
  resetPending : Bool
  cycling : Bool
  rejoin : Bool
  opening : Bool
  sbUp : List Nat
  spdmStep : Nat
  nonce : Nat
  digest : Option Nat
  pendLimit : Option Nat
  deriving DecidableEq, Repr

/-- A site with nothing powered: its state before bring-up. -/
def SiteSt.off : SiteSt :=
  { pwren := false, pgood := false, sclk := false, aperture := false, overrun := 0, readings := [],
    tempReports := 0, tempAsked := false, resetPending := false, cycling := false, rejoin := false, opening := false,
    sbUp := [], spdmStep := 0, nonce := 0, digest := none, pendLimit := none }

/-- An owner map entry (R175). -/
structure OwnEntry where
  owner : Nat
  bedrock : Bool
  fresh : Bool
  mode : Nat
  poisoned : Bool
  withdrawn : Bool
  deriving DecidableEq, Repr

/-- A fresh granule of owner 0 in FULL-STRIPE (R177, R425). -/
def OwnEntry.reset : OwnEntry :=
  { owner := 0, bedrock := false, fresh := true, mode := 0, poisoned := false, withdrawn := false }

/-- An entry of a controller's write-combining buffer (R165): the line (address / 64), its controller, the valid
bytes by offset, and the offsets of those that came poisoned (R460). -/
structure WcbEntry where
  line : Nat
  ctl : Nat
  stream : Bool
  bytes : Sparse Byte
  bad : List Nat
  deriving DecidableEq, Repr

/-- A write held in a pseudo-channel's write queue (R163): the sector (address / 32), its bytes, class and level, and when it was queued. -/
structure WrEntry where
  sector : Nat
  bytes : List Byte
  poison : Bool
  cls : Nat
  level : Nat
  since : Nat
  deriving DecidableEq, Repr

/-- A retirement copy that runs (R171): the cell, the quarry row it goes to, and the context whose quiescent point began it. -/
structure CellCopy where
  cell : Nat
  row : Nat
  ctx : Nat
  deriving DecidableEq, Repr

/-- A running owner map command (R176). -/
structure GranOp where
  zero : Bool
  next : Nat
  last : Nat
  owner : Nat
  mode : Nat
  deriving DecidableEq, Repr

/-- The stage of a bedrock granule's repair (R180). -/
inductive BrStage where
  | manager | deputy | driver | failed
  deriving DecidableEq, Repr

/-- A bedrock granule under repair and the controller that found the error; `assist` says that it waits for the driver's block as well (R180 step 2). -/
structure BrRepair where
  granule : Nat
  ctl : Nat
  stage : BrStage
  assist : Bool
  deriving DecidableEq, Repr

/-- A DRAM row with a corrected error: which, the cell that holds it, when first (R168). -/
structure RowErr where
  row : Nat
  cell : Nat
  time : Nat
  deriving DecidableEq, Repr

/-- Whose access an outstanding request is. -/
inductive Who where
  | run (ring seq : Nat)
  | fetch (ring : Nat)
  | tile (t tag : Nat)
  | coll (engine slot : Nat)
  | mirror (n : Nat)
  | site (n tag : Nat)
  | part (id i : Nat)
  | flow (n : Nat)
  | gone (of_ : Option (Nat × Nat))
  deriving DecidableEq, Repr

/-- Stacked memory outside its registers (chapter Stacked memory). Cell keys are controller * 2^19 + cell row. `brRetry` are bedrock granules
fetched once more, `brHost` the host range that the operator named (R454), and `brHeld` repaired blocks that wait for their recall (R287). `detected` are the cells, where they lie, with an uncorrectable
sector since reset (R170), and `engPark` the reads of engines that are parked, by engine and address (R180). -/
structure HbmSt where
  mem : List Host.Cell
  poison : List Nat
  own : Sparse OwnEntry
  wcb : List WcbEntry
  wq : List WrEntry
  gran : Option GranOp
  srcWait : List MemReq
  credWait : List MemReq
  copyWait : List MemReq
  copying : List CellCopy
  rowErr : List RowErr
  rowList : List RowErr
  ppr : List Nat
  marked : List Nat
  detected : List Nat
  remap : Sparse Nat
  parked : List MemReq
  engPark : List (Who × Nat)
  repairs : List BrRepair
  brPassed : List Nat
  brRetry : List Nat
  brHost : Option Nat
  brHeld : List (Nat × List Byte)
  refusedAt : Sparse Nat
  tenantKey : Nat
  bedrockKey : Nat
  tempReads : Sparse Nat
  quarryUsed : Sparse Nat
  deriving DecidableEq, Repr

/-- Memory before bring-up: nothing written, no entry, no repair. [DESIGN CHOICE, log 2; DESIGN CHOICE, log 4] -/
def HbmSt.reset : HbmSt :=
  { mem := [], poison := [], own := [], wcb := [], wq := [], gran := none, srcWait := [], credWait := [],
    copyWait := [], copying := [], rowErr := [], rowList := [], ppr := [], marked := [], detected := [],
    remap := [], parked := [], engPark := [], repairs := [], brPassed := [], brRetry := [], brHost := none, brHeld := [], refusedAt := [], tenantKey := 0, bedrockKey := 0,
    tempReads := [], quarryUsed := [] }

/-- Regulation outside its registers (R184, R186, R190, R192). Keys are class * 16 + controller. -/
structure RegulSt where
  lats : Sparse (List (Nat × Nat))
  limits : Sparse Nat
  below : Sparse Nat
  step3Since : Sparse Nat
  latEvtAt : Sparse Nat
  lastBelow : Sparse Nat
  oversubbed : List Nat
  pend : Option (List (Nat × DWord))
  epochs : Nat
  deriving DecidableEq, Repr

/-- Regulation at reset. [DESIGN CHOICE, log 68] -/
def RegulSt.reset : RegulSt :=
  { lats := [], limits := [], below := [], step3Since := [], latEvtAt := [], lastBelow := [], oversubbed := [],
    pend := none, epochs := 0 }

/-- An agent that translates (R202, R211): a ring, or the tile DMA of a logical tile. -/
inductive Agent where
  | ring (r : Nat)
  | tile (t : Nat)
  deriving DecidableEq, Repr

/-- The kinds of access (XLAT_FAULT_INFO): read, write, atomic. -/
inductive Acc where
  | read | write | atomic
  deriving DecidableEq, Repr

/-- The code of an access. -/
def Acc.code : Acc → Nat
  | .read => 0
  | .write => 1
  | .atomic => 2

/-- Where an agent paused (R210, R212): the fault record, the descriptor's sequence, the address and the access that it translates again when the
record is resumed. -/
structure PauseAt where
  record : Nat
  seq : Nat
  va : Nat
  acc : Acc
  deriving DecidableEq, Repr

/-- A site's request that the hub has admitted and not yet answered (R206): its number, the site and its tag, and the context and segment that
translated it. -/
structure SiteReq where
  id : Nat
  site : Nat
  tag : Nat
  ctx : Nat
  seg : Nat
  deriving DecidableEq, Repr

/-- An accepted XLAT commit that waits to drain (R206 step 4): the outstanding requests issued under what it replaced, the site requests admitted
under it, and the ranges of memory whose lines it recalls (R287). -/
structure XlatPend where
  tag : Nat
  ids : List Nat
  reqs : List Nat
  ranges : List (Nat × Nat)
  deriving DecidableEq, Repr

/-- Translation outside its registers (R206, R211). -/
structure XlatSt where
  pend : List XlatPend
  joined : Sparse (List Agent)
  siteEvtAt : Sparse Nat
  siteReqs : List SiteReq
  deriving DecidableEq, Repr

/-- The virtual networks (R141). -/
inductive Vnet where
  | req | rsp | snp | bulk | mgmt | rt
  deriving DecidableEq, Repr

/-- A packet that has left the torus at its destination's router: the physical slot it was given at its source (cluster * 18 + slot, R150), the
local port it takes (R133), its virtual network (R141), its flits (R140) and the request it carries. -/
structure Packet where
  slot : Nat
  port : Nat
  vnet : Vnet
  flits : Nat
  req : MemReq
  deriving DecidableEq, Repr

/-- Committed route tables that wait for the switch-over (R151): the entries that differ from those firmware computed for the routers and links
lost at the commit, and NOC_CFG's timeout. -/
structure RouteSet where
  routes : Sparse DWord
  lost : List Nat
  links : List Nat
  timeout : Nat
  deriving DecidableEq, Repr

/-- The network outside its registers (R145, R149, R151, R154). Route keys are interface * 256 + entry. `routes` holds the
entries in force that differ from those firmware computed for the routers and links lost in `lost` and `links`; `pendLost` holds the losses known
while new routes are not yet in force. `eject` holds packets that wait for a sleeping quad, `held` requests that wait for a switch-over (R151), and
`stranded` requests whose packets the network has discarded: their sources time out (R151–R153). -/
structure NocSt where
  routed : Bool
  routes : Sparse DWord
  routesShadow : Sparse DWord
  routesPend : Option RouteSet
  lost : List Nat
  links : List Nat
  pendLost : Option (List Nat × List Nat)
  clusterMap : List Nat
  slotMap : Sparse Nat
  replays : Sparse (List Nat)
  segLost : Sparse Nat
  eject : List Packet
  held : List MemReq
  stranded : List MemReq
  deriving DecidableEq, Repr

/-- The network before bring-up. -/
def NocSt.reset : NocSt :=
  { routed := false, routes := [], routesShadow := [], routesPend := none, lost := [], links := [], pendLost := none,
    clusterMap := [], slotMap := [], replays := [], segLost := [], eject := [], held := [], stranded := [] }

/-- The duty split, substitutions and the readiness record outside their registers (R26, R29, R427): logical tiles whose
rebind waits, the logical tile count in force, whether a unit was fenced, retired, lost or withdrawn since HUB_READY, whether a fatal event has
been posted since the release of PERST_N (R513), and the
package stop of R464: 0 none, 1 stopped, 2 stopped by the watchdog. -/
structure GlbSt where
  rebindPending : List Nat
  tileCount : Nat
  worn : Bool
  failing : Bool
  armed : List Nat
  stop : Nat
  deriving DecidableEq, Repr

end Sys2Proof.Machine
end

