-- ==== Sys2Proof/Machine/StRings.lean ====
section
/-! DEFINITION. The records of State for accesses that leave an engine, rings and their descriptors, CRC units, fabric connections and the tiles' scratch. -/
namespace Sys2Proof.Machine

/-- Where a translated access goes (R197). A scratch or site target is named by its hub physical address, a host target by
its address in the outbound aperture with its key slot. -/
inductive Target where
  | mem (addr : Nat) (coherent : Bool)
  | scratch (addr : Nat)
  | site (addr : Nat)
  | host (addr slot : Nat)
  | peer (dev addr slot : Nat)
  deriving DecidableEq, Repr

/-- A byte with the poison mark that travels with it (R460). -/
abbrev PByte := Byte × Bool

/-- What became of an outstanding request. -/
inductive Answer where
  | data (bytes : List PByte)
  | done
  | error (status : Nat)
  deriving DecidableEq, Repr

/-- An outstanding request of an engine to a target outside the package's memory (R207), with the segment that
translated it and its generation, the bytes of a write, the answered lines of an access to a site's aperture (R279), and its answer once there is
one. -/
structure OutReq where
  id : Nat
  who : Who
  tgt : Target
  write : Bool
  len : Nat
  ctx : Nat
  seg : Option (Nat × Nat)
  bytes : List (Option PByte)
  lines : List (Option (List PByte))
  ans : Option Answer
  deriving DecidableEq, Repr

/-- Whose request was cut into lines: a host access through BAR4 (R298), a message of a connection (R326) by its sequence, or a
chiplet's request (R202). -/
inductive AsmFor where
  | bar4 (tag : Nat)
  | fabric (conn seq tag op : Nat)
  | site (n tag : Nat)
  deriving DecidableEq, Repr

/-- A request cut into lines: whose it is, the bytes of an atomic's operation and operands, and each line's length and answer. -/
structure Asm where
  id : Nat
  who : AsmFor
  write : Bool
  addr : Nat
  arg : Nat × Nat × Nat
  parts : List (Nat × Option Answer)
  deriving DecidableEq, Repr

/-- The outstanding requests, the next tag, and transfers issued under an earlier generation that have not drained
(R206, R207); and the requests cut into lines. -/
structure AccSt where
  outq : List OutReq
  nextId : Nat
  asms : List Asm
  deriving DecidableEq, Repr

/-- For each address field of a descriptor, the segment that translated it and its generation (R203). -/
abbrev Held := List (Option (Nat × Nat))

/-- A fetched descriptor (R203): its bytes, whether its addresses are physical (R213), what translated them, a hamper's
array and the status of a failure to read it (R232). -/
structure QDesc where
  seq : Nat
  bytes : List Byte
  phys : Bool
  held : Held
  subs : List (List Byte)
  subHeld : List Held
  fail : Option Nat
  deriving DecidableEq, Repr

/-- How one sub-descriptor of a hamper ended (R233). -/
structure SubEnd where
  status : Nat
  check : Option Nat
  info : Nat
  deriving DecidableEq, Repr

/-- An issued descriptor (R235, R236): `pos` counts the bytes issued of the current (sub-)descriptor, `allIssued` says that
its last transfer has issued, `first` is the first error in time, `status` the status once decided, `buf` bytes read that
wait to be written. `placed` and the tile
lists are of compute dispatch (R230). -/
structure Run where
  seq : Nat
  bytes : List Byte
  phys : Bool
  held : Held
  subs : List (List Byte)
  subHeld : List Held
  sub : Nat
  ends : List SubEnd
  pos : Nat
  allIssued : Bool
  first : Option Nat
  oversub : Bool
  aux : Nat
  crcUnit : Option Nat
  buf : Option (List PByte)
  placed : Bool
  liveTiles : List Nat
  errTile : Nat
  errTiles : Nat
  tend : Nat
  status : Option Nat
  check : Nat
  info : Nat
  time : Nat
  deriving DecidableEq, Repr

/-- A ring outside its registers (R217, R220, R221, R224, R239). `modes` says from which sequence on the descriptors' addresses
are physical; `cmd` is a command that waits for the issued descriptors; `kept` holds the records that could not be written, each with its irq
flag, and `paused` where the ring waits under a fault record. -/
structure RingSt where
  fetched : List QDesc
  issued : List Run
  kept : List (List Byte × Bool)
  cmd : Nat
  modes : List (Nat × Bool)
  holdUs : Nat
  holdEnd : Option Nat
  unsig : Nat
  unsigAt : Option Nat
  paused : Option PauseAt
  deriving DecidableEq, Repr

/-- A ring at reset. -/
def RingSt.empty : RingSt :=
  { fetched := [], issued := [], kept := [], cmd := 0, modes := [], holdUs := 0, holdEnd := none, unsig := 0,
    unsigAt := none, paused := none }

/-- A CRC unit outside its registers (R248): its holder and the users that wait, in the order in which they reached it. -/
structure CrcSt where
  holder : Option (Nat × Nat)
  waiting : List (Nat × Nat)
  deriving DecidableEq, Repr

/-- A CRC unit at rest. -/
def CrcSt.free : CrcSt := { holder := none, waiting := [] }

/-- Engines outside their registers: movers fenced (R238). -/
structure EngSt where
  crc : Sparse CrcSt
  moverFenced : List Nat
  moverLast : Sparse Nat
  deriving DecidableEq, Repr

/-- A message of a connection (R324). `first` is the time of its first sending, `req` the outstanding request it carries. -/
structure FabMsg where
  op : Nat
  seq : Nat
  tag : Nat
  addr : Nat
  len : Nat
  bytes : List Byte
  poison : Bool
  err : Bool
  first : Nat
  flow : Nat
  req : Option Nat
  deriving DecidableEq, Repr

/-- A connection outside FAB_CONN_DATA (R323, R325, R327, R337): nonces, sequence numbers, unacknowledged messages, messages that
wait for the window or a reopening, how many performed messages are not yet acknowledged, the accepted ones not yet performed and
those of them not yet begun. -/
structure ConnSt where
  nonce : Nat
  peerNonce : Nat
  key : Nat
  sendSeq : Nat
  recvSeq : Nat
  sent : Nat
  unacked : List FabMsg
  waiting : List FabMsg
  toAck : Nat
  undone : List Nat
  held : List FabMsg
  draining : Bool
  reopening : Bool
  openAt : Nat
  v1 : Bool
  deriving DecidableEq, Repr

/-- A connection that is closed. -/
def ConnSt.closed : ConnSt :=
  { nonce := 0, peerNonce := 0, key := 0, sendSeq := 0, recvSeq := 0, sent := 0, unacked := [], waiting := [], toAck := 0, undone := [], held := [],
    draining := false, reopening := false, openAt := 0, v1 := false }

/-- A physical slot of a cluster (R59, R75, R78): what stays with the slot and not with the logical tile, and the word that its core's
load-reserve holds (R52). -/
structure SlotSt where
  fenced : Bool
  failed : Bool
  fault : Nat
  faultPc : Nat
  corrected : Nat
  uncorrected : Nat
  badLines : List Nat
  resv : Option Nat
  deriving DecidableEq, Repr

/-- A slot at reset. -/
def SlotSt.good : SlotSt :=
  { fenced := false, failed := false, fault := 0, faultPc := 0, corrected := 0, uncorrected := 0, badLines := [], resv := none }

/-- The scratch of every physical slot (slot * 2^20 + address) in canonical form, its poisoned 8-byte words, and the
slots. -/
structure ScratchSt where
  mem : List Host.Cell
  poison : List Nat
  slots : Sparse SlotSt
  deriving DecidableEq, Repr

end Sys2Proof.Machine
end

