-- ==== Sys2Proof/Machine/StTile.lean ====
section
/-! DEFINITION. The records of State for the logical tiles: dispatch queue, control core, tile DMA and power state. -/
namespace Sys2Proof.Machine

/-- A dispatch placed on a tile (R229, R230), with the word that gpos reads (R130). -/
structure TileDisp where
  ring : Nat
  seq : Nat
  ctx : Nat
  entry : Nat
  arg : Nat
  seed : Nat
  limitUs : Nat
  gpos : Nat
  deriving DecidableEq, Repr

/-- A tile DMA command (R72, R73): `toMem` says that it copies from scratch to memory; `pos` counts the bytes moved, `held` names the
segment and generation that translated it when it issued, and `buf` holds bytes read that wait to be written, and `bad` that poison has moved. -/
structure TdmaCmd where
  tag : Nat
  toMem : Bool
  va : Nat
  scr : Nat
  len : Nat
  pos : Nat
  held : Option (Nat × Nat)
  buf : Option (List PByte)
  bad : Bool
  deriving DecidableEq, Repr

/-- An accumulator whose fed bit is set: its 32-bit integer and its saturation flag (R62, R88). -/
structure AccCell where
  v : Int
  sat : Bool
  deriving DecidableEq, Repr

/-- An accumulator bank: the fed accumulators by flat index, and the block exponents of rows by row (R61, R88). -/
structure Bank where
  cells : Sparse AccCell
  exps : Sparse Int
  deriving DecidableEq, Repr

/-- A bank with nothing fed. -/
def Bank.empty : Bank := { cells := [], exps := [] }

/-- A combine accumulator whose fed bit is set: I × 2^L with its flags (R109, R112). -/
structure CombCell where
  i : Int
  l : Int
  special : Bool
  inexact : Bool
  deriving DecidableEq, Repr

/-- A loaded stationary buffer: the form and format it was loaded under, its bytes and its scale image (R61, R85, R109). -/
structure StatBuf where
  form : Nat
  fmt : Nat
  bytes : List Byte
  scales : List Byte
  deriving DecidableEq, Repr

/-- A generation entry of the stream context table (R128). -/
structure GenEntry where
  ctx : Nat
  full : Bool
  pos : Nat
  shardCount : Nat
  shardIndex : Nat
  shardLen : Nat
  advances : Nat
  user : Nat
  deriving DecidableEq, Repr

/-- What a tile's core waits for (R63, R73, R74, R210): earlier writes, tile DMA tags, a scratch word that differs from a value, or a
fault record, with what it waited for before. [DESIGN CHOICE, log 49] -/
inductive TileWait where
  | none
  | fence
  | tags (mask : Nat)
  | poll (addr value : Nat)
  | record (r va : Nat) (acc : Acc) (back : TileWait)
  deriving DecidableEq, Repr

/-- A logical tile outside its registers: dispatches (R230), control core (R52–R54), wait, tile DMA (R73), matrix array (R61, R62, R109),
vector registers (R70), kernel control registers 0x800–0x807 (R87, R117) and the rounding state (R92). `unsettled` lists writes
to scratch that no fence has yet ordered: address, length and the agent that made them (R58, R73). `users` are the contexts whose
dispatches have named the tile since the last blanket (R76), and `escs` the escalation headers that the dispatch drains under (R104). -/
structure TileSt where
  queue : List TileDisp
  run : Option TileDisp
  startedAt : Nat
  wait : TileWait
  pc : Nat
  x : Sparse DWord
  ibuf : List (Nat × List Byte)
  instret : Nat
  tdma : List TdmaCmd
  cfg : Nat
  k0 : Bank
  k1 : Bank
  comb : Sparse CombCell
  b0 : Option StatBuf
  b1 : Option StatBuf
  v : Sparse Nat
  csr : Sparse Nat
  lfsr : Nat
  unsettled : List (Nat × Nat × Nat)
  users : List Nat
  escs : List Nat
  deriving DecidableEq, Repr

/-- A tile with nothing to do. -/
def TileSt.idle : TileSt :=
  { queue := [], run := none, startedAt := 0, wait := .none, pc := 0, x := [], ibuf := [], instret := 0, tdma := [], cfg := 0,
    k0 := Bank.empty, k1 := Bank.empty, comb := [], b0 := none, b1 := none, v := [], csr := [], lfsr := 0, unsettled := [], users := [], escs := [] }

/-- An access on the host register path that waits for a quad's clock (R402): the physical quad, who made it, where, its size, and the
value of a write. -/
structure RegWait where
  quad : Nat
  src : BusSrc
  off : Nat
  size : Nat
  write : Option DWord
  deriving DecidableEq, Repr

/-- Power outside its registers. Quads by physical number: those whose PLL has been asked to start, those restarted once, those fenced
(R399, R400), and the register accesses that wait for them (R402). `cool` is the clock last held below tj_target_c after a thermal step (R407),
`noVcore` that no VCORE regulator was found (R500), `wrote` and `missed` the set points of R408, `hostNow` that the capping
period under way is the driver's (R25), `pend` a commit that waits for the end of its
period (R414), `floorAt` the last event at the floor, `readings` the rails' readings of this 100 ms (R404, R405), `hubC` and `dieReads` the last
die reading and its count, `vcore` the set point of VCORE in mV, `pinLow` the level of PWRBRAKE_N (R504), and `railAt` each rail's last event (R497). -/
structure PwrSt where
  waking : List Nat
  restarted : List Nat
  quadFenced : List Nat
  stalled : List RegWait
  cool : Nat
  noVcore : Bool
  wrote : Bool
  hostNow : Bool
  missed : Nat
  pend : Option (List (Nat × DWord))
  floorAt : Option Nat
  readings : List (Nat × Nat × Nat)
  hubC : Nat
  dieReads : Nat
  vcore : Nat
  pinLow : Bool
  railAt : Sparse Nat
  deriving DecidableEq, Repr

/-- Power state at reset. -/
def PwrSt.reset : PwrSt :=
  { waking := [], restarted := [], quadFenced := [], stalled := [], cool := 4095, noVcore := false, wrote := false, hostNow := false, missed := 0, pend := none,
    floorAt := none, readings := [], hubC := 0, dieReads := 0, vcore := 800, pinLow := false, railAt := [] }

end Sys2Proof.Machine
end

