-- ==== Sys2Proof/Machine/Arr.lean ====
section
/-! DEFINITION. The matrix array on plain data: accumulation with block exponents, the combine unit, conversion on drain, scale choice and escalation copies (R62, R88–R101, R105–R115). -/
namespace Sys2Proof.Machine

/-! ### Accumulation (R88) -/

/-- One output's contribution of one update: integer and exponent, or nothing but a NaN scale. -/
structure Contr where
  c : Int
  e : Option Int
  sat : Bool
  deriving DecidableEq, Repr

/-- Contributions of one tree aligned to the smallest exponent and summed (R88 step 1); sixteens with a NaN scale contribute zero (R82). -/
def treeSum (parts : List (Option (Int × Int))) : Contr :=
  let live := parts.filterMap id
  match live with
  | [] => { c := 0, e := none, sat := parts.any Option.isNone }
  | (_, e0) :: t =>
    let emin := t.foldl (fun m (p : Int × Int) => min m p.2) e0
    { c := live.foldl (fun a (p : Int × Int) => a + p.1 * 2 ^ (p.2 - emin).toNat) 0, e := some emin, sat := parts.any Option.isNone }

/-- The product of two sixteens (R88): none when either scale is NaN. -/
def granDot (a b : Gran) : Option (Int × Int) :=
  if a.nan || b.nan then none
  else some (((a.elems.zip b.elems).foldl (fun x (p : Int × Int) => x + p.1 * p.2) 0) * a.sig * b.sig, a.exp + b.exp)

/-- The tree of two operand vectors. -/
def vecDot (a b : List Gran) : Contr := treeSum ((a.zip b).map (fun (p : Gran × Gran) => granDot p.1 p.2))

/-- An integer divided by 2^n towards zero. -/
def shrZero (v : Int) (n : Nat) : Int := v.tdiv (2 ^ n)

/-- A contribution brought into the exponent range −128 to 127 (R88 step 6). [DEDUCED, log 175] -/
def Contr.ranged (x : Contr) : Contr :=
  match x.e with
  | none => x
  | some e =>
    if 127 < e then { c := x.c * 2 ^ (e - 127).toNat, e := some 127, sat := true }
    else if e < -128 then { c := shrZero x.c (-128 - e).toNat, e := some (-128), sat := true }
    else x

/-- A 32-bit accumulator value with its flag (R88 step 5). -/
def satCell (v : Int) (sat : Bool) : AccCell :=
  if v < -2147483648 then { v := -2147483648, sat := true }
  else if 2147483647 < v then { v := 2147483647, sat := true }
  else { v := v, sat := sat }

/-- The fed accumulators of a row. [DESIGN CHOICE, log 34] -/
def Bank.rowCells (b : Bank) (row : Nat) : Sparse AccCell := b.cells.filter (fun p => p.1 / 64 == row)

/-- A row's block exponent. -/
def Bank.exp (b : Bank) (row : Nat) : Int := b.exps.get 0 row

/-- One update of an accumulator row (R62, R88 steps 2 to 6): flat indexes of the row with their contributions. [DESIGN CHOICE, log 176] -/
def Bank.update (b : Bank) (row : Nat) (items : List (Nat × Contr)) : Bank :=
  let items := items.map (fun (p : Nat × Contr) => (p.1, p.2.ranged))
  let es := items.filterMap (fun p => p.2.e)
  let b := match es with
    | [] => if (b.rowCells row).isEmpty then { b with exps := b.exps.put row (signed 8 (Config.vecChoice 5 (row :: items.map (·.1)))) } else b
    | e0 :: t =>
      let emin := t.foldl min e0
      if (b.rowCells row).isEmpty then { b with exps := b.exps.put row emin }
      else if emin < b.exp row then
        let d := (b.exp row - emin).toNat
        { cells := b.cells.map (fun (p : Nat × AccCell) => if p.1 / 64 = row then (p.1, satCell (p.2.v * 2 ^ d) p.2.sat) else p)
          exps := b.exps.put row emin }
      else b
  items.foldl (fun (b : Bank) (p : Nat × Contr) =>
    let old := b.cells.get { v := 0, sat := false } p.1
    let add := match p.2.e with | some e => p.2.c * 2 ^ (e - b.exp row).toNat | none => 0
    { b with cells := b.cells.put p.1 (satCell (old.v + add) (old.sat || p.2.sat)) }) b

/-- The fed bits of a row cleared, with its accumulators and block exponent (R62, R88). -/
def Bank.clearRow (b : Bank) (row : Nat) : Bank :=
  { cells := b.cells.filter (fun p => p.1 / 64 != row), exps := b.exps.del row }

/-! ### The combine unit (R112) -/

/-- The number of low bits that must go for a value to fit 192 bits. -/
def combineDrop (v : Int) : Nat :=
  let n := if v < 0 then (-v - 1).toNat else v.toNat
  if n < 2 ^ 191 then 0 else Nat.log2 n + 1 - 191

/-- A contribution c × 2^e added to a combine accumulator, whose fed bit it sets. -/
def CombCell.add (x : CombCell) (c e : Int) : CombCell :=
  if c = 0 then x
  else if x.i = 0 then { x with i := c, l := e }
  else
    let lo := min x.l e
    let v := x.i * 2 ^ (x.l - lo).toNat + c * 2 ^ (e - lo).toNat
    let h := combineDrop v
    { i := v / (2 ^ h : Int), l := lo + h, special := x.special, inexact := x.inexact || decide (v % (2 ^ h : Int) ≠ 0) }

/-- A combine accumulator before it is fed. -/
def CombCell.zero : CombCell := { i := 0, l := 0, special := false, inexact := false }

/-- The pairs of a schedule in the order of R111. -/
def slicePairs (s : Nat) (faithful : Bool) : List (Nat × Nat) :=
  ((List.range (2 * s - 1)).filter (fun r => !faithful || decide (r ≤ 13))).flatMap (fun r =>
    ((List.range s).filter (fun i => decide (i ≤ r) && decide (r - i < s))).map (fun i => (i, r - i)))

/-- The windows that a row runs (R111): window 0, and each further one in which a product with an unmasked column falls. -/
def rowWindows (a : List SliceDigit) (cols : List (List SliceDigit)) : List Nat :=
  let offs := cols.flatMap (fun b => (a.zip b).filterMap (fun (p : SliceDigit × SliceDigit) =>
    if p.1.m = 0 ∨ p.2.m = 0 then none else some ((p.1.off + p.2.off) / 61)))
  0 :: ((List.range (offs.foldl max 0 + 1)).filter (fun w => decide (0 < w) && offs.contains w))

/-- The tree of pass (i, j) of window w (R111). -/
def slicePass (s w i j : Nat) (a b : List SliceDigit) : Int :=
  (a.zip b).foldl (fun t (p : SliceDigit × SliceDigit) =>
    let o := p.1.off + p.2.off
    if p.1.m = 0 ∨ p.2.m = 0 ∨ o / 61 ≠ w then t
    else t + p.1.slice s i * p.2.slice s j * 2 ^ (61 * w + 60 - o)) 0

/-- A row's products with one column combined (R108, R111, R112). -/
def combineCol (s : Nat) (pairs : List (Nat × Nat)) (windows : List Nat) (a : List SliceDigit × Int) (b : List SliceDigit × Int)
    (x : CombCell) : CombCell :=
  let x := { x with special := x.special || a.1.any SliceDigit.special || b.1.any SliceDigit.special }
  windows.foldl (fun (x : CombCell) w =>
    pairs.foldl (fun (x : CombCell) (p : Nat × Nat) =>
      x.add (slicePass s w p.1 p.2 a.1 b.1)
        (a.2 + b.2 - 60 - 61 * (w : Int) + 4 * (2 * (s : Int) - 2 - (p.1 + p.2 : Nat)))) x) x

/-! ### Conversion on drain (R90, R91) -/

/-- Bytes of a row image of 64 elements by drain format code (R66). -/
def imageBytes (fmt : Nat) : Nat :=
  if fmt ≤ 1 then 256 else if fmt ≤ 3 then 128 else if fmt ≤ 6 then 64 else if fmt ≤ 10 then 32 else 512

/-- A drained accumulator: num × 2^q exactly, whether it is fed and whether its saturation flag is set. -/
structure Drained where
  num : Int
  q : Int
  fed : Bool
  sat : Bool
  deriving DecidableEq, Repr

/-- An integer result saturated to w bits: code, and whether it was out of range. [DEDUCED, log 52] -/
def satInt (w : Nat) (v : Int) : Nat × Bool :=
  if v < -(2 ^ (w - 1) : Int) then (2 ^ (w - 1), true)
  else if (2 ^ (w - 1) : Int) ≤ v then (2 ^ (w - 1) - 1, true)
  else (unsigned w v, false)

/-- A value converted to a floating-point drain format: code, and whether it was out of range. Zero is +0 (R90). [DEDUCED, log 52] -/
def drainFlt (f : Flt) (m : Rnd) (num : Int) (den : Nat) (q : Int) : Nat × Bool :=
  let (k, g) := f.round m num den q
  if k = 0 then (0, false)
  else if f.beyond k.natAbs g then (f.maxCode (decide (k < 0)), true)
  else (f.code (decide (k < 0)) k.natAbs g, false)

/-- num / den × 2^q rounded to an integer. -/
def drainInt (m : Rnd) (num : Int) (q : Int) : Int := let p := onGrid num 1 q 0; roundQuot m p.1 p.2

/-- A block scale of R91: E4M3 code with its significand and exponent, for CB4; sig 1 and s − 127 for MXFP4; `zero` when a block is written as
zeros. `shared` is x − 127 for CB4. -/
structure DrainScale where
  code : Nat
  sig : Int
  exp : Int
  zero : Bool
  deriving DecidableEq, Repr

/-- An integer clamped to −127 to 127. -/
def clamp127 (v : Int) : Int := max (-127) (min 127 v)

/-- f of mdctl in quarters (R87). -/
def clipQuarters (c : Nat) : Nat := 4 - c

/-- The largest magnitude of a list of drained values, as integers in units of 2^q of the row. -/
def maxMag (xs : List Int) : Nat := xs.foldl (fun m x => max m x.natAbs) 0

/-- The MXFP4 scale of a block of magnitude mag × 2^q (R91). -/
def mxScale (clip mag : Nat) (q : Int) : DrainScale :=
  if mag = 0 then { code := 0, sig := 1, exp := -127, zero := true }
  else
    let s := clamp127 (floorLog2 (clipQuarters clip * mag) 4 q - 2)
    { code := (s + 127).toNat, sig := 1, exp := s, zero := false }

/-- x − 127 of a CB4 row (R91), or none for an all-zero row: ceil(log2(f × row_max ÷ 2,688)). -/
def cbShared (clip mag : Nat) (q : Int) : Option Int :=
  if mag = 0 then none
  else
    let n := clipQuarters clip * mag
    let l := floorLog2 n (4 * 2688) q
    -- the quotient is a power of two exactly when it equals 2^l
    let p := onGrid n (4 * 2688) q l
    some (clamp127 (if p.1 = (p.2 : Int) then l else l + 1))

/-- The CB4 scale of a block (R91): E4M3 nearest of f × block_max ÷ (6 × 2^(x − 127)). -/
def cbScale (clip mag : Nat) (q x : Int) : DrainScale :=
  let c := (drainFlt fltE4m3 .nearest (clipQuarters clip * mag : Nat) 24 (q - x)).1
  { code := c, sig := (fltE4m3.parts c).1, exp := (fltE4m3.parts c).2 + x, zero := decide (c % 128 = 0) }

/-- A value in the units of its 4-bit conversion (R90, R98): numerator, denominator and exponent. -/
def inUnits (fmt : Nat) (shift : Int) (sc : DrainScale) (num q : Int) : Int × Nat × Int :=
  if fmt = 9 ∨ fmt = 10 then (if sc.zero then (0, 1, 0) else (num, sc.sig.toNat, q - sc.exp)) else (num, 1, q + shift)

/-- One element converted: code, and whether a 4-bit format clipped it (R90). [DEDUCED, log 52] -/
def convert (fmt : Nat) (m : Rnd) (shift : Int) (sc : DrainScale) (num q : Int) : Nat × Bool :=
  match fmt with
  | 0x0 => ((satInt 32 (drainInt m num q)).1, false)
  | 0x1 => ((drainFlt fltFp32 m num 1 q).1, false)
  | 0x2 => ((drainFlt fltBf16 m num 1 q).1, false)
  | 0x3 => ((drainFlt fltFp16 m num 1 q).1, false)
  | 0x4 => ((drainFlt fltE4m3 m num 1 q).1, false)
  | 0x5 => ((drainFlt fltE5m2 m num 1 q).1, false)
  | 0x6 => ((satInt 8 (drainInt m num (q + shift))).1, false)
  | 0x7 => satInt 4 (drainInt m num (q + shift))
  | 0xB => ((drainFlt fltFp64 m num 1 q).1, false)
  | _ => let u := inUnits fmt shift sc num q; drainFlt fltE2m1 m u.1 u.2.1 u.2.2

/-! ### Escalation copies (R98) -/

/-- The exponent of a row's largest magnitude in conversion units (R98). -/
def escExp (us : List (Int × Nat × Int)) : Int :=
  us.foldl (fun e (u : Int × Nat × Int) => if u.1 = 0 then e else max e (floorLog2 u.1.natAbs u.2.1 u.2.2)) (-6)

/-- The FP8 copy of one element (R98): the nearest value that E4M3 holds and that is a multiple of 2^(e_max − 5), ties to the multiple with
more trailing zero bits, magnitudes above 448 as 448. -/
def escCode (emax : Int) (u : Int × Nat × Int) : Nat :=
  if u.1 = 0 then 0
  else
    let g := max (max (floorLog2 u.1.natAbs u.2.1 u.2.2) (-6) - 3) (emax - 5)
    let p := onGrid (u.1.natAbs : Int) u.2.1 u.2.2 g
    let k := (roundQuot .nearest p.1 p.2).toNat
    if k = 0 then 0 else drainFlt fltE4m3 .nearest (signedOf (decide (u.1 < 0)) k) 1 g |>.1

/-- The multiples that a stored copy holds, with e_max as its reader finds it (R100): the exponent of the largest stored magnitude, or one less
where some element is not a multiple of that step. [DEDUCED, log 38] -/
def escRead (codes : List Nat) : List Int × Int :=
  let vs := codes.map (fun c => (signedOf (fltE4m3.negOf c) (fltE4m3.parts c).1, (fltE4m3.parts c).2))
  let emax := vs.foldl (fun e (v : Int × Int) => if v.1 = 0 then e else max e (floorLog2 v.1.natAbs 1 v.2)) (-6)
  let whole (e : Int) : Bool := vs.all (fun v => (onGrid v.1 1 v.2 (e - 5)).1 % ((onGrid v.1 1 v.2 (e - 5)).2 : Int) == 0)
  let e := if whole emax then emax else emax - 1
  (vs.map (fun v => let p := onGrid v.1 1 v.2 (e - 5); p.1 / (p.2 : Int)), e)

/-- The low digit of R100. -/
def lowDigit (a : Int) : Int := (a + 8) % 16 - 8

end Sys2Proof.Machine
end

