-- ==== Sys2Proof/Machine/RegNames.lean ====
section
/-! DEFINITION. The hub's registers and their fields by the manual's names: BAR0 offset of each register (as a function of its indices)
and the bits of each field, as the register tables of the chapters and the index of R489 give them. -/
namespace Sys2Proof.Machine

/-- DUTY_MODE (01_product, R28). -/
def Reg.DUTY_MODE : Nat := 0x40
def Reg.DUTY_MODE_time_discipline : Fld := ⟨Reg.DUTY_MODE, 9, 9⟩
def Reg.DUTY_MODE_row_repair : Fld := ⟨Reg.DUTY_MODE, 8, 8⟩
def Reg.DUTY_MODE_capping : Fld := ⟨Reg.DUTY_MODE, 7, 7⟩
def Reg.DUTY_MODE_bedrock_repair : Fld := ⟨Reg.DUTY_MODE, 6, 6⟩
def Reg.DUTY_MODE_spare_subst : Fld := ⟨Reg.DUTY_MODE, 5, 5⟩
def Reg.DUTY_MODE_link_recovery : Fld := ⟨Reg.DUTY_MODE, 4, 4⟩
def Reg.DUTY_MODE_flow_admission : Fld := ⟨Reg.DUTY_MODE, 3, 3⟩
def Reg.DUTY_MODE_coll_sequencing : Fld := ⟨Reg.DUTY_MODE, 2, 2⟩
def Reg.DUTY_MODE_seg_fault : Fld := ⟨Reg.DUTY_MODE, 1, 1⟩
def Reg.DUTY_MODE_desc_translation : Fld := ⟨Reg.DUTY_MODE, 0, 0⟩
/-- DUTY_ACTIVE (01_product, R28). -/
def Reg.DUTY_ACTIVE : Nat := 0x44
def Reg.DUTY_ACTIVE_duty_fallback : Fld := ⟨Reg.DUTY_ACTIVE, 25, 16⟩
def Reg.DUTY_ACTIVE_duty_active : Fld := ⟨Reg.DUTY_ACTIVE, 9, 0⟩
/-- GLB_COMMIT (01_product, R28). -/
def Reg.GLB_COMMIT : Nat := 0x50
def Reg.GLB_COMMIT_commit : Fld := ⟨Reg.GLB_COMMIT, 0, 0⟩
/-- GLB_COMMIT_STATUS (01_product, R28). -/
def Reg.GLB_COMMIT_STATUS : Nat := 0x54
def Reg.GLB_COMMIT_STATUS_commit_count : Fld := ⟨Reg.GLB_COMMIT_STATUS, 31, 16⟩
def Reg.GLB_COMMIT_STATUS_first_field : Fld := ⟨Reg.GLB_COMMIT_STATUS, 15, 8⟩
def Reg.GLB_COMMIT_STATUS_refused : Fld := ⟨Reg.GLB_COMMIT_STATUS, 0, 0⟩
/-- GLB_SUBST_PEND (01_product, R29). -/
def Reg.GLB_SUBST_PEND : Nat := 0x60
def Reg.GLB_SUBST_PEND_tiles : Fld := ⟨Reg.GLB_SUBST_PEND, 27, 16⟩
def Reg.GLB_SUBST_PEND_cells : Fld := ⟨Reg.GLB_SUBST_PEND, 15, 0⟩
/-- GLB_SUBST_CMD (01_product, R29). -/
def Reg.GLB_SUBST_CMD : Nat := 0x64
def Reg.GLB_SUBST_CMD_all : Fld := ⟨Reg.GLB_SUBST_CMD, 6, 6⟩
def Reg.GLB_SUBST_CMD_ctx : Fld := ⟨Reg.GLB_SUBST_CMD, 5, 0⟩
/-- GLB_SUBST_ARMED (01_product, R29). -/
def Reg.GLB_SUBST_ARMED : Nat := 0x68
def Reg.GLB_SUBST_ARMED_armed : Fld := ⟨Reg.GLB_SUBST_ARMED, 63, 0⟩
/-- SITE_POP (02_package_and_sites, R50). -/
def Reg.SITE_POP (n : Nat) : Nat := 0x1000000 + n * 0x80000
def Reg.SITE_POP_power_limit_w (n : Nat) : Fld := ⟨Reg.SITE_POP n, 25, 16⟩
def Reg.SITE_POP_temp_limit_c (n : Nat) : Fld := ⟨Reg.SITE_POP n, 15, 8⟩
def Reg.SITE_POP_protocol (n : Nat) : Fld := ⟨Reg.SITE_POP n, 3, 2⟩
def Reg.SITE_POP_coherent (n : Nat) : Fld := ⟨Reg.SITE_POP n, 1, 1⟩
def Reg.SITE_POP_populated (n : Nat) : Fld := ⟨Reg.SITE_POP n, 0, 0⟩
/-- SITE_STATE (02_package_and_sites, R50). -/
def Reg.SITE_STATE (n : Nat) : Nat := 0x1000004 + n * 0x80000
def Reg.SITE_STATE_cause (n : Nat) : Fld := ⟨Reg.SITE_STATE n, 15, 8⟩
def Reg.SITE_STATE_state (n : Nat) : Fld := ⟨Reg.SITE_STATE n, 3, 0⟩
/-- SITE_PWR_LIMIT (02_package_and_sites, R50). -/
def Reg.SITE_PWR_LIMIT (n : Nat) : Nat := 0x1000008 + n * 0x80000
def Reg.SITE_PWR_LIMIT_pwr_limit_w (n : Nat) : Fld := ⟨Reg.SITE_PWR_LIMIT n, 9, 0⟩
/-- SITE_COMMIT (02_package_and_sites, R50). -/
def Reg.SITE_COMMIT (n : Nat) : Nat := 0x100000c + n * 0x80000
def Reg.SITE_COMMIT_commit (n : Nat) : Fld := ⟨Reg.SITE_COMMIT n, 0, 0⟩
/-- SITE_COMMIT_STATUS (02_package_and_sites, R50). -/
def Reg.SITE_COMMIT_STATUS (n : Nat) : Nat := 0x1000010 + n * 0x80000
def Reg.SITE_COMMIT_STATUS_commit_count (n : Nat) : Fld := ⟨Reg.SITE_COMMIT_STATUS n, 31, 16⟩
def Reg.SITE_COMMIT_STATUS_first_field (n : Nat) : Fld := ⟨Reg.SITE_COMMIT_STATUS n, 15, 8⟩
def Reg.SITE_COMMIT_STATUS_refused (n : Nat) : Fld := ⟨Reg.SITE_COMMIT_STATUS n, 0, 0⟩
/-- SITE_PWR_STATUS (02_package_and_sites, R50). -/
def Reg.SITE_PWR_STATUS (n : Nat) : Nat := 0x1000014 + n * 0x80000
def Reg.SITE_PWR_STATUS_chiplet_temp_c (n : Nat) : Fld := ⟨Reg.SITE_PWR_STATUS n, 31, 24⟩
def Reg.SITE_PWR_STATUS_cap_events (n : Nat) : Fld := ⟨Reg.SITE_PWR_STATUS n, 23, 16⟩
def Reg.SITE_PWR_STATUS_unmonitored (n : Nat) : Fld := ⟨Reg.SITE_PWR_STATUS n, 15, 15⟩
def Reg.SITE_PWR_STATUS_power_w (n : Nat) : Fld := ⟨Reg.SITE_PWR_STATUS n, 9, 0⟩
/-- SITE_ID_LO (02_package_and_sites, R50). -/
def Reg.SITE_ID_LO (n : Nat) : Nat := 0x1000018 + n * 0x80000
def Reg.SITE_ID_LO_id_lo (n : Nat) : Fld := ⟨Reg.SITE_ID_LO n, 63, 0⟩
/-- SITE_ID_HI (02_package_and_sites, R50). -/
def Reg.SITE_ID_HI (n : Nat) : Nat := 0x1000020 + n * 0x80000
def Reg.SITE_ID_HI_id_hi (n : Nat) : Fld := ⟨Reg.SITE_ID_HI n, 63, 0⟩
/-- TILE_STATUS (03_tiles_and_array, R78). -/
def Reg.TILE_STATUS (l i : Nat) : Nat := 0x3001000 + l * 0x10000 + i * 0x800
def Reg.TILE_STATUS_ring (l i : Nat) : Fld := ⟨Reg.TILE_STATUS l i, 31, 19⟩
def Reg.TILE_STATUS_no_spare (l i : Nat) : Fld := ⟨Reg.TILE_STATUS l i, 17, 17⟩
def Reg.TILE_STATUS_awaiting_spare (l i : Nat) : Fld := ⟨Reg.TILE_STATUS l i, 16, 16⟩
def Reg.TILE_STATUS_phys_slot (l i : Nat) : Fld := ⟨Reg.TILE_STATUS l i, 12, 8⟩
def Reg.TILE_STATUS_state (l i : Nat) : Fld := ⟨Reg.TILE_STATUS l i, 2, 0⟩
/-- TILE_FAULT (03_tiles_and_array, R78). -/
def Reg.TILE_FAULT (l i : Nat) : Nat := 0x3001004 + l * 0x10000 + i * 0x800
def Reg.TILE_FAULT_line (l i : Nat) : Fld := ⟨Reg.TILE_FAULT l i, 24, 16⟩
def Reg.TILE_FAULT_mcause (l i : Nat) : Fld := ⟨Reg.TILE_FAULT l i, 15, 8⟩
def Reg.TILE_FAULT_cause (l i : Nat) : Fld := ⟨Reg.TILE_FAULT l i, 7, 0⟩
/-- TILE_FAULT_PC (03_tiles_and_array, R78). -/
def Reg.TILE_FAULT_PC (l i : Nat) : Nat := 0x3001008 + l * 0x10000 + i * 0x800
def Reg.TILE_FAULT_PC_pc (l i : Nat) : Fld := ⟨Reg.TILE_FAULT_PC l i, 19, 0⟩
/-- TILE_ECC_CORR (03_tiles_and_array, R78). -/
def Reg.TILE_ECC_CORR (l i : Nat) : Nat := 0x300100c + l * 0x10000 + i * 0x800
def Reg.TILE_ECC_CORR_corrected (l i : Nat) : Fld := ⟨Reg.TILE_ECC_CORR l i, 31, 0⟩
/-- TILE_ECC_UNCORR (03_tiles_and_array, R78). -/
def Reg.TILE_ECC_UNCORR (l i : Nat) : Nat := 0x3001010 + l * 0x10000 + i * 0x800
def Reg.TILE_ECC_UNCORR_uncorrected (l i : Nat) : Fld := ⟨Reg.TILE_ECC_UNCORR l i, 31, 0⟩
/-- TILE_CFG (03_tiles_and_array, R78). -/
def Reg.TILE_CFG (l i : Nat) : Nat := 0x3001014 + l * 0x10000 + i * 0x800
def Reg.TILE_CFG_perf_run (l i : Nat) : Fld := ⟨Reg.TILE_CFG l i, 8, 8⟩
def Reg.TILE_CFG_perf1_sel (l i : Nat) : Fld := ⟨Reg.TILE_CFG l i, 7, 4⟩
def Reg.TILE_CFG_perf0_sel (l i : Nat) : Fld := ⟨Reg.TILE_CFG l i, 3, 0⟩
/-- TILE_COMMIT (03_tiles_and_array, R78). -/
def Reg.TILE_COMMIT (l i : Nat) : Nat := 0x3001018 + l * 0x10000 + i * 0x800
def Reg.TILE_COMMIT_commit (l i : Nat) : Fld := ⟨Reg.TILE_COMMIT l i, 0, 0⟩
/-- TILE_COMMIT_STATUS (03_tiles_and_array, R78). -/
def Reg.TILE_COMMIT_STATUS (l i : Nat) : Nat := 0x300101c + l * 0x10000 + i * 0x800
def Reg.TILE_COMMIT_STATUS_commit_count (l i : Nat) : Fld := ⟨Reg.TILE_COMMIT_STATUS l i, 31, 16⟩
def Reg.TILE_COMMIT_STATUS_first_field (l i : Nat) : Fld := ⟨Reg.TILE_COMMIT_STATUS l i, 15, 8⟩
def Reg.TILE_COMMIT_STATUS_refused (l i : Nat) : Fld := ⟨Reg.TILE_COMMIT_STATUS l i, 0, 0⟩
/-- TILE_PERF0 (03_tiles_and_array, R78). -/
def Reg.TILE_PERF0 (l i : Nat) : Nat := 0x3001020 + l * 0x10000 + i * 0x800
def Reg.TILE_PERF0_count (l i : Nat) : Fld := ⟨Reg.TILE_PERF0 l i, 47, 0⟩
/-- TILE_PERF1 (03_tiles_and_array, R78). -/
def Reg.TILE_PERF1 (l i : Nat) : Nat := 0x3001028 + l * 0x10000 + i * 0x800
def Reg.TILE_PERF1_count (l i : Nat) : Fld := ⟨Reg.TILE_PERF1 l i, 47, 0⟩
/-- TILE_PERF_OVF (03_tiles_and_array, R78). -/
def Reg.TILE_PERF_OVF (l i : Nat) : Nat := 0x3001030 + l * 0x10000 + i * 0x800
def Reg.TILE_PERF_OVF_ovf1 (l i : Nat) : Fld := ⟨Reg.TILE_PERF_OVF l i, 1, 1⟩
def Reg.TILE_PERF_OVF_ovf0 (l i : Nat) : Fld := ⟨Reg.TILE_PERF_OVF l i, 0, 0⟩
/-- CL_STATUS (07_clusters_and_network, R154). -/
def Reg.CL_STATUS (l : Nat) : Nat := 0x3000000 + l * 0x10000
def Reg.CL_STATUS_spares (l : Nat) : Fld := ⟨Reg.CL_STATUS l, 21, 20⟩
def Reg.CL_STATUS_lost (l : Nat) : Fld := ⟨Reg.CL_STATUS l, 16, 16⟩
def Reg.CL_STATUS_quad (l : Nat) : Fld := ⟨Reg.CL_STATUS l, 12, 8⟩
def Reg.CL_STATUS_phys_cluster (l : Nat) : Fld := ⟨Reg.CL_STATUS l, 6, 0⟩
/-- CL_MAP_LO (07_clusters_and_network, R154). -/
def Reg.CL_MAP_LO (l : Nat) : Nat := 0x3000008 + l * 0x10000
def Reg.CL_MAP_LO_slot_0_11 (l : Nat) : Fld := ⟨Reg.CL_MAP_LO l, 59, 0⟩
/-- CL_MAP_HI (07_clusters_and_network, R154). -/
def Reg.CL_MAP_HI (l : Nat) : Nat := 0x3000010 + l * 0x10000
def Reg.CL_MAP_HI_slot_12_15 (l : Nat) : Fld := ⟨Reg.CL_MAP_HI l, 19, 0⟩
/-- CL_SLOTS (07_clusters_and_network, R154). -/
def Reg.CL_SLOTS (l : Nat) : Nat := 0x3000018 + l * 0x10000
def Reg.CL_SLOTS_failed (l : Nat) : Fld := ⟨Reg.CL_SLOTS l, 17, 0⟩
/-- NOC_STATUS (07_clusters_and_network, R155). -/
def Reg.NOC_STATUS : Nat := 0xc00000
def Reg.NOC_STATUS_recompute : Fld := ⟨Reg.NOC_STATUS, 31, 31⟩
def Reg.NOC_STATUS_links_retired : Fld := ⟨Reg.NOC_STATUS, 23, 16⟩
def Reg.NOC_STATUS_routers_lost : Fld := ⟨Reg.NOC_STATUS, 15, 8⟩
/-- NOC_CFG (07_clusters_and_network, R155). -/
def Reg.NOC_CFG : Nat := 0xc00004
def Reg.NOC_CFG_timeout_us : Fld := ⟨Reg.NOC_CFG, 13, 0⟩
/-- NOC_COMMIT (07_clusters_and_network, R155). -/
def Reg.NOC_COMMIT : Nat := 0xc00008
def Reg.NOC_COMMIT_commit : Fld := ⟨Reg.NOC_COMMIT, 0, 0⟩
/-- NOC_COMMIT_STATUS (07_clusters_and_network, R155). -/
def Reg.NOC_COMMIT_STATUS : Nat := 0xc0000c
def Reg.NOC_COMMIT_STATUS_commit_count : Fld := ⟨Reg.NOC_COMMIT_STATUS, 31, 16⟩
def Reg.NOC_COMMIT_STATUS_first_field : Fld := ⟨Reg.NOC_COMMIT_STATUS, 15, 8⟩
def Reg.NOC_COMMIT_STATUS_refused : Fld := ⟨Reg.NOC_COMMIT_STATUS, 0, 0⟩
/-- NOC_RT_SEL (07_clusters_and_network, R155). -/
def Reg.NOC_RT_SEL : Nat := 0xc00010
def Reg.NOC_RT_SEL_ni : Fld := ⟨Reg.NOC_RT_SEL, 15, 8⟩
def Reg.NOC_RT_SEL_entry : Fld := ⟨Reg.NOC_RT_SEL, 7, 0⟩
/-- NOC_RT_DATA (07_clusters_and_network, R155). -/
def Reg.NOC_RT_DATA : Nat := 0xc00018
def Reg.NOC_RT_DATA_route : Fld := ⟨Reg.NOC_RT_DATA, 63, 0⟩
/-- NOC_RT_BAD (07_clusters_and_network, R155). -/
def Reg.NOC_RT_BAD : Nat := 0xc00020
def Reg.NOC_RT_BAD_rule : Fld := ⟨Reg.NOC_RT_BAD, 18, 16⟩
def Reg.NOC_RT_BAD_ni : Fld := ⟨Reg.NOC_RT_BAD, 15, 8⟩
def Reg.NOC_RT_BAD_entry : Fld := ⟨Reg.NOC_RT_BAD, 7, 0⟩
/-- NOC_ROUTER_LOST_LO (07_clusters_and_network, R155). -/
def Reg.NOC_ROUTER_LOST_LO : Nat := 0xc00040
def Reg.NOC_ROUTER_LOST_LO_lost : Fld := ⟨Reg.NOC_ROUTER_LOST_LO, 63, 0⟩
/-- NOC_ROUTER_LOST_HI (07_clusters_and_network, R155). -/
def Reg.NOC_ROUTER_LOST_HI : Nat := 0xc00048
def Reg.NOC_ROUTER_LOST_HI_lost : Fld := ⟨Reg.NOC_ROUTER_LOST_HI, 63, 0⟩
/-- NOC_LINK_RETIRED (07_clusters_and_network, R155). -/
def Reg.NOC_LINK_RETIRED (k : Nat) : Nat := 0xc00050 + k * 0x8
def Reg.NOC_LINK_RETIRED_retired (k : Nat) : Fld := ⟨Reg.NOC_LINK_RETIRED k, 63, 0⟩
/-- NOC_ERR_CORR (07_clusters_and_network, R155). -/
def Reg.NOC_ERR_CORR : Nat := 0xc00070
def Reg.NOC_ERR_CORR_corrected : Fld := ⟨Reg.NOC_ERR_CORR, 31, 0⟩
/-- NOC_ERR_REPLAY (07_clusters_and_network, R155). -/
def Reg.NOC_ERR_REPLAY : Nat := 0xc00074
def Reg.NOC_ERR_REPLAY_replays : Fld := ⟨Reg.NOC_ERR_REPLAY, 31, 0⟩
/-- NOC_TIMEOUTS (07_clusters_and_network, R155). -/
def Reg.NOC_TIMEOUTS : Nat := 0xc00078
def Reg.NOC_TIMEOUTS_late : Fld := ⟨Reg.NOC_TIMEOUTS, 31, 16⟩
def Reg.NOC_TIMEOUTS_timeouts : Fld := ⟨Reg.NOC_TIMEOUTS, 15, 0⟩
/-- HBM_STATUS (08_memory, R182). -/
def Reg.HBM_STATUS : Nat := 0x800000
def Reg.HBM_STATUS_no_memory : Fld := ⟨Reg.HBM_STATUS, 17, 17⟩
def Reg.HBM_STATUS_layout7 : Fld := ⟨Reg.HBM_STATUS, 16, 16⟩
def Reg.HBM_STATUS_halted : Fld := ⟨Reg.HBM_STATUS, 15, 8⟩
def Reg.HBM_STATUS_present : Fld := ⟨Reg.HBM_STATUS, 7, 0⟩
/-- HBM_CFG (08_memory, R182). -/
def Reg.HBM_CFG : Nat := 0x800004
def Reg.HBM_CFG_wcb_age_us : Fld := ⟨Reg.HBM_CFG, 15, 8⟩
def Reg.HBM_CFG_scrub_hours : Fld := ⟨Reg.HBM_CFG, 7, 0⟩
/-- HBM_COMMIT (08_memory, R182). -/
def Reg.HBM_COMMIT : Nat := 0x800008
def Reg.HBM_COMMIT_commit : Fld := ⟨Reg.HBM_COMMIT, 0, 0⟩
/-- HBM_COMMIT_STATUS (08_memory, R182). -/
def Reg.HBM_COMMIT_STATUS : Nat := 0x80000c
def Reg.HBM_COMMIT_STATUS_commit_count : Fld := ⟨Reg.HBM_COMMIT_STATUS, 31, 16⟩
def Reg.HBM_COMMIT_STATUS_first_field : Fld := ⟨Reg.HBM_COMMIT_STATUS, 15, 8⟩
def Reg.HBM_COMMIT_STATUS_refused : Fld := ⟨Reg.HBM_COMMIT_STATUS, 0, 0⟩
/-- HBM_GRAN_RANGE (08_memory, R182). -/
def Reg.HBM_GRAN_RANGE : Nat := 0x800010
def Reg.HBM_GRAN_RANGE_count_m1 : Fld := ⟨Reg.HBM_GRAN_RANGE, 50, 32⟩
def Reg.HBM_GRAN_RANGE_first : Fld := ⟨Reg.HBM_GRAN_RANGE, 18, 0⟩
/-- HBM_GRAN_ATTR (08_memory, R182). -/
def Reg.HBM_GRAN_ATTR : Nat := 0x800018
def Reg.HBM_GRAN_ATTR_flags : Fld := ⟨Reg.HBM_GRAN_ATTR, 15, 10⟩
def Reg.HBM_GRAN_ATTR_mode : Fld := ⟨Reg.HBM_GRAN_ATTR, 9, 8⟩
def Reg.HBM_GRAN_ATTR_flags_lo : Fld := ⟨Reg.HBM_GRAN_ATTR, 7, 6⟩
def Reg.HBM_GRAN_ATTR_owner : Fld := ⟨Reg.HBM_GRAN_ATTR, 5, 0⟩
/-- HBM_GRAN_CMD (08_memory, R182). -/
def Reg.HBM_GRAN_CMD : Nat := 0x80001c
def Reg.HBM_GRAN_CMD_op : Fld := ⟨Reg.HBM_GRAN_CMD, 3, 0⟩
/-- HBM_GRAN_STATUS (08_memory, R182). -/
def Reg.HBM_GRAN_STATUS : Nat := 0x800020
def Reg.HBM_GRAN_STATUS_busy : Fld := ⟨Reg.HBM_GRAN_STATUS, 31, 31⟩
def Reg.HBM_GRAN_STATUS_result : Fld := ⟨Reg.HBM_GRAN_STATUS, 23, 20⟩
def Reg.HBM_GRAN_STATUS_granule : Fld := ⟨Reg.HBM_GRAN_STATUS, 18, 0⟩
/-- HBM_BEDROCK (08_memory, R182). -/
def Reg.HBM_BEDROCK : Nat := 0x800028
def Reg.HBM_BEDROCK_state : Fld := ⟨Reg.HBM_BEDROCK, 51, 50⟩
def Reg.HBM_BEDROCK_count : Fld := ⟨Reg.HBM_BEDROCK, 49, 32⟩
def Reg.HBM_BEDROCK_repairs : Fld := ⟨Reg.HBM_BEDROCK, 31, 19⟩
def Reg.HBM_BEDROCK_base : Fld := ⟨Reg.HBM_BEDROCK, 18, 0⟩
/-- HBM_BR_PEND (08_memory, R182). -/
def Reg.HBM_BR_PEND : Nat := 0x800030
def Reg.HBM_BR_PEND_pending : Fld := ⟨Reg.HBM_BR_PEND, 31, 31⟩
def Reg.HBM_BR_PEND_granule : Fld := ⟨Reg.HBM_BR_PEND, 18, 0⟩
/-- HBM_BR_SUPPLY (08_memory, R182). -/
def Reg.HBM_BR_SUPPLY : Nat := 0x800038
def Reg.HBM_BR_SUPPLY_addr : Fld := ⟨Reg.HBM_BR_SUPPLY, 47, 0⟩
/-- HBM_ROW_NEXT (08_memory, R182). -/
def Reg.HBM_ROW_NEXT : Nat := 0x800040
def Reg.HBM_ROW_NEXT_valid : Fld := ⟨Reg.HBM_ROW_NEXT, 63, 63⟩
def Reg.HBM_ROW_NEXT_count : Fld := ⟨Reg.HBM_ROW_NEXT, 47, 32⟩
def Reg.HBM_ROW_NEXT_controller : Fld := ⟨Reg.HBM_ROW_NEXT, 30, 27⟩
def Reg.HBM_ROW_NEXT_channel : Fld := ⟨Reg.HBM_ROW_NEXT, 26, 23⟩
def Reg.HBM_ROW_NEXT_pc : Fld := ⟨Reg.HBM_ROW_NEXT, 22, 22⟩
def Reg.HBM_ROW_NEXT_bank : Fld := ⟨Reg.HBM_ROW_NEXT, 21, 16⟩
def Reg.HBM_ROW_NEXT_row : Fld := ⟨Reg.HBM_ROW_NEXT, 15, 0⟩
/-- HBM_PPR_CMD (08_memory, R182). -/
def Reg.HBM_PPR_CMD : Nat := 0x800048
def Reg.HBM_PPR_CMD_dismiss : Fld := ⟨Reg.HBM_PPR_CMD, 1, 1⟩
def Reg.HBM_PPR_CMD_repair : Fld := ⟨Reg.HBM_PPR_CMD, 0, 0⟩
/-- HBM_STACK_STATUS (08_memory, R182). -/
def Reg.HBM_STACK_STATUS (s : Nat) : Nat := 0x800100 + s * 0x4
def Reg.HBM_STACK_STATUS_temp_c (s : Nat) : Fld := ⟨Reg.HBM_STACK_STATUS s, 15, 8⟩
def Reg.HBM_STACK_STATUS_state (s : Nat) : Fld := ⟨Reg.HBM_STACK_STATUS s, 2, 0⟩
/-- HBM_CTL_STATUS (08_memory, R182). -/
def Reg.HBM_CTL_STATUS (c : Nat) : Nat := 0x800200 + c * 0x10
def Reg.HBM_CTL_STATUS_retired (c : Nat) : Fld := ⟨Reg.HBM_CTL_STATUS c, 29, 16⟩
def Reg.HBM_CTL_STATUS_quarry_left (c : Nat) : Fld := ⟨Reg.HBM_CTL_STATUS c, 13, 0⟩
/-- HBM_CTL_ERR (08_memory, R182). -/
def Reg.HBM_CTL_ERR (c : Nat) : Nat := 0x800208 + c * 0x10
def Reg.HBM_CTL_ERR_uncorrected (c : Nat) : Fld := ⟨Reg.HBM_CTL_ERR c, 63, 32⟩
def Reg.HBM_CTL_ERR_corrected (c : Nat) : Fld := ⟨Reg.HBM_CTL_ERR c, 31, 0⟩
/-- REG_STATUS (09_regulation, R194). -/
def Reg.REG_STATUS : Nat := 0x700000
def Reg.REG_STATUS_oversub_events : Fld := ⟨Reg.REG_STATUS, 31, 16⟩
def Reg.REG_STATUS_below : Fld := ⟨Reg.REG_STATUS, 15, 8⟩
def Reg.REG_STATUS_short : Fld := ⟨Reg.REG_STATUS, 0, 0⟩
/-- REG_COMMIT (09_regulation, R194). -/
def Reg.REG_COMMIT : Nat := 0x700008
def Reg.REG_COMMIT_commit : Fld := ⟨Reg.REG_COMMIT, 0, 0⟩
/-- REG_COMMIT_STATUS (09_regulation, R194). -/
def Reg.REG_COMMIT_STATUS : Nat := 0x70000c
def Reg.REG_COMMIT_STATUS_commit_count : Fld := ⟨Reg.REG_COMMIT_STATUS, 31, 16⟩
def Reg.REG_COMMIT_STATUS_first_field : Fld := ⟨Reg.REG_COMMIT_STATUS, 15, 8⟩
def Reg.REG_COMMIT_STATUS_refused : Fld := ⟨Reg.REG_COMMIT_STATUS, 0, 0⟩
/-- REG_CHECK (09_regulation, R194). -/
def Reg.REG_CHECK : Nat := 0x700010
def Reg.REG_CHECK_controller : Fld := ⟨Reg.REG_CHECK, 19, 16⟩
def Reg.REG_CHECK_load_gbps : Fld := ⟨Reg.REG_CHECK, 15, 0⟩
/-- REG_CLASS_FLOOR (09_regulation, R194). -/
def Reg.REG_CLASS_FLOOR (n : Nat) : Nat := 0x700100 + n * 0x8
def Reg.REG_CLASS_FLOOR_placement (n : Nat) : Fld := ⟨Reg.REG_CLASS_FLOOR n, 43, 40⟩
def Reg.REG_CLASS_FLOOR_wr_pattern (n : Nat) : Fld := ⟨Reg.REG_CLASS_FLOOR n, 38, 36⟩
def Reg.REG_CLASS_FLOOR_rd_pattern (n : Nat) : Fld := ⟨Reg.REG_CLASS_FLOOR n, 34, 32⟩
def Reg.REG_CLASS_FLOOR_wr_floor (n : Nat) : Fld := ⟨Reg.REG_CLASS_FLOOR n, 31, 16⟩
def Reg.REG_CLASS_FLOOR_rd_floor (n : Nat) : Fld := ⟨Reg.REG_CLASS_FLOOR n, 15, 0⟩
/-- REG_CLASS_CTL (09_regulation, R194). -/
def Reg.REG_CLASS_CTL (n : Nat) : Nat := 0x700300 + n * 0x4
def Reg.REG_CLASS_CTL_lat_critical (n : Nat) : Fld := ⟨Reg.REG_CLASS_CTL n, 16, 16⟩
def Reg.REG_CLASS_CTL_target_ns (n : Nat) : Fld := ⟨Reg.REG_CLASS_CTL n, 15, 0⟩
/-- REG_CLASS_STAT (09_regulation, R194). -/
def Reg.REG_CLASS_STAT (n : Nat) : Nat := 0x700400 + n * 0x8
def Reg.REG_CLASS_STAT_served_gbps (n : Nat) : Fld := ⟨Reg.REG_CLASS_STAT n, 47, 32⟩
def Reg.REG_CLASS_STAT_below_floor (n : Nat) : Fld := ⟨Reg.REG_CLASS_STAT n, 18, 18⟩
def Reg.REG_CLASS_STAT_step (n : Nat) : Fld := ⟨Reg.REG_CLASS_STAT n, 17, 16⟩
def Reg.REG_CLASS_STAT_lat_ns (n : Nat) : Fld := ⟨Reg.REG_CLASS_STAT n, 15, 0⟩
/-- REG_CTL_STAT (09_regulation, R194). -/
def Reg.REG_CTL_STAT (h : Nat) : Nat := 0x700600 + h * 0x8
def Reg.REG_CTL_STAT_short (h : Nat) : Fld := ⟨Reg.REG_CTL_STAT h, 42, 42⟩
def Reg.REG_CTL_STAT_b_pct (h : Nat) : Fld := ⟨Reg.REG_CTL_STAT h, 41, 32⟩
def Reg.REG_CTL_STAT_r (h : Nat) : Fld := ⟨Reg.REG_CTL_STAT h, 26, 16⟩
def Reg.REG_CTL_STAT_occ (h : Nat) : Fld := ⟨Reg.REG_CTL_STAT h, 10, 0⟩
/-- SEG_BASE (10_translation, R196). -/
def Reg.SEG_BASE (c s : Nat) : Nat := 0x608000 + c * 0x200 + s * 0x20
def Reg.SEG_BASE_base (c s : Nat) : Fld := ⟨Reg.SEG_BASE c s, 55, 0⟩
/-- SEG_LIMIT (10_translation, R196). -/
def Reg.SEG_LIMIT (c s : Nat) : Nat := 0x608008 + c * 0x200 + s * 0x20
def Reg.SEG_LIMIT_limit (c s : Nat) : Fld := ⟨Reg.SEG_LIMIT c s, 56, 0⟩
/-- SEG_TARGET (10_translation, R196). -/
def Reg.SEG_TARGET (c s : Nat) : Nat := 0x608010 + c * 0x200 + s * 0x20
def Reg.SEG_TARGET_device_id (c s : Nat) : Fld := ⟨Reg.SEG_TARGET c s, 63, 48⟩
def Reg.SEG_TARGET_target_addr (c s : Nat) : Fld := ⟨Reg.SEG_TARGET c s, 47, 0⟩
/-- SEG_ATTR (10_translation, R196). -/
def Reg.SEG_ATTR (c s : Nat) : Nat := 0x608018 + c * 0x200 + s * 0x20
def Reg.SEG_ATTR_generation (c s : Nat) : Fld := ⟨Reg.SEG_ATTR c s, 31, 16⟩
def Reg.SEG_ATTR_key_slot (c s : Nat) : Fld := ⟨Reg.SEG_ATTR c s, 11, 8⟩
def Reg.SEG_ATTR_valid (c s : Nat) : Fld := ⟨Reg.SEG_ATTR c s, 6, 6⟩
def Reg.SEG_ATTR_coherent (c s : Nat) : Fld := ⟨Reg.SEG_ATTR c s, 5, 5⟩
def Reg.SEG_ATTR_atomic (c s : Nat) : Fld := ⟨Reg.SEG_ATTR c s, 4, 4⟩
def Reg.SEG_ATTR_write (c s : Nat) : Fld := ⟨Reg.SEG_ATTR c s, 3, 3⟩
def Reg.SEG_ATTR_read (c s : Nat) : Fld := ⟨Reg.SEG_ATTR c s, 2, 2⟩
def Reg.SEG_ATTR_kind (c s : Nat) : Fld := ⟨Reg.SEG_ATTR c s, 1, 0⟩
/-- XLAT_STATUS (10_translation, R215). -/
def Reg.XLAT_STATUS : Nat := 0x600000
def Reg.XLAT_STATUS_table_full : Fld := ⟨Reg.XLAT_STATUS, 16, 16⟩
def Reg.XLAT_STATUS_open_records : Fld := ⟨Reg.XLAT_STATUS, 15, 8⟩
def Reg.XLAT_STATUS_pending : Fld := ⟨Reg.XLAT_STATUS, 4, 0⟩
/-- XLAT_INV (10_translation, R215). -/
def Reg.XLAT_INV : Nat := 0x600004
def Reg.XLAT_INV_seg_mask : Fld := ⟨Reg.XLAT_INV, 31, 16⟩
def Reg.XLAT_INV_tag : Fld := ⟨Reg.XLAT_INV, 15, 8⟩
def Reg.XLAT_INV_sites : Fld := ⟨Reg.XLAT_INV, 7, 7⟩
def Reg.XLAT_INV_ctx : Fld := ⟨Reg.XLAT_INV, 5, 0⟩
/-- XLAT_COMMIT_STATUS (10_translation, R215). -/
def Reg.XLAT_COMMIT_STATUS : Nat := 0x600008
def Reg.XLAT_COMMIT_STATUS_commit_count : Fld := ⟨Reg.XLAT_COMMIT_STATUS, 31, 16⟩
def Reg.XLAT_COMMIT_STATUS_first_field : Fld := ⟨Reg.XLAT_COMMIT_STATUS, 15, 8⟩
def Reg.XLAT_COMMIT_STATUS_refused : Fld := ⟨Reg.XLAT_COMMIT_STATUS, 0, 0⟩
/-- XLAT_INV_DONE (10_translation, R215). -/
def Reg.XLAT_INV_DONE : Nat := 0x60000c
def Reg.XLAT_INV_DONE_busy : Fld := ⟨Reg.XLAT_INV_DONE, 31, 31⟩
def Reg.XLAT_INV_DONE_last_accepted : Fld := ⟨Reg.XLAT_INV_DONE, 15, 8⟩
def Reg.XLAT_INV_DONE_last_done : Fld := ⟨Reg.XLAT_INV_DONE, 7, 0⟩
/-- XLAT_CFG (10_translation, R215). -/
def Reg.XLAT_CFG : Nat := 0x600010
def Reg.XLAT_CFG_inv_irq_en : Fld := ⟨Reg.XLAT_CFG, 11, 11⟩
def Reg.XLAT_CFG_inv_vector : Fld := ⟨Reg.XLAT_CFG, 10, 0⟩
/-- XLAT_RESUME (10_translation, R215). -/
def Reg.XLAT_RESUME : Nat := 0x600014
def Reg.XLAT_RESUME_abort : Fld := ⟨Reg.XLAT_RESUME, 8, 8⟩
def Reg.XLAT_RESUME_record : Fld := ⟨Reg.XLAT_RESUME, 5, 0⟩
/-- XLAT_SITE_CTX (10_translation, R215). -/
def Reg.XLAT_SITE_CTX (j : Nat) : Nat := 0x600018 + j * 0x4
def Reg.XLAT_SITE_CTX_bound_odd (j : Nat) : Fld := ⟨Reg.XLAT_SITE_CTX j, 22, 22⟩
def Reg.XLAT_SITE_CTX_ctx_odd (j : Nat) : Fld := ⟨Reg.XLAT_SITE_CTX j, 21, 16⟩
def Reg.XLAT_SITE_CTX_bound_even (j : Nat) : Fld := ⟨Reg.XLAT_SITE_CTX j, 6, 6⟩
def Reg.XLAT_SITE_CTX_ctx_even (j : Nat) : Fld := ⟨Reg.XLAT_SITE_CTX j, 5, 0⟩
/-- XLAT_CTX (10_translation, R215). -/
def Reg.XLAT_CTX (c : Nat) : Nat := 0x600100 + c * 0x4
def Reg.XLAT_CTX_fault_irq_en (c : Nat) : Fld := ⟨Reg.XLAT_CTX c, 27, 27⟩
def Reg.XLAT_CTX_fault_vector (c : Nat) : Fld := ⟨Reg.XLAT_CTX c, 26, 16⟩
def Reg.XLAT_CTX_default_key (c : Nat) : Fld := ⟨Reg.XLAT_CTX c, 4, 1⟩
def Reg.XLAT_CTX_enable (c : Nat) : Fld := ⟨Reg.XLAT_CTX c, 0, 0⟩
/-- XLAT_FAULT_VA (10_translation, R215). -/
def Reg.XLAT_FAULT_VA (r : Nat) : Nat := 0x601000 + r * 0x20
def Reg.XLAT_FAULT_VA_va (r : Nat) : Fld := ⟨Reg.XLAT_FAULT_VA r, 55, 0⟩
/-- XLAT_FAULT_INFO (10_translation, R215). -/
def Reg.XLAT_FAULT_INFO (r : Nat) : Nat := 0x601008 + r * 0x20
def Reg.XLAT_FAULT_INFO_generation (r : Nat) : Fld := ⟨Reg.XLAT_FAULT_INFO r, 63, 48⟩
def Reg.XLAT_FAULT_INFO_join_count (r : Nat) : Fld := ⟨Reg.XLAT_FAULT_INFO r, 47, 32⟩
def Reg.XLAT_FAULT_INFO_state (r : Nat) : Fld := ⟨Reg.XLAT_FAULT_INFO r, 31, 30⟩
def Reg.XLAT_FAULT_INFO_agent_class (r : Nat) : Fld := ⟨Reg.XLAT_FAULT_INFO r, 23, 20⟩
def Reg.XLAT_FAULT_INFO_access (r : Nat) : Fld := ⟨Reg.XLAT_FAULT_INFO r, 17, 16⟩
def Reg.XLAT_FAULT_INFO_kind (r : Nat) : Fld := ⟨Reg.XLAT_FAULT_INFO r, 14, 12⟩
def Reg.XLAT_FAULT_INFO_segment (r : Nat) : Fld := ⟨Reg.XLAT_FAULT_INFO r, 11, 8⟩
def Reg.XLAT_FAULT_INFO_no_segment (r : Nat) : Fld := ⟨Reg.XLAT_FAULT_INFO r, 6, 6⟩
def Reg.XLAT_FAULT_INFO_ctx (r : Nat) : Fld := ⟨Reg.XLAT_FAULT_INFO r, 5, 0⟩
/-- XLAT_FAULT_AGENT (10_translation, R215). -/
def Reg.XLAT_FAULT_AGENT (r : Nat) : Nat := 0x601010 + r * 0x20
def Reg.XLAT_FAULT_AGENT_desc_seq (r : Nat) : Fld := ⟨Reg.XLAT_FAULT_AGENT r, 63, 32⟩
def Reg.XLAT_FAULT_AGENT_agent (r : Nat) : Fld := ⟨Reg.XLAT_FAULT_AGENT r, 15, 0⟩
/-- XLAT_FAULT_TIME (10_translation, R215). -/
def Reg.XLAT_FAULT_TIME (r : Nat) : Nat := 0x601018 + r * 0x20
def Reg.XLAT_FAULT_TIME_time (r : Nat) : Fld := ⟨Reg.XLAT_FAULT_TIME r, 63, 0⟩
/-- QM_STATUS (11_rings_and_engines, R244). -/
def Reg.QM_STATUS : Nat := 0x500000
def Reg.QM_STATUS_halted : Fld := ⟨Reg.QM_STATUS, 29, 16⟩
def Reg.QM_STATUS_last_halted : Fld := ⟨Reg.QM_STATUS, 12, 0⟩
/-- QM_COMMIT (11_rings_and_engines, R244). -/
def Reg.QM_COMMIT : Nat := 0x500004
def Reg.QM_COMMIT_commit : Fld := ⟨Reg.QM_COMMIT, 31, 31⟩
def Reg.QM_COMMIT_ring : Fld := ⟨Reg.QM_COMMIT, 12, 0⟩
/-- QM_COMMIT_STATUS (11_rings_and_engines, R244). -/
def Reg.QM_COMMIT_STATUS : Nat := 0x500008
def Reg.QM_COMMIT_STATUS_commit_count : Fld := ⟨Reg.QM_COMMIT_STATUS, 31, 16⟩
def Reg.QM_COMMIT_STATUS_first_field : Fld := ⟨Reg.QM_COMMIT_STATUS, 15, 8⟩
def Reg.QM_COMMIT_STATUS_refused : Fld := ⟨Reg.QM_COMMIT_STATUS, 0, 0⟩
/-- QM_IRQ_CAUSE (11_rings_and_engines, R244). -/
def Reg.QM_IRQ_CAUSE : Nat := 0x50000c
def Reg.QM_IRQ_CAUSE_evt_failed : Fld := ⟨Reg.QM_IRQ_CAUSE, 4, 4⟩
def Reg.QM_IRQ_CAUSE_fatal : Fld := ⟨Reg.QM_IRQ_CAUSE, 3, 3⟩
def Reg.QM_IRQ_CAUSE_perf_ovf : Fld := ⟨Reg.QM_IRQ_CAUSE, 2, 2⟩
def Reg.QM_IRQ_CAUSE_ring_halted : Fld := ⟨Reg.QM_IRQ_CAUSE, 1, 1⟩
def Reg.QM_IRQ_CAUSE_event : Fld := ⟨Reg.QM_IRQ_CAUSE, 0, 0⟩
/-- QM_IRQ_CFG (11_rings_and_engines, R244). -/
def Reg.QM_IRQ_CFG : Nat := 0x500010
def Reg.QM_IRQ_CFG_cause_en : Fld := ⟨Reg.QM_IRQ_CFG, 20, 16⟩
def Reg.QM_IRQ_CFG_vector : Fld := ⟨Reg.QM_IRQ_CFG, 10, 0⟩
/-- QM_EVT_CFG (11_rings_and_engines, R244). -/
def Reg.QM_EVT_CFG : Nat := 0x500014
def Reg.QM_EVT_CFG_enable : Fld := ⟨Reg.QM_EVT_CFG, 31, 31⟩
def Reg.QM_EVT_CFG_key_slot : Fld := ⟨Reg.QM_EVT_CFG, 23, 20⟩
def Reg.QM_EVT_CFG_size_log2 : Fld := ⟨Reg.QM_EVT_CFG, 3, 0⟩
/-- QM_EVT_BASE (11_rings_and_engines, R244). -/
def Reg.QM_EVT_BASE : Nat := 0x500018
def Reg.QM_EVT_BASE_base : Fld := ⟨Reg.QM_EVT_BASE, 47, 0⟩
/-- QM_EVT_SEQ (11_rings_and_engines, R244). -/
def Reg.QM_EVT_SEQ : Nat := 0x500020
def Reg.QM_EVT_SEQ_next : Fld := ⟨Reg.QM_EVT_SEQ, 31, 0⟩
/-- QM_RING_BASE (11_rings_and_engines, R244). -/
def Reg.QM_RING_BASE (r : Nat) : Nat := 0x580000 + r * 0x40
def Reg.QM_RING_BASE_base (r : Nat) : Fld := ⟨Reg.QM_RING_BASE r, 47, 0⟩
/-- QM_RING_CQ (11_rings_and_engines, R244). -/
def Reg.QM_RING_CQ (r : Nat) : Nat := 0x580008 + r * 0x40
def Reg.QM_RING_CQ_cq (r : Nat) : Fld := ⟨Reg.QM_RING_CQ r, 47, 0⟩
/-- QM_RING_CFG (11_rings_and_engines, R244). -/
def Reg.QM_RING_CFG (r : Nat) : Nat := 0x580010 + r * 0x40
def Reg.QM_RING_CFG_engine (r : Nat) : Fld := ⟨Reg.QM_RING_CFG r, 27, 22⟩
def Reg.QM_RING_CFG_key_slot (r : Nat) : Fld := ⟨Reg.QM_RING_CFG r, 21, 18⟩
def Reg.QM_RING_CFG_ctx (r : Nat) : Fld := ⟨Reg.QM_RING_CFG r, 17, 12⟩
def Reg.QM_RING_CFG_class (r : Nat) : Fld := ⟨Reg.QM_RING_CFG r, 11, 9⟩
def Reg.QM_RING_CFG_size_log2 (r : Nat) : Fld := ⟨Reg.QM_RING_CFG r, 8, 4⟩
def Reg.QM_RING_CFG_halt_on_error (r : Nat) : Fld := ⟨Reg.QM_RING_CFG r, 2, 2⟩
def Reg.QM_RING_CFG_legacy (r : Nat) : Fld := ⟨Reg.QM_RING_CFG r, 1, 1⟩
def Reg.QM_RING_CFG_enable (r : Nat) : Fld := ⟨Reg.QM_RING_CFG r, 0, 0⟩
/-- QM_RING_IRQ (11_rings_and_engines, R244). -/
def Reg.QM_RING_IRQ (r : Nat) : Nat := 0x580014 + r * 0x40
def Reg.QM_RING_IRQ_mod_us (r : Nat) : Fld := ⟨Reg.QM_RING_IRQ r, 31, 24⟩
def Reg.QM_RING_IRQ_mod_count (r : Nat) : Fld := ⟨Reg.QM_RING_IRQ r, 23, 16⟩
def Reg.QM_RING_IRQ_irq_en (r : Nat) : Fld := ⟨Reg.QM_RING_IRQ r, 11, 11⟩
def Reg.QM_RING_IRQ_vector (r : Nat) : Fld := ⟨Reg.QM_RING_IRQ r, 10, 0⟩
/-- QM_RING_QUADS (11_rings_and_engines, R244). -/
def Reg.QM_RING_QUADS (r : Nat) : Nat := 0x580018 + r * 0x40
def Reg.QM_RING_QUADS_quads (r : Nat) : Fld := ⟨Reg.QM_RING_QUADS r, 31, 0⟩
/-- QM_RING_STATE (11_rings_and_engines, R244). -/
def Reg.QM_RING_STATE (r : Nat) : Nat := 0x58001c + r * 0x40
def Reg.QM_RING_STATE_tail (r : Nat) : Fld := ⟨Reg.QM_RING_STATE r, 31, 16⟩
def Reg.QM_RING_STATE_cause (r : Nat) : Fld := ⟨Reg.QM_RING_STATE r, 15, 8⟩
def Reg.QM_RING_STATE_state (r : Nat) : Fld := ⟨Reg.QM_RING_STATE r, 2, 0⟩
/-- QM_RING_SEQ (11_rings_and_engines, R244). -/
def Reg.QM_RING_SEQ (r : Nat) : Nat := 0x580020 + r * 0x40
def Reg.QM_RING_SEQ_next_done (r : Nat) : Fld := ⟨Reg.QM_RING_SEQ r, 31, 0⟩
/-- QM_RING_FETCH (11_rings_and_engines, R244). -/
def Reg.QM_RING_FETCH (r : Nat) : Nat := 0x580024 + r * 0x40
def Reg.QM_RING_FETCH_next_fetch (r : Nat) : Fld := ⟨Reg.QM_RING_FETCH r, 31, 0⟩
/-- QM_RING_CMD (11_rings_and_engines, R244). -/
def Reg.QM_RING_CMD (r : Nat) : Nat := 0x580028 + r * 0x40
def Reg.QM_RING_CMD_op (r : Nat) : Fld := ⟨Reg.QM_RING_CMD r, 1, 0⟩
/-- CRC_FENCED (12_check_units, R255). -/
def Reg.CRC_FENCED : Nat := 0x2c00000
def Reg.CRC_FENCED_fenced : Fld := ⟨Reg.CRC_FENCED, 31, 0⟩
/-- CRC_VAL (12_check_units, R255). -/
def Reg.CRC_VAL (u : Nat) : Nat := 0x2c00100 + u * 0x10
def Reg.CRC_VAL_running (u : Nat) : Fld := ⟨Reg.CRC_VAL u, 63, 0⟩
/-- CRC_CTL (12_check_units, R255). -/
def Reg.CRC_CTL (u : Nat) : Nat := 0x2c00108 + u * 0x10
def Reg.CRC_CTL_busy (u : Nat) : Fld := ⟨Reg.CRC_CTL u, 31, 31⟩
def Reg.CRC_CTL_fenced (u : Nat) : Fld := ⟨Reg.CRC_CTL u, 30, 30⟩
def Reg.CRC_CTL_owned (u : Nat) : Fld := ⟨Reg.CRC_CTL u, 14, 14⟩
def Reg.CRC_CTL_owner (u : Nat) : Fld := ⟨Reg.CRC_CTL u, 13, 8⟩
def Reg.CRC_CTL_poly (u : Nat) : Fld := ⟨Reg.CRC_CTL u, 1, 0⟩
/-- SITE_LINK_CFG (13_site_links, R273). -/
def Reg.SITE_LINK_CFG (n : Nat) : Nat := 0x1000040 + n * 0x80000
def Reg.SITE_LINK_CFG_retry_limit (n : Nat) : Fld := ⟨Reg.SITE_LINK_CFG n, 31, 16⟩
def Reg.SITE_LINK_CFG_l1_enable (n : Nat) : Fld := ⟨Reg.SITE_LINK_CFG n, 8, 8⟩
def Reg.SITE_LINK_CFG_max_rate (n : Nat) : Fld := ⟨Reg.SITE_LINK_CFG n, 2, 0⟩
/-- SITE_LINK_STATUS (13_site_links, R273). -/
def Reg.SITE_LINK_STATUS (n : Nat) : Nat := 0x1000044 + n * 0x80000
def Reg.SITE_LINK_STATUS_bw_gbps (n : Nat) : Fld := ⟨Reg.SITE_LINK_STATUS n, 27, 16⟩
def Reg.SITE_LINK_STATUS_version (n : Nat) : Fld := ⟨Reg.SITE_LINK_STATUS n, 15, 12⟩
def Reg.SITE_LINK_STATUS_cxl (n : Nat) : Fld := ⟨Reg.SITE_LINK_STATUS n, 9, 9⟩
def Reg.SITE_LINK_STATUS_spare_free (n : Nat) : Fld := ⟨Reg.SITE_LINK_STATUS n, 8, 8⟩
def Reg.SITE_LINK_STATUS_half_count (n : Nat) : Fld := ⟨Reg.SITE_LINK_STATUS n, 7, 4⟩
def Reg.SITE_LINK_STATUS_in_service (n : Nat) : Fld := ⟨Reg.SITE_LINK_STATUS n, 3, 0⟩
/-- SITE_LMAP (13_site_links, R273). -/
def Reg.SITE_LMAP (n : Nat) : Nat := 0x1000048 + n * 0x80000
def Reg.SITE_LMAP_lmap (n : Nat) : Fld := ⟨Reg.SITE_LMAP n, 31, 0⟩
/-- SITE_SPREAD_EPOCH (13_site_links, R273). -/
def Reg.SITE_SPREAD_EPOCH (n : Nat) : Nat := 0x100004c + n * 0x80000
def Reg.SITE_SPREAD_EPOCH_moving (n : Nat) : Fld := ⟨Reg.SITE_SPREAD_EPOCH n, 8, 8⟩
def Reg.SITE_SPREAD_EPOCH_epoch (n : Nat) : Fld := ⟨Reg.SITE_SPREAD_EPOCH n, 7, 0⟩
/-- SITE_SPREAD (13_site_links, R273). -/
def Reg.SITE_SPREAD (n i : Nat) : Nat := 0x1000060 + n * 0x80000 + i * 0x8
def Reg.SITE_SPREAD_entries (n i : Nat) : Fld := ⟨Reg.SITE_SPREAD n i, 63, 0⟩
/-- SITE_REC_PEND (13_site_links, R273). -/
def Reg.SITE_REC_PEND (n : Nat) : Nat := 0x1000080 + n * 0x80000
def Reg.SITE_REC_PEND_pending (n : Nat) : Fld := ⟨Reg.SITE_REC_PEND n, 31, 31⟩
def Reg.SITE_REC_PEND_module (n : Nat) : Fld := ⟨Reg.SITE_REC_PEND n, 27, 24⟩
def Reg.SITE_REC_PEND_logical (n : Nat) : Fld := ⟨Reg.SITE_REC_PEND n, 23, 20⟩
def Reg.SITE_REC_PEND_reason (n : Nat) : Fld := ⟨Reg.SITE_REC_PEND n, 19, 16⟩
def Reg.SITE_REC_PEND_offered (n : Nat) : Fld := ⟨Reg.SITE_REC_PEND n, 4, 1⟩
/-- SITE_REC_CMD (13_site_links, R273). -/
def Reg.SITE_REC_CMD (n : Nat) : Nat := 0x1000084 + n * 0x80000
def Reg.SITE_REC_CMD_module (n : Nat) : Fld := ⟨Reg.SITE_REC_CMD n, 11, 8⟩
def Reg.SITE_REC_CMD_op (n : Nat) : Fld := ⟨Reg.SITE_REC_CMD n, 3, 0⟩
/-- SITE_MISROUTE (13_site_links, R273). -/
def Reg.SITE_MISROUTE (n : Nat) : Nat := 0x1000088 + n * 0x80000
def Reg.SITE_MISROUTE_misrouted (n : Nat) : Fld := ⟨Reg.SITE_MISROUTE n, 31, 0⟩
/-- SITE_SB_ADDR (13_site_links, R273). -/
def Reg.SITE_SB_ADDR (n : Nat) : Nat := 0x1000090 + n * 0x80000
def Reg.SITE_SB_ADDR_module (n : Nat) : Fld := ⟨Reg.SITE_SB_ADDR n, 35, 32⟩
def Reg.SITE_SB_ADDR_addr (n : Nat) : Fld := ⟨Reg.SITE_SB_ADDR n, 31, 0⟩
/-- SITE_SB_DATA (13_site_links, R273). -/
def Reg.SITE_SB_DATA (n : Nat) : Nat := 0x1000098 + n * 0x80000
def Reg.SITE_SB_DATA_data (n : Nat) : Fld := ⟨Reg.SITE_SB_DATA n, 63, 0⟩
/-- SITE_SB_CTL (13_site_links, R273). -/
def Reg.SITE_SB_CTL (n : Nat) : Nat := 0x10000a0 + n * 0x80000
def Reg.SITE_SB_CTL_size8 (n : Nat) : Fld := ⟨Reg.SITE_SB_CTL n, 2, 2⟩
def Reg.SITE_SB_CTL_write (n : Nat) : Fld := ⟨Reg.SITE_SB_CTL n, 1, 1⟩
def Reg.SITE_SB_CTL_go (n : Nat) : Fld := ⟨Reg.SITE_SB_CTL n, 0, 0⟩
/-- SITE_SB_STATUS (13_site_links, R273). -/
def Reg.SITE_SB_STATUS (n : Nat) : Nat := 0x10000a4 + n * 0x80000
def Reg.SITE_SB_STATUS_busy (n : Nat) : Fld := ⟨Reg.SITE_SB_STATUS n, 31, 31⟩
def Reg.SITE_SB_STATUS_end (n : Nat) : Fld := ⟨Reg.SITE_SB_STATUS n, 2, 0⟩
/-- SITE_MOD_STATUS (13_site_links, R273). -/
def Reg.SITE_MOD_STATUS (n m : Nat) : Nat := 0x1000100 + n * 0x80000 + m * 0x10
def Reg.SITE_MOD_STATUS_retire_cause (n m : Nat) : Fld := ⟨Reg.SITE_MOD_STATUS n m, 31, 28⟩
def Reg.SITE_MOD_STATUS_mismatches (n m : Nat) : Fld := ⟨Reg.SITE_MOD_STATUS n m, 25, 24⟩
def Reg.SITE_MOD_STATUS_retrains (n m : Nat) : Fld := ⟨Reg.SITE_MOD_STATUS n m, 23, 16⟩
def Reg.SITE_MOD_STATUS_repairs (n m : Nat) : Fld := ⟨Reg.SITE_MOD_STATUS n m, 15, 12⟩
def Reg.SITE_MOD_STATUS_logical (n m : Nat) : Fld := ⟨Reg.SITE_MOD_STATUS n m, 11, 8⟩
def Reg.SITE_MOD_STATUS_half (n m : Nat) : Fld := ⟨Reg.SITE_MOD_STATUS n m, 7, 7⟩
def Reg.SITE_MOD_STATUS_rate (n m : Nat) : Fld := ⟨Reg.SITE_MOD_STATUS n m, 6, 4⟩
def Reg.SITE_MOD_STATUS_state (n m : Nat) : Fld := ⟨Reg.SITE_MOD_STATUS n m, 3, 0⟩
/-- SITE_MOD_ERR (13_site_links, R273). -/
def Reg.SITE_MOD_ERR (n m : Nat) : Nat := 0x1000108 + n * 0x80000 + m * 0x10
def Reg.SITE_MOD_ERR_crc_errors (n m : Nat) : Fld := ⟨Reg.SITE_MOD_ERR n m, 63, 32⟩
def Reg.SITE_MOD_ERR_replays (n m : Nat) : Fld := ⟨Reg.SITE_MOD_ERR n m, 31, 0⟩
/-- COH_STATUS (14_site_coherence, R290). -/
def Reg.COH_STATUS : Nat := 0x1400000
def Reg.COH_STATUS_caching : Fld := ⟨Reg.COH_STATUS, 7, 0⟩
/-- COH_CFG (14_site_coherence, R290). -/
def Reg.COH_CFG : Nat := 0x1400004
def Reg.COH_CFG_snoop_limit_us : Fld := ⟨Reg.COH_CFG, 9, 0⟩
/-- COH_COMMIT (14_site_coherence, R290). -/
def Reg.COH_COMMIT : Nat := 0x1400008
def Reg.COH_COMMIT_commit : Fld := ⟨Reg.COH_COMMIT, 0, 0⟩
/-- COH_COMMIT_STATUS (14_site_coherence, R290). -/
def Reg.COH_COMMIT_STATUS : Nat := 0x140000c
def Reg.COH_COMMIT_STATUS_commit_count : Fld := ⟨Reg.COH_COMMIT_STATUS, 31, 16⟩
def Reg.COH_COMMIT_STATUS_first_field : Fld := ⟨Reg.COH_COMMIT_STATUS, 15, 8⟩
def Reg.COH_COMMIT_STATUS_refused : Fld := ⟨Reg.COH_COMMIT_STATUS, 0, 0⟩
/-- COH_SITE_ENTRIES (14_site_coherence, R290). -/
def Reg.COH_SITE_ENTRIES (n : Nat) : Nat := 0x1400100 + n * 0x20
def Reg.COH_SITE_ENTRIES_peak (n : Nat) : Fld := ⟨Reg.COH_SITE_ENTRIES n, 50, 32⟩
def Reg.COH_SITE_ENTRIES_in_use (n : Nat) : Fld := ⟨Reg.COH_SITE_ENTRIES n, 18, 0⟩
/-- COH_SITE_RECALLS (14_site_coherence, R290). -/
def Reg.COH_SITE_RECALLS (n : Nat) : Nat := 0x1400108 + n * 0x20
def Reg.COH_SITE_RECALLS_stale_wb (n : Nat) : Fld := ⟨Reg.COH_SITE_RECALLS n, 63, 32⟩
def Reg.COH_SITE_RECALLS_recalls (n : Nat) : Fld := ⟨Reg.COH_SITE_RECALLS n, 31, 0⟩
/-- COH_SITE_ERR (14_site_coherence, R290). -/
def Reg.COH_SITE_ERR (n : Nat) : Nat := 0x1400110 + n * 0x20
def Reg.COH_SITE_ERR_refused (n : Nat) : Fld := ⟨Reg.COH_SITE_ERR n, 63, 32⟩
def Reg.COH_SITE_ERR_late (n : Nat) : Fld := ⟨Reg.COH_SITE_ERR n, 31, 0⟩
/-- HOST_STATUS (15_host_endpoint, R312). -/
def Reg.HOST_STATUS : Nat := 0x400000
def Reg.HOST_STATUS_dstate : Fld := ⟨Reg.HOST_STATUS, 19, 18⟩
def Reg.HOST_STATUS_host_lost : Fld := ⟨Reg.HOST_STATUS, 17, 17⟩
def Reg.HOST_STATUS_link_up : Fld := ⟨Reg.HOST_STATUS, 16, 16⟩
def Reg.HOST_STATUS_ide_secure : Fld := ⟨Reg.HOST_STATUS, 15, 8⟩
def Reg.HOST_STATUS_tdisp : Fld := ⟨Reg.HOST_STATUS, 2, 0⟩
/-- HOST_LINK_STATUS (15_host_endpoint, R312). -/
def Reg.HOST_LINK_STATUS : Nat := 0x400004
def Reg.HOST_LINK_STATUS_retrains : Fld := ⟨Reg.HOST_LINK_STATUS, 31, 24⟩
def Reg.HOST_LINK_STATUS_pstate : Fld := ⟨Reg.HOST_LINK_STATUS, 18, 16⟩
def Reg.HOST_LINK_STATUS_degraded : Fld := ⟨Reg.HOST_LINK_STATUS, 15, 15⟩
def Reg.HOST_LINK_STATUS_flit : Fld := ⟨Reg.HOST_LINK_STATUS, 14, 14⟩
def Reg.HOST_LINK_STATUS_speed : Fld := ⟨Reg.HOST_LINK_STATUS, 11, 8⟩
def Reg.HOST_LINK_STATUS_width : Fld := ⟨Reg.HOST_LINK_STATUS, 4, 0⟩
/-- HOST_CFG (15_host_endpoint, R312). -/
def Reg.HOST_CFG : Nat := 0x400008
def Reg.HOST_CFG_msix_key : Fld := ⟨Reg.HOST_CFG, 27, 24⟩
def Reg.HOST_CFG_l0p_en : Fld := ⟨Reg.HOST_CFG, 23, 23⟩
def Reg.HOST_CFG_cto_ms : Fld := ⟨Reg.HOST_CFG, 22, 16⟩
def Reg.HOST_CFG_l1_idle_us : Fld := ⟨Reg.HOST_CFG, 15, 0⟩
/-- HOST_COMMIT (15_host_endpoint, R312). -/
def Reg.HOST_COMMIT : Nat := 0x40000c
def Reg.HOST_COMMIT_commit : Fld := ⟨Reg.HOST_COMMIT, 0, 0⟩
/-- HOST_COMMIT_STATUS (15_host_endpoint, R312). -/
def Reg.HOST_COMMIT_STATUS : Nat := 0x400010
def Reg.HOST_COMMIT_STATUS_commit_count : Fld := ⟨Reg.HOST_COMMIT_STATUS, 31, 16⟩
def Reg.HOST_COMMIT_STATUS_first_field : Fld := ⟨Reg.HOST_COMMIT_STATUS, 15, 8⟩
def Reg.HOST_COMMIT_STATUS_refused : Fld := ⟨Reg.HOST_COMMIT_STATUS, 0, 0⟩
/-- HOST_WAKE_EN (15_host_endpoint, R312). -/
def Reg.HOST_WAKE_EN : Nat := 0x400014
def Reg.HOST_WAKE_EN_trig : Fld := ⟨Reg.HOST_WAKE_EN, 4, 4⟩
def Reg.HOST_WAKE_EN_mgmt : Fld := ⟨Reg.HOST_WAKE_EN, 3, 3⟩
def Reg.HOST_WAKE_EN_cairn : Fld := ⟨Reg.HOST_WAKE_EN, 2, 2⟩
def Reg.HOST_WAKE_EN_stream : Fld := ⟨Reg.HOST_WAKE_EN, 1, 1⟩
def Reg.HOST_WAKE_EN_fatal : Fld := ⟨Reg.HOST_WAKE_EN, 0, 0⟩
/-- HOST_ERR (15_host_endpoint, R312). -/
def Reg.HOST_ERR : Nat := 0x400018
def Reg.HOST_ERR_ide_fail : Fld := ⟨Reg.HOST_ERR, 63, 48⟩
def Reg.HOST_ERR_inbound_ur : Fld := ⟨Reg.HOST_ERR, 47, 32⟩
def Reg.HOST_ERR_outbound_err : Fld := ⟨Reg.HOST_ERR, 31, 0⟩
/-- HOST_BAD (15_host_endpoint, R312). -/
def Reg.HOST_BAD : Nat := 0x400020
def Reg.HOST_BAD_bad_entry : Fld := ⟨Reg.HOST_BAD, 9, 0⟩
/-- HOST_WIN (15_host_endpoint, R312). -/
def Reg.HOST_WIN (e : Nat) : Nat := 0x401000 + e * 0x8
def Reg.HOST_WIN_target (e : Nat) : Fld := ⟨Reg.HOST_WIN e, 47, 28⟩
def Reg.HOST_WIN_ctx (e : Nat) : Fld := ⟨Reg.HOST_WIN e, 13, 8⟩
def Reg.HOST_WIN_write (e : Nat) : Fld := ⟨Reg.HOST_WIN e, 2, 2⟩
def Reg.HOST_WIN_read (e : Nat) : Fld := ⟨Reg.HOST_WIN e, 1, 1⟩
def Reg.HOST_WIN_valid (e : Nat) : Fld := ⟨Reg.HOST_WIN e, 0, 0⟩
/-- HOST_OB (15_host_endpoint, R312). -/
def Reg.HOST_OB (o : Nat) : Nat := 0x402000 + o * 0x8
def Reg.HOST_OB_host_base (o : Nat) : Fld := ⟨Reg.HOST_OB o, 63, 12⟩
def Reg.HOST_OB_atomic (o : Nat) : Fld := ⟨Reg.HOST_OB o, 3, 3⟩
def Reg.HOST_OB_write (o : Nat) : Fld := ⟨Reg.HOST_OB o, 2, 2⟩
def Reg.HOST_OB_read (o : Nat) : Fld := ⟨Reg.HOST_OB o, 1, 1⟩
def Reg.HOST_OB_valid (o : Nat) : Fld := ⟨Reg.HOST_OB o, 0, 0⟩
/-- FAB_STATUS (16_fabric_and_hierarchy, R338). -/
def Reg.FAB_STATUS : Nat := 0x1800000
def Reg.FAB_STATUS_ports_up : Fld := ⟨Reg.FAB_STATUS, 28, 24⟩
def Reg.FAB_STATUS_conns_open : Fld := ⟨Reg.FAB_STATUS, 16, 0⟩
/-- FAB_CFG (16_fabric_and_hierarchy, R338). -/
def Reg.FAB_CFG : Nat := 0x1800004
def Reg.FAB_CFG_retry_limit : Fld := ⟨Reg.FAB_CFG, 31, 16⟩
def Reg.FAB_CFG_peer_limit_ms : Fld := ⟨Reg.FAB_CFG, 9, 0⟩
/-- FAB_COMMIT (16_fabric_and_hierarchy, R338). -/
def Reg.FAB_COMMIT : Nat := 0x1800008
def Reg.FAB_COMMIT_commit : Fld := ⟨Reg.FAB_COMMIT, 0, 0⟩
/-- FAB_COMMIT_STATUS (16_fabric_and_hierarchy, R338). -/
def Reg.FAB_COMMIT_STATUS : Nat := 0x180000c
def Reg.FAB_COMMIT_STATUS_commit_count : Fld := ⟨Reg.FAB_COMMIT_STATUS, 31, 16⟩
def Reg.FAB_COMMIT_STATUS_first_field : Fld := ⟨Reg.FAB_COMMIT_STATUS, 15, 8⟩
def Reg.FAB_COMMIT_STATUS_refused : Fld := ⟨Reg.FAB_COMMIT_STATUS, 0, 0⟩
/-- FAB_IDENT (16_fabric_and_hierarchy, R338). -/
def Reg.FAB_IDENT : Nat := 0x1800010
def Reg.FAB_IDENT_configured : Fld := ⟨Reg.FAB_IDENT, 28, 28⟩
def Reg.FAB_IDENT_deputy_member : Fld := ⟨Reg.FAB_IDENT, 27, 22⟩
def Reg.FAB_IDENT_manager_member : Fld := ⟨Reg.FAB_IDENT, 21, 16⟩
def Reg.FAB_IDENT_device_id : Fld := ⟨Reg.FAB_IDENT, 15, 0⟩
/-- FAB_TOP (16_fabric_and_hierarchy, R338). -/
def Reg.FAB_TOP : Nat := 0x1800014
def Reg.FAB_TOP_top_deputy_group : Fld := ⟨Reg.FAB_TOP, 19, 10⟩
def Reg.FAB_TOP_top_group : Fld := ⟨Reg.FAB_TOP, 9, 0⟩
/-- FAB_GROUP (16_fabric_and_hierarchy, R338). -/
def Reg.FAB_GROUP : Nat := 0x1800018
def Reg.FAB_GROUP_epoch : Fld := ⟨Reg.FAB_GROUP, 63, 32⟩
def Reg.FAB_GROUP_deputy : Fld := ⟨Reg.FAB_GROUP, 21, 16⟩
def Reg.FAB_GROUP_manager : Fld := ⟨Reg.FAB_GROUP, 13, 8⟩
def Reg.FAB_GROUP_top_deputy : Fld := ⟨Reg.FAB_GROUP, 4, 4⟩
def Reg.FAB_GROUP_top : Fld := ⟨Reg.FAB_GROUP, 3, 3⟩
def Reg.FAB_GROUP_role : Fld := ⟨Reg.FAB_GROUP, 2, 0⟩
/-- FAB_MEMBERS (16_fabric_and_hierarchy, R338). -/
def Reg.FAB_MEMBERS : Nat := 0x1800020
def Reg.FAB_MEMBERS_live : Fld := ⟨Reg.FAB_MEMBERS, 63, 0⟩
/-- FAB_QUARANTINE (16_fabric_and_hierarchy, R338). -/
def Reg.FAB_QUARANTINE : Nat := 0x1800028
def Reg.FAB_QUARANTINE_quarantined : Fld := ⟨Reg.FAB_QUARANTINE, 63, 0⟩
/-- FAB_DROPS (16_fabric_and_hierarchy, R338). -/
def Reg.FAB_DROPS : Nat := 0x1800030
def Reg.FAB_DROPS_no_route : Fld := ⟨Reg.FAB_DROPS, 63, 32⟩
def Reg.FAB_DROPS_hop_limit : Fld := ⟨Reg.FAB_DROPS, 31, 0⟩
/-- FAB_CONN_SEL (16_fabric_and_hierarchy, R338). -/
def Reg.FAB_CONN_SEL : Nat := 0x1800038
def Reg.FAB_CONN_SEL_entry : Fld := ⟨Reg.FAB_CONN_SEL, 15, 0⟩
/-- FAB_CONN_BAD (16_fabric_and_hierarchy, R338). -/
def Reg.FAB_CONN_BAD : Nat := 0x180003c
def Reg.FAB_CONN_BAD_reason : Fld := ⟨Reg.FAB_CONN_BAD, 18, 16⟩
def Reg.FAB_CONN_BAD_entry : Fld := ⟨Reg.FAB_CONN_BAD, 15, 0⟩
/-- FAB_CONN_DATA (16_fabric_and_hierarchy, R338). -/
def Reg.FAB_CONN_DATA : Nat := 0x1800040
def Reg.FAB_CONN_DATA_state : Fld := ⟨Reg.FAB_CONN_DATA, 50, 48⟩
def Reg.FAB_CONN_DATA_peer_index : Fld := ⟨Reg.FAB_CONN_DATA, 47, 32⟩
def Reg.FAB_CONN_DATA_enable : Fld := ⟨Reg.FAB_CONN_DATA, 31, 31⟩
def Reg.FAB_CONN_DATA_scratch : Fld := ⟨Reg.FAB_CONN_DATA, 29, 29⟩
def Reg.FAB_CONN_DATA_atomic : Fld := ⟨Reg.FAB_CONN_DATA, 28, 28⟩
def Reg.FAB_CONN_DATA_wr : Fld := ⟨Reg.FAB_CONN_DATA, 27, 27⟩
def Reg.FAB_CONN_DATA_rd : Fld := ⟨Reg.FAB_CONN_DATA, 26, 26⟩
def Reg.FAB_CONN_DATA_ctx : Fld := ⟨Reg.FAB_CONN_DATA, 25, 20⟩
def Reg.FAB_CONN_DATA_key_slot : Fld := ⟨Reg.FAB_CONN_DATA, 19, 16⟩
def Reg.FAB_CONN_DATA_peer : Fld := ⟨Reg.FAB_CONN_DATA, 15, 0⟩
/-- FAB_FWD_SEL (16_fabric_and_hierarchy, R338). -/
def Reg.FAB_FWD_SEL : Nat := 0x1800048
def Reg.FAB_FWD_SEL_index : Fld := ⟨Reg.FAB_FWD_SEL, 10, 0⟩
/-- FAB_FWD_DATA (16_fabric_and_hierarchy, R338). -/
def Reg.FAB_FWD_DATA : Nat := 0x1800050
def Reg.FAB_FWD_DATA_entry : Fld := ⟨Reg.FAB_FWD_DATA, 31, 0⟩
/-- FAB_PORT_CFG (16_fabric_and_hierarchy, R338). -/
def Reg.FAB_PORT_CFG (p : Nat) : Nat := 0x1800100 + p * 0x20
def Reg.FAB_PORT_CFG_mode (p : Nat) : Fld := ⟨Reg.FAB_PORT_CFG p, 2, 0⟩
/-- FAB_PORT_STATUS (16_fabric_and_hierarchy, R338). -/
def Reg.FAB_PORT_STATUS (p : Nat) : Nat := 0x1800104 + p * 0x20
def Reg.FAB_PORT_STATUS_neighbour (p : Nat) : Fld := ⟨Reg.FAB_PORT_STATUS p, 31, 16⟩
def Reg.FAB_PORT_STATUS_retrains (p : Nat) : Fld := ⟨Reg.FAB_PORT_STATUS p, 15, 8⟩
def Reg.FAB_PORT_STATUS_version (p : Nat) : Fld := ⟨Reg.FAB_PORT_STATUS p, 7, 6⟩
def Reg.FAB_PORT_STATUS_state (p : Nat) : Fld := ⟨Reg.FAB_PORT_STATUS p, 3, 0⟩
/-- FAB_PORT_ERR (16_fabric_and_hierarchy, R338). -/
def Reg.FAB_PORT_ERR (p : Nat) : Nat := 0x1800108 + p * 0x20
def Reg.FAB_PORT_ERR_crc_errors (p : Nat) : Fld := ⟨Reg.FAB_PORT_ERR p, 63, 32⟩
def Reg.FAB_PORT_ERR_resends (p : Nat) : Fld := ⟨Reg.FAB_PORT_ERR p, 31, 0⟩
/-- FAB_PORT_REC (16_fabric_and_hierarchy, R338). -/
def Reg.FAB_PORT_REC (p : Nat) : Nat := 0x1800110 + p * 0x20
def Reg.FAB_PORT_REC_pending (p : Nat) : Fld := ⟨Reg.FAB_PORT_REC p, 31, 31⟩
def Reg.FAB_PORT_REC_reason (p : Nat) : Fld := ⟨Reg.FAB_PORT_REC p, 19, 16⟩
def Reg.FAB_PORT_REC_offered (p : Nat) : Fld := ⟨Reg.FAB_PORT_REC p, 11, 8⟩
def Reg.FAB_PORT_REC_op (p : Nat) : Fld := ⟨Reg.FAB_PORT_REC p, 3, 0⟩
/-- COLL_STATUS (17_collectives, R357). -/
def Reg.COLL_STATUS : Nat := 0x2800000
def Reg.COLL_STATUS_mirrors : Fld := ⟨Reg.COLL_STATUS, 23, 16⟩
def Reg.COLL_STATUS_fenced : Fld := ⟨Reg.COLL_STATUS, 15, 0⟩
/-- COLL_COMMIT (17_collectives, R357). -/
def Reg.COLL_COMMIT : Nat := 0x2800004
def Reg.COLL_COMMIT_commit : Fld := ⟨Reg.COLL_COMMIT, 0, 0⟩
/-- COLL_CFG (17_collectives, R357). -/
def Reg.COLL_CFG : Nat := 0x2800008
def Reg.COLL_CFG_ext_limit_s : Fld := ⟨Reg.COLL_CFG, 39, 32⟩
def Reg.COLL_CFG_mirror_gbps : Fld := ⟨Reg.COLL_CFG, 23, 16⟩
def Reg.COLL_CFG_default_timeout_ms : Fld := ⟨Reg.COLL_CFG, 15, 0⟩
/-- COLL_COMMIT_STATUS (17_collectives, R357). -/
def Reg.COLL_COMMIT_STATUS : Nat := 0x2800010
def Reg.COLL_COMMIT_STATUS_commit_count : Fld := ⟨Reg.COLL_COMMIT_STATUS, 31, 16⟩
def Reg.COLL_COMMIT_STATUS_first_field : Fld := ⟨Reg.COLL_COMMIT_STATUS, 15, 8⟩
def Reg.COLL_COMMIT_STATUS_refused : Fld := ⟨Reg.COLL_COMMIT_STATUS, 0, 0⟩
/-- COLL_STEP (17_collectives, R357). -/
def Reg.COLL_STEP : Nat := 0x2800014
def Reg.COLL_STEP_slot : Fld := ⟨Reg.COLL_STEP, 5, 4⟩
def Reg.COLL_STEP_engine : Fld := ⟨Reg.COLL_STEP, 3, 0⟩
/-- COLL_PEND (17_collectives, R357). -/
def Reg.COLL_PEND : Nat := 0x2800018
def Reg.COLL_PEND_waiting : Fld := ⟨Reg.COLL_PEND, 63, 0⟩
/-- COLL_READY_STAT (17_collectives, R357). -/
def Reg.COLL_READY_STAT : Nat := 0x2800020
def Reg.COLL_READY_STAT_held : Fld := ⟨Reg.COLL_READY_STAT, 63, 32⟩
def Reg.COLL_READY_STAT_in_use : Fld := ⟨Reg.COLL_READY_STAT, 10, 0⟩
/-- COLL_ENG_STATUS (17_collectives, R357). -/
def Reg.COLL_ENG_STATUS (e : Nat) : Nat := 0x2800100 + e * 0x10
def Reg.COLL_ENG_STATUS_fenced (e : Nat) : Fld := ⟨Reg.COLL_ENG_STATUS e, 31, 31⟩
def Reg.COLL_ENG_STATUS_open (e : Nat) : Fld := ⟨Reg.COLL_ENG_STATUS e, 30, 28⟩
def Reg.COLL_ENG_STATUS_slots (e : Nat) : Fld := ⟨Reg.COLL_ENG_STATUS e, 3, 0⟩
/-- COLL_ENG_COUNT (17_collectives, R357). -/
def Reg.COLL_ENG_COUNT (e : Nat) : Nat := 0x2800108 + e * 0x10
def Reg.COLL_ENG_COUNT_errors (e : Nat) : Fld := ⟨Reg.COLL_ENG_COUNT e, 63, 32⟩
def Reg.COLL_ENG_COUNT_completed (e : Nat) : Fld := ⟨Reg.COLL_ENG_COUNT e, 31, 0⟩
/-- COLL_MIRROR (17_collectives, R357). -/
def Reg.COLL_MIRROR (n : Nat) : Nat := 0x2800200 + n * 0x10
def Reg.COLL_MIRROR_state (n : Nat) : Fld := ⟨Reg.COLL_MIRROR n, 63, 62⟩
def Reg.COLL_MIRROR_engine (n : Nat) : Fld := ⟨Reg.COLL_MIRROR n, 55, 52⟩
def Reg.COLL_MIRROR_open_half (n : Nat) : Fld := ⟨Reg.COLL_MIRROR n, 48, 48⟩
def Reg.COLL_MIRROR_ctx (n : Nat) : Fld := ⟨Reg.COLL_MIRROR n, 45, 40⟩
def Reg.COLL_MIRROR_dirty (n : Nat) : Fld := ⟨Reg.COLL_MIRROR n, 23, 0⟩
/-- COLL_MIRROR_EPOCH (17_collectives, R357). -/
def Reg.COLL_MIRROR_EPOCH (n : Nat) : Nat := 0x2800208 + n * 0x10
def Reg.COLL_MIRROR_EPOCH_epoch (n : Nat) : Fld := ⟨Reg.COLL_MIRROR_EPOCH n, 63, 0⟩
/-- STRM_STATUS (18_instrument_streams, R379). -/
def Reg.STRM_STATUS : Nat := 0x2000000
def Reg.STRM_STATUS_ports : Fld := ⟨Reg.STRM_STATUS, 31, 16⟩
def Reg.STRM_STATUS_engine_fenced : Fld := ⟨Reg.STRM_STATUS, 15, 15⟩
/-- STRM_CTX_SEL (18_instrument_streams, R379). -/
def Reg.STRM_CTX_SEL : Nat := 0x2000004
def Reg.STRM_CTX_SEL_entry : Fld := ⟨Reg.STRM_CTX_SEL, 15, 0⟩
/-- STRM_CTX_CMD (18_instrument_streams, R379). -/
def Reg.STRM_CTX_CMD : Nat := 0x2000008
def Reg.STRM_CTX_CMD_op : Fld := ⟨Reg.STRM_CTX_CMD, 1, 0⟩
/-- STRM_CTX_STATUS (18_instrument_streams, R379). -/
def Reg.STRM_CTX_STATUS : Nat := 0x200000c
def Reg.STRM_CTX_STATUS_busy : Fld := ⟨Reg.STRM_CTX_STATUS, 31, 31⟩
def Reg.STRM_CTX_STATUS_result : Fld := ⟨Reg.STRM_CTX_STATUS, 19, 16⟩
def Reg.STRM_CTX_STATUS_entry : Fld := ⟨Reg.STRM_CTX_STATUS, 15, 0⟩
/-- STRM_ADMIT (18_instrument_streams, R379). -/
def Reg.STRM_ADMIT : Nat := 0x2000010
def Reg.STRM_ADMIT_limit_mbps : Fld := ⟨Reg.STRM_ADMIT, 63, 32⟩
def Reg.STRM_ADMIT_admitted_mbps : Fld := ⟨Reg.STRM_ADMIT, 31, 0⟩
/-- STRM_COMMIT (18_instrument_streams, R379). -/
def Reg.STRM_COMMIT : Nat := 0x2000018
def Reg.STRM_COMMIT_commit : Fld := ⟨Reg.STRM_COMMIT, 0, 0⟩
/-- STRM_COMMIT_STATUS (18_instrument_streams, R379). -/
def Reg.STRM_COMMIT_STATUS : Nat := 0x200001c
def Reg.STRM_COMMIT_STATUS_commit_count : Fld := ⟨Reg.STRM_COMMIT_STATUS, 31, 16⟩
def Reg.STRM_COMMIT_STATUS_first_field : Fld := ⟨Reg.STRM_COMMIT_STATUS, 15, 8⟩
def Reg.STRM_COMMIT_STATUS_refused : Fld := ⟨Reg.STRM_COMMIT_STATUS, 0, 0⟩
/-- STRM_DEC_STAT (18_instrument_streams, R379). -/
def Reg.STRM_DEC_STAT : Nat := 0x2000020
def Reg.STRM_DEC_STAT_trig_lost : Fld := ⟨Reg.STRM_DEC_STAT, 63, 48⟩
def Reg.STRM_DEC_STAT_undelivered : Fld := ⟨Reg.STRM_DEC_STAT, 47, 32⟩
def Reg.STRM_DEC_STAT_late : Fld := ⟨Reg.STRM_DEC_STAT, 31, 16⟩
def Reg.STRM_DEC_STAT_stale : Fld := ⟨Reg.STRM_DEC_STAT, 15, 0⟩
/-- STRM_CTX_DATA (18_instrument_streams, R379). -/
def Reg.STRM_CTX_DATA (i : Nat) : Nat := 0x2000040 + i * 0x8
def Reg.STRM_CTX_DATA_data (i : Nat) : Fld := ⟨Reg.STRM_CTX_DATA i, 63, 0⟩
/-- STRM_TMPL (18_instrument_streams, R379). -/
def Reg.STRM_TMPL (t i : Nat) : Nat := 0x2000400 + t * 0x40 + i * 0x8
def Reg.STRM_TMPL_data (t i : Nat) : Fld := ⟨Reg.STRM_TMPL t i, 63, 0⟩
/-- STRM_PORT_CFG (18_instrument_streams, R379). -/
def Reg.STRM_PORT_CFG (p : Nat) : Nat := 0x2001000 + p * 0x40
def Reg.STRM_PORT_CFG_vlan (p : Nat) : Fld := ⟨Reg.STRM_PORT_CFG p, 27, 16⟩
def Reg.STRM_PORT_CFG_udp_port (p : Nat) : Fld := ⟨Reg.STRM_PORT_CFG p, 15, 0⟩
/-- STRM_PORT_IP4 (18_instrument_streams, R379). -/
def Reg.STRM_PORT_IP4 (p : Nat) : Nat := 0x2001004 + p * 0x40
def Reg.STRM_PORT_IP4_addr (p : Nat) : Fld := ⟨Reg.STRM_PORT_IP4 p, 31, 0⟩
/-- STRM_PORT_IP6_LO (18_instrument_streams, R379). -/
def Reg.STRM_PORT_IP6_LO (p : Nat) : Nat := 0x2001008 + p * 0x40
def Reg.STRM_PORT_IP6_LO_addr (p : Nat) : Fld := ⟨Reg.STRM_PORT_IP6_LO p, 63, 0⟩
/-- STRM_PORT_IP6_HI (18_instrument_streams, R379). -/
def Reg.STRM_PORT_IP6_HI (p : Nat) : Nat := 0x2001010 + p * 0x40
def Reg.STRM_PORT_IP6_HI_addr (p : Nat) : Fld := ⟨Reg.STRM_PORT_IP6_HI p, 63, 0⟩
/-- STRM_PORT_CNT0 (18_instrument_streams, R379). -/
def Reg.STRM_PORT_CNT0 (p : Nat) : Nat := 0x2001018 + p * 0x40
def Reg.STRM_PORT_CNT0_check_fail (p : Nat) : Fld := ⟨Reg.STRM_PORT_CNT0 p, 63, 32⟩
def Reg.STRM_PORT_CNT0_unadmitted (p : Nat) : Fld := ⟨Reg.STRM_PORT_CNT0 p, 31, 0⟩
/-- STRM_PORT_CNT1 (18_instrument_streams, R379). -/
def Reg.STRM_PORT_CNT1 (p : Nat) : Nat := 0x2001020 + p * 0x40
def Reg.STRM_PORT_CNT1_ingress_drop (p : Nat) : Fld := ⟨Reg.STRM_PORT_CNT1 p, 63, 32⟩
def Reg.STRM_PORT_CNT1_other (p : Nat) : Fld := ⟨Reg.STRM_PORT_CNT1 p, 31, 0⟩
/-- TIME_STATUS (19_time, R394). -/
def Reg.TIME_STATUS : Nat := 0x200000
def Reg.TIME_STATUS_hops : Fld := ⟨Reg.TIME_STATUS, 23, 16⟩
def Reg.TIME_STATUS_parent_port : Fld := ⟨Reg.TIME_STATUS, 15, 12⟩
def Reg.TIME_STATUS_source : Fld := ⟨Reg.TIME_STATUS, 9, 8⟩
def Reg.TIME_STATUS_host_steer : Fld := ⟨Reg.TIME_STATUS, 7, 7⟩
def Reg.TIME_STATUS_sec_armed : Fld := ⟨Reg.TIME_STATUS, 6, 6⟩
def Reg.TIME_STATUS_state : Fld := ⟨Reg.TIME_STATUS, 2, 0⟩
/-- TIME_NOW (19_time, R394). -/
def Reg.TIME_NOW : Nat := 0x200008
def Reg.TIME_NOW_now : Fld := ⟨Reg.TIME_NOW, 63, 0⟩
/-- TIME_CFG (19_time, R394). -/
def Reg.TIME_CFG : Nat := 0x200010
def Reg.TIME_CFG_pps_out_ms : Fld := ⟨Reg.TIME_CFG, 31, 24⟩
def Reg.TIME_CFG_pps_falling : Fld := ⟨Reg.TIME_CFG, 16, 16⟩
def Reg.TIME_CFG_step_limit_us : Fld := ⟨Reg.TIME_CFG, 15, 0⟩
/-- TIME_COMMIT (19_time, R394). -/
def Reg.TIME_COMMIT : Nat := 0x200014
def Reg.TIME_COMMIT_commit : Fld := ⟨Reg.TIME_COMMIT, 0, 0⟩
/-- TIME_COMMIT_STATUS (19_time, R394). -/
def Reg.TIME_COMMIT_STATUS : Nat := 0x200018
def Reg.TIME_COMMIT_STATUS_commit_count : Fld := ⟨Reg.TIME_COMMIT_STATUS, 31, 16⟩
def Reg.TIME_COMMIT_STATUS_first_field : Fld := ⟨Reg.TIME_COMMIT_STATUS, 15, 8⟩
def Reg.TIME_COMMIT_STATUS_refused : Fld := ⟨Reg.TIME_COMMIT_STATUS, 0, 0⟩
/-- TIME_SEC_NEXT (19_time, R394). -/
def Reg.TIME_SEC_NEXT : Nat := 0x20001c
def Reg.TIME_SEC_NEXT_seconds : Fld := ⟨Reg.TIME_SEC_NEXT, 31, 0⟩
/-- TIME_RATE (19_time, R394). -/
def Reg.TIME_RATE : Nat := 0x200020
def Reg.TIME_RATE_rate : Fld := ⟨Reg.TIME_RATE, 63, 0⟩
/-- TIME_ERR (19_time, R394). -/
def Reg.TIME_ERR : Nat := 0x200028
def Reg.TIME_ERR_error : Fld := ⟨Reg.TIME_ERR, 63, 0⟩
/-- TIME_DELAY (19_time, R394). -/
def Reg.TIME_DELAY : Nat := 0x200030
def Reg.TIME_DELAY_delay_ns : Fld := ⟨Reg.TIME_DELAY, 31, 0⟩
/-- TIME_STEER (19_time, R394). -/
def Reg.TIME_STEER : Nat := 0x200038
def Reg.TIME_STEER_steer : Fld := ⟨Reg.TIME_STEER, 63, 0⟩
/-- TIME_TIN_CFG (19_time, R394). -/
def Reg.TIME_TIN_CFG : Nat := 0x200040
def Reg.TIME_TIN_CFG_input : Fld := ⟨Reg.TIME_TIN_CFG, 15, 0⟩
/-- TIME_TIN_STAT (19_time, R394). -/
def Reg.TIME_TIN_STAT : Nat := 0x200044
def Reg.TIME_TIN_STAT_count : Fld := ⟨Reg.TIME_TIN_STAT, 31, 0⟩
/-- TIME_TIN_OVF (19_time, R394). -/
def Reg.TIME_TIN_OVF : Nat := 0x200048
def Reg.TIME_TIN_OVF_overflow : Fld := ⟨Reg.TIME_TIN_OVF, 3, 0⟩
/-- TIME_TIN_TS (19_time, R394). -/
def Reg.TIME_TIN_TS (i : Nat) : Nat := 0x200050 + i * 0x8
def Reg.TIME_TIN_TS_stamp (i : Nat) : Fld := ⟨Reg.TIME_TIN_TS i, 63, 0⟩
/-- TIME_TOUT_CFG (19_time, R394). -/
def Reg.TIME_TOUT_CFG : Nat := 0x200070
def Reg.TIME_TOUT_CFG_output : Fld := ⟨Reg.TIME_TOUT_CFG, 31, 0⟩
/-- TIME_TOUT_SCHED (19_time, R394). -/
def Reg.TIME_TOUT_SCHED (o : Nat) : Nat := 0x200078 + o * 0x8
def Reg.TIME_TOUT_SCHED_due (o : Nat) : Fld := ⟨Reg.TIME_TOUT_SCHED o, 63, 2⟩
/-- TIME_TOUT_STAT (19_time, R394). -/
def Reg.TIME_TOUT_STAT : Nat := 0x200098
def Reg.TIME_TOUT_STAT_late : Fld := ⟨Reg.TIME_TOUT_STAT, 31, 0⟩
/-- TIME_PORT_ASYM (19_time, R394). -/
def Reg.TIME_PORT_ASYM (p : Nat) : Nat := 0x200100 + p * 0x4
def Reg.TIME_PORT_ASYM_asym_ps (p : Nat) : Fld := ⟨Reg.TIME_PORT_ASYM p, 31, 0⟩
/-- PWR_STATUS (20_clocks_and_power, R414). -/
def Reg.PWR_STATUS : Nat := 0x100000
def Reg.PWR_STATUS_tile_mhz : Fld := ⟨Reg.PWR_STATUS, 27, 16⟩
def Reg.PWR_STATUS_quad_fenced : Fld := ⟨Reg.PWR_STATUS, 15, 8⟩
def Reg.PWR_STATUS_at_floor : Fld := ⟨Reg.PWR_STATUS, 3, 3⟩
def Reg.PWR_STATUS_sag : Fld := ⟨Reg.PWR_STATUS, 2, 2⟩
def Reg.PWR_STATUS_int_brake : Fld := ⟨Reg.PWR_STATUS, 1, 1⟩
def Reg.PWR_STATUS_brake : Fld := ⟨Reg.PWR_STATUS, 0, 0⟩
/-- PWR_ENVELOPE (20_clocks_and_power, R414). -/
def Reg.PWR_ENVELOPE : Nat := 0x100004
def Reg.PWR_ENVELOPE_envelope_w : Fld := ⟨Reg.PWR_ENVELOPE, 12, 0⟩
/-- PWR_CTL (20_clocks_and_power, R414). -/
def Reg.PWR_CTL : Nat := 0x100008
def Reg.PWR_CTL_period_ms : Fld := ⟨Reg.PWR_CTL, 31, 24⟩
def Reg.PWR_CTL_tj_target_c : Fld := ⟨Reg.PWR_CTL, 23, 16⟩
def Reg.PWR_CTL_tile_mhz : Fld := ⟨Reg.PWR_CTL, 11, 0⟩
/-- PWR_SLEEP (20_clocks_and_power, R414). -/
def Reg.PWR_SLEEP : Nat := 0x10000c
def Reg.PWR_SLEEP_sleep_idle_us : Fld := ⟨Reg.PWR_SLEEP, 15, 0⟩
/-- PWR_COMMIT (20_clocks_and_power, R414). -/
def Reg.PWR_COMMIT : Nat := 0x100010
def Reg.PWR_COMMIT_commit : Fld := ⟨Reg.PWR_COMMIT, 0, 0⟩
/-- PWR_COMMIT_STATUS (20_clocks_and_power, R414). -/
def Reg.PWR_COMMIT_STATUS : Nat := 0x100014
def Reg.PWR_COMMIT_STATUS_commit_count : Fld := ⟨Reg.PWR_COMMIT_STATUS, 31, 16⟩
def Reg.PWR_COMMIT_STATUS_first_field : Fld := ⟨Reg.PWR_COMMIT_STATUS, 15, 8⟩
def Reg.PWR_COMMIT_STATUS_refused : Fld := ⟨Reg.PWR_COMMIT_STATUS, 0, 0⟩
/-- PWR_SETPOINT (20_clocks_and_power, R414). -/
def Reg.PWR_SETPOINT : Nat := 0x100018
def Reg.PWR_SETPOINT_set_mhz : Fld := ⟨Reg.PWR_SETPOINT, 11, 0⟩
/-- PWR_SHARE (20_clocks_and_power, R414). -/
def Reg.PWR_SHARE : Nat := 0x10001c
def Reg.PWR_SHARE_reserved_w : Fld := ⟨Reg.PWR_SHARE, 27, 16⟩
def Reg.PWR_SHARE_share_w : Fld := ⟨Reg.PWR_SHARE, 10, 0⟩
/-- PWR_PKG (20_clocks_and_power, R414). -/
def Reg.PWR_PKG : Nat := 0x100020
def Reg.PWR_PKG_hub_w : Fld := ⟨Reg.PWR_PKG, 28, 16⟩
def Reg.PWR_PKG_package_w : Fld := ⟨Reg.PWR_PKG, 12, 0⟩
/-- PWR_TEMP (20_clocks_and_power, R414). -/
def Reg.PWR_TEMP : Nat := 0x100024
def Reg.PWR_TEMP_stack_max_c : Fld := ⟨Reg.PWR_TEMP, 15, 8⟩
def Reg.PWR_TEMP_hub_c : Fld := ⟨Reg.PWR_TEMP, 7, 0⟩
/-- PWR_ENERGY (20_clocks_and_power, R414). -/
def Reg.PWR_ENERGY : Nat := 0x100028
def Reg.PWR_ENERGY_energy_uj : Fld := ⟨Reg.PWR_ENERGY, 63, 0⟩
/-- PWR_QUADS (20_clocks_and_power, R414). -/
def Reg.PWR_QUADS : Nat := 0x100030
def Reg.PWR_QUADS_running : Fld := ⟨Reg.PWR_QUADS, 31, 0⟩
/-- PWR_EVENTS (20_clocks_and_power, R414). -/
def Reg.PWR_EVENTS : Nat := 0x100034
def Reg.PWR_EVENTS_floor_periods : Fld := ⟨Reg.PWR_EVENTS, 31, 24⟩
def Reg.PWR_EVENTS_cap_clamps : Fld := ⟨Reg.PWR_EVENTS, 23, 16⟩
def Reg.PWR_EVENTS_brakes : Fld := ⟨Reg.PWR_EVENTS, 15, 0⟩
/-- PWR_SAG (20_clocks_and_power, R414). -/
def Reg.PWR_SAG : Nat := 0x100038
def Reg.PWR_SAG_deferred : Fld := ⟨Reg.PWR_SAG, 23, 16⟩
def Reg.PWR_SAG_v1p8_seen : Fld := ⟨Reg.PWR_SAG, 9, 9⟩
def Reg.PWR_SAG_vaon_seen : Fld := ⟨Reg.PWR_SAG, 8, 8⟩
def Reg.PWR_SAG_v1p8_low : Fld := ⟨Reg.PWR_SAG, 1, 1⟩
def Reg.PWR_SAG_vaon_low : Fld := ⟨Reg.PWR_SAG, 0, 0⟩
/-- HUB_READY (21_bring_up, R428). -/
def Reg.HUB_READY : Nat := 0x10
def Reg.HUB_READY_outcome : Fld := ⟨Reg.HUB_READY, 18, 16⟩
def Reg.HUB_READY_updating : Fld := ⟨Reg.HUB_READY, 1, 1⟩
def Reg.HUB_READY_ready : Fld := ⟨Reg.HUB_READY, 0, 0⟩
/-- SEC_STATUS (22_security, R457). -/
def Reg.SEC_STATUS : Nat := 0x300000
def Reg.SEC_STATUS_blanket_phase : Fld := ⟨Reg.SEC_STATUS, 11, 10⟩
def Reg.SEC_STATUS_svn_behind : Fld := ⟨Reg.SEC_STATUS, 8, 8⟩
def Reg.SEC_STATUS_lc : Fld := ⟨Reg.SEC_STATUS, 2, 0⟩
/-- SEC_SERIAL (22_security, R457). -/
def Reg.SEC_SERIAL : Nat := 0x300008
def Reg.SEC_SERIAL_serial : Fld := ⟨Reg.SEC_SERIAL, 63, 0⟩
/-- SEC_FW (22_security, R457). -/
def Reg.SEC_FW : Nat := 0x300010
def Reg.SEC_FW_svn_fused : Fld := ⟨Reg.SEC_FW, 31, 24⟩
def Reg.SEC_FW_svn_image : Fld := ⟨Reg.SEC_FW, 23, 16⟩
def Reg.SEC_FW_copy : Fld := ⟨Reg.SEC_FW, 0, 0⟩
/-- SEC_BLANKET (22_security, R457). -/
def Reg.SEC_BLANKET : Nat := 0x300014
def Reg.SEC_BLANKET_go : Fld := ⟨Reg.SEC_BLANKET, 0, 0⟩
/-- SEC_BLANKET_STATUS (22_security, R457). -/
def Reg.SEC_BLANKET_STATUS : Nat := 0x300018
def Reg.SEC_BLANKET_STATUS_count : Fld := ⟨Reg.SEC_BLANKET_STATUS, 31, 16⟩
def Reg.SEC_BLANKET_STATUS_cause : Fld := ⟨Reg.SEC_BLANKET_STATUS, 15, 8⟩
def Reg.SEC_BLANKET_STATUS_zero_pct : Fld := ⟨Reg.SEC_BLANKET_STATUS, 7, 0⟩
/-- SEC_BLANKET_TIME (22_security, R457). -/
def Reg.SEC_BLANKET_TIME : Nat := 0x30001c
def Reg.SEC_BLANKET_TIME_pending_sites : Fld := ⟨Reg.SEC_BLANKET_TIME, 23, 16⟩
def Reg.SEC_BLANKET_TIME_phase1_ms : Fld := ⟨Reg.SEC_BLANKET_TIME, 15, 0⟩
/-- SEC_SLOT_CMD (22_security, R457). -/
def Reg.SEC_SLOT_CMD : Nat := 0x300020
def Reg.SEC_SLOT_CMD_empty : Fld := ⟨Reg.SEC_SLOT_CMD, 8, 8⟩
def Reg.SEC_SLOT_CMD_slot : Fld := ⟨Reg.SEC_SLOT_CMD, 3, 0⟩
/-- SEC_SLOT (22_security, R457). -/
def Reg.SEC_SLOT (k : Nat) : Nat := 0x300100 + k * 0x4
def Reg.SEC_SLOT_loads (k : Nat) : Fld := ⟨Reg.SEC_SLOT k, 31, 16⟩
def Reg.SEC_SLOT_draining (k : Nat) : Fld := ⟨Reg.SEC_SLOT k, 7, 7⟩
def Reg.SEC_SLOT_loaded (k : Nat) : Fld := ⟨Reg.SEC_SLOT k, 6, 6⟩
def Reg.SEC_SLOT_kind (k : Nat) : Fld := ⟨Reg.SEC_SLOT k, 2, 0⟩
/-- RAS_STATUS (23_reliability, R479). -/
def Reg.RAS_STATUS : Nat := 0x3800000
def Reg.RAS_STATUS_health : Fld := ⟨Reg.RAS_STATUS, 17, 16⟩
def Reg.RAS_STATUS_fatal_held : Fld := ⟨Reg.RAS_STATUS, 8, 0⟩
/-- RAS_ALERT (23_reliability, R479). -/
def Reg.RAS_ALERT : Nat := 0x3800004
def Reg.RAS_ALERT_uncorrected : Fld := ⟨Reg.RAS_ALERT, 4, 4⟩
def Reg.RAS_ALERT_wear : Fld := ⟨Reg.RAS_ALERT, 3, 3⟩
def Reg.RAS_ALERT_op_lost : Fld := ⟨Reg.RAS_ALERT, 2, 2⟩
def Reg.RAS_ALERT_fatal_full : Fld := ⟨Reg.RAS_ALERT, 1, 1⟩
def Reg.RAS_ALERT_fatal : Fld := ⟨Reg.RAS_ALERT, 0, 0⟩
/-- RAS_ALERT_EN (23_reliability, R479). -/
def Reg.RAS_ALERT_EN : Nat := 0x3800008
def Reg.RAS_ALERT_EN_enable : Fld := ⟨Reg.RAS_ALERT_EN, 4, 0⟩
/-- RAS_EVT_NEXT (23_reliability, R479). -/
def Reg.RAS_EVT_NEXT : Nat := 0x3800010
def Reg.RAS_EVT_NEXT_next : Fld := ⟨Reg.RAS_EVT_NEXT, 31, 0⟩
/-- RAS_EVT_BOUNDARY (23_reliability, R479). -/
def Reg.RAS_EVT_BOUNDARY : Nat := 0x3800014
def Reg.RAS_EVT_BOUNDARY_boundary : Fld := ⟨Reg.RAS_EVT_BOUNDARY, 31, 0⟩
/-- RAS_EVT_ACK (23_reliability, R479). -/
def Reg.RAS_EVT_ACK : Nat := 0x3800018
def Reg.RAS_EVT_ACK_ack : Fld := ⟨Reg.RAS_EVT_ACK, 31, 0⟩
/-- RAS_EVT_LOST (23_reliability, R479). -/
def Reg.RAS_EVT_LOST : Nat := 0x380001c
def Reg.RAS_EVT_LOST_lost : Fld := ⟨Reg.RAS_EVT_LOST, 31, 0⟩
/-- RAS_FATAL_INFO (23_reliability, R479). -/
def Reg.RAS_FATAL_INFO : Nat := 0x3800020
def Reg.RAS_FATAL_INFO_dropped : Fld := ⟨Reg.RAS_FATAL_INFO, 63, 32⟩
def Reg.RAS_FATAL_INFO_oldest : Fld := ⟨Reg.RAS_FATAL_INFO, 31, 0⟩
/-- RAS_CNT_CORR (23_reliability, R479). -/
def Reg.RAS_CNT_CORR : Nat := 0x3800028
def Reg.RAS_CNT_CORR_count : Fld := ⟨Reg.RAS_CNT_CORR, 31, 0⟩
/-- RAS_CNT_DEFER (23_reliability, R479). -/
def Reg.RAS_CNT_DEFER : Nat := 0x380002c
def Reg.RAS_CNT_DEFER_count : Fld := ⟨Reg.RAS_CNT_DEFER, 31, 0⟩
/-- RAS_CNT_UC (23_reliability, R479). -/
def Reg.RAS_CNT_UC : Nat := 0x3800030
def Reg.RAS_CNT_UC_count : Fld := ⟨Reg.RAS_CNT_UC, 31, 0⟩
/-- RAS_CNT_FATAL (23_reliability, R479). -/
def Reg.RAS_CNT_FATAL : Nat := 0x3800034
def Reg.RAS_CNT_FATAL_count : Fld := ⟨Reg.RAS_CNT_FATAL, 31, 0⟩
/-- RAS_MRAM_WEAR (23_reliability, R479). -/
def Reg.RAS_MRAM_WEAR : Nat := 0x3800038
def Reg.RAS_MRAM_WEAR_region : Fld := ⟨Reg.RAS_MRAM_WEAR, 25, 16⟩
def Reg.RAS_MRAM_WEAR_spares_left : Fld := ⟨Reg.RAS_MRAM_WEAR, 12, 8⟩
def Reg.RAS_MRAM_WEAR_worst_pct : Fld := ⟨Reg.RAS_MRAM_WEAR, 7, 0⟩
/-- RAS_INJECT (23_reliability, R479). -/
def Reg.RAS_INJECT : Nat := 0x3800040
def Reg.RAS_INJECT_go : Fld := ⟨Reg.RAS_INJECT, 63, 63⟩
def Reg.RAS_INJECT_ctx : Fld := ⟨Reg.RAS_INJECT, 57, 52⟩
def Reg.RAS_INJECT_kind : Fld := ⟨Reg.RAS_INJECT, 51, 48⟩
def Reg.RAS_INJECT_address : Fld := ⟨Reg.RAS_INJECT, 47, 0⟩
/-- RAS_INJECT_STATUS (23_reliability, R479). -/
def Reg.RAS_INJECT_STATUS : Nat := 0x3800048
def Reg.RAS_INJECT_STATUS_result : Fld := ⟨Reg.RAS_INJECT_STATUS, 1, 0⟩
/-- GLB_ID (24_register_map, R483). -/
def Reg.GLB_ID : Nat := 0x0
def Reg.GLB_ID_device : Fld := ⟨Reg.GLB_ID, 31, 16⟩
def Reg.GLB_ID_part : Fld := ⟨Reg.GLB_ID, 11, 8⟩
def Reg.GLB_ID_stepping : Fld := ⟨Reg.GLB_ID, 7, 0⟩
/-- GLB_DRV_INFO (24_register_map, R484). -/
def Reg.GLB_DRV_INFO : Nat := 0x4
def Reg.GLB_DRV_INFO_drv_major : Fld := ⟨Reg.GLB_DRV_INFO, 31, 24⟩
def Reg.GLB_DRV_INFO_drv_minor : Fld := ⟨Reg.GLB_DRV_INFO, 23, 16⟩
def Reg.GLB_DRV_INFO_drv_api : Fld := ⟨Reg.GLB_DRV_INFO, 7, 0⟩
/-- GLB_SENTINEL (24_register_map, R484). -/
def Reg.GLB_SENTINEL : Nat := 0x8
def Reg.GLB_SENTINEL_sentinel : Fld := ⟨Reg.GLB_SENTINEL, 31, 0⟩

end Sys2Proof.Machine
end

