-- ==== Sys2Proof/Machine/RegTable.lean ====
section
/-! DEFINITION. The register index of R489 with the fields of every register table: base offset, width, index dimensions, and
each field's bits, access code (R10) and reset value (R13). -/
namespace Sys2Proof.Machine

/-- Registers of the GLB block (R489). -/
def regTableGlb : List RegDesc := [
  ⟨"GLB_ID", 0x0, 32, [],
    [⟨31, 16, .ro, 0xc03⟩, ⟨11, 8, .ro, 0x0⟩, ⟨7, 0, .ro, 0x0⟩]⟩,
  ⟨"GLB_DRV_INFO", 0x4, 32, [],
    [⟨31, 24, .rwc, 0x0⟩, ⟨23, 16, .rwc, 0x0⟩, ⟨7, 0, .rwc, 0x0⟩]⟩,
  ⟨"GLB_SENTINEL", 0x8, 32, [],
    [⟨31, 0, .ro, 0x5a5a0c03⟩]⟩,
  ⟨"HUB_READY", 0x10, 32, [],
    [⟨18, 16, .ro, 0x0⟩, ⟨1, 1, .ro, 0x0⟩, ⟨0, 0, .ro, 0x0⟩]⟩,
  ⟨"DUTY_MODE", 0x40, 32, [],
    [⟨9, 9, .rwc, 0x0⟩, ⟨8, 8, .rwc, 0x0⟩, ⟨7, 7, .rwc, 0x0⟩, ⟨6, 6, .rwc, 0x0⟩, ⟨5, 5, .rwc, 0x0⟩, ⟨4, 4, .rwc, 0x0⟩, ⟨3, 3, .rwc, 0x0⟩, ⟨2, 2, .rwc, 0x0⟩, ⟨1, 1, .rwc, 0x0⟩, ⟨0, 0, .rwc, 0x0⟩]⟩,
  ⟨"DUTY_ACTIVE", 0x44, 32, [],
    [⟨25, 16, .w1c, 0x0⟩, ⟨9, 0, .ro, 0x0⟩]⟩,
  ⟨"GLB_COMMIT", 0x50, 32, [],
    [⟨0, 0, .wo, 0x0⟩]⟩,
  ⟨"GLB_COMMIT_STATUS", 0x54, 32, [],
    [⟨31, 16, .ro, 0x0⟩, ⟨15, 8, .ro, 0xff⟩, ⟨0, 0, .ro, 0x0⟩]⟩,
  ⟨"GLB_SUBST_PEND", 0x60, 32, [],
    [⟨27, 16, .ro, 0x0⟩, ⟨15, 0, .ro, 0x0⟩]⟩,
  ⟨"GLB_SUBST_CMD", 0x64, 32, [],
    [⟨6, 6, .wo, 0x0⟩, ⟨5, 0, .wo, 0x0⟩]⟩,
  ⟨"GLB_SUBST_ARMED", 0x68, 64, [],
    [⟨63, 0, .ro, 0x0⟩]⟩]

/-- Registers of the SITE block (R489). -/
def regTableSite : List RegDesc := [
  ⟨"SITE_POP", 0x1000000, 32, [(8, 0x80000)],
    [⟨25, 16, .ro, 0x0⟩, ⟨15, 8, .ro, 0x0⟩, ⟨3, 2, .ro, 0x0⟩, ⟨1, 1, .ro, 0x0⟩, ⟨0, 0, .ro, 0x0⟩]⟩,
  ⟨"SITE_STATE", 0x1000004, 32, [(8, 0x80000)],
    [⟨15, 8, .ro, 0x0⟩, ⟨3, 0, .ro, 0x0⟩]⟩,
  ⟨"SITE_PWR_LIMIT", 0x1000008, 32, [(8, 0x80000)],
    [⟨9, 0, .rwc, 0x0⟩]⟩,
  ⟨"SITE_COMMIT", 0x100000c, 32, [(8, 0x80000)],
    [⟨0, 0, .wo, 0x0⟩]⟩,
  ⟨"SITE_COMMIT_STATUS", 0x1000010, 32, [(8, 0x80000)],
    [⟨31, 16, .ro, 0x0⟩, ⟨15, 8, .ro, 0xff⟩, ⟨0, 0, .ro, 0x0⟩]⟩,
  ⟨"SITE_PWR_STATUS", 0x1000014, 32, [(8, 0x80000)],
    [⟨31, 24, .ro, 0x0⟩, ⟨23, 16, .ro, 0x0⟩, ⟨15, 15, .ro, 0x0⟩, ⟨9, 0, .ro, 0x0⟩]⟩,
  ⟨"SITE_ID_LO", 0x1000018, 64, [(8, 0x80000)],
    [⟨63, 0, .ro, 0x0⟩]⟩,
  ⟨"SITE_ID_HI", 0x1000020, 64, [(8, 0x80000)],
    [⟨63, 0, .ro, 0x0⟩]⟩,
  ⟨"SITE_LINK_CFG", 0x1000040, 32, [(8, 0x80000)],
    [⟨31, 16, .rwc, 0x3e8⟩, ⟨8, 8, .rwc, 0x1⟩, ⟨2, 0, .rwc, 0x4⟩]⟩,
  ⟨"SITE_LINK_STATUS", 0x1000044, 32, [(8, 0x80000)],
    [⟨27, 16, .ro, 0x0⟩, ⟨15, 12, .ro, 0x0⟩, ⟨9, 9, .ro, 0x0⟩, ⟨8, 8, .ro, 0x0⟩, ⟨7, 4, .ro, 0x0⟩, ⟨3, 0, .ro, 0x0⟩]⟩,
  ⟨"SITE_LMAP", 0x1000048, 32, [(8, 0x80000)],
    [⟨31, 0, .ro, 0x76543210⟩]⟩,
  ⟨"SITE_SPREAD_EPOCH", 0x100004c, 32, [(8, 0x80000)],
    [⟨8, 8, .ro, 0x0⟩, ⟨7, 0, .ro, 0x0⟩]⟩,
  ⟨"SITE_SPREAD", 0x1000060, 64, [(8, 0x80000), (4, 0x8)],
    [⟨63, 0, .ro, 0x7654321076543210⟩]⟩,
  ⟨"SITE_REC_PEND", 0x1000080, 32, [(8, 0x80000)],
    [⟨31, 31, .ro, 0x0⟩, ⟨27, 24, .ro, 0x0⟩, ⟨23, 20, .ro, 0x0⟩, ⟨19, 16, .ro, 0x0⟩, ⟨4, 1, .ro, 0x0⟩]⟩,
  ⟨"SITE_REC_CMD", 0x1000084, 32, [(8, 0x80000)],
    [⟨11, 8, .wo, 0x0⟩, ⟨3, 0, .wo, 0x0⟩]⟩,
  ⟨"SITE_MISROUTE", 0x1000088, 32, [(8, 0x80000)],
    [⟨31, 0, .ro, 0x0⟩]⟩,
  ⟨"SITE_SB_ADDR", 0x1000090, 64, [(8, 0x80000)],
    [⟨35, 32, .rw, 0xf⟩, ⟨31, 0, .rw, 0x0⟩]⟩,
  ⟨"SITE_SB_DATA", 0x1000098, 64, [(8, 0x80000)],
    [⟨63, 0, .rw, 0x0⟩]⟩,
  ⟨"SITE_SB_CTL", 0x10000a0, 32, [(8, 0x80000)],
    [⟨2, 2, .wo, 0x0⟩, ⟨1, 1, .wo, 0x0⟩, ⟨0, 0, .wo, 0x0⟩]⟩,
  ⟨"SITE_SB_STATUS", 0x10000a4, 32, [(8, 0x80000)],
    [⟨31, 31, .ro, 0x0⟩, ⟨2, 0, .ro, 0x0⟩]⟩,
  ⟨"SITE_MOD_STATUS", 0x1000100, 32, [(8, 0x80000), (9, 0x10)],
    [⟨31, 28, .ro, 0x0⟩, ⟨25, 24, .ro, 0x0⟩, ⟨23, 16, .ro, 0x0⟩, ⟨15, 12, .ro, 0x0⟩, ⟨11, 8, .ro, 0x0⟩, ⟨7, 7, .ro, 0x0⟩, ⟨6, 4, .ro, 0x0⟩, ⟨3, 0, .ro, 0x0⟩]⟩,
  ⟨"SITE_MOD_ERR", 0x1000108, 64, [(8, 0x80000), (9, 0x10)],
    [⟨63, 32, .ro, 0x0⟩, ⟨31, 0, .ro, 0x0⟩]⟩]

/-- Registers of the TILE block (R489). -/
def regTableTile : List RegDesc := [
  ⟨"CL_STATUS", 0x3000000, 32, [(128, 0x10000)],
    [⟨21, 20, .ro, 0x0⟩, ⟨16, 16, .ro, 0x0⟩, ⟨12, 8, .ro, 0x0⟩, ⟨6, 0, .ro, 0x0⟩]⟩,
  ⟨"CL_MAP_LO", 0x3000008, 64, [(128, 0x10000)],
    [⟨59, 0, .ro, 0x0⟩]⟩,
  ⟨"CL_MAP_HI", 0x3000010, 64, [(128, 0x10000)],
    [⟨19, 0, .ro, 0x0⟩]⟩,
  ⟨"CL_SLOTS", 0x3000018, 32, [(128, 0x10000)],
    [⟨17, 0, .ro, 0x0⟩]⟩,
  ⟨"TILE_STATUS", 0x3001000, 32, [(128, 0x10000), (16, 0x800)],
    [⟨31, 19, .ro, 0x0⟩, ⟨17, 17, .ro, 0x0⟩, ⟨16, 16, .ro, 0x0⟩, ⟨12, 8, .ro, 0x0⟩, ⟨2, 0, .ro, 0x0⟩]⟩,
  ⟨"TILE_FAULT", 0x3001004, 32, [(128, 0x10000), (16, 0x800)],
    [⟨24, 16, .ro, 0x0⟩, ⟨15, 8, .ro, 0x0⟩, ⟨7, 0, .ro, 0x0⟩]⟩,
  ⟨"TILE_FAULT_PC", 0x3001008, 32, [(128, 0x10000), (16, 0x800)],
    [⟨19, 0, .ro, 0x0⟩]⟩,
  ⟨"TILE_ECC_CORR", 0x300100c, 32, [(128, 0x10000), (16, 0x800)],
    [⟨31, 0, .ro, 0x0⟩]⟩,
  ⟨"TILE_ECC_UNCORR", 0x3001010, 32, [(128, 0x10000), (16, 0x800)],
    [⟨31, 0, .ro, 0x0⟩]⟩,
  ⟨"TILE_CFG", 0x3001014, 32, [(128, 0x10000), (16, 0x800)],
    [⟨8, 8, .rwc, 0x1⟩, ⟨7, 4, .rwc, 0x1⟩, ⟨3, 0, .rwc, 0x0⟩]⟩,
  ⟨"TILE_COMMIT", 0x3001018, 32, [(128, 0x10000), (16, 0x800)],
    [⟨0, 0, .wo, 0x0⟩]⟩,
  ⟨"TILE_COMMIT_STATUS", 0x300101c, 32, [(128, 0x10000), (16, 0x800)],
    [⟨31, 16, .ro, 0x0⟩, ⟨15, 8, .ro, 0xff⟩, ⟨0, 0, .ro, 0x0⟩]⟩,
  ⟨"TILE_PERF0", 0x3001020, 64, [(128, 0x10000), (16, 0x800)],
    [⟨47, 0, .ro, 0x0⟩]⟩,
  ⟨"TILE_PERF1", 0x3001028, 64, [(128, 0x10000), (16, 0x800)],
    [⟨47, 0, .ro, 0x0⟩]⟩,
  ⟨"TILE_PERF_OVF", 0x3001030, 32, [(128, 0x10000), (16, 0x800)],
    [⟨1, 1, .w1c, 0x0⟩, ⟨0, 0, .w1c, 0x0⟩]⟩]

/-- Registers of the NOC block (R489). -/
def regTableNoc : List RegDesc := [
  ⟨"NOC_STATUS", 0xc00000, 32, [],
    [⟨31, 31, .ro, 0x0⟩, ⟨23, 16, .ro, 0x0⟩, ⟨15, 8, .ro, 0x0⟩]⟩,
  ⟨"NOC_CFG", 0xc00004, 32, [],
    [⟨13, 0, .rwc, 0xc8⟩]⟩,
  ⟨"NOC_COMMIT", 0xc00008, 32, [],
    [⟨0, 0, .wo, 0x0⟩]⟩,
  ⟨"NOC_COMMIT_STATUS", 0xc0000c, 32, [],
    [⟨31, 16, .ro, 0x0⟩, ⟨15, 8, .ro, 0xff⟩, ⟨0, 0, .ro, 0x0⟩]⟩,
  ⟨"NOC_RT_SEL", 0xc00010, 32, [],
    [⟨15, 8, .rw, 0x0⟩, ⟨7, 0, .rw, 0x0⟩]⟩,
  ⟨"NOC_RT_DATA", 0xc00018, 64, [],
    [⟨63, 0, .rwc, 0x0⟩]⟩,
  ⟨"NOC_RT_BAD", 0xc00020, 32, [],
    [⟨18, 16, .ro, 0x0⟩, ⟨15, 8, .ro, 0x0⟩, ⟨7, 0, .ro, 0x0⟩]⟩,
  ⟨"NOC_ROUTER_LOST_LO", 0xc00040, 64, [],
    [⟨63, 0, .ro, 0x0⟩]⟩,
  ⟨"NOC_ROUTER_LOST_HI", 0xc00048, 64, [],
    [⟨63, 0, .ro, 0x0⟩]⟩,
  ⟨"NOC_LINK_RETIRED", 0xc00050, 64, [(4, 0x8)],
    [⟨63, 0, .ro, 0x0⟩]⟩,
  ⟨"NOC_ERR_CORR", 0xc00070, 32, [],
    [⟨31, 0, .ro, 0x0⟩]⟩,
  ⟨"NOC_ERR_REPLAY", 0xc00074, 32, [],
    [⟨31, 0, .ro, 0x0⟩]⟩,
  ⟨"NOC_TIMEOUTS", 0xc00078, 32, [],
    [⟨31, 16, .ro, 0x0⟩, ⟨15, 0, .ro, 0x0⟩]⟩]

/-- Registers of the HBM block (R489). -/
def regTableHbm : List RegDesc := [
  ⟨"HBM_STATUS", 0x800000, 32, [],
    [⟨17, 17, .ro, 0x0⟩, ⟨16, 16, .ro, 0x0⟩, ⟨15, 8, .ro, 0x0⟩, ⟨7, 0, .ro, 0x0⟩]⟩,
  ⟨"HBM_CFG", 0x800004, 32, [],
    [⟨15, 8, .rwc, 0x4⟩, ⟨7, 0, .rwc, 0x18⟩]⟩,
  ⟨"HBM_COMMIT", 0x800008, 32, [],
    [⟨0, 0, .wo, 0x0⟩]⟩,
  ⟨"HBM_COMMIT_STATUS", 0x80000c, 32, [],
    [⟨31, 16, .ro, 0x0⟩, ⟨15, 8, .ro, 0xff⟩, ⟨0, 0, .ro, 0x0⟩]⟩,
  ⟨"HBM_GRAN_RANGE", 0x800010, 64, [],
    [⟨50, 32, .rw, 0x0⟩, ⟨18, 0, .rw, 0x0⟩]⟩,
  ⟨"HBM_GRAN_ATTR", 0x800018, 32, [],
    [⟨15, 10, .ro, 0x0⟩, ⟨9, 8, .rw, 0x0⟩, ⟨7, 6, .ro, 0x0⟩, ⟨5, 0, .rw, 0x0⟩]⟩,
  ⟨"HBM_GRAN_CMD", 0x80001c, 32, [],
    [⟨3, 0, .wo, 0x0⟩]⟩,
  ⟨"HBM_GRAN_STATUS", 0x800020, 32, [],
    [⟨31, 31, .ro, 0x0⟩, ⟨23, 20, .ro, 0x0⟩, ⟨18, 0, .ro, 0x0⟩]⟩,
  ⟨"HBM_BEDROCK", 0x800028, 64, [],
    [⟨51, 50, .ro, 0x0⟩, ⟨49, 32, .ro, 0x0⟩, ⟨31, 19, .ro, 0x0⟩, ⟨18, 0, .ro, 0x0⟩]⟩,
  ⟨"HBM_BR_PEND", 0x800030, 32, [],
    [⟨31, 31, .ro, 0x0⟩, ⟨18, 0, .ro, 0x0⟩]⟩,
  ⟨"HBM_BR_SUPPLY", 0x800038, 64, [],
    [⟨47, 0, .wo, 0x0⟩]⟩,
  ⟨"HBM_ROW_NEXT", 0x800040, 64, [],
    [⟨63, 63, .ro, 0x0⟩, ⟨47, 32, .ro, 0x0⟩, ⟨30, 27, .ro, 0x0⟩, ⟨26, 23, .ro, 0x0⟩, ⟨22, 22, .ro, 0x0⟩, ⟨21, 16, .ro, 0x0⟩, ⟨15, 0, .ro, 0x0⟩]⟩,
  ⟨"HBM_PPR_CMD", 0x800048, 32, [],
    [⟨1, 1, .wo, 0x0⟩, ⟨0, 0, .wo, 0x0⟩]⟩,
  ⟨"HBM_STACK_STATUS", 0x800100, 32, [(8, 0x4)],
    [⟨15, 8, .ro, 0x0⟩, ⟨2, 0, .ro, 0x0⟩]⟩,
  ⟨"HBM_CTL_STATUS", 0x800200, 32, [(16, 0x10)],
    [⟨29, 16, .ro, 0x0⟩, ⟨13, 0, .ro, 0x0⟩]⟩,
  ⟨"HBM_CTL_ERR", 0x800208, 64, [(16, 0x10)],
    [⟨63, 32, .ro, 0x0⟩, ⟨31, 0, .ro, 0x0⟩]⟩]

/-- Registers of the REG block (R489). -/
def regTableReg : List RegDesc := [
  ⟨"REG_STATUS", 0x700000, 32, [],
    [⟨31, 16, .ro, 0x0⟩, ⟨15, 8, .ro, 0x0⟩, ⟨0, 0, .ro, 0x0⟩]⟩,
  ⟨"REG_COMMIT", 0x700008, 32, [],
    [⟨0, 0, .wo, 0x0⟩]⟩,
  ⟨"REG_COMMIT_STATUS", 0x70000c, 32, [],
    [⟨31, 16, .ro, 0x0⟩, ⟨15, 8, .ro, 0xff⟩, ⟨0, 0, .ro, 0x0⟩]⟩,
  ⟨"REG_CHECK", 0x700010, 32, [],
    [⟨19, 16, .ro, 0x0⟩, ⟨15, 0, .ro, 0x0⟩]⟩,
  ⟨"REG_CLASS_FLOOR", 0x700100, 64, [(46, 0x8)],
    [⟨43, 40, .rwc, 0x0⟩, ⟨38, 36, .rwc, 0x1⟩, ⟨34, 32, .rwc, 0x0⟩, ⟨31, 16, .rwc, 0x0⟩, ⟨15, 0, .rwc, 0x0⟩]⟩,
  ⟨"REG_CLASS_CTL", 0x700300, 32, [(46, 0x4)],
    [⟨16, 16, .rwc, 0x0⟩, ⟨15, 0, .rwc, 0x0⟩]⟩,
  ⟨"REG_CLASS_STAT", 0x700400, 64, [(46, 0x8)],
    [⟨47, 32, .ro, 0x0⟩, ⟨18, 18, .ro, 0x0⟩, ⟨17, 16, .ro, 0x0⟩, ⟨15, 0, .ro, 0x0⟩]⟩,
  ⟨"REG_CTL_STAT", 0x700600, 64, [(16, 0x8)],
    [⟨42, 42, .ro, 0x0⟩, ⟨41, 32, .ro, 0x64⟩, ⟨26, 16, .ro, 0x700⟩, ⟨10, 0, .ro, 0x0⟩]⟩]

/-- Registers of the XLAT block (R489). -/
def regTableXlat : List RegDesc := [
  ⟨"XLAT_STATUS", 0x600000, 32, [],
    [⟨16, 16, .w1c, 0x0⟩, ⟨15, 8, .ro, 0x0⟩, ⟨4, 0, .ro, 0x0⟩]⟩,
  ⟨"XLAT_INV", 0x600004, 32, [],
    [⟨31, 16, .wo, 0x0⟩, ⟨15, 8, .wo, 0x0⟩, ⟨7, 7, .wo, 0x0⟩, ⟨5, 0, .wo, 0x0⟩]⟩,
  ⟨"XLAT_COMMIT_STATUS", 0x600008, 32, [],
    [⟨31, 16, .ro, 0x0⟩, ⟨15, 8, .ro, 0xff⟩, ⟨0, 0, .ro, 0x0⟩]⟩,
  ⟨"XLAT_INV_DONE", 0x60000c, 32, [],
    [⟨31, 31, .ro, 0x0⟩, ⟨15, 8, .ro, 0x0⟩, ⟨7, 0, .ro, 0x0⟩]⟩,
  ⟨"XLAT_CFG", 0x600010, 32, [],
    [⟨11, 11, .rw, 0x0⟩, ⟨10, 0, .rw, 0x0⟩]⟩,
  ⟨"XLAT_RESUME", 0x600014, 32, [],
    [⟨8, 8, .wo, 0x0⟩, ⟨5, 0, .wo, 0x0⟩]⟩,
  ⟨"XLAT_SITE_CTX", 0x600018, 32, [(4, 0x4)],
    [⟨22, 22, .rwc, 0x0⟩, ⟨21, 16, .rwc, 0x0⟩, ⟨6, 6, .rwc, 0x0⟩, ⟨5, 0, .rwc, 0x0⟩]⟩,
  ⟨"XLAT_CTX", 0x600100, 32, [],
    [⟨27, 27, .rwc, 0x0⟩, ⟨26, 16, .rwc, 0x0⟩, ⟨4, 1, .rwc, 0x0⟩, ⟨0, 0, .rwc, 0x0⟩]⟩,
  ⟨"XLAT_CTX", 0x600104, 32, [(63, 0x4)],
    [⟨27, 27, .rwc, 0x0⟩, ⟨26, 16, .rwc, 0x0⟩, ⟨0, 0, .rwc, 0x0⟩]⟩,
  ⟨"XLAT_FAULT_VA", 0x601000, 64, [(64, 0x20)],
    [⟨55, 0, .ro, 0x0⟩]⟩,
  ⟨"XLAT_FAULT_INFO", 0x601008, 64, [(64, 0x20)],
    [⟨63, 48, .ro, 0x0⟩, ⟨47, 32, .ro, 0x0⟩, ⟨31, 30, .ro, 0x0⟩, ⟨23, 20, .ro, 0x0⟩, ⟨17, 16, .ro, 0x0⟩, ⟨14, 12, .ro, 0x0⟩, ⟨11, 8, .ro, 0x0⟩, ⟨6, 6, .ro, 0x0⟩, ⟨5, 0, .ro, 0x0⟩]⟩,
  ⟨"XLAT_FAULT_AGENT", 0x601010, 64, [(64, 0x20)],
    [⟨63, 32, .ro, 0x0⟩, ⟨15, 0, .ro, 0x0⟩]⟩,
  ⟨"XLAT_FAULT_TIME", 0x601018, 64, [(64, 0x20)],
    [⟨63, 0, .ro, 0x0⟩]⟩,
  ⟨"SEG_BASE", 0x608000, 64, [(64, 0x200), (16, 0x20)],
    [⟨55, 0, .rwc, 0x0⟩]⟩,
  ⟨"SEG_LIMIT", 0x608008, 64, [(64, 0x200), (16, 0x20)],
    [⟨56, 0, .rwc, 0x0⟩]⟩,
  ⟨"SEG_TARGET", 0x608010, 64, [(64, 0x200), (16, 0x20)],
    [⟨63, 48, .rwc, 0x0⟩, ⟨47, 0, .rwc, 0x0⟩]⟩,
  ⟨"SEG_ATTR", 0x608018, 64, [(64, 0x200), (16, 0x20)],
    [⟨31, 16, .ro, 0x0⟩, ⟨11, 8, .rwc, 0x0⟩, ⟨6, 6, .rwc, 0x0⟩, ⟨5, 5, .rwc, 0x0⟩, ⟨4, 4, .rwc, 0x0⟩, ⟨3, 3, .rwc, 0x0⟩, ⟨2, 2, .rwc, 0x0⟩, ⟨1, 0, .rwc, 0x0⟩]⟩]

/-- Registers of the QMGR block (R489). -/
def regTableQmgr : List RegDesc := [
  ⟨"QM_STATUS", 0x500000, 32, [],
    [⟨29, 16, .ro, 0x0⟩, ⟨12, 0, .ro, 0x0⟩]⟩,
  ⟨"QM_COMMIT", 0x500004, 32, [],
    [⟨31, 31, .wo, 0x0⟩, ⟨12, 0, .wo, 0x0⟩]⟩,
  ⟨"QM_COMMIT_STATUS", 0x500008, 32, [],
    [⟨31, 16, .ro, 0x0⟩, ⟨15, 8, .ro, 0xff⟩, ⟨0, 0, .ro, 0x0⟩]⟩,
  ⟨"QM_IRQ_CAUSE", 0x50000c, 32, [],
    [⟨4, 4, .w1c, 0x0⟩, ⟨3, 3, .w1c, 0x0⟩, ⟨2, 2, .w1c, 0x0⟩, ⟨1, 1, .w1c, 0x0⟩, ⟨0, 0, .w1c, 0x0⟩]⟩,
  ⟨"QM_IRQ_CFG", 0x500010, 32, [],
    [⟨20, 16, .rw, 0x0⟩, ⟨10, 0, .rw, 0x0⟩]⟩,
  ⟨"QM_EVT_CFG", 0x500014, 32, [],
    [⟨31, 31, .rw, 0x0⟩, ⟨23, 20, .rw, 0x0⟩, ⟨3, 0, .rw, 0x6⟩]⟩,
  ⟨"QM_EVT_BASE", 0x500018, 64, [],
    [⟨47, 0, .rw, 0x0⟩]⟩,
  ⟨"QM_EVT_SEQ", 0x500020, 32, [],
    [⟨31, 0, .ro, 0x0⟩]⟩,
  ⟨"QM_RING_BASE", 0x580000, 64, [(8192, 0x40)],
    [⟨47, 0, .rwc, 0x0⟩]⟩,
  ⟨"QM_RING_CQ", 0x580008, 64, [(8192, 0x40)],
    [⟨47, 0, .rwc, 0x0⟩]⟩,
  ⟨"QM_RING_CFG", 0x580010, 32, [(8192, 0x40)],
    [⟨27, 22, .rwc, 0x0⟩, ⟨21, 18, .rwc, 0x0⟩, ⟨17, 12, .rwc, 0x0⟩, ⟨11, 9, .rwc, 0x0⟩, ⟨8, 4, .rwc, 0x4⟩, ⟨2, 2, .rwc, 0x0⟩, ⟨1, 1, .rwc, 0x0⟩, ⟨0, 0, .rwc, 0x0⟩]⟩,
  ⟨"QM_RING_IRQ", 0x580014, 32, [(8192, 0x40)],
    [⟨31, 24, .rwc, 0x0⟩, ⟨23, 16, .rwc, 0x0⟩, ⟨11, 11, .rwc, 0x0⟩, ⟨10, 0, .rwc, 0x0⟩]⟩,
  ⟨"QM_RING_QUADS", 0x580018, 32, [(8192, 0x40)],
    [⟨31, 0, .rwc, 0x0⟩]⟩,
  ⟨"QM_RING_STATE", 0x58001c, 32, [(8192, 0x40)],
    [⟨31, 16, .ro, 0x0⟩, ⟨15, 8, .ro, 0x0⟩, ⟨2, 0, .ro, 0x0⟩]⟩,
  ⟨"QM_RING_SEQ", 0x580020, 32, [(8192, 0x40)],
    [⟨31, 0, .ro, 0x0⟩]⟩,
  ⟨"QM_RING_FETCH", 0x580024, 32, [(8192, 0x40)],
    [⟨31, 0, .ro, 0x0⟩]⟩,
  ⟨"QM_RING_CMD", 0x580028, 32, [(8192, 0x40)],
    [⟨1, 0, .wo, 0x0⟩]⟩]

/-- Registers of the CRC block (R489). -/
def regTableCrc : List RegDesc := [
  ⟨"CRC_FENCED", 0x2c00000, 32, [],
    [⟨31, 0, .ro, 0x0⟩]⟩,
  ⟨"CRC_VAL", 0x2c00100, 64, [(32, 0x10)],
    [⟨63, 0, .rw, 0x0⟩]⟩,
  ⟨"CRC_CTL", 0x2c00108, 32, [(32, 0x10)],
    [⟨31, 31, .ro, 0x0⟩, ⟨30, 30, .ro, 0x0⟩, ⟨14, 14, .ro, 0x0⟩, ⟨13, 8, .rw, 0x0⟩, ⟨1, 0, .rw, 0x0⟩]⟩]

/-- Registers of the COH block (R489). -/
def regTableCoh : List RegDesc := [
  ⟨"COH_STATUS", 0x1400000, 32, [],
    [⟨7, 0, .ro, 0x0⟩]⟩,
  ⟨"COH_CFG", 0x1400004, 32, [],
    [⟨9, 0, .rwc, 0xb4⟩]⟩,
  ⟨"COH_COMMIT", 0x1400008, 32, [],
    [⟨0, 0, .wo, 0x0⟩]⟩,
  ⟨"COH_COMMIT_STATUS", 0x140000c, 32, [],
    [⟨31, 16, .ro, 0x0⟩, ⟨15, 8, .ro, 0xff⟩, ⟨0, 0, .ro, 0x0⟩]⟩,
  ⟨"COH_SITE_ENTRIES", 0x1400100, 64, [(8, 0x20)],
    [⟨50, 32, .ro, 0x0⟩, ⟨18, 0, .ro, 0x0⟩]⟩,
  ⟨"COH_SITE_RECALLS", 0x1400108, 64, [(8, 0x20)],
    [⟨63, 32, .ro, 0x0⟩, ⟨31, 0, .ro, 0x0⟩]⟩,
  ⟨"COH_SITE_ERR", 0x1400110, 64, [(8, 0x20)],
    [⟨63, 32, .ro, 0x0⟩, ⟨31, 0, .ro, 0x0⟩]⟩]

/-- Registers of the HOST block (R489). -/
def regTableHost : List RegDesc := [
  ⟨"HOST_STATUS", 0x400000, 32, [],
    [⟨19, 18, .ro, 0x0⟩, ⟨17, 17, .w1c, 0x0⟩, ⟨16, 16, .ro, 0x0⟩, ⟨15, 8, .ro, 0x0⟩, ⟨2, 0, .ro, 0x0⟩]⟩,
  ⟨"HOST_LINK_STATUS", 0x400004, 32, [],
    [⟨31, 24, .ro, 0x0⟩, ⟨18, 16, .ro, 0x0⟩, ⟨15, 15, .ro, 0x0⟩, ⟨14, 14, .ro, 0x0⟩, ⟨11, 8, .ro, 0x0⟩, ⟨4, 0, .ro, 0x0⟩]⟩,
  ⟨"HOST_CFG", 0x400008, 32, [],
    [⟨27, 24, .rwc, 0x0⟩, ⟨23, 23, .rwc, 0x1⟩, ⟨22, 16, .rwc, 0x32⟩, ⟨15, 0, .rwc, 0x14⟩]⟩,
  ⟨"HOST_COMMIT", 0x40000c, 32, [],
    [⟨0, 0, .wo, 0x0⟩]⟩,
  ⟨"HOST_COMMIT_STATUS", 0x400010, 32, [],
    [⟨31, 16, .ro, 0x0⟩, ⟨15, 8, .ro, 0xff⟩, ⟨0, 0, .ro, 0x0⟩]⟩,
  ⟨"HOST_WAKE_EN", 0x400014, 32, [],
    [⟨4, 4, .rw, 0x0⟩, ⟨3, 3, .rw, 0x1⟩, ⟨2, 2, .rw, 0x0⟩, ⟨1, 1, .rw, 0x0⟩, ⟨0, 0, .rw, 0x1⟩]⟩,
  ⟨"HOST_ERR", 0x400018, 64, [],
    [⟨63, 48, .ro, 0x0⟩, ⟨47, 32, .ro, 0x0⟩, ⟨31, 0, .ro, 0x0⟩]⟩,
  ⟨"HOST_BAD", 0x400020, 32, [],
    [⟨9, 0, .ro, 0x0⟩]⟩,
  ⟨"HOST_WIN", 0x401000, 64, [(256, 0x8)],
    [⟨47, 28, .rwc, 0x0⟩, ⟨13, 8, .rwc, 0x0⟩, ⟨2, 2, .rwc, 0x0⟩, ⟨1, 1, .rwc, 0x0⟩, ⟨0, 0, .rwc, 0x0⟩]⟩,
  ⟨"HOST_OB", 0x402000, 64, [(1024, 0x8)],
    [⟨63, 12, .rwc, 0x0⟩, ⟨3, 3, .rwc, 0x0⟩, ⟨2, 2, .rwc, 0x0⟩, ⟨1, 1, .rwc, 0x0⟩, ⟨0, 0, .rwc, 0x0⟩]⟩]

/-- Registers of the FAB block (R489). -/
def regTableFab : List RegDesc := [
  ⟨"FAB_STATUS", 0x1800000, 32, [],
    [⟨28, 24, .ro, 0x0⟩, ⟨16, 0, .ro, 0x0⟩]⟩,
  ⟨"FAB_CFG", 0x1800004, 32, [],
    [⟨31, 16, .rwc, 0x3e8⟩, ⟨9, 0, .rwc, 0x32⟩]⟩,
  ⟨"FAB_COMMIT", 0x1800008, 32, [],
    [⟨0, 0, .wo, 0x0⟩]⟩,
  ⟨"FAB_COMMIT_STATUS", 0x180000c, 32, [],
    [⟨31, 16, .ro, 0x0⟩, ⟨15, 8, .ro, 0xff⟩, ⟨0, 0, .ro, 0x0⟩]⟩,
  ⟨"FAB_IDENT", 0x1800010, 32, [],
    [⟨28, 28, .ro, 0x0⟩, ⟨27, 22, .ro, 0x0⟩, ⟨21, 16, .ro, 0x0⟩, ⟨15, 0, .ro, 0x0⟩]⟩,
  ⟨"FAB_TOP", 0x1800014, 32, [],
    [⟨19, 10, .ro, 0x0⟩, ⟨9, 0, .ro, 0x0⟩]⟩,
  ⟨"FAB_GROUP", 0x1800018, 64, [],
    [⟨63, 32, .ro, 0x0⟩, ⟨21, 16, .ro, 0x0⟩, ⟨13, 8, .ro, 0x0⟩, ⟨4, 4, .ro, 0x0⟩, ⟨3, 3, .ro, 0x0⟩, ⟨2, 0, .ro, 0x0⟩]⟩,
  ⟨"FAB_MEMBERS", 0x1800020, 64, [],
    [⟨63, 0, .ro, 0x0⟩]⟩,
  ⟨"FAB_QUARANTINE", 0x1800028, 64, [],
    [⟨63, 0, .ro, 0x0⟩]⟩,
  ⟨"FAB_DROPS", 0x1800030, 64, [],
    [⟨63, 32, .ro, 0x0⟩, ⟨31, 0, .ro, 0x0⟩]⟩,
  ⟨"FAB_CONN_SEL", 0x1800038, 32, [],
    [⟨15, 0, .rw, 0x0⟩]⟩,
  ⟨"FAB_CONN_BAD", 0x180003c, 32, [],
    [⟨18, 16, .ro, 0x0⟩, ⟨15, 0, .ro, 0x0⟩]⟩,
  ⟨"FAB_CONN_DATA", 0x1800040, 64, [],
    [⟨50, 48, .ro, 0x0⟩, ⟨47, 32, .ro, 0x0⟩, ⟨31, 31, .rwc, 0x0⟩, ⟨29, 29, .rwc, 0x0⟩, ⟨28, 28, .rwc, 0x0⟩, ⟨27, 27, .rwc, 0x0⟩, ⟨26, 26, .rwc, 0x0⟩, ⟨25, 20, .rwc, 0x0⟩, ⟨19, 16, .rwc, 0x0⟩, ⟨15, 0, .rwc, 0x0⟩]⟩,
  ⟨"FAB_FWD_SEL", 0x1800048, 32, [],
    [⟨10, 0, .rw, 0x0⟩]⟩,
  ⟨"FAB_FWD_DATA", 0x1800050, 32, [],
    [⟨31, 0, .rw, 0x0⟩]⟩,
  ⟨"FAB_PORT_CFG", 0x1800100, 32, [(16, 0x20)],
    [⟨2, 0, .rwc, 0x0⟩]⟩,
  ⟨"FAB_PORT_STATUS", 0x1800104, 32, [(16, 0x20)],
    [⟨31, 16, .ro, 0xffff⟩, ⟨15, 8, .ro, 0x0⟩, ⟨7, 6, .ro, 0x0⟩, ⟨3, 0, .ro, 0x0⟩]⟩,
  ⟨"FAB_PORT_ERR", 0x1800108, 64, [(16, 0x20)],
    [⟨63, 32, .ro, 0x0⟩, ⟨31, 0, .ro, 0x0⟩]⟩,
  ⟨"FAB_PORT_REC", 0x1800110, 32, [(16, 0x20)],
    [⟨31, 31, .ro, 0x0⟩, ⟨19, 16, .ro, 0x0⟩, ⟨11, 8, .ro, 0x0⟩, ⟨3, 0, .wo, 0x0⟩]⟩]

/-- Registers of the COLL block (R489). -/
def regTableColl : List RegDesc := [
  ⟨"COLL_STATUS", 0x2800000, 32, [],
    [⟨23, 16, .ro, 0x0⟩, ⟨15, 0, .ro, 0x0⟩]⟩,
  ⟨"COLL_COMMIT", 0x2800004, 32, [],
    [⟨0, 0, .wo, 0x0⟩]⟩,
  ⟨"COLL_CFG", 0x2800008, 64, [],
    [⟨39, 32, .rwc, 0x3c⟩, ⟨23, 16, .rwc, 0x32⟩, ⟨15, 0, .rwc, 0x3e8⟩]⟩,
  ⟨"COLL_COMMIT_STATUS", 0x2800010, 32, [],
    [⟨31, 16, .ro, 0x0⟩, ⟨15, 8, .ro, 0xff⟩, ⟨0, 0, .ro, 0x0⟩]⟩,
  ⟨"COLL_STEP", 0x2800014, 32, [],
    [⟨5, 4, .wo, 0x0⟩, ⟨3, 0, .wo, 0x0⟩]⟩,
  ⟨"COLL_PEND", 0x2800018, 64, [],
    [⟨63, 0, .ro, 0x0⟩]⟩,
  ⟨"COLL_READY_STAT", 0x2800020, 64, [],
    [⟨63, 32, .ro, 0x0⟩, ⟨10, 0, .ro, 0x0⟩]⟩,
  ⟨"COLL_ENG_STATUS", 0x2800100, 32, [(16, 0x10)],
    [⟨31, 31, .ro, 0x0⟩, ⟨30, 28, .ro, 0x0⟩, ⟨3, 0, .ro, 0x0⟩]⟩,
  ⟨"COLL_ENG_COUNT", 0x2800108, 64, [(16, 0x10)],
    [⟨63, 32, .ro, 0x0⟩, ⟨31, 0, .ro, 0x0⟩]⟩,
  ⟨"COLL_MIRROR", 0x2800200, 64, [(64, 0x10)],
    [⟨63, 62, .ro, 0x0⟩, ⟨55, 52, .ro, 0x0⟩, ⟨48, 48, .ro, 0x0⟩, ⟨45, 40, .ro, 0x0⟩, ⟨23, 0, .ro, 0x0⟩]⟩,
  ⟨"COLL_MIRROR_EPOCH", 0x2800208, 64, [(64, 0x10)],
    [⟨63, 0, .ro, 0x0⟩]⟩]

/-- Registers of the STRM block (R489). -/
def regTableStrm : List RegDesc := [
  ⟨"STRM_STATUS", 0x2000000, 32, [],
    [⟨31, 16, .ro, 0x0⟩, ⟨15, 15, .ro, 0x0⟩]⟩,
  ⟨"STRM_CTX_SEL", 0x2000004, 32, [],
    [⟨15, 0, .rw, 0x0⟩]⟩,
  ⟨"STRM_CTX_CMD", 0x2000008, 32, [],
    [⟨1, 0, .wo, 0x0⟩]⟩,
  ⟨"STRM_CTX_STATUS", 0x200000c, 32, [],
    [⟨31, 31, .ro, 0x0⟩, ⟨19, 16, .ro, 0x0⟩, ⟨15, 0, .ro, 0x0⟩]⟩,
  ⟨"STRM_ADMIT", 0x2000010, 64, [],
    [⟨63, 32, .ro, 0x0⟩, ⟨31, 0, .ro, 0x0⟩]⟩,
  ⟨"STRM_COMMIT", 0x2000018, 32, [],
    [⟨0, 0, .wo, 0x0⟩]⟩,
  ⟨"STRM_COMMIT_STATUS", 0x200001c, 32, [],
    [⟨31, 16, .ro, 0x0⟩, ⟨15, 8, .ro, 0xff⟩, ⟨0, 0, .ro, 0x0⟩]⟩,
  ⟨"STRM_DEC_STAT", 0x2000020, 64, [],
    [⟨63, 48, .ro, 0x0⟩, ⟨47, 32, .ro, 0x0⟩, ⟨31, 16, .ro, 0x0⟩, ⟨15, 0, .ro, 0x0⟩]⟩,
  ⟨"STRM_CTX_DATA", 0x2000040, 64, [(8, 0x8)],
    [⟨63, 0, .rw, 0x0⟩]⟩,
  ⟨"STRM_TMPL", 0x2000400, 64, [(16, 0x40), (8, 0x8)],
    [⟨63, 0, .rwc, 0x0⟩]⟩,
  ⟨"STRM_PORT_CFG", 0x2001000, 32, [(16, 0x40)],
    [⟨27, 16, .rwc, 0x0⟩, ⟨15, 0, .rwc, 0x0⟩]⟩,
  ⟨"STRM_PORT_IP4", 0x2001004, 32, [(16, 0x40)],
    [⟨31, 0, .rw, 0x0⟩]⟩,
  ⟨"STRM_PORT_IP6_LO", 0x2001008, 64, [(16, 0x40)],
    [⟨63, 0, .rw, 0x0⟩]⟩,
  ⟨"STRM_PORT_IP6_HI", 0x2001010, 64, [(16, 0x40)],
    [⟨63, 0, .rw, 0x0⟩]⟩,
  ⟨"STRM_PORT_CNT0", 0x2001018, 64, [(16, 0x40)],
    [⟨63, 32, .ro, 0x0⟩, ⟨31, 0, .ro, 0x0⟩]⟩,
  ⟨"STRM_PORT_CNT1", 0x2001020, 64, [(16, 0x40)],
    [⟨63, 32, .ro, 0x0⟩, ⟨31, 0, .ro, 0x0⟩]⟩]

/-- Registers of the TIME block (R489). -/
def regTableTime : List RegDesc := [
  ⟨"TIME_STATUS", 0x200000, 32, [],
    [⟨23, 16, .ro, 0xff⟩, ⟨15, 12, .ro, 0xf⟩, ⟨9, 8, .ro, 0x0⟩, ⟨7, 7, .ro, 0x0⟩, ⟨6, 6, .ro, 0x0⟩, ⟨2, 0, .ro, 0x0⟩]⟩,
  ⟨"TIME_NOW", 0x200008, 64, [],
    [⟨63, 0, .ro, 0x0⟩]⟩,
  ⟨"TIME_CFG", 0x200010, 32, [],
    [⟨31, 24, .rwc, 0x64⟩, ⟨16, 16, .rwc, 0x0⟩, ⟨15, 0, .rwc, 0x3e8⟩]⟩,
  ⟨"TIME_COMMIT", 0x200014, 32, [],
    [⟨0, 0, .wo, 0x0⟩]⟩,
  ⟨"TIME_COMMIT_STATUS", 0x200018, 32, [],
    [⟨31, 16, .ro, 0x0⟩, ⟨15, 8, .ro, 0xff⟩, ⟨0, 0, .ro, 0x0⟩]⟩,
  ⟨"TIME_SEC_NEXT", 0x20001c, 32, [],
    [⟨31, 0, .rw, 0x0⟩]⟩,
  ⟨"TIME_RATE", 0x200020, 64, [],
    [⟨63, 0, .ro, 0x44b82fa0a⟩]⟩,
  ⟨"TIME_ERR", 0x200028, 64, [],
    [⟨63, 0, .ro, 0x0⟩]⟩,
  ⟨"TIME_DELAY", 0x200030, 32, [],
    [⟨31, 0, .ro, 0x0⟩]⟩,
  ⟨"TIME_STEER", 0x200038, 64, [],
    [⟨63, 0, .rw, 0x0⟩]⟩,
  ⟨"TIME_TIN_CFG", 0x200040, 32, [],
    [⟨14, 12, .rw, 0x0⟩, ⟨10, 8, .rw, 0x0⟩, ⟨6, 4, .rw, 0x0⟩, ⟨2, 0, .rw, 0x0⟩]⟩,
  ⟨"TIME_TIN_STAT", 0x200044, 32, [],
    [⟨31, 0, .ro, 0x0⟩]⟩,
  ⟨"TIME_TIN_OVF", 0x200048, 32, [],
    [⟨3, 0, .w1c, 0x0⟩]⟩,
  ⟨"TIME_TIN_TS", 0x200050, 64, [(4, 0x8)],
    [⟨63, 0, .ro, 0x0⟩]⟩,
  ⟨"TIME_TOUT_CFG", 0x200070, 32, [],
    [⟨30, 24, .rwc, 0xa⟩, ⟨22, 16, .rwc, 0xa⟩, ⟨14, 8, .rwc, 0xa⟩, ⟨6, 0, .rwc, 0xa⟩]⟩,
  ⟨"TIME_TOUT_SCHED", 0x200078, 64, [(4, 0x8)],
    [⟨63, 2, .wo, 0x0⟩]⟩,
  ⟨"TIME_TOUT_STAT", 0x200098, 32, [],
    [⟨31, 0, .ro, 0x0⟩]⟩,
  ⟨"TIME_PORT_ASYM", 0x200100, 32, [(16, 0x4)],
    [⟨31, 0, .rw, 0x0⟩]⟩]

/-- Registers of the PWR block (R489). -/
def regTablePwr : List RegDesc := [
  ⟨"PWR_STATUS", 0x100000, 32, [],
    [⟨27, 16, .ro, 0x0⟩, ⟨15, 8, .ro, 0x0⟩, ⟨3, 3, .ro, 0x0⟩, ⟨2, 2, .ro, 0x0⟩, ⟨1, 1, .ro, 0x0⟩, ⟨0, 0, .ro, 0x0⟩]⟩,
  ⟨"PWR_ENVELOPE", 0x100004, 32, [],
    [⟨12, 0, .rwc, 0x0⟩]⟩,
  ⟨"PWR_CTL", 0x100008, 32, [],
    [⟨31, 24, .rwc, 0xa⟩, ⟨23, 16, .rwc, 0x5f⟩, ⟨11, 0, .rwc, 0x0⟩]⟩,
  ⟨"PWR_SLEEP", 0x10000c, 32, [],
    [⟨15, 0, .rwc, 0x32⟩]⟩,
  ⟨"PWR_COMMIT", 0x100010, 32, [],
    [⟨0, 0, .wo, 0x0⟩]⟩,
  ⟨"PWR_COMMIT_STATUS", 0x100014, 32, [],
    [⟨31, 16, .ro, 0x0⟩, ⟨15, 8, .ro, 0xff⟩, ⟨0, 0, .ro, 0x0⟩]⟩,
  ⟨"PWR_SETPOINT", 0x100018, 32, [],
    [⟨11, 0, .rw, 0x0⟩]⟩,
  ⟨"PWR_SHARE", 0x10001c, 32, [],
    [⟨27, 16, .ro, 0x0⟩, ⟨10, 0, .ro, 0x0⟩]⟩,
  ⟨"PWR_PKG", 0x100020, 32, [],
    [⟨28, 16, .ro, 0x0⟩, ⟨12, 0, .ro, 0x0⟩]⟩,
  ⟨"PWR_TEMP", 0x100024, 32, [],
    [⟨15, 8, .ro, 0x0⟩, ⟨7, 0, .ro, 0x0⟩]⟩,
  ⟨"PWR_ENERGY", 0x100028, 64, [],
    [⟨63, 0, .ro, 0x0⟩]⟩,
  ⟨"PWR_QUADS", 0x100030, 32, [],
    [⟨31, 0, .ro, 0x0⟩]⟩,
  ⟨"PWR_EVENTS", 0x100034, 32, [],
    [⟨31, 24, .ro, 0x0⟩, ⟨23, 16, .ro, 0x0⟩, ⟨15, 0, .ro, 0x0⟩]⟩,
  ⟨"PWR_SAG", 0x100038, 32, [],
    [⟨23, 16, .ro, 0x0⟩, ⟨9, 9, .w1c, 0x0⟩, ⟨8, 8, .w1c, 0x0⟩, ⟨1, 1, .ro, 0x0⟩, ⟨0, 0, .ro, 0x0⟩]⟩]

/-- Registers of the SEC block (R489). -/
def regTableSec : List RegDesc := [
  ⟨"SEC_STATUS", 0x300000, 32, [],
    [⟨11, 10, .ro, 0x0⟩, ⟨8, 8, .ro, 0x0⟩, ⟨2, 0, .ro, 0x0⟩]⟩,
  ⟨"SEC_SERIAL", 0x300008, 64, [],
    [⟨63, 0, .ro, 0x0⟩]⟩,
  ⟨"SEC_FW", 0x300010, 32, [],
    [⟨31, 24, .ro, 0x0⟩, ⟨23, 16, .ro, 0x0⟩, ⟨0, 0, .ro, 0x0⟩]⟩,
  ⟨"SEC_BLANKET", 0x300014, 32, [],
    [⟨0, 0, .wo, 0x0⟩]⟩,
  ⟨"SEC_BLANKET_STATUS", 0x300018, 32, [],
    [⟨31, 16, .ro, 0x0⟩, ⟨15, 8, .ro, 0x0⟩, ⟨7, 0, .ro, 0x0⟩]⟩,
  ⟨"SEC_BLANKET_TIME", 0x30001c, 32, [],
    [⟨23, 16, .ro, 0x0⟩, ⟨15, 0, .ro, 0x0⟩]⟩,
  ⟨"SEC_SLOT_CMD", 0x300020, 32, [],
    [⟨8, 8, .wo, 0x0⟩, ⟨3, 0, .wo, 0x0⟩]⟩,
  ⟨"SEC_SLOT", 0x300100, 32, [(16, 0x4)],
    [⟨31, 16, .ro, 0x0⟩, ⟨7, 7, .ro, 0x0⟩, ⟨6, 6, .ro, 0x0⟩, ⟨2, 0, .ro, 0x0⟩]⟩]

/-- Registers of the RAS block (R489). -/
def regTableRas : List RegDesc := [
  ⟨"RAS_STATUS", 0x3800000, 32, [],
    [⟨17, 16, .ro, 0x0⟩, ⟨8, 0, .ro, 0x0⟩]⟩,
  ⟨"RAS_ALERT", 0x3800004, 32, [],
    [⟨4, 4, .ro, 0x0⟩, ⟨3, 3, .ro, 0x0⟩, ⟨2, 2, .ro, 0x0⟩, ⟨1, 1, .ro, 0x0⟩, ⟨0, 0, .ro, 0x0⟩]⟩,
  ⟨"RAS_ALERT_EN", 0x3800008, 32, [],
    [⟨4, 0, .ro, 0xf⟩]⟩,
  ⟨"RAS_EVT_NEXT", 0x3800010, 32, [],
    [⟨31, 0, .ro, 0x0⟩]⟩,
  ⟨"RAS_EVT_BOUNDARY", 0x3800014, 32, [],
    [⟨31, 0, .ro, 0x0⟩]⟩,
  ⟨"RAS_EVT_ACK", 0x3800018, 32, [],
    [⟨31, 0, .rw, 0x0⟩]⟩,
  ⟨"RAS_EVT_LOST", 0x380001c, 32, [],
    [⟨31, 0, .ro, 0x0⟩]⟩,
  ⟨"RAS_FATAL_INFO", 0x3800020, 64, [],
    [⟨63, 32, .ro, 0x0⟩, ⟨31, 0, .ro, 0x0⟩]⟩,
  ⟨"RAS_CNT_CORR", 0x3800028, 32, [],
    [⟨31, 0, .ro, 0x0⟩]⟩,
  ⟨"RAS_CNT_DEFER", 0x380002c, 32, [],
    [⟨31, 0, .ro, 0x0⟩]⟩,
  ⟨"RAS_CNT_UC", 0x3800030, 32, [],
    [⟨31, 0, .ro, 0x0⟩]⟩,
  ⟨"RAS_CNT_FATAL", 0x3800034, 32, [],
    [⟨31, 0, .ro, 0x0⟩]⟩,
  ⟨"RAS_MRAM_WEAR", 0x3800038, 32, [],
    [⟨25, 16, .ro, 0x0⟩, ⟨12, 8, .ro, 0x10⟩, ⟨7, 0, .ro, 0x0⟩]⟩,
  ⟨"RAS_INJECT", 0x3800040, 64, [],
    [⟨63, 63, .wo, 0x0⟩, ⟨57, 52, .wo, 0x0⟩, ⟨51, 48, .wo, 0x0⟩, ⟨47, 0, .wo, 0x0⟩]⟩,
  ⟨"RAS_INJECT_STATUS", 0x3800048, 32, [],
    [⟨1, 0, .ro, 0x0⟩]⟩]

/-- The registers of the block that holds a BAR0 offset (R480). -/
def regTableOf (off : Nat) : List RegDesc :=
  if off < 0x100000 then regTableGlb
  else if off < 0x200000 then regTablePwr
  else if off < 0x300000 then regTableTime
  else if off < 0x400000 then regTableSec
  else if off < 0x500000 then regTableHost
  else if off < 0x600000 then regTableQmgr
  else if off < 0x700000 then regTableXlat
  else if off < 0x800000 then regTableReg
  else if off < 0xc00000 then regTableHbm
  else if off < 0x1000000 then regTableNoc
  else if off < 0x1400000 then regTableSite
  else if off < 0x1800000 then regTableCoh
  else if off < 0x2000000 then regTableFab
  else if off < 0x2800000 then regTableStrm
  else if off < 0x2c00000 then regTableColl
  else if off < 0x3000000 then regTableCrc
  else if off < 0x3800000 then regTableTile
  else if off < 0x3c00000 then regTableRas
  else []

end Sys2Proof.Machine
end

