-- ==== Sys2Proof/Machine/StColl.lean ====
section
/-! DEFINITION. The records of State for collectives, buddy mirroring and instrument streams. -/
namespace Sys2Proof.Machine

/-- A MIRROR_SYNC under way (R355): its ring and sequence, epoch, time of issue, the blocks still to copy, and whether the trailer
has been sent. -/
structure SyncRun where
  ring : Nat
  seq : Nat
  epoch : Nat
  issued : Nat
  left : List Nat
  trailer : Bool
  deriving DecidableEq, Repr

/-- A mirror entry (R353–R356): `phys` is the hub address of its region, the dirty blocks of each half by number, `zeroed` says that
the open half's trailer has been overwritten, and `fault` is the status that faulted it. -/
structure MirSt where
  ctx : Nat
  engine : Nat
  src : Nat
  dst : Nat
  length : Nat
  phys : Nat
  dirty0 : List Nat
  dirty1 : List Nat
  half : Nat
  zeroed : Bool
  sync : Option SyncRun
  fault : Nat
  deriving DecidableEq, Repr

/-- A READY that waits for its collective (R346): the connection's context and sender, and the fields it carries. -/
structure ReadyMsg where
  ctx : Nat
  src : Nat
  comm : Nat
  cseq : Nat
  step : Nat
  credit : Nat
  op : Nat
  count : Nat
  fmt : Nat
  redop : Nat
  xsExp : Nat
  root : Nat
  deriving DecidableEq, Repr

/-- One step of a collective at this member (R343): the ranks it receives from in the order in which it adds, the ranks it sends to, the
elements that leave and arrive (first and number), and whether what arrives is added or stored. -/
structure CollStep where
  recv : List Nat
  to_ : List Nat
  sendAt : Nat
  sendLen : Nat
  recvAt : Nat
  recvLen : Nat
  reduce : Bool
  deriving DecidableEq, Repr

/-- An open collective in an engine's slot (R339–R351). `ready` says that its record has been read and its steps laid out; `work` holds
the whole vector element by element with its poison mark, `loaded` the bytes read from src with `part_` of an element cut off, `got` the bytes of the current step
received by rank, `byFirmware` says that firmware has released a step of it, `granted` and `sent` what the current step has granted and sent by rank, `credits` what each receiver has granted by rank
and step, `extSeq` the last report applied for each slow member, and `written` the bytes written to dst. -/
structure CollRun where
  ring : Nat
  seq : Nat
  ctx : Nat
  phys : Bool
  op : Nat
  fmt : Nat
  redop : Nat
  count : Nat
  root : Nat
  xsExp : Nat
  src : Nat
  dst : Nat
  commVa : Nat
  cseq : Nat
  deadline : Nat
  ready : Bool
  rec_ : List Byte
  comm : Nat
  k : Nat
  g : Nat
  slot : Nat
  rank : Nat
  members : List Nat
  extended : Nat
  steps : List CollStep
  done : Nat
  begun : Bool
  stepped : Bool
  released : Bool
  byFirmware : Bool
  work : List (Nat × Bool)
  loaded : Nat
  part_ : List PByte
  got : List (Nat × List PByte)
  granted : List (Nat × Nat)
  sent : List (Nat × Nat)
  credits : List (Nat × Nat × Nat)
  saturated : Bool
  poison : Bool
  extSeq : List (Nat × Nat)
  written : Nat
  deriving DecidableEq, Repr

/-- Collectives and mirroring outside their registers. Slots are engine * 4 + slot; `mirrorAt` is when mirror_gbps admits the next block. -/
structure CollSt where
  slots : Sparse CollRun
  ready : List ReadyMsg
  mirrors : Sparse MirSt
  mirrorAt : Nat
  deriving DecidableEq, Repr

/-- A record of a flow that still holds its slot (R368–R374): its number, whether it is a gap marker, the frame's sequence, arrival
time, event and length, whether it fills a gap, the payload bytes not yet written, the MAC it came from, whether its header has been
written, the tile and slot of its copy, whether delivery has been tried, its decision (accept, default and tags) once issued, whether it is a
record of the ring, and whether it has been released. -/
structure FlowRec where
  n : Nat
  marker : Bool
  seq : Nat
  arrival : Nat
  event : Nat
  len : Nat
  late : Bool
  bytes : List Byte
  mac : Nat
  hdr : Bool
  inbox : Option (Nat × Nat)
  asked : Bool
  decided : Option (Bool × Bool × Nat)
  valid : Bool
  released : Bool
  deriving DecidableEq, Repr

/-- A flow (R361–R371): its 64-byte entry as eight words, the next sequence expected, the pending marker (first sequence, count and
cause mask), the tokens in units of 2^-32 of a MB-per-second byte and when they were counted, the sequences counted not received,
the records, the next filter tile, the pool ring of a learned flow and its idle_ms, the time of its last frame, whether its first frame has
been seen, the status of its fault, and whether it is freed without waiting for head. -/
structure FlowSt where
  words : List DWord
  next : Option Nat
  marker : Option (Nat × Nat × Nat)
  tokens : Nat
  tokensAt : Nat
  missing : List Nat
  recs : List FlowRec
  rr : Nat
  pool : Nat
  idle : Nat
  lastAt : Nat
  woke : Bool
  fault : Nat
  drop : Bool
  deriving DecidableEq, Repr

/-- Instrument streams outside their registers: flows by stream context, decision words forwarded and not yet taken (context, word),
next inbox slot of each filter tile, inbox slots in use (tile, slot, context, record), and times of the ports' overflow events. -/
structure StrmSt where
  flows : Sparse FlowSt
  fwd : List (Nat × Nat)
  inboxNext : Sparse Nat
  inboxBusy : List (Nat × Nat × Nat × Nat)
  dropAt : Sparse Nat
  firmware : Bool
  deriving DecidableEq, Repr

/-- Nothing open. -/
def CollSt.none : CollSt := { slots := [], ready := [], mirrors := [], mirrorAt := 0 }
def StrmSt.none : StrmSt := { flows := [], fwd := [], inboxNext := [], inboxBusy := [], dropAt := [], firmware := false }

end Sys2Proof.Machine
end

