-- ==== Sys2Proof/Machine/StFab.lean ====
section
/-! DEFINITION. The records of State for fabric ports, forwarding and the manager hierarchy. -/
namespace Sys2Proof.Machine

/-- A block that waits at a port to leave, and the port that a block in transit came in on (R318, R320). -/
structure QBlock where
  block : LinkBlock
  from_ : Option Nat
  deriving DecidableEq, Repr

/-- A Teurn port outside its registers (R315–R318): the mode it trained in, the step of a retrain (0 at the same width, 1 x4 on lanes 0–3,
2 x4 on lanes 4–7), whether its recovery is the driver's (R25), the next sequence numbers, the blocks not acknowledged and those that wait, the credits
held by lane, which of classes 0 and 1 goes next, and whether a nak has been sent since the last accepted block. -/
structure PortSt where
  mode : Nat
  step : Nat
  assist : Bool
  sendSeq : Nat
  recvSeq : Nat
  unacked : List LinkBlock
  queue : List QBlock
  credits : Sparse Nat
  turn : Nat
  naked : Bool
  v1At : Option Nat
  deriving DecidableEq, Repr

/-- A port before training. -/
def PortSt.off : PortSt :=
  { mode := 0, step := 0, assist := false, sendSeq := 0, recvSeq := 0, unacked := [], queue := [], credits := [], turn := 0, naked := false, v1At := none }

/-- The fabric outside its registers (R320, R321): ports, forwarding entries, the neighbour lists of the fabric map by device, and the
time of the last hop limit event. -/
structure FabSt where
  ports : Sparse PortSt
  fwd : Sparse Nat
  map : Sparse (List Nat)
  hopAt : Option Nat
  deriving DecidableEq, Repr

/-- What a package knows of another of its group or of a group manager (R330–R334, R336): whether it has joined, when its last cairn was
accepted, its health, whether it is marked lost, its delay and its cairn's sequence while it is slow, the identity it joined with, and of a
group manager its live mask, epoch and member number, and the flags of its cairn. -/
structure PeerSeen where
  joined : Bool
  at_ : Nat
  health : Nat
  lost : Bool
  slow : Option (Nat × Nat × Nat)
  digest : Nat
  serial : Nat
  cm2 : Bool
  live : Nat
  epoch : Nat
  manager : Nat
  flags : Nat
  deriving DecidableEq, Repr

/-- A package not heard of. -/
def PeerSeen.never : PeerSeen :=
  { joined := false, at_ := 0, health := 0, lost := false, slow := none, digest := 0, serial := 0, cm2 := false, live := 0, epoch := 0, manager := 0, flags := 0 }

/-- The hierarchy outside its registers (R329–R336): the roster copy, the groups' rosters enrolled on the top manager, members and group
managers heard of, the cairn count, fatal events counted up to the last cairn, whether a JOIN waits for its answer, whether a manager has been
heard and when, when the top manager was heard and its epoch, the members known to be lost, the roster digest of the
manager's last cairn. -/
structure HierSt where
  roster : Sparse RosterEntry
  groupRosters : Sparse Nat
  members : Sparse PeerSeen
  groups : Sparse PeerSeen
  cairnSeq : Nat
  fatals : Nat
  joining : Bool
  heard : Bool
  heardAt : Nat
  topAt : Nat
  topEpoch : Nat
  lostKnown : List Nat
  rosterSeen : Nat
  deriving DecidableEq, Repr

/-- No group. -/
def HierSt.none : HierSt :=
  { roster := [], groupRosters := [], members := [], groups := [], cairnSeq := 0, fatals := 0, joining := false, heard := false, heardAt := 0,
    topAt := 0, topEpoch := 0, lostKnown := [], rosterSeen := 0 }

/-- No port trained and no entry. -/
def FabSt.none : FabSt := { ports := [], fwd := [], map := [], hopAt := Option.none }

end Sys2Proof.Machine
end

