-- ==== Sys2Proof/Machine/StSite.lean ====
section
/-! DEFINITION. The records of State for site links and the coherence home. -/
namespace Sys2Proof.Machine

/-- A site's state of a line as the home sees it (R276). -/
inductive LineState where
  | s | o | x
  deriving DecidableEq, Repr

/-- An entry of the snoop filter (R276): site, line (address / 64), the context and segment of the grant, the state and the order of
granting. -/
structure FilterEntry where
  site : Nat
  line : Nat
  ctx : Nat
  seg : Nat
  va : Nat
  state : LineState
  order : Nat
  deriving DecidableEq, Repr

/-- Snoops of the home (R280). -/
inductive SnoopKind where
  | share | inv | cur
  deriving DecidableEq, Repr

/-- Requests that the home serves from a site (R280, R285). -/
inductive HomeOp where
  | rdShared | rdOwn | upgrade | rdCurr | wrLine | wrPartial | wbDirty | evictClean | clFlush
  deriving DecidableEq, Repr

/-- A request of a site at the home: `cxl` says which messages carry it, `name` is the CXL message or 0. -/
structure HomeReq where
  site : Nat
  op : HomeOp
  cxl : Bool
  goOnly : Bool
  tag : Nat
  line : Nat
  va : Nat
  ctx : Nat
  seg : Nat
  bytes : List (Option Byte)
  poison : Bool
  deriving DecidableEq, Repr

/-- What a home transaction is for (R282, R283). -/
inductive HomeFor where
  | site (r : HomeReq)
  | agent (who : Who) (write : Bool) (line : Nat)
  | mem (r : MemReq)
  | recall (site line : Nat)
  deriving DecidableEq, Repr

/-- A transaction at a home slice (R283): the snoops not yet answered, the dirty data they brought, and whether it waits for
the chiplet's Ack. `got` says that every snoop has been answered, `others` that another site held the line when it began. -/
structure HomeTxn where
  id : Nat
  line : Nat
  why : HomeFor
  snoops : List (Nat × SnoopKind × Nat)
  data : Option (List PByte)
  waitAck : Bool
  got : Bool
  others : Bool
  deriving DecidableEq, Repr

/-- The home (R276, R283, R284): filter, transactions, waiting requests, and the time of each site's last event. -/
structure HomeSt where
  filter : List FilterEntry
  txns : List HomeTxn
  waiting : List HomeFor
  nextTag : Nat
  grants : Nat
  lateAt : Sparse Nat
  misAt : Sparse Nat
  reqAt : Sparse Nat
  deriving DecidableEq, Repr

/-- The home at reset. -/
def HomeSt.reset : HomeSt :=
  { filter := [], txns := [], waiting := [], nextTag := 0, grants := 0, lateAt := [], misAt := [], reqAt := [] }

/-- What a module's recovery is at (R261, R264, R265). -/
inductive LadderStep where
  | none | retrain | full | spare | half | await
  deriving DecidableEq, Repr

/-- A module of a site outside its registers (R264, R265, R269). -/
structure ModSt where
  ladder : LadderStep
  assist : Option Bool
  spent : Bool
  logical : Nat
  heldAt : Option Nat
  lent : List Nat
  retries : Nat
  awaitAt : Nat
  reason : Nat
  sideband : Bool
  version : Nat
  retriedAt : List Nat
  deriving DecidableEq, Repr

/-- A module before training. -/
def ModSt.off : ModSt :=
  { ladder := .none, assist := none, spent := false, logical := 15, heldAt := none, lent := [], retries := 0, awaitAt := 0, reason := 0,
    sideband := false, version := 0, retriedAt := [] }

/-- What the hub sends to a chiplet on its mainband (R278, R279, R285): grants and data with a state code of R278, answers
without data, snoops, and accesses to its aperture, one line each, a write with its byte mask. -/
inductive SiteMsg where
  | data (tag state : Nat) (bytes : List PByte)
  | comp (tag state : Nat)
  | wbAck (tag : Nat) (stale : Bool)
  | refused (tag : Nat)
  | go (tag state : Nat) (bytes : Option (List PByte))
  | writePull (tag : Nat)
  | snoop (tag : Nat) (kind : SnoopKind) (va : Nat)
  | apRd (tag va : Nat)
  | apWr (tag va : Nat) (bytes : List (Option PByte))
  deriving DecidableEq, Repr

/-- An exchange of R259: the new maps, and how many times SPREAD has been sent: 0 while the hub waits for its own transactions
(step 2). -/
structure SpreadExch where
  lmap : Nat
  entries : List Nat
  sent : Nat
  deriving DecidableEq, Repr

/-- A site's links outside its registers (R259, R260, R272). `held` are the messages that wait at the site port, each with its
address; `answered` is the last answer under each tag of the chiplet's, with the request's operation and address, and `replays`
are the tags whose answers may be asked for again after an exchange with the old carrier down (R259 step 5). -/
structure LinkSt where
  mods : Sparse ModSt
  exch : Option SpreadExch
  next : List (Nat × List Nat)
  sb : Option (Bool × Nat × Nat)
  held : List (Nat × SiteMsg)
  answered : Sparse (HomeOp × Nat × SiteMsg)
  replays : List Nat
  deriving DecidableEq, Repr

/-- A site's links before training. -/
def LinkSt.off : LinkSt := { mods := [], exch := none, next := [], sb := none, held := [], answered := [], replays := [] }

end Sys2Proof.Machine
end

