-- ==== Sys2Proof/Machine/StSys.lean ====
section
/-! DEFINITION. The records of State for fuses, the MRAM store, the host function and the pins. -/
namespace Sys2Proof.Machine

/-- The life cycle of the fuses (R433). -/
inductive LifeCycle where
  | blank | test | production | endOfLife | lost
  deriving DecidableEq, Repr

/-- One-time fuses (R21, R433, R434, R438). `burnAt` is the counter at the start of the last transition, whose 8 bits take 400 µs. -/
structure FuseSt where
  part : Part
  lc : LifeCycle
  serial : Nat
  svn : Nat
  uds : Bool
  debugOff : Bool
  fusedQuads : List Nat
  burnAt : Option Nat
  deriving DecidableEq, Repr

/-- A firmware copy of the MRAM store (R438). -/
structure FwCopy where
  valid : Bool
  svn : Nat
  major : Nat
  minor : Nat
  digest : Nat
  deriving DecidableEq, Repr

/-- The MRAM store (R49, R169, R171, R179, R422, R438, R471, R477, R506). Fences are physical slots, cluster * 18 + slot. `ownerKey` is the digest
of the bedrock owner's key that the operator has enrolled (R179); no command enrols one. [DESIGN CHOICE, log 64] -/
structure MramSt where
  pop : Option PopRecord
  fatal : List FatalEntry
  fatalSeq : Nat
  dropped : Nat
  powerOns : Nat
  fences : List Nat
  ppr : List Nat
  remap : Sparse Nat
  config : Sparse (List Nat)
  manifest : Option Manifest
  ownerKey : Nat
  bedrockVersions : Sparse Nat
  fwA : Option FwCopy
  fwB : Option FwCopy
  wear : Sparse Nat
  movedRegions : List Nat
  marked : List Nat
  roster : Sparse RosterEntry
  groupRosters : Sparse Nat
  deriving DecidableEq, Repr

/-- A record that firmware writes to the MRAM store; while in sag it waits in the buffer of R413. -/
inductive MramRec where
  | fatal (e : FatalEntry)
  | ppr (row : Nat)
  | remap (cell row : Nat)
  | fence (slot : Nat)
  | mark (cell : Nat)
  deriving DecidableEq, Repr

/-- The interface state of TDISP (R310). -/
inductive Tdisp where
  | unlocked | locked | run | error
  deriving DecidableEq, Repr

/-- Pins of the package that the hub drives (R503). -/
inductive Pin where
  | alertN | thermtripN | wakeN | ppsOut
  | trigOut (i : Nat)
  | sitePwren (n : Nat)
  deriving DecidableEq, Repr

/-- The host function outside its registers (R293, R302–R306, R308, R310). MSI-X words are keyed by table dword. `retryStatus` says that a reset of
R306 waits for its blanket's phase 1, `handshake` that KEY_EXCHANGE has been answered and FINISH is awaited, and `ltr` is the latency in µs that the last LTR message reported, 0
before the first (R303). -/
structure HostSt where
  msix : Sparse Word
  msixPend : List Nat
  fnMask : Bool
  memEnable : Bool
  busMaster : Bool
  pmeEn : Bool
  linkEnabled : Bool
  wakeLow : Bool
  keyEvtAt : Option Nat
  winBad : List Nat
  retryStatus : Bool
  session : Bool
  handshake : Bool
  cfgSpace : Sparse Word
  ltr : Nat
  lockPend : Bool
  stopPend : Bool
  deriving DecidableEq, Repr

/-- The host function at reset: every vector masked (R489), nothing enabled. -/
def HostSt.reset : HostSt :=
  { msix := [], msixPend := [], fnMask := false, memEnable := false, busMaster := false, pmeEn := false,
    linkEnabled := true, wakeLow := false, keyEvtAt := none, winBad := [], retryStatus := false, session := false,
    handshake := false, cfgSpace := [], ltr := 0, lockPend := false, stopPend := false }

/-- Bring-up outside its registers (R415–R428, R503): the life cycle as read at VAON power-on; whether VAON is present, PERST_N asserted and THERMTRIP_N asserted; recovery
and the running copy of R438; SYSREF present (R396); the step of the timeline reached (0 none, 1 released, 2 routes, 3 tiles, 4 stacks,
5 bound, 6 ready); the outcome that narrows it (R419, 0 none); the controllers that failed flint and those that did not run it, the soft repairs reapplied by
controller, a deferred shrink (R431), and ready_ms (R428); and the readiness record as it stands (empty: all zeros). -/
structure BootSt where
  vaon : Bool
  perst : Bool
  trip : Bool
  recovery : Bool
  runB : Bool
  sysref : Bool
  late : Bool
  lc : LifeCycle
  stage : Nat
  plan : Nat
  ctlFailed : List Nat
  ctlIdle : List Nat
  reapplied : List Nat
  shrink : Bool
  readyMs : Nat
  record : List Byte
  pop : Option PopRecord
  deriving DecidableEq, Repr

/-- Bring-up at the state after reset: VAON present, PERST_N asserted, the firmware of copy A running. [DESIGN CHOICE, log 2] -/
def BootSt.reset : BootSt :=
  { vaon := true, perst := true, trip := false, recovery := false, runB := false, sysref := true, late := false, lc := .production, stage := 0,
    plan := 0, ctlFailed := [], ctlIdle := [], reapplied := [], shrink := false, readyMs := 0, record := [], pop := none }

/-- The management bus (R502, R505, R506): MADDR as read at VAON power-on, the dynamic address, the response of the last command as command, tag, status and payload,
the command and tag that run longer, and the command of a request that was turned away busy. -/
structure MgmtSt where
  maddr : Nat
  i3c : Option Nat
  last : Nat × Nat × Nat × List Byte
  running : Option (Nat × Nat)
  bounced : Option Nat
  deriving DecidableEq, Repr

/-- The management bus after VAON power-on. -/
def MgmtSt.reset : MgmtSt := { maddr := 0, i3c := none, last := (0, 0, 0, []), running := none, bounced := none }

/-- A management command that waits for a blanket's phase 1 to end (R450): a bedrock install with its manifest and the host range that the
operator names, the request for a nonce, the removal of bedrock, or the move to END_OF_LIFE with the nonce it signs and whether the signature verifies. -/
inductive Deferred where
  | install (m : Manifest) (host : Option Nat)
  | nonce
  | eol (nonce : Nat) (genuine : Bool)
  | remove
  deriving DecidableEq, Repr

/-- The blanket outside its registers (R450, R451): `row` is 0 with none in phase 1, 1 while row 2 drains and 2 while sites re-attest; when
phase 1 began and its cause; `queued` a cause that waits for HUB_READY; `eol` that END_OF_LIFE follows; `wiped` that a phase 1 has ended since
PERST_N and the last lock (R447); `remove` that bedrock goes (R455); the sites reset; the connections that still close; the management
command that waits; and what row 2 waits for (R215). -/
structure BlanketSt where
  row : Nat
  start : Nat
  cause : Nat
  queued : Option Nat
  eol : Bool
  wiped : Bool
  remove : Bool
  reset : List Nat
  closing : List Nat
  waits : Option Deferred
  drain : XlatPend
  deriving DecidableEq, Repr

/-- No blanket. -/
def BlanketSt.none : BlanketSt :=
  { row := 0, start := 0, cause := 0, queued := Option.none, eol := false, wiped := false, remove := false, reset := [], closing := [],
    waits := Option.none, drain := { tag := 0, ids := [], reqs := [], ranges := [] } }

/-- A change of a key slot that waits for the slot to drain (R444): the slot, its new key or none to empty it, and when the SPDM request
came whose response waits for it. -/
structure SlotChange where
  slot : Nat
  key : Option Nat
  asked : Option Nat
  deriving DecidableEq, Repr

/-- Keys and nonces (R436, R441, R443, R444): the keys of the slots by number, the changes that wait for a slot to
drain, the nonce given out for END_OF_LIFE, and the group management key in its grace. -/
structure SecSt where
  keys : Sparse Nat
  changes : List SlotChange
  lcNonce : Option Nat
  oldGroupKey : Option Nat
  deriving DecidableEq, Repr

/-- No key and no nonce. -/
def SecSt.none : SecSt := { keys := [], changes := [], lcNonce := Option.none, oldGroupKey := Option.none }

end Sys2Proof.Machine
end

