-- ==== Sys2Proof/Machine/StTime.lean ====
section
/-! DEFINITION. The records of State for the time base and its trigger inputs and outputs. -/
namespace Sys2Proof.Machine

/-- An edge queued on a TRIG_OUT output (R375, R391): its due time, whether the driver queued it, and else its flow's context. -/
structure Edge where
  due : Nat
  driver : Bool
  ctx : Nat
  deriving DecidableEq, Repr

/-- The time base outside its registers (R380–R392): the low 32 bits of the accumulator, the frequency term, good PPS edges in a row, ignored ones
in a row, the last accepted one, whether the counter is slewed back in ACQUIRE, t1 of a TIME_REQ without its answer, the last ten exchanges as
offset and delay, updates in a row that found the counter behind, whether there has been a source since reset, the own offset from the master,
the time of the last TIME_STEER, the stamps and last edges of the inputs, the queues of the outputs, and the second of the last PPS_OUT pulse. -/
structure TimeSt where
  frac : Nat
  freq : Int
  stamps : List Nat
  ignored : Nat
  ppsAt : Nat
  slew : Bool
  req : Option Nat
  exch : List (Int × Int)
  behind : Nat
  had : Bool
  offset : Int
  steerAt : Nat
  tin : Sparse (List Nat)
  tinLast : Sparse Nat
  tout : Sparse (List Edge)
  pulse : Nat
  deriving DecidableEq, Repr

/-- The time base at the release of PERST_N. [DESIGN CHOICE, log 2] -/
def TimeSt.reset : TimeSt :=
  { frac := 0, freq := 0, stamps := [], ignored := 0, ppsAt := 0, slew := false, req := none, exch := [], behind := 0, had := false, offset := 0,
    steerAt := 0, tin := [], tinLast := [], tout := [], pulse := 0 }

end Sys2Proof.Machine
end

