-- ==== Sys2Proof/Machine/State.lean ====
section
/-! DEFINITION. The state of the hub: every register, queue, table, buffer and pin that the spec gives it, the queue of waiting commands, and the state after reset. -/
namespace Sys2Proof.Machine

/-- A message that the hub sends over a site's sideband (R36, R40, R42, R43, R48, R259, R264, R270, R272). -/
inductive SbMsg where
  | powerCap (watts : Nat)
  | temperature
  | identity
  | spdm (step nonce : Nat)
  | reset
  | train (m : Nat)
  | widthCheck (m : Nat)
  | moduleReset (m : Nat)
  | spread (epoch lmap : Nat) (entries : List Nat)
  | access (addr size : Nat) (write : Option Nat)
  deriving DecidableEq, Repr

/-- What the hub sends or shows outside, oldest first: the model's own record of it. [DESIGN CHOICE, log 8] -/
inductive Out where
  | regRead (off size : Nat) (v : DWord)
  | unsupported (off size : Nat)
  | msix (vector address data : Nat)
  | pin (p : Pin) (level : Bool)
  | sideband (n module : Nat) (m : SbMsg)
  | memData (tag : Nat) (bytes : List Byte)
  | memPoison (tag : Nat)
  | memAck (tag : Nat)
  | memError (tag : Nat)
  | mgmt (command tag status : Nat) (payload : List Byte)
  | ibi (address cause : Nat)
  | hostWrite (slot addr : Nat) (bytes : List Byte) (poisoned : Bool)
  | hostRead (slot tag addr len : Nat)
  | site (n module : Nat) (m : SiteMsg)
  | fabric (dest conn : Nat) (m : FabMsg)
  | fabricAck (dest conn ack : Nat)
  | fabricCtl (dest conn op : Nat) (args : List Nat)
  | cairn (dest : Nat) (c : Cairn)
  | link (port : Nat) (b : LinkBlock)
  | packet (port mac dst udp : Nat) (bytes : List Byte)
  | neighbour (port : Nat) (v6 : Bool)
  | brFetch (granule : Nat) (deputy : Bool)
  | doe (code : Nat) (words : List Nat)
  | ltr (us : Nat)
  | vset (mv : Nat)
  | config (reg : Nat) (retry : Bool) (v : Word)
  deriving DecidableEq, Repr

/-- The state of the hub. `pending` is the queue of commands; `free` counts the free values used and `out` records what
was sent: these two are the model's own. `regs` holds every register that differs from its reset value, `shadow` every
written RWC value (R10), `held` and `captured` the halves of R14. -/
structure State where
  pending : List Instr
  free : Nat
  out : List Out
  regs : Sparse DWord
  shadow : Sparse DWord
  held : Sparse Word
  captured : Sparse Word
  evt : EvtSt
  fuse : FuseSt
  mram : MramSt
  sag : Option (List MramRec)
  host : HostSt
  glb : GlbSt
  sites : Sparse SiteSt
  hbm : HbmSt
  regul : RegulSt
  xlat : XlatSt
  noc : NocSt
  acc : AccSt
  rings : Sparse RingSt
  eng : EngSt
  scr : ScratchSt
  home : HomeSt
  links : Sparse LinkSt
  conns : Sparse DWord
  connShadow : Sparse DWord
  connSt : Sparse ConnSt
  tiles : Sparse TileSt
  gens : Sparse GenEntry
  pwr : PwrSt
  boot : BootSt
  mgmt : MgmtSt
  blanket : BlanketSt
  sec : SecSt
  coll : CollSt
  strm : StrmSt
  fab : FabSt
  hier : HierSt
  time : TimeSt
  deriving DecidableEq, Repr

/-- Why the machine stops with a fault. -/
inductive Fault where
  /-- Reserved: no meaning of this model ends in a fault; every path of every command has an effect. Safe. -/
  | unreachable
  deriving DecidableEq, Repr

/-- Why a command has no meaning. -/
inductive Refusal where
  /-- Raised by the dispatch alone, for a command that is not modelled yet. Safe: no next state is claimed. -/
  | notModelled (mnemonic : String)
  deriving DecidableEq, Repr

/-- The unit as shipped: a CM3-X768 in PRODUCTION (R1, R433). [DESIGN CHOICE, log 3] -/
def FuseSt.shipped : FuseSt :=
  { part := .x768, lc := .production, serial := 0, svn := 0, uds := true, debugOff := true, fusedQuads := [], burnAt := none }

/-- The MRAM store of a bare part (R49): empty population record, empty logs and lists, one firmware copy. [DESIGN CHOICE, log 3] -/
def MramSt.bare : MramSt :=
  { pop := none, fatal := [], fatalSeq := 0, dropped := 0, powerOns := 1, fences := [], ppr := [], remap := [],
    config := [], manifest := none, ownerKey := 0, bedrockVersions := [],
    fwA := some { valid := true, svn := 0, major := 0, minor := 0, digest := 0 }, fwB := none, wear := [],
    movedRegions := [], marked := [], roster := [], groupRosters := [] }

/-- The state after reset: every register at the value of R489, nothing stored, nothing running, no command waiting. [DESIGN CHOICE, log 1; DESIGN CHOICE, log 2; DESIGN CHOICE, log 3] -/
def State.reset : State :=
  { pending := [], free := 0, out := [], regs := [], shadow := [], held := [], captured := [],
    evt := { slots := [], boot := 0, windows := [], opAck := 0, inject := none, past := [], shown := [], unsent := [] },
    fuse := FuseSt.shipped, mram := MramSt.bare, sag := none, host := HostSt.reset,
    glb := { rebindPending := [], tileCount := 0, worn := false, failing := false, armed := [], stop := 0 }, sites := [], hbm := HbmSt.reset, regul := RegulSt.reset,
    xlat := { pend := [], joined := [], siteEvtAt := [], siteReqs := [] }, noc := NocSt.reset,
    acc := { outq := [], nextId := 0, asms := [] }, rings := [], eng := { crc := [], moverFenced := [], moverLast := [] },
    scr := { mem := [], poison := [], slots := [] }, home := HomeSt.reset, links := [], conns := [], connShadow := [],
    connSt := [], tiles := [], gens := [], pwr := PwrSt.reset, boot := BootSt.reset, mgmt := MgmtSt.reset,
    blanket := BlanketSt.none, sec := SecSt.none, coll := CollSt.none, strm := StrmSt.none,
    fab := FabSt.none, hier := HierSt.none, time := TimeSt.reset }

end Sys2Proof.Machine
end

