-- ==== Sys2Proof/Machine/Ops.lean ====
section
/-! DEFINITION. The named operations over registers, pins, interrupts, the MRAM store, events and commits that every block's meanings use. -/
namespace Sys2Proof.Machine

/-- Whether a register table holds the register at an offset: its distance from the base is a sum of index strides. -/
def dimsHold : List (Nat × Nat) → Nat → Bool
  | [], r => r == 0
  | (c, st) :: t, r => decide (r / st < c) && dimsHold t (r % st)

/-- The register table that holds the register at a BAR0 offset, if the index of R489 names one. -/
def findReg (off : Nat) : Option RegDesc :=
  (regTableOf off).find? (fun d => decide (d.base ≤ off) && dimsHold d.dims (off - d.base))

/-- The reset value that the fields of a register table give (R13). [DESIGN CHOICE, log 1] -/
def RegDesc.reset (d : RegDesc) : Nat :=
  d.fields.foldl (fun v f => v + f.reset * 2 ^ f.lo) 0

/-- The reset latency target and flag of a class (R183), in the layout of REG_CLASS_CTL. [DESIGN CHOICE, log 72] -/
def classCtlReset (c : Nat) : Nat :=
  if c < 32 then 2000
  else if c = 32 then 4000
  else if c = 33 then 1000
  else if c = 34 then 2000
  else if c = 35 then 1500
  else if c < 40 then 0x10000 + 800
  else if c < 44 then 0x10000 + 1000
  else 0

/-- The reset value of a register by offset (R489, R183). MGMT's floor fields read 0 (R194). [DESIGN CHOICE, log 1; DEDUCED, log 18] -/
def regReset (off : Nat) : Nat :=
  if 0x700300 ≤ off ∧ off < 0x7003B8 then classCtlReset ((off - 0x700300) / 4)
  else if off = Reg.REG_CLASS_FLOOR 45 then 0
  else match findReg off with
    | some d => d.reset
    | none => 0

/-- The value of a register. For an RWC field this is the committed value (R11). -/
def State.reg (s : State) (off : Nat) : Nat := (s.regs.get (BitVec.ofNat 64 (regReset off)) off).toNat

/-- The state with a register replaced whole. -/
def State.setReg (s : State) (off v : Nat) : State := { s with regs := s.regs.put off (BitVec.ofNat 64 v) }

/-- The value of a field. -/
def State.rd (s : State) (f : Fld) : Nat := bits (s.reg f.off) f.hi f.lo

/-- The state with a field replaced. -/
def State.wr (s : State) (f : Fld) (v : Nat) : State := s.setReg f.off (putBits (s.reg f.off) f.hi f.lo v)

/-- Whether a one-bit field reads 1. -/
def State.on (s : State) (f : Fld) : Bool := s.rd f != 0

/-- The shadow of a register: the RWC values last written, or the reset value (R10, R11). -/
def State.shd (s : State) (off : Nat) : Nat := (s.shadow.get (BitVec.ofNat 64 (regReset off)) off).toNat

/-- The shadow of a field. -/
def State.shf (s : State) (f : Fld) : Nat := bits (s.shd f.off) f.hi f.lo

/-- The state with the shadow of a register replaced. -/
def State.setShd (s : State) (off v : Nat) : State := { s with shadow := s.shadow.put off (BitVec.ofNat 64 v) }

/-- A field raised by k, stopping at its largest value (R476). -/
def State.sat (s : State) (f : Fld) (k : Nat) : State := s.wr f (satAdd (f.hi + 1 - f.lo) (s.rd f) k)

/-- A field raised by k, wrapping (R476). -/
def State.wrap (s : State) (f : Fld) (k : Nat) : State := s.wr f (s.rd f + k)

/-- A field lowered by one, not below 0. -/
def State.dec (s : State) (f : Fld) : State := s.wr f (s.rd f - 1)

/-- The fields of one access code of a register table. -/
def RegDesc.fieldsOf (d : RegDesc) (a : Access) : List FieldDesc := d.fields.filter (fun f => f.acc == a)

/-- A value with the RWC fields of a register taken from another value. -/
def takeRwc (off old new : Nat) : Nat :=
  match findReg off with
  | some d => (d.fieldsOf .rwc).foldl (fun v f => putBits v f.hi f.lo (bits new f.hi f.lo)) old
  | none => old

/-- The RWC fields of a register switched to its shadow (R11). -/
def State.commitReg (s : State) (off : Nat) : State := s.setReg off (takeRwc off (s.reg off) (s.shd off))

/-- A list of registers switched to their shadows. -/
def State.commitRegs (s : State) (offs : List Nat) : State := offs.foldl State.commitReg s

/-- The RWC fields of a register and their shadow returned to the reset value (R450: what a blanket does). -/
def State.resetRwc (s : State) (off : Nat) : State :=
  let s := s.setShd off (regReset off)
  s.setReg off (takeRwc off (s.reg off) (regReset off))

/-- A commit taken (R485): commit_count rises modulo 2^16 and refused clears. The status register is given by offset. [DEDUCED, log 15] -/
def State.commitDone (s : State) (off : Nat) : State :=
  (s.wr ⟨off, 31, 16⟩ (s.rd ⟨off, 31, 16⟩ + 1)).wr ⟨off, 0, 0⟩ 0

/-- A commit refused (R11, R485): refused is set and first_field names the first offending field. [DEDUCED, log 15] -/
def State.commitRefused (s : State) (off code : Nat) : State :=
  (s.wr ⟨off, 15, 8⟩ code).wr ⟨off, 0, 0⟩ 1

/-- The next free value: something the spec leaves undefined. [DESIGN CHOICE, log 5] -/
def State.freeVal (s : State) : Nat := (Config.freeValue s.free).toNat

/-- The state after a free value was used. [DESIGN CHOICE, log 5] -/
def State.useFree (s : State) : State := { s with free := s.free + 1 }

/-- Free values used. [DESIGN CHOICE, log 5] -/
def State.useFrees (s : State) (n : Nat) : State := { s with free := s.free + n }

/-- Something sent or shown outside. [DESIGN CHOICE, log 8] -/
def State.send (s : State) (o : Out) : State := { s with out := s.out ++ [o] }

/-- The time counter (R380): seconds in [63:32], binary fraction in [31:0]. -/
def State.now (s : State) : Nat := s.reg Reg.TIME_NOW

/-- 1 ms in time units of 2^-32 s, rounded up. -/
def msUnits : Nat := 4294968

def usTime (n : Nat) : Nat := n * 2 ^ 32 / 1000000

/-- Sequence comparison of R237: a is b or later, modulo 2^32. [DESIGN CHOICE, log 32] -/
def laterEq (a b : Nat) : Bool := decide ((a % 2 ^ 32 + 2 ^ 32 - b % 2 ^ 32) % 2 ^ 32 < 2 ^ 31)

/-- Sequence comparison of R237: a is later than b, modulo 2^32. -/
def later (a b : Nat) : Bool := laterEq a b && decide (a % 2 ^ 32 ≠ b % 2 ^ 32)

/-- Whether a key slot is of a host kind and what it needs (R214, R441): slot 0 sends in clear, slots 1 to 8 carry IDE streams
0 to 7. A slot can send when it is the clear host slot, or its stream is keyed and secure (R309). [DEDUCED, log 163] -/
def State.hostSlotReady (s : State) (slot : Nat) : Bool :=
  slot == 0 || (decide (1 ≤ slot ∧ slot ≤ 8) && bit (s.rd Reg.HOST_STATUS_ide_secure) (slot - 1))

/-! ### MSI-X (R302) -/

/-- A dword of the MSI-X table: vector control (dword 3) resets to masked, the rest to 0 (R489). -/
def State.msixWord (s : State) (i : Nat) : Nat := (s.host.msix.get (if i % 4 = 3 then 1 else 0) i).toNat

/-- What became of a message (R302). -/
inductive MsixFate where
  | sent | masked | asleep | addressZero | slotNotSecure | notSent
  deriving DecidableEq, Repr

/-- The vector's pending bit set. -/
def State.msixHold (s : State) (v : Nat) : State :=
  if s.host.msixPend.contains v then s
  else { s with host := { s.host with msixPend := s.host.msixPend ++ [v] } }

/-- What happens to a message of a vector now (R302): in D3hot it waits for D0 (R304), and a posted write that the endpoint does not send
(R306, R310) is lost. [DEDUCED, log 169] -/
def State.msixFate (s : State) (v : Nat) : MsixFate :=
  let key := s.rd Reg.HOST_CFG_msix_key
  if s.host.fnMask || bit (s.msixWord (4 * v + 3)) 0 then .masked
  else if s.rd Reg.HOST_STATUS_dstate = 3 then .asleep
  else if s.msixWord (4 * v) = 0 ∧ s.msixWord (4 * v + 1) = 0 then .addressZero
  else if !s.on Reg.HOST_STATUS_link_up || !s.host.busMaster || (key != 0 && s.rd Reg.HOST_STATUS_tdisp == 3) then .notSent
  else if s.hostSlotReady key then .sent
  else .slotNotSecure

/-- A message of a vector tried, without the events of its failures. After a package stop no message is sent (R464). -/
def State.msixTry (s : State) (v : Nat) : State :=
  if s.glb.stop ≠ 0 then s
  else match s.msixFate v with
  | .masked => s.msixHold v
  | .asleep => s.msixHold v
  | .slotNotSecure => s.msixHold v
  | .addressZero => s
  | .notSent => s
  | .sent => s.send (.msix v (s.msixWord (4 * v) + 2 ^ 32 * s.msixWord (4 * v + 1)) (s.msixWord (4 * v + 2)))

/-! ### Alerts (R473) -/

/-- ALERT_N's level: low (false) while an enabled bit of RAS_ALERT is set, and while THERMTRIP_N is asserted (R503); the enables of bits 0 and 1
always read 1. -/
def State.alertLevel (s : State) : Bool :=
  !s.boot.trip && (s.reg Reg.RAS_ALERT % 32) &&& (s.rd Reg.RAS_ALERT_EN_enable ||| 3) == 0

/-- A change of RAS_ALERT or RAS_ALERT_EN, with ALERT_N shown when its level changes; once the hub answers in I3C,
a fall of it is also an in-band interrupt with its cause (R505). [DEDUCED, log 158] -/
def State.withAlert (s : State) (f : State → State) : State :=
  let t := f s
  if s.alertLevel = t.alertLevel then t
  else
    let t := t.send (.pin .alertN t.alertLevel)
    match t.mgmt.i3c with
    | some a => if t.alertLevel then t else t.send (.ibi a (t.reg Reg.RAS_ALERT))
    | none => t

/-- A bit of RAS_ALERT set. -/
def State.alert (s : State) (f : Fld) : State := s.withAlert (fun s => s.wr f 1)

/-! ### The MRAM store (R412, R413, R471) -/

/-- A fatal entry written to the fatal log, or counted as dropped when 256 are held (R471). -/
def State.storeFatal (s : State) (e : FatalEntry) : State :=
  if s.mram.fatal.length < 256 then
    ({ s with mram := { s.mram with fatal := s.mram.fatal ++ [e] } }.wr Reg.RAS_STATUS_fatal_held
      (s.mram.fatal.length + 1)).wr Reg.RAS_FATAL_INFO_oldest (((s.mram.fatal ++ [e]).head?.map FatalEntry.seq).getD 0)
  else
    ({ s with mram := { s.mram with dropped := satAdd 32 s.mram.dropped 1 } }.wr Reg.RAS_FATAL_INFO_dropped
      (satAdd 32 s.mram.dropped 1)).alert Reg.RAS_ALERT_fatal_full

/-- Records of 64 bytes that the 64 KiB sag buffer holds (R413). [DESIGN CHOICE, log 29] -/
def sagBufferRecords : Nat := 1024

end Sys2Proof.Machine
end

