-- ==== Sys2Proof/Machine/MemOps.lean ====
section
/-! DEFINITION. Stacked memory and scratch as addressed bytes: the canonical list, granule placement, poison and the plain reads and stores (R55, R60, R157, R158, R159, R170, R177). -/
namespace Sys2Proof.Machine

/-! ### Bytes in canonical form

An address that the list does not hold reads 0: memory that nothing has written since it was made fresh reads as zeros
(R177, R425), and scratch is cleared by a reset (R53). -/

/-- What an address that nothing has written reads as. [DESIGN CHOICE, log 4] -/
def Memory.unlisted : Byte := 0

/-- Read one byte. [DESIGN CHOICE, log 4] -/
def Memory.read : List Host.Cell → Nat → Byte
  | [], _ => Memory.unlisted
  | (k, b) :: t, a => if a = k then b else if a < k then Memory.unlisted else Memory.read t a

/-- Write one byte, keeping addresses rising and no entry equal to what an unlisted address reads as. -/
def Memory.write : List Host.Cell → Nat → Byte → List Host.Cell
  | [], a, b => if b = Memory.unlisted then [] else [(a, b)]
  | (k, c) :: t, a, b =>
    if a < k then (if b = Memory.unlisted then (k, c) :: t else (a, b) :: (k, c) :: t)
    else if a = k then (if b = Memory.unlisted then t else (a, b) :: t)
    else (k, c) :: Memory.write t a b

/-- Every address of a memory is above a bound, addresses rise strictly, and no entry is the unlisted byte. -/
def Memory.wfAbove : Option Nat → List Host.Cell → Bool
  | _, [] => true
  | lo, (k, b) :: t => (match lo with | none => true | some l => decide (l < k)) && (b != Memory.unlisted) && Memory.wfAbove (some k) t

/-- The canonical form of a memory. -/
def Memory.wf (m : List Host.Cell) : Bool := Memory.wfAbove none m

/-- Write bytes from an address up. -/
def Memory.writeBytes : List Host.Cell → Nat → List Byte → List Host.Cell
  | m, _, [] => m
  | m, a, b :: t => Memory.writeBytes (Memory.write m a b) (a + 1) t

/-- Read n bytes from an address up. -/
def Memory.readBytes (m : List Host.Cell) (a n : Nat) : List Byte := (List.range n).map (fun i => Memory.read m (a + i))

/-- The memory with a range made unlisted. -/
def Memory.clear (m : List Host.Cell) (lo hi : Nat) : List Host.Cell := m.filter (fun c => !(decide (lo ≤ c.1) && decide (c.1 < hi)))

/-- A set of numbers as a rising list: insertion. -/
def insertNat (a : Nat) : List Nat → List Nat
  | [] => [a]
  | b :: t => if a < b then a :: b :: t else if a = b then b :: t else b :: insertNat a t

/-! ### Granules and placement (R157, R158, R159) -/

/-- Bytes of a granule. -/
def granuleBytes : Nat := 2097152

/-- Granules of addressable memory in the layout in force (R157, R159). -/
def State.granules (s : State) : Nat :=
  if s.on Reg.HBM_STATUS_layout7 || s.fuse.part == .x672 then 336896 else 385024

/-- The first address beyond addressable memory (R160, R197). -/
def State.memTop (s : State) : Nat := s.granules * granuleBytes

/-- The owner map entry of a granule (R175). -/
def State.own (s : State) (g : Nat) : OwnEntry := s.hbm.own.get OwnEntry.reset g

/-- The state with an owner map entry replaced. -/
def State.setOwn (s : State) (g : Nat) (e : OwnEntry) : State := { s with hbm := { s.hbm with own := s.hbm.own.put g e } }

/-- The controller of R158 for a mode, a granule and an offset. -/
def ctlOf (mode g o : Nat) : Nat :=
  if mode = 1 then 4 * bits o 20 19 + (bits o 9 8 ^^^ bits g 1 0)
  else if mode = 2 then 2 * bits o 20 18 + (bits o 8 8 ^^^ bits g 0 0)
  else bits o 11 8 ^^^ bits g 3 0

/-- The channel of R158. -/
def channelOf (mode o : Nat) : Nat :=
  if mode = 1 then bits o 13 10 ^^^ bits o 18 15
  else if mode = 2 then bits o 12 9 ^^^ bits o 17 14
  else bits o 15 12 ^^^ bits o 20 17

/-- The pseudo-channel of R158. -/
def pcOf (mode o : Nat) : Nat :=
  if mode = 1 then bits o 14 14 else if mode = 2 then bits o 13 13 else bits o 16 16

/-- The 256-byte unit within the 4 KiB share (R158). -/
def unitOf (mode o : Nat) : Nat :=
  if mode = 1 then bits o 18 15 else if mode = 2 then bits o 17 14 else bits o 20 17

/-- The stack that the seven-stack layout leaves out: the one that failed at bring-up or, on CM3-X672, stack 7 (R159, R160). -/
def State.absentStack (s : State) : Nat :=
  ((List.range 8).find? (fun k => decide (5 ≤ s.rd (Reg.HBM_STACK_STATUS_state k)))).getD 7

/-- The i-th enabled controller in ascending order when a stack is absent: e_i of R159. -/
def enabledCtl (absent i : Nat) : Nat := if i < 2 * absent then i else i + 2

/-- Where a byte lies: its controller and its cell row there (R157, R159). -/
def State.place (s : State) (addr : Nat) : Nat × Nat :=
  let g := addr / granuleBytes
  let o := addr % granuleBytes
  let c := ctlOf (s.own g).mode g o
  if s.on Reg.HBM_STATUS_layout7 then
    let a := s.absentStack
    let b := g / 14
    let i := g % 14
    if c = 2 * a then (enabledCtl a i, 16 * b + 14)
    else if c = 2 * a + 1 then (enabledCtl a ((i + 7) % 14), 16 * b + 15)
    else (c, 16 * b + i)
  else (c, g)

/-- The key of a cell: controller and cell row. -/
def cellKey (ctl row : Nat) : Nat := ctl * 2 ^ 19 + row

/-- The key of the cell that holds a byte. -/
def State.cellOf (s : State) (addr : Nat) : Nat := cellKey (s.place addr).1 (s.place addr).2

/-- The granule that a cell carries (R157, R159), if it is not a quarry cell. -/
def State.granuleOfCell (s : State) (cell : Nat) : Option Nat :=
  let row := cell % 2 ^ 19
  if 385024 ≤ row then none
  else if s.on Reg.HBM_STATUS_layout7 then
    let b := row / 16
    let i := row % 16
    let ctl := cell / 2 ^ 19
    let a := s.absentStack
    let pos := if ctl < 2 * a then ctl else ctl - 2
    if i < 14 then some (14 * b + i)
    else if i = 14 then some (14 * b + pos)
    else some (14 * b + (pos + 7) % 14)
  else some row

/-- The DRAM row of a unit of a cell's share in a pseudo-channel, packed as HBM_ROW_NEXT packs it in bits [30:0]: controller, channel,
pseudo-channel, the one bank of the cell row, and the row of the unit's quarter of the share (R157, R182). The order in which cell rows go through
the banks, and the first row of each, are open (R157). [DESIGN CHOICE, log 58] -/
def packRow (ctl ch pc cellRow unit : Nat) : Nat :=
  ctl * 2 ^ 27 + ch * 2 ^ 23 + pc * 2 ^ 22 + Config.bankOfCellRow cellRow % 64 * 2 ^ 16 + (Config.rowOfCellRow cellRow + unit / 4) % 2 ^ 16

/-- Where a cell lies now: its quarry cell once it has been replaced (R171). -/
def State.physCell (s : State) (cell : Nat) : Nat := s.hbm.remap.get cell cell

/-- The DRAM row that a byte lies in (R157, R158, R171). -/
def State.dramRow (s : State) (addr : Nat) : Nat :=
  let o := addr % granuleBytes
  let m := (s.own (addr / granuleBytes)).mode
  packRow (s.place addr).1 (channelOf m o) (pcOf m o) (s.physCell (s.cellOf addr) % 2 ^ 19) (unitOf m o)

/-- Whether a stack serves memory now: present, not halted, and not without any memory (R160, R174). -/
def State.stackServes (s : State) (k : Nat) : Bool :=
  !s.on Reg.HBM_STATUS_no_memory && !bit (s.rd Reg.HBM_STATUS_halted) k

/-- Whether a byte's controller serves it. In the seven-stack layout the absent stack's slots lie elsewhere (R159). -/
def State.serves (s : State) (addr : Nat) : Bool := s.stackServes ((s.place addr).1 / 2)

/-! ### Poison (R170, R461) -/

/-- Whether a sector of memory is marked poisoned. -/
def State.sectorPoisoned (s : State) (sector : Nat) : Bool := s.hbm.poison.contains sector

/-- The sectors that a range touches. -/
def sectorsOf (a n : Nat) : List Nat := if n = 0 then [] else (List.range ((a + n - 1) / 32 - a / 32 + 1)).map (· + a / 32)

/-- The state with a sector marked poisoned, and its granule's sticky poisoned bit set. -/
def State.poisonSector (s : State) (sector : Nat) : State :=
  let g := sector / 65536
  let s := s.setOwn g { s.own g with poisoned := true }
  { s with hbm := { s.hbm with poison := insertNat sector s.hbm.poison } }

/-- The state with a sector's mark cleared: what a write that covers it whole does (R461). -/
def State.cleanSector (s : State) (sector : Nat) : State :=
  { s with hbm := { s.hbm with poison := s.hbm.poison.filter (· != sector) } }

/-! ### The store beneath the buffers -/

/-- The stack's contents with the write queue and the write-combining buffer laid over them (R163, R165, R166). -/
def State.memByte (s : State) (a : Nat) : Byte :=
  let base := Memory.read s.hbm.mem a
  let q := s.hbm.wq.foldl (fun b e => if e.sector = a / 32 then (e.bytes[a % 32]?).getD b else b) base
  s.hbm.wcb.foldl (fun b e => if e.line = a / 64 then e.bytes.get b (a % 64) else b) q

/-- Bytes of memory as an admitted read sees them. -/
def State.memBytes (s : State) (a n : Nat) : List Byte := (List.range n).map (fun i => s.memByte (a + i))

/-- Bytes stored in the stack at once: whole sectors lose their poison, partial ones keep it (R461). -/
def State.memStore (s : State) (a : Nat) (bs : List Byte) : State :=
  let whole := (sectorsOf a bs.length).filter (fun k => decide (a ≤ 32 * k) && decide (32 * k + 32 ≤ a + bs.length))
  let h := s.hbm
  { s with hbm := { h with mem := Memory.writeBytes h.mem a bs, poison := h.poison.filter (fun p => !whole.contains p),
                           wq := h.wq.filter (fun e => !whole.contains e.sector) } }

/-- The sector of a line that a write-combining entry holds bytes of, written with them: poisoned if one of them came poisoned (R460). -/
def State.wcbPart (s : State) (e : WcbEntry) (k : Nat) : State :=
  let here := e.bytes.filter (fun b => b.1 / 32 == k)
  let h := s.hbm
  let sector := 2 * e.line + k
  let q := match h.wq.find? (fun w => w.sector == sector) with
    | some w => Memory.writeBytes h.mem (32 * sector) w.bytes
    | none => h.mem
  let t := { s with hbm := { h with
    mem := here.foldl (fun m b => Memory.write m (64 * e.line + b.1) b.2) q
    wq := h.wq.filter (fun w => w.sector != sector)
    poison := if here.length = 32 then h.poison.filter (· != sector) else h.poison } }
  if e.bad.any (fun i => i / 32 == k) then t.poisonSector sector else t

/-- One write-combining entry written out: fully masked sectors whole, partly masked ones merged (R165, R166). -/
def State.wcbOut (s : State) (e : WcbEntry) : State :=
  let s := { s with hbm := { s.hbm with wcb := s.hbm.wcb.filter (fun x => x.line != e.line) } }
  (s.wcbPart e 0).wcbPart e 1

/-- One queued write issued to the stack (R163). -/
def State.wqOut (s : State) (e : WrEntry) : State :=
  let s := s.memStore (32 * e.sector) e.bytes
  if e.poison then s.poisonSector e.sector else s

/-- The write-combining entry of a line, or none. -/
def State.wcbOf (s : State) (line : Nat) : Option WcbEntry := s.hbm.wcb.find? (fun e => e.line == line)

/-- Bytes merged into a line's entry, later ones over earlier ones, with their marks; an entry that both sectors fill is written out without a
read (R165). -/
def State.wcbAdd (s : State) (line : Nat) (bs : List (Nat × Byte)) (bad : Nat → Bool) : State :=
  let offs := bs.map (·.1)
  let s := { s with hbm := { s.hbm with wcb := s.hbm.wcb.map (fun (e : WcbEntry) =>
    if e.line = line then { e with bytes := bs.foldl (fun (m : Sparse Byte) (b : Nat × Byte) => m.put b.1 b.2) e.bytes
                                   bad := e.bad.filter (fun o => !offs.contains o) ++ offs.filter bad } else e) } }
  match s.wcbOf line with
  | some e => if e.bytes.length = 64 then s.wcbOut e else s
  | none => s

/-- A whole sector put into the write queue: it replaces an older one for the same sector and clears its poison (R163, R461). -/
def State.wqPut (s : State) (sector : Nat) (bs : List Byte) (poison : Bool) (cls : Nat) : State :=
  let h := s.hbm
  { s with hbm := { h with
    wq := h.wq.filter (fun (w : WrEntry) => w.sector != sector) ++
      [({ sector := sector, bytes := bs, poison := poison, cls := cls, level := if cls = 44 then 1 else 3, since := s.now } : WrEntry)]
    poison := if poison then insertNat sector h.poison else h.poison.filter (· != sector) } }

/-! ### What the controllers watch (R354, R373) -/

/-- Bytes of a mirrored block. -/
def blockBytes : Nat := 65536

/-- The blocks of a mirror's region that a range of memory touches. -/
def MirSt.touched (m : MirSt) (a n : Nat) : List Nat :=
  if n = 0 ∨ a + n ≤ m.phys ∨ m.phys + m.length ≤ a then []
  else
    let lo := (max a m.phys - m.phys) / blockBytes
    let hi := (min (a + n) (m.phys + m.length) - 1 - m.phys) / blockBytes
    (List.range (hi - lo + 1)).map (· + lo)

/-- The dirty count of an entry's open half shown (COLL_MIRROR). -/
def State.showDirty (s : State) (n : Nat) : State :=
  match s.coll.mirrors.find? (fun p => p.1 == n) with
  | none => s
  | some (_, m) => s.wr (Reg.COLL_MIRROR_dirty n) (if m.half = 0 then m.dirty0 else m.dirty1).length

/-- Both dirty bits of every mirrored block that a write touches set (R354). [DEDUCED, log 120] -/
def State.mirrorDirty (s : State) (a n : Nat) : State :=
  (s.coll.mirrors.filter (fun p => !(p.2.touched a n).isEmpty)).foldl (fun (s : State) (p : Nat × MirSt) =>
    let bs := p.2.touched a n
    let m := { p.2 with dirty0 := bs.foldl (fun l b => insertNat b l) p.2.dirty0, dirty1 := bs.foldl (fun l b => insertNat b l) p.2.dirty1 }
    ({ s with coll := { s.coll with mirrors := s.coll.mirrors.put p.1 m } }).showDirty p.1) s

/-- A word of a flow's entry (R361). -/
def FlowSt.word (f : FlowSt) (i : Nat) : Nat := ((f.words[i]?).getD 0).toNat

/-- A flow's ring: base, records and bytes of a record's slot (R361). -/
def FlowSt.base (f : FlowSt) : Nat := bits (f.word 3) 47 0
def FlowSt.slots (f : FlowSt) : Nat := 2 ^ bits (f.word 3) 52 48
def FlowSt.slotBytes (f : FlowSt) : Nat := 2 ^ bits (f.word 3) 56 53

/-- The start of a flow's decision array (R361). -/
def FlowSt.array (f : FlowSt) : Nat := f.base + f.slots * f.slotBytes

/-- Decision words that a write holds: every whole aligned word that lands in an open flow's array goes to the stream engine (R373). [DEDUCED, log 124] -/
def State.forward (s : State) (a : Nat) (bs : List Byte) : State :=
  let words := ((List.range (bs.length / 8 + 1)).map (fun i => (a + 7) / 8 * 8 + 8 * i)).filter (fun w => decide (w + 8 ≤ a + bs.length))
  let found := words.flatMap (fun w => (s.strm.flows.filter (fun p =>
    decide (p.2.array ≤ w ∧ w < p.2.array + 8 * p.2.slots))).map (fun p => (p.1, leValue ((bs.drop (w - a)).take 8))))
  if found = [] then s else { s with strm := { s.strm with fwd := s.strm.fwd ++ found } }

/-- One whole sector written for a class: into its line's entry when it has one, else into the write queue (R165). -/
def State.putSector (s : State) (cls sector : Nat) (bs : List Byte) : State :=
  (match s.wcbOf (sector / 2) with
    | some _ => s.wcbAdd (sector / 2) (bs.zipIdx.map (fun (b : Byte × Nat) => (32 * (sector % 2) + b.2, b.1))) (fun _ => false)
    | none => s.wqPut sector bs false cls).mirrorDirty (32 * sector) 32

/-- A granule zeroed: its contents and poison cleared, and its sticky poisoned bit and its fresh bit with them (R175, R176, R177). [DEDUCED, log 61] -/
def State.zeroGranule (s : State) (g : Nat) : State :=
  let h := s.hbm
  let s := { s with hbm := { h with
    mem := Memory.clear h.mem (g * granuleBytes) ((g + 1) * granuleBytes)
    poison := h.poison.filter (fun p => p / 65536 != g)
    wcb := h.wcb.filter (fun e => e.line / 32768 != g)
    wq := h.wq.filter (fun e => e.sector / 65536 != g) } }
  s.setOwn g { s.own g with poisoned := false, fresh := false }

/-! ### Admission (R175) -/

/-- Whether a controller admits a request: an issuer's context against the granule's entry, or the firmware mark. -/
def OwnEntry.admits (e : OwnEntry) (o : Origin) (write : Bool) : Bool :=
  match o with
  | .firmware => true
  | .ctx c => !e.withdrawn && (e.owner == c || (e.bedrock && !write))

/-- Whether every granule of a range admits a request. -/
def State.admits (s : State) (o : Origin) (write : Bool) (a n : Nat) : Bool :=
  (s.own (a / granuleBytes)).admits o write && (s.own ((a + n - 1) / granuleBytes)).admits o write

end Sys2Proof.Machine
end

