-- ==== Sys2Proof/Machine/Events.lean ====
section
/-! DEFINITION. Posting an event: the log entry, the event ring's copy, the interrupt causes, counters and alerts; and taking a fatal error (R240, R241, R459, R462, R465, R467, R468, R470). -/
namespace Sys2Proof.Machine

/-- A duty function's committed mode (R25). -/
def State.duty (s : State) (b : Nat) : Bool := bit (s.reg Reg.DUTY_ACTIVE) b

/-- Block numbers of the log (R465). -/
def blkGlb : Nat := 0
def blkPwr : Nat := 1
def blkTime : Nat := 2
def blkSec : Nat := 3
def blkHost : Nat := 4
def blkQmgr : Nat := 5
def blkXlat : Nat := 6
def blkReg : Nat := 7
def blkHbm : Nat := 8
def blkNoc : Nat := 12
def blkSite : Nat := 16
def blkCoh : Nat := 20
def blkFab : Nat := 24
def blkStrm : Nat := 32
def blkColl : Nat := 40
def blkCrc : Nat := 44
def blkTile : Nat := 48
def blkRas : Nat := 56

/-- The 32 bytes of an event log entry (R465, R516). -/
def Event.bytes (e : Event) : List Byte :=
  leBytes 4 e.seq ++
  leBytes 4 (e.code % 2 ^ 16 + e.cls % 8 * 2 ^ 16 + ofBool e.opOnly * 2 ^ 19 +
    (match e.ctx with | some c => 2 ^ 20 + c % 64 * 2 ^ 21 | none => 0)) ++
  leBytes 8 e.time ++
  leBytes 4 (e.unit % 2 ^ 16 + e.block % 64 * 2 ^ 16 + e.extra % 2 ^ 10 * 2 ^ 22) ++
  leBytes 2 e.boot ++ leBytes 2 e.count ++ leBytes 8 e.detail

/-- The withheld form of an entry (R469): sequence number, boot and code 0x0001, time rounded down to 2^13 units. -/
def Event.withheld (e : Event) : Event :=
  { seq := e.seq, code := 1, cls := 0, opOnly := false, ctx := none, time := e.time / 2 ^ 13 * 2 ^ 13, unit := 0,
    block := 0, extra := 0, boot := e.boot, count := 0, detail := 0 }

/-- The driver's view of an entry (R469). [DESIGN CHOICE, log 32] -/
def State.driverView (s : State) (e : Event) : Event :=
  if e.boot = s.evt.boot ∧ laterEq e.seq (s.rd Reg.RAS_EVT_BOUNDARY_boundary) = true ∧ e.opOnly = false then e
  else e.withheld

/-- An entry written to the log at the next sequence number (R465), with the losses of R470 counted: those of the current boot. [DESIGN CHOICE, log 32] -/
def State.logEntry (s : State) (e : Event) (count : Nat) : State :=
  let seq := s.rd Reg.RAS_EVT_NEXT_next
  let slot := seq % 4096
  let s := match s.evt.slots.find? (fun p => p.1 == slot) with
    | none => s
    | some (_, old) =>
      if old.boot = s.evt.boot then
        let s := if laterEq old.seq (s.rd Reg.RAS_EVT_ACK_ack) && laterEq old.seq (s.rd Reg.RAS_EVT_BOUNDARY_boundary)
          then s.sat Reg.RAS_EVT_LOST_lost 1 else s
        if laterEq old.seq s.evt.opAck then s.alert Reg.RAS_ALERT_op_lost else s
      else s
  let e := { e with seq := seq, time := s.now, boot := s.evt.boot, count := min count 65535 }
  ({ s with evt := { s.evt with slots := s.evt.slots.put slot e } }).wr Reg.RAS_EVT_NEXT_next (seq + 1)

/-- A cause bit of QM_IRQ_CAUSE set; going from 0 to 1 with its enable set sends the vector of QM_IRQ_CFG (R240). -/
def State.irqCause (s : State) (k : Nat) : State :=
  if bit (s.reg Reg.QM_IRQ_CAUSE) k then s
  else
    let s := s.wr ⟨Reg.QM_IRQ_CAUSE, k, k⟩ 1
    if bit (s.rd Reg.QM_IRQ_CFG_cause_en) k then s.msixTry (s.rd Reg.QM_IRQ_CFG_vector) else s

/-- Whether an outbound write of context 0 leaves under a slot: its aperture entry is valid and grants writes, the link is up, bus mastering is
on, and the slot's stream is secure outside TDISP's ERROR (R299, R306, R310). -/
def State.evtLeaves (s : State) (ob slot : Nat) : Bool :=
  bit (s.reg ob) 0 && bit (s.reg ob) 2 && s.on Reg.HOST_STATUS_link_up && s.host.busMaster &&
  !(decide (1 ≤ slot ∧ slot ≤ 8) && s.rd Reg.HOST_STATUS_tdisp == 3) && s.hostSlotReady slot

/-- The copy of an entry to the event ring (R241), in the driver's view (R469): into memory that context 0 owns, or out
through the outbound aperture, where it waits in D3hot (R304). A write that fails disables the ring and sets evt_failed. -/
def State.evtCopy (s : State) (seq : Nat) : State :=
  if s.on Reg.QM_EVT_CFG_enable then
    match s.evt.slots.find? (fun p => p.1 == seq % 4096) with
    | none => s
    | some (_, e) =>
      let a := s.rd Reg.QM_EVT_BASE_base + 32 * (seq % 2 ^ s.rd Reg.QM_EVT_CFG_size_log2)
      let bs := (s.driverView e).bytes
      let ob := Reg.HOST_OB ((a - 0x800000000000) / 2 ^ 37)
      let slot := s.rd Reg.QM_EVT_CFG_key_slot
      if 0x800000000000 ≤ a then
        if s.rd Reg.HOST_STATUS_dstate = 3 then { s with evt := { s.evt with unsent := s.evt.unsent ++ [seq] } }
        else if s.evtLeaves ob slot then
          (s.send (.hostWrite slot (bits (s.reg ob) 63 12 * 4096 + (a - 0x800000000000) % 2 ^ 37) bs false)).irqCause 0
        else (s.wr Reg.QM_EVT_CFG_enable 0).irqCause 4
      else if s.admits (.ctx 0) true a 32 && s.serves a then (s.putSector 45 (a / 32) bs).irqCause 0
      else (s.wr Reg.QM_EVT_CFG_enable 0).irqCause 4
  else s

/-- The copies that waited in D3hot written, in order (R304). -/
def State.evtFlush (s : State) : State :=
  s.evt.unsent.foldl State.evtCopy { s with evt := { s.evt with unsent := [] } }

/-- What happens to one occurrence of an event (R468): an entry and the start of its 1 ms window, or one more held. -/
def State.post (s : State) (e : Event) : State :=
  let s := if e.cls = 2 then s.sat Reg.RAS_CNT_DEFER_count 1
    else if e.cls = 3 then (s.sat Reg.RAS_CNT_UC_count 1).alert Reg.RAS_ALERT_uncorrected
    else s
  match s.evt.windows.find? (fun w => w.code == e.code && w.unit == e.unit) with
  | some w =>
    { s with evt := { s.evt with windows := s.evt.windows.map (fun (x : EvtWindow) =>
        if x.code = w.code ∧ x.unit = w.unit then { x with held := x.held + 1, last := some e } else x) } }
  | none =>
    let seq := s.rd Reg.RAS_EVT_NEXT_next
    let s := s.logEntry e 1
    let s := { s with evt := { s.evt with windows := s.evt.windows ++ [({ code := e.code, unit := e.unit, held := 0, last := none } : EvtWindow)] } }
    s.evtCopy seq

/-- An event of a block: kind, class, unit and detail, with nothing about a context. -/
def Event.make (blk kind cls unit detail : Nat) : Event :=
  { seq := 0, code := blk * 256 + kind, cls := cls, opOnly := false, ctx := none, time := 0, unit := unit % 65536,
    block := blk, extra := 0, boot := 0, count := 1, detail := detail % 2 ^ 64 }

/-- Post an event that names no context. -/
def State.event (s : State) (blk kind cls unit detail : Nat) : State := s.post (Event.make blk kind cls unit detail)

/-- Post an event that concerns a context; one of context 0 is for the operator alone (R465). -/
def State.eventCtx (s : State) (blk kind cls unit detail ctx : Nat) : State :=
  s.post { Event.make blk kind cls unit detail with ctx := some ctx, opOnly := ctx == 0 }

/-- Post an event whose detail the spec does not state: a free value. [DESIGN CHOICE, log 24] -/
def State.eventOpen (s : State) (blk kind cls unit : Nat) : State := (s.event blk kind cls unit s.freeVal).useFree

/-- Post an event whose unit and detail the spec does not state: free values. [DESIGN CHOICE, log 24] -/
def State.eventAny (s : State) (blk kind cls : Nat) : State :=
  (s.event blk kind cls (Config.freeValue (s.free + 1)).toNat s.freeVal).useFree.useFree

/-- Post an event for the operator alone. -/
def State.eventOp (s : State) (blk kind cls unit detail : Nat) : State :=
  s.post { Event.make blk kind cls unit detail with opOnly := true }

/-- A refusal of R514: kind 0x03 with the address and the refusal code. -/
def State.refusal (s : State) (blk unit code addr : Nat) : State :=
  s.event blk 3 0 unit (addr % 2 ^ 48 + code * 2 ^ 48)

/-- The number of the block that holds a BAR0 offset (R465, R480): its base shifted by 20. [DESIGN CHOICE, log 16] -/
def blockOf (off : Nat) : Nat :=
  (([0x38, 0x30, 0x2C, 0x28, 0x20, 0x18, 0x14, 0x10, 0xC, 8, 7, 6, 5, 4, 3, 2, 1].find? (fun b => decide (b ≤ off / 2 ^ 20))).getD 0)

/-- A register write discarded (kind 0x01) or with a reserved encoding or a wrong size (kind 0x02) (R9, R12, R466). [DESIGN CHOICE, log 16] -/
def State.regEvent (s : State) (kind off v : Nat) : State :=
  s.event (blockOf off) kind 0 0 (off % 2 ^ 26 + v % 2 ^ 32 * 2 ^ 32)

/-- The end of a window of R468: held occurrences are posted in the next entry, which opens the next window. The
detail of an entry that stands for several occurrences is one the spec does not choose: a free value. [DEDUCED, log 25] -/
def State.closeWindow (s : State) (code unit : Nat) : State :=
  match s.evt.windows.find? (fun w => w.code == code && w.unit == unit) with
  | none => s
  | some w =>
    match w.last with
    | none => { s with evt := { s.evt with windows := s.evt.windows.filter (fun (x : EvtWindow) => !(x.code == code && x.unit == unit)) } }
    | some e =>
      let seq := s.rd Reg.RAS_EVT_NEXT_next
      let s := if w.held = 1 then s.logEntry e 1
        else (s.logEntry { e with detail := s.freeVal } w.held).useFree
      let s := { s with evt := { s.evt with windows := s.evt.windows.map (fun (x : EvtWindow) =>
        if x.code = code ∧ x.unit = unit then { x with held := 0, last := none } else x) } }
      s.evtCopy seq

/-- An MSI-X message of a vector (R302), with the event of a table entry that holds address 0 and of a stream that is
not keyed and secure: the latter when the condition begins, at most once in each 1 ms. -/
def State.msix (s : State) (v : Nat) : State :=
  match s.msixFate v with
  | .sent => s.msixTry v
  | .masked => s.msixTry v
  | .asleep => s.msixTry v
  | .notSent => s.msixTry v
  | .addressZero => s.refusal blkHost v 0x0C v
  | .slotNotSecure =>
    let t := s.msixTry v
    match s.host.keyEvtAt with
    | some last => if s.now - last < msUnits then t else
        { t with host := { t.host with keyEvtAt := some s.now } }.refusal blkHost v 0x0D v
    | none => { t with host := { t.host with keyEvtAt := some s.now } }.refusal blkHost v 0x0D v

/-- A corrected error counted by a unit's counter (R459, R467): RAS_CNT_CORR rises, and a counter that reaches
1,024 × 2^k posts a kind 0x04 event. [DESIGN CHOICE, log 26] -/
def State.corrected (s : State) (f : Fld) (blk unit : Nat) : State :=
  let v := s.rd f
  let s := (s.sat f 1).sat Reg.RAS_CNT_CORR_count 1
  let n := s.rd f
  if n ≠ v ∧ (List.range 23).any (fun k => n == 1024 * 2 ^ k) then s.event blk 4 1 unit n else s

/-- WAKE_N driven low (R305). -/
def State.driveWake (s : State) : State :=
  if s.host.wakeLow then s else ({ s with host := { s.host with wakeLow := true } }).send (.pin .wakeN false)

/-! ### The MRAM store (R412, R413, R471, R477) -/

/-- The region that records of a kind are written to: no rule gives it. [DESIGN CHOICE, log 28] -/
def regionOf (kind : Nat) : Nat := Config.mramRegion kind % 1024

/-- A region's count at 80 % and at 100 % of the rated 10^9 writes (R477). -/
def wearWarn : Nat := 800000000
def wearEnd : Nat := 1000000000

/-- RAS_MRAM_WEAR brought up to date (R477): the region with the highest count, of 10^9 writes. [DESIGN CHOICE, log 28] -/
def State.showWear (s : State) : State :=
  let top := s.mram.wear.foldl (fun (b : Nat × Nat) p => if b.2 < p.2 then p else b) (0, 0)
  ((s.wr Reg.RAS_MRAM_WEAR_region top.1).wr Reg.RAS_MRAM_WEAR_spares_left (16 - s.mram.movedRegions.length)).wr
    Reg.RAS_MRAM_WEAR_worst_pct (min 100 (top.2 / 10000000))

/-- Whether the store still takes records of a kind (R477). [DESIGN CHOICE, log 160] -/
def State.storeOk (s : State) (kind : Nat) : Bool :=
  decide (s.mram.wear.get 0 (regionOf kind) < wearEnd) || decide (s.mram.movedRegions.length < 16)

/-- A write of the store counted (R477): at 80 % an alert and an event, at 100 % the region's records move to a spare, whose count starts at
0; with no spare left the write is refused with an event, and the count is kept. [DESIGN CHOICE, log 28] -/
def State.storeWrite (s : State) (kind : Nat) (f : State → State) : State :=
  let r := regionOf kind
  let n := s.mram.wear.get 0 r
  if wearEnd ≤ n ∧ 16 ≤ s.mram.movedRegions.length then s.eventOpen blkRas 9 0 r
  else
    let s := if wearEnd ≤ n then { s with mram := { s.mram with wear := s.mram.wear.put r 1, movedRegions := s.mram.movedRegions ++ [r] } }
      else { s with mram := { s.mram with wear := s.mram.wear.put r (n + 1) } }
    let s := if n + 1 = wearWarn then (s.alert Reg.RAS_ALERT_wear).eventOpen blkRas 9 0 r else s
    f s.showWear

/-- A kind of record, for its region. [DESIGN CHOICE, log 160] -/
def MramRec.kind : MramRec → Nat
  | .fatal _ => 0
  | .ppr _ => 1
  | .remap _ _ => 2
  | .mark _ => 3
  | .fence _ => 4

/-- The effect of a record on the store. -/
def State.mramEffect (s : State) : MramRec → State
  | .fatal e => s.storeFatal e
  | .ppr row => { s with mram := { s.mram with ppr := s.mram.ppr ++ [row] } }
  | .remap cell row => { s with mram := { s.mram with remap := s.mram.remap.put cell row, marked := s.mram.marked.filter (· != cell) } }
  | .mark cell => if s.mram.marked.contains cell then s else { s with mram := { s.mram with marked := s.mram.marked ++ [cell] } }
  | .fence slot =>
    if s.mram.fences.contains slot then s else { s with mram := { s.mram with fences := s.mram.fences ++ [slot] } }

/-- A record written to the store now. -/
def State.mramApply (s : State) (r : MramRec) : State := s.storeWrite r.kind (fun s => s.mramEffect r)

/-- A record for the store: at once, or into the sag buffer; a full buffer drops it and the fatal log counts the loss. [DESIGN CHOICE, log 29] -/
def State.mramWrite (s : State) (r : MramRec) : State :=
  match s.sag with
  | none => s.mramApply r
  | some l =>
    if l.length < sagBufferRecords then
      { s with sag := some (l ++ [r]) }.wr Reg.PWR_SAG_deferred (min 255 (l.length + 1))
    else ({ s with mram := { s.mram with dropped := satAdd 32 s.mram.dropped 1 } }.wr Reg.RAS_FATAL_INFO_dropped
      (satAdd 32 s.mram.dropped 1)).alert Reg.RAS_ALERT_fatal_full

/-- Bit 3 of QM_IRQ_CAUSE set by a fatal error: its message is the one that leaves after a package stop too (R462, R464). -/
def State.fatalCause (s : State) : State :=
  let t := { s with glb := { s.glb with stop := 0 } }.irqCause 3
  { t with glb := { t.glb with stop := s.glb.stop } }

/-- The steps 1 to 5 of taking a fatal error (R462, R471): ALERT_N, the fatal log, the event log, the interrupt cause and
WAKE_N, and health FAILING. The watchdog's own path (firmware dead) takes steps 1, 2 and 4 alone. -/
def State.fatalSteps (s : State) (code unit detail0 detail1 : Nat) (watchdog : Bool) : State :=
  let s := s.alert Reg.RAS_ALERT_fatal
  let status := s.rd Reg.HUB_READY_outcome + s.rd Reg.PWR_TEMP_hub_c * 2 ^ 8 + s.rd Reg.PWR_TEMP_stack_max_c * 2 ^ 16 +
    s.rd Reg.PWR_PKG_package_w * 2 ^ 24 + s.rd Reg.PWR_STATUS_tile_mhz * 2 ^ 37 + s.rd Reg.TIME_STATUS_state * 2 ^ 49
  let e : FatalEntry :=
    { seq := s.mram.fatalSeq, code := code, boot := s.evt.boot, time := s.now, unit := unit, block := code / 256,
      powerOns := s.mram.powerOns, status := status, detail0 := detail0, detail1 := detail1 }
  let s := ({ s with mram := { s.mram with fatalSeq := s.mram.fatalSeq + 1 } }).mramWrite (.fatal e)
  let s := s.sat Reg.RAS_CNT_FATAL_count 1
  let s := if watchdog then s else s.event (code / 256) 0x11 4 unit detail0
  let s := s.fatalCause
  let s := if s.host.pmeEn && s.on Reg.HOST_WAKE_EN_fatal && s.rd Reg.HOST_STATUS_dstate == 3 then s.driveWake else s
  if watchdog then s else { s with glb := { s.glb with failing := true } }.wr Reg.RAS_STATUS_health 2

/-- A fatal error of a cause whose details R463 does not state: free values. [DESIGN CHOICE, log 24] -/
def State.fatalOpen (s : State) (code unit : Nat) (watchdog : Bool) : State :=
  let d := (Config.freeValue (s.free + 1)).toNat
  (s.fatalSteps code unit s.freeVal d watchdog).useFree.useFree

/-- A fatal error whose action is a package stop (R463, R464). [DESIGN CHOICE, log 30] -/
def State.fatalStop (s : State) (code unit detail0 detail1 : Nat) (watchdog : Bool) : State :=
  let s := s.fatalSteps code unit detail0 detail1 watchdog
  { s with glb := { s.glb with stop := if watchdog then 2 else max s.glb.stop 1 } }

/-! ### The operator's history of error counts (R456, R474) -/

/-- The registers that count errors. -/
def errorReg (o : Nat) : Bool :=
  o == Reg.RAS_CNT_CORR || o == Reg.RAS_CNT_DEFER || o == Reg.RAS_CNT_UC || o == Reg.RAS_CNT_FATAL || o == Reg.HOST_ERR || o == Reg.NOC_ERR_CORR ||
  o == Reg.NOC_ERR_REPLAY || (List.range 16).any (fun i => o == Reg.HBM_CTL_ERR i || o == Reg.FAB_PORT_ERR i) ||
  (List.range 8).any (fun n => o == Reg.SITE_MISROUTE n || o == Reg.COH_SITE_ERR n || (List.range 9).any (fun m => o == Reg.SITE_MOD_ERR n m))

/-- Two values of a register added field by field, each stopping at its largest value. -/
def addCounts (off a b : Nat) : Nat :=
  match findReg off with
  | some d => d.fields.foldl (fun v f => putBits v f.hi f.lo (satAdd (f.hi + 1 - f.lo) (bits a f.hi f.lo) (bits b f.hi f.lo))) 0
  | none => satAdd 32 a b

/-- A count added to what has been cleared under a key: a register's offset, or 2^26 + 2 * slot and the next for a slot's scratch errors. -/
def State.keepCount (s : State) (key v : Nat) : State :=
  { s with evt := { s.evt with past := s.evt.past.put key (BitVec.ofNat 64 (addCounts key (s.evt.past.get 0 key).toNat v)) } }

/-- The counts that a reset clears kept for the operator. [DESIGN CHOICE, log 21] -/
def State.keepCounts (s : State) (gone : Nat → Bool) : State :=
  let s := (s.regs.filter (fun (p : Nat × DWord) => errorReg p.1 && gone p.1)).foldl (fun (s : State) (p : Nat × DWord) => s.keepCount p.1 p.2.toNat) s
  s.scr.slots.foldl (fun (s : State) (p : Nat × SlotSt) =>
    (s.keepCount (2 ^ 26 + 2 * p.1) p.2.corrected).keepCount (2 ^ 26 + 2 * p.1 + 1) p.2.uncorrected) s

/-- A count in full, from before the clearings and since. [DESIGN CHOICE, log 21] -/
def State.fullCount (s : State) (key v : Nat) : Nat := addCounts key (s.evt.past.get 0 key).toNat v

/-- The totals renewed for the operator, every 100 ms. [DESIGN CHOICE, log 21] -/
def State.renewCounts (s : State) : State :=
  let keys := ((s.regs.filter (fun (p : Nat × DWord) => errorReg p.1)).map (·.1) ++ (s.evt.past.map (·.1)).filter (fun k => decide (k < 2 ^ 26))).eraseDups
  let regs : Sparse DWord := keys.foldl (fun (t : Sparse DWord) k => t.put k (BitVec.ofNat 64 (s.fullCount k (s.reg k)))) []
  let all := s.scr.slots.foldl (fun (t : Sparse DWord) (p : Nat × SlotSt) =>
    let k := 2 ^ 26 + 2 * p.1
    (t.put k (BitVec.ofNat 64 (s.fullCount k p.2.corrected))).put (k + 1) (BitVec.ofNat 64 (s.fullCount (k + 1) p.2.uncorrected))) regs
  { s with evt := { s.evt with shown := all } }

end Sys2Proof.Machine
end

