-- ==== Sys2Proof/Machine/MemWrite.lean ====
section
/-! DEFINITION. Stacked memory as writes reach it: rows and cells with errors, the check of a read, and the write-combining buffer and write queue (R163, R165, R166, R168–R170, R460, R478). -/
namespace Sys2Proof.Machine

/-! ### Rows, cells and repair (R168, R169, R171, R172) -/

/-- The number of cells awaiting substitution shown in GLB_SUBST_PEND (R29). -/
def State.showCells (s : State) : State := s.wr Reg.GLB_SUBST_PEND_cells (min s.hbm.marked.length 65535)

/-- A cell marked for retirement (R169, R170). [DEDUCED, log 142] -/
def State.markCell (s : State) (cell : Nat) : State :=
  if s.hbm.marked.contains cell then s
  else ({ s with hbm := { s.hbm with marked := s.hbm.marked ++ [cell] } }.showCells).mramWrite (.mark cell)

/-- The bank of a packed row (R169): everything above its row bits. -/
def bankOfRow (row : Nat) : Nat := row / 2 ^ 16

/-- A row repaired as in hardware mode, with its record and event; or, with no resource left in its bank or its stack's
list, its cell marked for retirement (R169). [DESIGN CHOICE, log 59] -/
def State.repairRow (s : State) (r : RowErr) : State :=
  let used := (s.hbm.ppr.filter (fun x => bankOfRow x == bankOfRow r.row)).length
  let listed := (s.hbm.ppr.filter (fun x => x / 2 ^ 28 == r.row / 2 ^ 28)).length
  if used < Config.pprPerBank ∧ listed < 4096 then
    (({ s with hbm := { s.hbm with ppr := s.hbm.ppr ++ [r.row] } }).mramWrite (.ppr r.row)).event blkHbm 8 1 (r.row / 2 ^ 27)
      (r.row + r.row * 2 ^ 32)
  else s.markCell r.cell

/-- The rows list shown in HBM_ROW_NEXT (R182). -/
def State.showRows (s : State) : State :=
  match s.hbm.rowList with
  | [] => s.setReg Reg.HBM_ROW_NEXT 0
  | r :: _ => s.setReg Reg.HBM_ROW_NEXT (2 ^ 63 + min s.hbm.rowList.length 65535 * 2 ^ 32 + r.row % 2 ^ 31)

/-- A visit that corrected an error in a row of a cell (R168): the second one at least 1 s after the first flags it, and a flagged
row is repaired or listed by the mode of DUTY_MODE bit 8 (R169). -/
def State.visited (s : State) (row cell : Nat) : State :=
  match s.hbm.rowErr.find? (fun r => r.row == row) with
  | none => { s with hbm := { s.hbm with rowErr := s.hbm.rowErr ++ [({ row := row, cell := cell, time := s.now } : RowErr)] } }
  | some r =>
    if s.now - r.time < 2 ^ 32 then s
    else
      let s := { s with hbm := { s.hbm with rowErr := s.hbm.rowErr.filter (fun (x : RowErr) => x.row != row) } }
      if s.duty 8 then { s with hbm := { s.hbm with rowList := s.hbm.rowList ++ [r] } }.showRows
      else s.repairRow r

/-- A visit that corrected an error at an address (R168). -/
def State.rowVisit (s : State) (addr : Nat) : State := s.visited (s.dramRow addr) (s.cellOf addr)

/-- An uncorrectable sector found in a granule without the bedrock flag (R170): poisoned, counted, and the second one in
a cell since reset, wherever the cell now lies, marks the cell for retirement. -/
def State.sectorLost (s : State) (addr : Nat) : State :=
  let ctl := (s.place addr).1
  let cell := s.cellOf addr
  let here := s.physCell cell
  let s := (s.poisonSector (addr / 32)).sat (Reg.HBM_CTL_ERR_uncorrected ctl) 1
  let s := s.event blkHbm 5 2 ctl (addr / 32 * 32)
  if s.hbm.detected.contains here then s.markCell cell
  else { s with hbm := { s.hbm with detected := s.hbm.detected ++ [here] } }

/-! ### Injection (R478) -/

/-- An armed memory injection taken by a read of its sector: what the read then finds. -/
def State.injected (s : State) (addr n : Nat) (ecc : Ecc) : Ecc :=
  match s.evt.inject with
  | some (k, a) =>
    if (k = 3 ∨ k = 4) ∧ (sectorsOf addr n).contains (a / 32) then (if k = 3 then .corrected else .uncorrectable) else ecc
  | none => ecc

/-- The injection used up by a read of its sector. -/
def State.useInjection (s : State) (addr n : Nat) : State :=
  match s.evt.inject with
  | some (k, a) =>
    if (k = 3 ∨ k = 4) ∧ (sectorsOf addr n).contains (a / 32) then
      { s with evt := { s.evt with inject := none } }.wr Reg.RAS_INJECT_STATUS_result 2
    else s
  | none => s

/-- The sector that an error of a read lies in: the injected one, or the first of the range. -/
def State.errSector (s : State) (addr n : Nat) : Nat :=
  match s.evt.inject with
  | some (_, a) => if (sectorsOf addr n).contains (a / 32) then a / 32 * 32 else addr / 32 * 32
  | none => addr / 32 * 32

/-- A corrected error of the stack found at an address (R168). -/
def State.sectorCorrected (s : State) (addr : Nat) : State :=
  (s.corrected (Reg.HBM_CTL_ERR_corrected (s.place addr).1) blkHbm (s.place addr).1).rowVisit addr

/-! ### The write-combining buffer (R165, R166) -/

/-- The read that merges a partly masked sector when its entry is written out meets the stack's check too: an uncorrectable one is written back
poisoned with the new bytes merged into it (R166, R478). [DEDUCED, log 67] -/
def State.wcbCheck (s : State) (e : WcbEntry) (k : Nat) : State :=
  let n := (e.bytes.filter (fun b => b.1 / 32 == k)).length
  let a := 64 * e.line + 32 * k
  if n = 0 ∨ n = 32 then s
  else
    let ecc := s.injected a 32 .clean
    let s := s.useInjection a 32
    if ecc = .uncorrectable then (if s.sectorPoisoned (a / 32) then s else s.sectorLost a)
    else if ecc = .corrected then s.sectorCorrected a else s

/-- An entry written out with the check of every sector that it covers in part. -/
def State.wcbRetire (s : State) (e : WcbEntry) : State := ((s.wcbCheck e 0).wcbCheck e 1).wcbOut e

/-- The buffered and queued writes that touch a range written out (R165, R171, R176). -/
def State.flushRange (s : State) (a n : Nat) : State :=
  let lines := s.hbm.wcb.filter (fun e => decide (64 * e.line < a + n) && decide (a < 64 * e.line + 64))
  let s := lines.foldl State.wcbRetire s
  let ws := s.hbm.wq.filter (fun e => decide (32 * e.sector < a + n) && decide (a < 32 * e.sector + 32))
  ws.foldl State.wqOut s

/-- Room made for a new entry at a controller: of 512 entries 32 are kept for STREAM, and the oldest goes (R165). -/
def State.wcbRoom (s : State) (ctl : Nat) (stream : Bool) : State :=
  let mine := s.hbm.wcb.filter (fun e => e.ctl == ctl)
  let others := mine.filter (fun e => !e.stream)
  if 512 ≤ mine.length ∨ (stream = false ∧ 480 ≤ others.length) then
    match (if stream = false ∧ 480 ≤ others.length then others else mine).head? with
    | some e => s.wcbRetire e
    | none => s
  else s

/-- Bytes of one line written through the buffer, into its entry or a new one (R165). [DEDUCED, log 67] -/
def State.wcbMerge (s : State) (line cls : Nat) (bs : List (Nat × Byte)) (bad : Nat → Bool) : State :=
  let ctl := (s.place (64 * line)).1
  (match s.wcbOf line with
    | some _ => s
    | none =>
      let s := s.wcbRoom ctl (cls == 44)
      { s with hbm := { s.hbm with wcb := s.hbm.wcb ++
        [({ line := line, ctl := ctl, stream := cls == 44, bytes := [], bad := [] } : WcbEntry)] } }).wcbAdd line bs bad

/-- The enabled bytes of a write that fall in one line: offset in the line and value. -/
def lineBytes (addr line : Nat) (data : List (Option Byte)) : List (Nat × Byte) :=
  (List.range 64).filterMap (fun i =>
    if 64 * line + i < addr then none
    else match data[64 * line + i - addr]? with
      | some (some b) => some (i, b)
      | _ => none)

/-- One line of an admitted write of a class (R165): through the buffer when it does not cover whole aligned sectors or the line has an
entry, else into the write queue. `bad` marks the offsets in the line that came poisoned (R460). -/
def State.writeLine (s : State) (cls addr : Nat) (data : List (Option Byte)) (bad : Nat → Bool) (line : Nat) : State :=
  let bs := lineBytes addr line data
  let n0 := (bs.filter (fun b => b.1 < 32)).length
  let n1 := (bs.filter (fun b => 32 ≤ b.1)).length
  let whole := (n0 == 0 || n0 == 32) && (n1 == 0 || n1 == 32)
  if bs.isEmpty then s
  else if whole && (s.wcbOf line).isNone then
    let s := if n0 = 32 then s.wqPut (2 * line) ((bs.take 32).map (·.2)) ((List.range 32).any bad) cls else s
    if n1 = 32 then s.wqPut (2 * line + 1) ((bs.drop n0).map (·.2)) ((List.range 32).any (fun i => bad (32 + i))) cls else s
  else s.wcbMerge line cls bs bad

/-- The lines that n bytes at an address touch. -/
def linesOf (a n : Nat) : List Nat := if n = 0 then [] else (List.range ((a + n - 1) / 64 - a / 64 + 1)).map (· + a / 64)

/-- Marked bytes written for a class, line by line, and what watches memory told of it (R165, R354, R460). -/
def State.putMarked (s : State) (cls a : Nat) (bs : List PByte) : State :=
  let data := bs.map (fun b => some b.1)
  ((linesOf a bs.length).foldl (fun (s : State) line => s.writeLine cls a data
    (fun i => decide (a ≤ 64 * line + i) && ((bs[64 * line + i - a]?).map Prod.snd).getD false) line) s).mirrorDirty a bs.length

end Sys2Proof.Machine
end

