-- ==== Sys2Proof/Machine/PortOps.lean ====
section
/-! DEFINITION. Fabric ports: blocks leaving on a link, credits, forwarding and the loss of a block (R313, R316–R320). -/
namespace Sys2Proof.Machine

/-- A port outside its registers. -/
def State.port (s : State) (p : Nat) : PortSt := s.fab.ports.get PortSt.off p

/-- The state with a port replaced. -/
def State.setPort (s : State) (p : Nat) (x : PortSt) : State := { s with fab := { s.fab with ports := s.fab.ports.put p x } }

/-- The state code of a port (FAB_PORT_STATUS). -/
def State.portState (s : State) (p : Nat) : Nat := s.rd (Reg.FAB_PORT_STATUS_state p)

/-- Whether a Teurn port is UP, at x8 or at x4. -/
def State.portUp (s : State) (p : Nat) : Bool := s.portState p == 2 || s.portState p == 3

/-- A port's state replaced, and FAB_STATUS's count of ports UP. -/
def State.setPortState (s : State) (p v : Nat) : State :=
  let s := s.wr (Reg.FAB_PORT_STATUS_state p) v
  s.wr Reg.FAB_STATUS_ports_up ((List.range 16).filter s.portUp).length

/-- This package's device ID. -/
def State.deviceId (s : State) : Nat := s.rd Reg.FAB_IDENT_device_id

/-! ### Forwarding (R320) -/

/-- The forwarding entry that serves a destination. -/
def State.fwdIndex (s : State) (dest : Nat) : Nat :=
  if dest / 64 = s.deviceId / 64 then 1024 + dest % 64 else dest / 64

/-- The candidate ports of the entry that serves a destination, in its order. -/
def State.candidates (s : State) (dest : Nat) : List Nat :=
  let v := s.fab.fwd.get 0 (s.fwdIndex dest)
  if bit v 18 then (List.range (bits v 17 16 + 1)).map (fun k => bits v (4 * k + 3) (4 * k)) else []

/-- Whether version 1 carries an opcode (R337). -/
def v1Op (op : Nat) : Bool := (decide (1 ≤ op) && decide (op ≤ 6)) || (decide (0x10 ≤ op) && decide (op ≤ 0x12))

/-- The port that a block for a destination takes by its flow, among the candidates that are UP. -/
def State.nextPort (s : State) (dest flow : Nat) : Option Nat :=
  let up := (s.candidates dest).filter s.portUp
  up[flow % 256 % up.length]?

/-! ### Blocks leaving (R316, R317, R318) -/

/-- Credits that a sender holds for a lane; a link starts with each lane's 32 reserved blocks. [DEDUCED, log 104] -/
def PortSt.credit (x : PortSt) (lane : Nat) : Nat := x.credits.get 32 lane

/-- Blocks that one sender may have unacknowledged. -/
def linkWindow : Nat := 512

/-- The class and hop of a lane. -/
def laneClass (lane : Nat) : Nat := lane / 16
def laneHop (lane : Nat) : Nat := lane % 16

/-- A block before it is numbered. [DEDUCED, log 102] -/
def LinkBlock.make (lane dest flow : Nat) (pay : LinkPay) : LinkBlock :=
  { seq := 0, lane := lane, kind := 0, ack := 0, nak := false, creditLane := 0, creditCount := 0, dest := dest, flow := flow % 256, pay := pay }

/-- The block of a list that has the highest hop, the earliest of them first. -/
def highestHop : List QBlock → Option QBlock
  | [] => none
  | b :: t => match highestHop t with
    | none => some b
    | some c => if laneHop b.block.lane < laneHop c.block.lane then some c else some b

/-- The block that a port sends next: class 2 first, then classes 0 and 1 in turn, the higher hop first, among lanes with credit. -/
def PortSt.pick (x : PortSt) : Option QBlock :=
  let ready := x.queue.filter (fun b => decide (0 < x.credit b.block.lane))
  let of_ (c : Nat) := highestHop (ready.filter (fun b => laneClass b.block.lane == c))
  (of_ 2).orElse (fun _ => (of_ x.turn).orElse (fun _ => of_ (1 - x.turn)))

/-- An idle block, which carries an acknowledgement and a credit back. -/
def State.sendIdle (s : State) (p : Nat) (nak : Bool) (creditLane creditCount : Nat) : State :=
  let x := s.port p
  s.send (.link p { LinkBlock.make 0 0 0 .empty with
    seq := (x.sendSeq + 2 ^ 24 - 1) % 2 ^ 24, kind := 1, ack := (x.recvSeq + 2 ^ 24 - 1) % 2 ^ 24, nak := nak,
    creditLane := creditLane, creditCount := creditCount })

/-- The credit of a block in transit given back to the link it came in on, as its receiver frees it (R318). -/
def State.freeBlock (s : State) (b : QBlock) : State :=
  match b.from_ with
  | some p => if s.portUp p then s.sendIdle p false (b.block.lane - 1) 1 else s
  | none => s

/-- One block sent, numbered and kept until it is acknowledged. -/
def State.sendBlock (s : State) (p : Nat) (b : QBlock) : State :=
  let x := s.port p
  let out := { b.block with seq := x.sendSeq, kind := 0, ack := (x.recvSeq + 2 ^ 24 - 1) % 2 ^ 24, nak := false }
  let x := { x with
    sendSeq := (x.sendSeq + 1) % 2 ^ 24, unacked := x.unacked ++ [out], queue := x.queue.erase b,
    credits := x.credits.put out.lane (x.credit out.lane - 1),
    turn := if laneClass out.lane = 2 then x.turn else 1 - laneClass out.lane }
  ((s.setPort p x).send (.link p out)).freeBlock b

/-- Blocks that wait at a port sent while its window and its lanes' credits allow. -/
def State.pump (s : State) (p : Nat) : Nat → State
  | 0 => s
  | n + 1 =>
    let x := s.port p
    if !s.portUp p || decide (linkWindow ≤ x.unacked.length) then s
    else match x.pick with
      | some b => (s.sendBlock p b).pump p n
      | none => s

/-- A block put on a port. -/
def State.putBlock (s : State) (p : Nat) (b : QBlock) : State :=
  let x := s.port p
  (s.setPort p { x with queue := x.queue ++ [b] }).pump p (x.queue.length + 1)

/-- The blocks of a message: a 32-byte header, its data and a 16-byte tag in 256-byte payloads (R324). [DEDUCED, log 102] -/
def msgBlocks (len : Nat) : Nat := (48 + len + 255) / 256

/-- A message of this package given to the fabric on the lane of its class: its blocks leave by the port that its flow takes, and the
message is shown; or they are discarded and counted (R320). A version-1 link carries the opcodes of version 1 and no others (R337). [DEDUCED, log 102] -/
def State.launch (s : State) (dest cls flow op seq conn len : Nat) (shown : Out) : State :=
  let n := msgBlocks len
  match s.nextPort dest flow with
  | none => s.sat Reg.FAB_DROPS_no_route n
  | some p =>
    if s.rd (Reg.FAB_PORT_STATUS_version p) = 1 ∧ v1Op op = false then s
    else ((List.range n).foldl (fun (s : State) i =>
      s.putBlock p { block := LinkBlock.make (16 * cls) dest flow (.own op seq conn i), from_ := none }) s).send shown

end Sys2Proof.Machine
end

