-- ==== Sys2Proof/Machine/ConnOps.lean ====
section
/-! DEFINITION. Connections as messages leave on them, and requests that were cut into lines put together again (R202, R298, R322, R324–R327). -/
namespace Sys2Proof.Machine

/-! ### Connections (R322, R324, R325, R327, R337) -/

/-- A connection entry in the layout of FAB_CONN_DATA. -/
def State.conn (s : State) (e : Nat) : Nat := (s.conns.get 0 e).toNat

/-- A field of a connection entry. -/
def State.connRd (s : State) (e : Nat) (f : Fld) : Nat := bits (s.conn e) f.hi f.lo

/-- A field of a connection entry replaced. -/
def State.connWr (s : State) (e : Nat) (f : Fld) (v : Nat) : State :=
  { s with conns := s.conns.put e (BitVec.ofNat 64 (putBits (s.conn e) f.hi f.lo v)) }

/-- A connection outside its entry. -/
def State.connState (s : State) (e : Nat) : ConnSt := s.connSt.get ConnSt.closed e

/-- The state with a connection replaced. -/
def State.setConn (s : State) (e : Nat) (c : ConnSt) : State := { s with connSt := s.connSt.put e c }

/-- FAB_STATUS's count of open connections. -/
def State.showConns (s : State) : State :=
  s.wr Reg.FAB_STATUS_conns_open ((s.conns.filter (fun p => bits p.2.toNat 50 48 == 2)).length)

/-- A connection's state field replaced. -/
def State.connTo (s : State) (e v : Nat) : State := (s.connWr e Reg.FAB_CONN_DATA_state v).showConns

/-- The enabled connection that names a peer and a key slot (R322). -/
def State.connFor (s : State) (dev slot : Nat) : Option Nat :=
  (s.conns.find? (fun p => bits p.2.toNat 31 31 == 1 && bits p.2.toNat 15 0 == dev && bits p.2.toNat 19 16 == slot)).map (·.1)

/-- Messages that one direction may have unacknowledged (R325). -/
def connWindow : Nat := 4096

/-- The class of a message's lane (R324): requests, responses, control. -/
def msgClass (op : Nat) : Nat :=
  if op = 3 ∨ op = 5 ∨ op = 6 ∨ op = 0x40 then 1 else if 0x10 ≤ op ∧ op < 0x40 then 2 else 0

/-- A message given to the fabric: its blocks take a candidate path, or are dropped for want of one. [DESIGN CHOICE, log 103] -/
def State.emit (s : State) (e : Nat) (m : FabMsg) : State :=
  let dest := s.connRd e Reg.FAB_CONN_DATA_peer
  s.launch dest (msgClass m.op) (Config.flowHash e + m.flow) m.op m.seq e m.len
    (.fabric dest (s.connRd e Reg.FAB_CONN_DATA_peer_index) m)

/-- A sequenced message sent now, numbered and kept until it is acknowledged. -/
def State.sendNow (s : State) (e : Nat) (m : FabMsg) : State :=
  let c := s.connState e
  let m := { m with seq := c.sendSeq, first := s.now }
  (s.setConn e { c with sendSeq := (c.sendSeq + 1) % 2 ^ 24, sent := c.sent + 1, unacked := c.unacked ++ [m] }).emit e m

/-- A sequenced message put on a connection: sent while it is open and its window has room, else kept in order. -/
def State.sendMsg (s : State) (e : Nat) (m : FabMsg) : State :=
  let c := s.connState e
  if (s.connRd e Reg.FAB_CONN_DATA_state = 2 ∨ s.connRd e Reg.FAB_CONN_DATA_state = 4) ∧ c.unacked.length < connWindow ∧ c.reopening = false ∧ c.waiting = [] then s.sendNow e m
  else s.setConn e { c with waiting := c.waiting ++ [m] }

/-- Messages that wait sent as far as the window allows. -/
def State.sendWaiting (s : State) (e : Nat) : State :=
  let c := s.connState e
  if (s.connRd e Reg.FAB_CONN_DATA_state ≠ 2 ∧ s.connRd e Reg.FAB_CONN_DATA_state ≠ 4) ∨ c.reopening = true then s
  else
    let n := connWindow - c.unacked.length
    let go := c.waiting.take n
    go.foldl (fun (s : State) m => s.sendNow e m) (s.setConn e { c with waiting := c.waiting.drop n })

/-- A message before it is numbered. -/
def FabMsg.make (op addr : Nat) (bytes : List Byte) (poison : Bool) (tag : Nat) (req : Option Nat) : FabMsg :=
  { op := op, seq := 0, tag := tag % 65536, addr := addr, len := bytes.length, bytes := bytes, poison := poison, err := false, first := 0, flow := 0,
    req := req }

/-! ### Acknowledgement (R325) -/

/-- The highest sequence that ACK may cover: every message up to it has been performed. -/
def ConnSt.performed (c : ConnSt) : Nat :=
  let back := c.undone.foldl (fun m q => max m ((c.recvSeq + 2 ^ 24 - q) % 2 ^ 24)) 0
  (c.recvSeq + 2 ^ 25 - 1 - back) % 2 ^ 24

/-- ACK sent for everything performed. -/
def State.sendAck (s : State) (e : Nat) : State :=
  let c := s.connState e
  let dest := s.connRd e Reg.FAB_CONN_DATA_peer
  (s.setConn e { c with toAck := 0 }).launch dest 1 (Config.flowHash e) 6 0 e 0
    (.fabricAck dest (s.connRd e Reg.FAB_CONN_DATA_peer_index) c.performed)

/-- An accepted message has been performed; after 16 of them an ACK goes out. -/
def State.msgPerformed (s : State) (e q : Nat) : State :=
  let c := s.connState e
  let s := s.setConn e { c with undone := c.undone.erase q, toAck := c.toAck + 1 }
  if 16 ≤ c.toAck + 1 then s.sendAck e else s

/-- A response message of a connection (R325, R326). -/
def State.respond (s : State) (e op tag : Nat) (bytes : List Byte) (poison err : Bool) : State :=
  s.sendMsg e { FabMsg.make op 0 bytes poison tag none with err := err }

/-! ### Requests cut into lines -/

/-- A site's request answered: no commit waits for it any longer (R206, R207). -/
def State.siteAnswered (s : State) (n tag : Nat) : State :=
  { s with xlat := { s.xlat with siteReqs := s.xlat.siteReqs.filter (fun (q : SiteReq) => !(q.site == n && q.tag == tag)) } }

/-- The error response to a chiplet's uncached request (R267): an error message; in CXL mode a refused read returns poison, and a
refused write is dropped. -/
def State.refuseUncached (s : State) (n tag : Nat) (write : Bool) : State :=
  let s := s.siteAnswered n tag
  if decide (n < 8) && s.on (Reg.SITE_LINK_STATUS_cxl n) then (if write then s else s.send (.memPoison tag)) else s.send (.memError tag)

/-- The answer to a site's own request to a target outside the package's memory (R202). -/
def State.answerSite (s : State) (n tag : Nat) (write : Bool) (a : Answer) : State :=
  let s := s.siteAnswered n tag
  match a with
  | .error _ => s.refuseUncached n tag write
  | .done => s.send (if write then .memAck tag else .memData tag [])
  | .data bs =>
    if write then s.send (.memAck tag)
    else if bs.any (·.2) then s.send (.memPoison tag) else s.send (.memData tag (bs.map (·.1)))

/-- The cut request with a number. -/
def State.asmOf (s : State) (id : Nat) : Option Asm := s.acc.asms.find? (fun x => x.id == id)

/-- The bytes of an answered line; a line that failed reads as ones. -/
def partBytes (p : Nat × Option Answer) : List PByte :=
  match p.2 with
  | some (.data bs) => bs
  | _ => List.replicate p.1 (0xFF, false)

/-- Whether a line's answer is an error of the owner map or the like; a fenced tile's ones are none (R75). -/
def partError (p : Nat × Option Answer) : Bool :=
  match p.2 with
  | some (.error st) => st != 0x0201
  | _ => false

/-- The new value of an atomic (R324): FetchAdd (0), Swap (1), CAS (2) with its compare and swap values. -/
def atomicNew (arg : Nat × Nat × Nat) (old : Nat) : Nat :=
  if arg.1 = 0 then (old + arg.2.1) % 2 ^ 64 else if arg.1 = 1 then arg.2.1 else if old = arg.2.1 then arg.2.2 else old

/-- The whole answer of a cut request, once every line has its own. A host read returns ones if any of its lines does (R298). -/
def State.asmDone (s : State) (x : Asm) : State :=
  let bs := x.parts.flatMap partBytes
  let failed := x.parts.any (fun p => match p.2 with | some (.error _) => true | _ => false)
  let refused := x.parts.any partError
  let bad := bs.any (·.2)
  match x.who with
  | .bar4 tag => if x.write then s else s.send (.memData tag (if failed || bad then List.replicate bs.length 0xFF else bs.map (·.1)))
  | .site n tag =>
    let s := s.siteAnswered n tag
    if refused then s.refuseUncached n tag x.write
    else if x.write then s.send (.memAck tag)
    else if bad then s.send (.memPoison tag)
    else s.send (.memData tag (bs.map (·.1)))
  | .fabric e q tag op =>
    let s := if op = 4 then
        if refused then s.respond e 5 tag [] false true
        else
          let old := leValue (s.memBytes x.addr 8)
          let marked := bad || (s.sectorPoisoned (x.addr / 32))
          let new := leBytes 8 (atomicNew x.arg old)
          ((s.putMarked 35 x.addr (new.map (fun b => (b, marked)))).forward x.addr new).respond e 5 tag (leBytes 8 old) marked false
      else if op = 2 then s.respond e 3 tag (if refused then [] else bs.map (·.1)) (bad && !refused) refused else s
    s.msgPerformed e q

/-- One line of a cut request answered. -/
def State.partDone (s : State) (id i : Nat) (a : Answer) : State :=
  match s.asmOf id with
  | none => s
  | some x =>
    let x := { x with parts := x.parts.zipIdx.map (fun (p : (Nat × Option Answer) × Nat) => if p.2 = i then (p.1.1, some a) else p.1) }
    if x.parts.all (fun p => p.2.isSome) then
      ({ s with acc := { s.acc with asms := s.acc.asms.filter (fun (y : Asm) => y.id != id) } }).asmDone x
    else { s with acc := { s.acc with asms := s.acc.asms.map (fun (y : Asm) => if y.id = id then x else y) } }

/-- A cut request opened: its number and the state that holds it. -/
def State.openAsm (s : State) (who : AsmFor) (write : Bool) (addr : Nat) (arg : Nat × Nat × Nat) (lens : List Nat) : Nat × State :=
  (s.acc.nextId, { s with acc := { s.acc with nextId := s.acc.nextId + 1, asms := s.acc.asms ++
    [({ id := s.acc.nextId, who := who, write := write, addr := addr, arg := arg, parts := lens.map (fun n => (n, none)) } : Asm)] } })

/-- The lengths of the lines of a range. -/
def lineLens (a n : Nat) : List Nat :=
  if n = 0 then [] else
  (List.range ((a + n - 1) / 64 - a / 64 + 1)).map (fun k => min (a + n) ((a / 64 + k + 1) * 64) - max a ((a / 64 + k) * 64))

end Sys2Proof.Machine
end

