-- ==== Sys2Proof/Machine/Translate.lean ====
section
/-! DEFINITION. Translation of virtual addresses, physical addresses of context 0, and segment fault records (R195, R197, R198, R202, R204, R210, R211, R213, R216). -/
namespace Sys2Proof.Machine

/-- The first scratch window address (R60). -/
def scratchBase : Nat := 0x010000000000

/-- The first site aperture address (R197). -/
def siteBase : Nat := 0x400000000000

/-- The first address of the outbound aperture (R299). -/
def hostBase : Nat := 0x800000000000

/-- Bytes of one site aperture (R197). -/
def siteSpan : Nat := 0x040000000000

/-- The first address beyond the scratch windows of the enabled logical tiles (R197, R431). -/
def State.scratchTop (s : State) : Nat := scratchBase + s.glb.tileCount * 2 ^ 20

/-- A site is dark while it is EMPTY or FENCED (R47). [DEDUCED, log 71] -/
def State.siteDark (s : State) (n : Nat) : Bool := s.rd (Reg.SITE_STATE_state n) == 0 || s.rd (Reg.SITE_STATE_state n) == 6

/-- The site whose aperture holds an address. -/
def siteOf (a : Nat) : Nat := (a - siteBase) / siteSpan

/-- Whether a range lies in addressable memory. -/
def State.inMemory (s : State) (a n : Nat) : Bool := decide (a + n ≤ s.memTop)

/-- Whether a range lies in the scratch windows of the enabled logical tiles. -/
def State.inScratch (s : State) (a n : Nat) : Bool := decide (scratchBase ≤ a) && decide (a + n ≤ s.scratchTop)

/-- Whether a range lies in one site aperture. -/
def inAperture (a n : Nat) : Bool :=
  decide (siteBase ≤ a) && decide (a + n ≤ siteBase + 8 * siteSpan) && siteOf a == siteOf (a + n - 1)

/-- Whether a range lies in the outbound aperture. -/
def inOutbound (a n : Nat) : Bool := decide (hostBase ≤ a) && decide (a + n ≤ 2 ^ 48)

/-- Whether a physical range is one that R213 permits. -/
def State.physicalOk (s : State) (a n : Nat) : Bool :=
  s.inMemory a n || s.inScratch a n || (inAperture a n && !s.siteDark (siteOf a)) || inOutbound a n

/-! ### Segments (R195, R197, R198) -/

/-- Whether a committed segment holds an address (R195). -/
def State.segHolds (s : State) (c k va : Nat) : Bool :=
  s.on (Reg.SEG_ATTR_valid c k) && decide (s.rd (Reg.SEG_BASE_base c k) ≤ va) && decide (va < s.rd (Reg.SEG_LIMIT_limit c k))

/-- The segment of a context that holds an address (R195). -/
def State.findSeg (s : State) (c va : Nat) : Option Nat := (List.range 16).find? (fun k => s.segHolds c k va)

/-- Whether a segment permits an access (R198). -/
def State.segPermits (s : State) (c k : Nat) : Acc → Bool
  | .read => s.on (Reg.SEG_ATTR_read c k)
  | .write => s.on (Reg.SEG_ATTR_write c k)
  | .atomic => s.on (Reg.SEG_ATTR_atomic c k) && s.on (Reg.SEG_ATTR_read c k) && s.on (Reg.SEG_ATTR_write c k)

/-- The generation of a segment (R204). -/
def State.genOf (s : State) (c k : Nat) : Nat := s.rd (Reg.SEG_ATTR_generation c k)

/-- A segment's generation raised by one, modulo 2^16 (R204). -/
def State.bumpGen (s : State) (c k : Nat) : State := s.wr (Reg.SEG_ATTR_generation c k) (s.genOf c k + 1)

/-- A key slot that holds a key, or the clear host slot, which needs none (R214, R442). -/
def State.slotFilled (s : State) (slot : Nat) : Bool := slot == 0 || bit (s.reg (Reg.SEC_SLOT slot)) 6

/-- The target of an address at a hub physical address of a LOCAL segment. -/
def localTarget (a : Nat) (coherent : Bool) : Target := if scratchBase ≤ a then .scratch a else .mem a coherent

/-- What a translation gives: the target with the segment and its generation and the bytes left in the segment, or a
fault of R210. -/
inductive Xl where
  | ok (t : Target) (seg : Option (Nat × Nat)) (left : Nat)
  | fault (kind : Nat) (seg : Option Nat)
  deriving DecidableEq, Repr

/-- Translation of a virtual address in a context (R195, R197, R198, R201, R210, R214). -/
def State.translate (s : State) (c va : Nat) (a : Acc) : Xl :=
  if !s.on (Reg.XLAT_CTX_enable c) then .fault 3 (s.findSeg c va)
  else match s.findSeg c va with
    | none => .fault 1 none
    | some k =>
      let off := va - s.rd (Reg.SEG_BASE_base c k)
      let addr := s.rd (Reg.SEG_TARGET_target_addr c k) + off
      let slot := s.rd (Reg.SEG_ATTR_key_slot c k)
      let left := s.rd (Reg.SEG_LIMIT_limit c k) - va
      let held := some (k, s.genOf c k)
      if !s.segPermits c k a then .fault 2 (some k)
      else match s.rd (Reg.SEG_ATTR_kind c k) with
        | 0 => .ok (localTarget addr (s.on (Reg.SEG_ATTR_coherent c k))) held left
        | 1 => if s.slotFilled slot then .ok (.host addr slot) held left else .fault 4 (some k)
        | 2 => .ok (.site addr) held left
        | _ => if s.slotFilled slot then .ok (.peer (s.rd (Reg.SEG_TARGET_device_id c k)) addr slot) held left else .fault 4 (some k)

/-- The target of a physical address of context 0 (R213); `n` is the whole length its field names (R216). -/
def State.physical (s : State) (a n : Nat) : Xl :=
  if !s.physicalOk a n then .fault 5 none
  else if hostBase ≤ a then .ok (.host a (s.rd (Reg.XLAT_CTX_default_key 0))) none n
  else if siteBase ≤ a then .ok (.site a) none n
  else .ok (localTarget a false) none n

/-! ### Segment faults (R210, R211, R516) -/

/-- An agent's class code, number and descriptor sequence (XLAT_FAULT_AGENT). -/
structure FaultAgent where
  cls : Nat
  unit : Nat
  seq : Nat
  agent : Agent
  deriving DecidableEq, Repr

/-- Whether a fault kind is one that DUTY_MODE bit 1 hands to the driver (R210). [DEDUCED, log 70] -/
def assistable (kind : Nat) : Bool := kind == 1 || kind == 2 || kind == 4

/-- The open record whose key is a context, a segment or its absence, and a kind (R211). -/
def State.faultRecord (s : State) (c : Nat) (seg : Option Nat) (kind : Nat) : Option Nat :=
  (List.range 64).find? (fun r => s.rd (Reg.XLAT_FAULT_INFO_state r) == 1 && s.rd (Reg.XLAT_FAULT_INFO_ctx r) == c &&
    s.rd (Reg.XLAT_FAULT_INFO_kind r) == kind && s.on (Reg.XLAT_FAULT_INFO_no_segment r) == seg.isNone &&
    (seg.isNone || s.rd (Reg.XLAT_FAULT_INFO_segment r) == seg.getD 0))

/-- A kind 0x12 event (R516). -/
def State.segFaultEvent (s : State) (g : FaultAgent) (c va kind : Nat) (seg : Option Nat) (a : Acc) (full : Bool) : State :=
  s.post { Event.make blkXlat 0x12 0 g.unit (va % 2 ^ 56 + kind * 2 ^ 56 + a.code * 2 ^ 59 + g.cls * 2 ^ 61) with
    ctx := some c, opOnly := c == 0, extra := seg.getD 0 + ofBool seg.isNone * 16 + ofBool full * 32 }

/-- An agent paused under a record. -/
def State.joinRecord (s : State) (r : Nat) (g : FaultAgent) : State :=
  let x := s.xlat
  ({ s with xlat := { x with joined := x.joined.put r (x.joined.get [] r ++ [g.agent]) } }).wr
    (Reg.XLAT_FAULT_INFO_join_count r) (s.rd (Reg.XLAT_FAULT_INFO_join_count r) + 1)

/-- A segment fault of an agent (R210, R211): whether the agent pauses, with the record opened or joined, or the event of
hardware mode posted. [DEDUCED, log 70] -/
def State.segFault (s : State) (g : FaultAgent) (c va kind : Nat) (seg : Option Nat) (a : Acc) : Option Nat × State :=
  if s.duty 1 && assistable kind then
    match s.faultRecord c seg kind with
    | some r => (some r, s.joinRecord r g)
    | none =>
      match (List.range 64).find? (fun r => s.rd (Reg.XLAT_FAULT_INFO_state r) == 0) with
      | none => (none, (s.wr Reg.XLAT_STATUS_table_full 1).segFaultEvent g c va kind seg a true)
      | some r =>
        let s := s.setReg (Reg.XLAT_FAULT_VA r) va
        let s := s.setReg (Reg.XLAT_FAULT_INFO r) (c + ofBool seg.isNone * 2 ^ 6 + seg.getD 0 * 2 ^ 8 + kind * 2 ^ 12 +
          a.code * 2 ^ 16 + g.cls * 2 ^ 20 + 2 ^ 30 + (match seg with | some k => s.genOf c k | none => 0) * 2 ^ 48)
        let s := s.setReg (Reg.XLAT_FAULT_AGENT r) (g.unit % 2 ^ 16 + g.seq % 2 ^ 32 * 2 ^ 32)
        let s := s.setReg (Reg.XLAT_FAULT_TIME r) s.now
        let s := (s.wr Reg.XLAT_STATUS_open_records (s.rd Reg.XLAT_STATUS_open_records + 1)).joinRecord r g
        let s := if s.on (Reg.XLAT_CTX_fault_irq_en c) then s.msix (s.rd (Reg.XLAT_CTX_fault_vector c)) else s
        (some r, s)
  else (none, s.segFaultEvent g c va kind seg a false)

end Sys2Proof.Machine
end

