-- ==== Sys2Proof/Machine/Runs.lean ====
section
/-! DEFINITION. Rings and issued descriptors as every engine uses them: looking them up, noting an error, deciding a status, halting a ring, and what an agent that ends leaves behind (R207, R220, R231, R233, R236, R238). -/
namespace Sys2Proof.Machine

/-- Completion statuses (R238). -/
def stSuccess : Nat := 0x0000
def stOversub : Nat := 0x0001
def stDeadlineDefault : Nat := 0x0002
def stAborted : Nat := 0x0100
def stMalformed : Nat := 0x0101
def stSegFault : Nat := 0x0102
def stOwnerFault : Nat := 0x0103
def stStaleGen : Nat := 0x0104
def stPositionLimit : Nat := 0x0105
def stKernelTrap : Nat := 0x0106
def stKernelTimeout : Nat := 0x0107
def stCheckMismatch : Nat := 0x0108
def stPoison : Nat := 0x0200
def stTileLost : Nat := 0x0201
def stSiteDark : Nat := 0x0202
def stNocTimeout : Nat := 0x0203
def stHostError : Nat := 0x0204
def stPeerUnreachable : Nat := 0x0205
def stMemberLost : Nat := 0x0206
def stCollTimeout : Nat := 0x0207
def stEngineLost : Nat := 0x0208

/-- Ring states (R220). -/
def ringDisabled : Nat := 0
def ringActive : Nat := 1
def ringPaused : Nat := 2
def ringHalted : Nat := 3

/-- Engine classes of QM_RING_CFG. -/
def clsMover : Nat := 0
def clsCompute : Nat := 1
def clsColl : Nat := 2
def clsStream : Nat := 3
def clsCrc : Nat := 4

/-- A ring outside its registers. -/
def State.ring (s : State) (r : Nat) : RingSt := s.rings.get RingSt.empty r

/-- The state with a ring replaced. -/
def State.setRing (s : State) (r : Nat) (g : RingSt) : State := { s with rings := s.rings.put r g }

/-! ### Sequence numbers, slots and idleness (R218, R223, R237, R242) -/

/-- Slots of a ring. -/
def State.slots (s : State) (r : Nat) : Nat := 2 ^ s.rd (Reg.QM_RING_CFG_size_log2 r)

/-- The context of a ring. -/
def State.ringCtx (s : State) (r : Nat) : Nat := s.rd (Reg.QM_RING_CFG_ctx r)

/-- The class of a ring. -/
def State.ringCls (s : State) (r : Nat) : Nat := s.rd (Reg.QM_RING_CFG_class r)

/-- The sequence number just past the last accepted tail. -/
def State.tailSeq (s : State) (r : Nat) : Nat :=
  let n := s.slots r
  let c := s.rd (Reg.QM_RING_SEQ_next_done r)
  (c + (s.rd (Reg.QM_RING_STATE_tail r) + n - c % n) % n) % 2 ^ 32

/-- Whether every descriptor up to the tail has completed. -/
def State.ringEmpty (s : State) (r : Nat) : Bool :=
  s.rd (Reg.QM_RING_SEQ_next_done r) == s.tailSeq r && (s.ring r).issued.isEmpty && (s.ring r).fetched.isEmpty

/-- Whether a ring is at its context's quiescent state (R242). -/
def State.ringIdle (s : State) (r : Nat) : Bool :=
  let st := s.rd (Reg.QM_RING_STATE_state r)
  st == ringDisabled || st == ringHalted || (st == ringActive && s.ringEmpty r)

/-- An LTR message, when the host has enabled them and the latency to report has changed: 32 µs while every ring is idle, and 4 µs
otherwise (R303). PRESUMED: the standard's enable. [PRESUMED, log 91] -/
def State.ltrCheck (s : State) : State :=
  if bit (s.host.cfgSpace.get 0 0x088).toNat 10 && s.on Reg.HOST_STATUS_link_up && s.rd Reg.HOST_STATUS_dstate == 0 then
    let us := if s.rings.all (fun p => s.ringIdle p.1) then 32 else 4
    if s.host.ltr = us then s else ({ s with host := { s.host with ltr := us } }).send (.ltr us)
  else s

/-- The issued descriptor of a ring with a sequence number. -/
def State.runOf (s : State) (r seq : Nat) : Option Run := (s.ring r).issued.find? (fun d => d.seq == seq)

/-- The issued descriptor of a ring changed. -/
def State.updRun (s : State) (r seq : Nat) (f : Run → Run) : State :=
  s.setRing r { s.ring r with issued := (s.ring r).issued.map (fun (d : Run) => if d.seq = seq then f d else d) }

/-- An error status noted: the first in time is kept (R231, R238). -/
def State.noteErr (s : State) (r seq status : Nat) : State :=
  s.updRun r seq (fun (d : Run) => { d with first := some (d.first.getD status) })

/-- A new issued descriptor, before anything of it has happened. -/
def Run.start (q : QDesc) : Run :=
  { seq := q.seq, bytes := q.bytes, phys := q.phys, held := q.held, subs := q.subs, subHeld := q.subHeld, sub := 0,
    ends := [], pos := 0, allIssued := false, first := none, oversub := false, aux := 0, crcUnit := none, buf := none, placed := false,
    liveTiles := [], errTile := 0, errTiles := 0, tend := 0, status := none, check := 0, info := 0, time := 0 }

/-- The 64 bytes of the descriptor that now runs: the current sub-descriptor of a hamper, or the descriptor itself. -/
def Run.cur (d : Run) : List Byte := if d.subs = [] then d.bytes else (d.subs[d.sub]?).getD []

/-- What translated the current descriptor's addresses. -/
def Run.curHeld (d : Run) : Held := if d.subs = [] then d.held else (d.subHeld[d.sub]?).getD []

/-- The descriptor with what translated its current addresses replaced. -/
def Run.setHeld (d : Run) (h : Held) : Run :=
  if d.subs = [] then { d with held := h } else { d with subHeld := d.subHeld.set d.sub h }

/-- Bits of a descriptor: `off` bytes in, bits [hi:lo] of the 64-bit word there (R7). -/
def descBits (b : List Byte) (off hi lo : Nat) : Nat := bits (leValue ((b.drop off).take 8)) hi lo

/-- The status that ends a descriptor with no error of its own (R193, R238). -/
def Run.calm (d : Run) : Nat := if d.oversub then stOversub else stSuccess

/-- Whether a status halts a ring (R238). -/
def State.halts (s : State) (r status : Nat) : Bool :=
  status == stMalformed || status == stSegFault || status == stOwnerFault || status == stHostError ||
  status == stEngineLost || (s.on (Reg.QM_RING_CFG_halt_on_error r) && decide (0x0100 ≤ status))

/-- QM_RING_FETCH set back to the first descriptor that did not issue, once every issued one has its record (R220). -/
def State.rewind (s : State) (r : Nat) : State :=
  if (s.ring r).issued = [] ∧ (s.ring r).kept = [] then
    s.wr (Reg.QM_RING_FETCH_next_fetch r) (s.rd (Reg.QM_RING_SEQ_next_done r))
  else s

/-! ### What an agent leaves behind (R207, R231, R236) -/

/-- Whether an outstanding request is one to the package's own memory, which waits at the home or in a park buffer. -/
def OutReq.inMemory (o : OutReq) : Bool := match o.tgt with | .mem _ _ => true | _ => false

/-- What agents have begun at the memory system given up: parked reads go, and work at the home ends once its snoops have been answered
(R180, R282). -/
def State.leaveMemory (s : State) (mine : Who → Bool) : State :=
  let stay : List HomeTxn := s.home.txns.filter (fun (t : HomeTxn) => match t.why with | .agent a _ _ => !(mine a && t.got) | _ => true)
  let txns : List HomeTxn := stay.map (fun (t : HomeTxn) =>
    match t.why with | .agent a w l => if mine a then { t with why := .agent (.gone none) w l } else t | _ => t)
  let waiting : List HomeFor := s.home.waiting.filter (fun w => match w with | .agent a _ _ => !mine a | _ => true)
  { s with
    hbm := { s.hbm with engPark := s.hbm.engPark.filter (fun p => !mine p.1) }
    acc := { s.acc with outq := s.acc.outq.filter (fun (o : OutReq) => !(mine o.who && o.inMemory)) }
    home := { s.home with waiting := waiting, txns := txns } }

/-- Agents gone from their requests: an unanswered one stays outstanding until it has drained (R207), for the descriptor whose record waits for its
writes (R236), if there is one; nobody takes its answer. -/
def State.orphan (s : State) (mine : Who → Bool) (of_ : Option (Nat × Nat)) : State :=
  let s := s.leaveMemory mine
  let stay : List OutReq := s.acc.outq.filter (fun (o : OutReq) => !(mine o.who && o.ans.isSome))
  { s with acc := { s.acc with outq := stay.map (fun (o : OutReq) => if mine o.who then { o with who := .gone of_ } else o) } }

/-- Whether a write of a descriptor has not drained: its engine's own or one that a stopped tile or slot has left (R236). -/
def State.writing (s : State) (r seq : Nat) : Bool :=
  s.acc.outq.any (fun o => o.write && (o.who == .run r seq || o.who == .gone (some (r, seq))))

/-- A run gone from the check-value units: one that it holds is free, and it waits for none (R228, R248). -/
def State.leaveUnits (s : State) (r seq : Nat) : State :=
  s.eng.crc.foldl (fun (s : State) (p : Nat × CrcSt) =>
    let c : CrcSt := { holder := if p.2.holder = some (r, seq) then none else p.2.holder, waiting := p.2.waiting.filter (fun w => w != (r, seq)) }
    let s := { s with eng := { s.eng with crc := s.eng.crc.put p.1 c } }
    if p.2.holder = some (r, seq) then s.wr (Reg.CRC_CTL_busy p.1) 0 else s) s

/-- A ring halts: it drops its fetched descriptors, and the first halt's cause is kept (R209, R220). An issued descriptor that waits under a fault
record goes on waiting. [DEDUCED, log 78] -/
def State.haltRing (s : State) (r cause : Nat) : State :=
  if s.rd (Reg.QM_RING_STATE_state r) = ringHalted ∨ s.rd (Reg.QM_RING_STATE_state r) = ringDisabled then s
  else
    let s := (s.wr (Reg.QM_RING_STATE_state r) ringHalted).wr (Reg.QM_RING_STATE_cause r) cause
    let s := (s.wr Reg.QM_STATUS_halted (s.rd Reg.QM_STATUS_halted + 1)).wr Reg.QM_STATUS_last_halted r
    let s := s.orphan (· == .fetch r) none
    let s := s.setRing r { s.ring r with fetched := [], paused := (s.ring r).paused.filter (fun p => (s.runOf r p.seq).isSome) }
    ((s.rewind r).ltrCheck).irqCause 1

/-- A ring's HALTED count lowered as it leaves the state. -/
def State.unhalt (s : State) (r state : Nat) : State :=
  let s := if s.rd (Reg.QM_RING_STATE_state r) = ringHalted then
    s.wr Reg.QM_STATUS_halted (s.rd Reg.QM_STATUS_halted - 1) else s
  (s.wr (Reg.QM_RING_STATE_state r) state).ltrCheck

/-- Whether a descriptor is a HAMPER or a DISPATCH. -/
def opIsCompute (b : List Byte) : Bool := descBits b 0 7 0 == 1 || descBits b 0 7 0 == 0x20

/-- The end of one shard's positions (R129). -/
def GenEntry.limit (g : GenEntry) : Nat := if g.shardIndex + 1 = g.shardCount then 2 ^ 24 else (g.shardIndex + 1) * g.shardLen

/-- The word of a compute descriptor that names a generation entry (R229, R232). -/
def genWord (b : List Byte) : Nat := descBits b 0x20 63 0
def genNamed (w : Nat) : Bool := bit w 40
def genCtx (w : Nat) : Nat := bits w 15 0
def genAdvance (w : Nat) : Nat := bits w 39 16

/-- A generation entry moved on by a successful completion with a non-zero advance (R129). -/
def State.advanceGen (s : State) (r status : Nat) (b : List Byte) : State :=
  let w := genWord b
  if s.rd (Reg.QM_RING_CFG_class r) ≠ clsCompute ∨ (opIsCompute b = false) ∨ genNamed w = false ∨ genAdvance w = 0 ∨ 0x0100 ≤ status then s
  else match s.gens.find? (fun p => p.1 == genCtx w) with
    | none => s
    | some (k, g) =>
      let pos := g.pos + genAdvance w
      let g := { g with advances := (g.advances + 1) % 2 ^ 32, full := g.full || decide (2 ^ 24 ≤ pos), pos := pos % 2 ^ 24 }
      { s with gens := s.gens.put k g }

/-- The end of what a descriptor or sub-descriptor ran (R233, R236, R238): the sub's end is kept, and the whole descriptor's
status is decided when it is no hamper; it leaves memory and its check-value unit. A lost engine ends the sub-descriptor
that would run next, too. -/
def State.finish (s : State) (r seq status : Nat) (check : Option Nat) (info : Nat) : State :=
  match s.runOf r seq with
  | none => s
  | some d =>
    if d.status.isSome then s
    else if d.subs = [] then
      let s := (s.leaveMemory (· == .run r seq)).leaveUnits r seq
      let s := s.updRun r seq (fun (d : Run) =>
        { d with status := some status, check := check.getD 0, info := info, time := s.now, allIssued := true })
      s.advanceGen r status d.bytes
    else if d.ends.length = d.sub ∨ (status = stEngineLost ∧ d.ends.length < d.subs.length) then
      ((s.leaveMemory (· == .run r seq)).leaveUnits r seq).updRun r seq (fun (d : Run) =>
        { d with ends := d.ends ++ [({ status := status, check := check, info := info } : SubEnd)], first := none,
                 crcUnit := none, buf := none })
    else s

/-- The first error noted, or the calm status of a descriptor. -/
def Run.outcome (d : Run) : Nat := d.first.getD d.calm

end Sys2Proof.Machine
end

