-- ==== Sys2Proof/Machine/TileOps.lean ====
section
/-! DEFINITION. Tiles as others see them: the logical-to-physical map, scratch with its checks, wake requests, loss of a tile and the end of its part of a dispatch (R55, R59, R60, R75, R76, R77, R149, R154, R231). -/
namespace Sys2Proof.Machine

/-- Bytes of a tile's scratch (R55). -/
def scratchBytes : Nat := 0xA0000

/-- A logical tile outside its registers. -/
def State.tile (s : State) (t : Nat) : TileSt := s.tiles.get TileSt.idle t

/-- The state with a logical tile replaced. -/
def State.setTile (s : State) (t : Nat) (x : TileSt) : State := { s with tiles := s.tiles.put t x }

/-- The physical cluster of a logical tile, if the cluster map has an entry (R149). -/
def State.clusterOf (s : State) (t : Nat) : Option Nat :=
  if t < s.glb.tileCount then s.noc.clusterMap[t / 16]? else none

/-- The physical slot of a logical tile as cluster * 18 + slot (R149). -/
def State.slotOf (s : State) (t : Nat) : Option Nat :=
  (s.clusterOf t).map (fun c => c * 18 + s.noc.slotMap.get (t % 16) t)

/-- A physical slot. -/
def State.slot (s : State) (p : Nat) : SlotSt := s.scr.slots.get SlotSt.good p

/-- The state with a physical slot replaced. -/
def State.setSlot (s : State) (p : Nat) (x : SlotSt) : State := { s with scr := { s.scr with slots := s.scr.slots.put p x } }

/-- Whether a logical tile is bound to a fenced slot. -/
def State.tileFenced (s : State) (t : Nat) : Bool :=
  match s.slotOf t with
  | some p => (s.slot p).fenced
  | none => false

/-- Whether a logical tile has no map entry (R149). -/
def State.tileUnmapped (s : State) (t : Nat) : Bool := (s.slotOf t).isNone

/-- The physical quad of a logical tile (R134). -/
def State.quadOf (s : State) (t : Nat) : Nat := (s.clusterOf t).getD 0 / 4

/-- Whether a physical quad's clock runs (R398). -/
def State.quadRuns (s : State) (q : Nat) : Bool := bit (s.reg Reg.PWR_QUADS) q

/-- A wake request for a physical quad: requests merge, and a running or fenced quad needs none (R399). None starts after THERMTRIP_N (R411). -/
def State.wakeQuad (s : State) (q : Nat) : State :=
  if s.boot.trip || s.quadRuns q || s.pwr.waking.contains q || s.pwr.quadFenced.contains q then s
  else { s with pwr := { s.pwr with waking := s.pwr.waking ++ [q] } }

/-- TILE_STATUS's state field (R78): 0 IDLE, 1 RUNNING, 2 PAUSED, 3 FENCED. -/
def State.tileState (s : State) (t v : Nat) : State := s.wr (Reg.TILE_STATUS_state (t / 16) (t % 16)) v

/-- The logical tile bound to a physical slot, if one is. -/
def State.tileOfSlot (s : State) (p : Nat) : Option Nat :=
  (List.range s.glb.tileCount).find? (fun t => s.slotOf t == some p)

/-! ### A tile's part of a dispatch (R231) -/

/-- A tile stopped: its core reset, its tile DMA commands discarded, its array cleared (R77, R231). Its transfers that have issued stay outstanding
until they drain (R207, R230). [DEDUCED, log 51] -/
def State.stopTile (s : State) (t : Nat) : State :=
  let x := s.tile t
  let s := s.orphan (fun w => match w with | .tile u _ => u == t | _ => false) (x.run.map (fun d => (d.ring, d.seq)))
  let s := s.setTile t { x with run := none, wait := .none, tdma := [], ibuf := [], unsettled := [], k0 := Bank.empty, k1 := Bank.empty,
                                comb := [], b0 := none, b1 := none }
  let s := match s.slotOf t with
    | some p => if (s.slot p).resv.isSome then s.setSlot p { s.slot p with resv := none } else s
    | none => s
  if s.tileFenced t then s else s.tileState t 0

/-- Whether a tile waits in PAUSED. -/
def State.tilePaused (s : State) (t : Nat) : Bool :=
  match (s.tile t).wait with | .record _ _ _ _ => true | _ => false

/-- Info field of compute dispatch (R236). -/
def Run.tileInfo (d : Run) : Nat := d.errTile * 2 ^ 32 + min d.errTiles 65535 * 2 ^ 16 + d.tend

/-- One tile of a dispatch has ended: with a status below 0x0100 normally, else with an error that stops the dispatch's
other tiles that run, and drops it from the queues where it has not started. A paused tile has not ended (R231). [DEDUCED, log 51] -/
def State.tileEnded (s : State) (t ring seq status tend : Nat) : State :=
  match s.runOf ring seq with
  | none => s
  | some d =>
    let bad := decide (0x0100 ≤ status)
    let others := d.liveTiles.filter (· != t)
    let s := s.updRun ring seq (fun (d : Run) =>
      let d := { d with liveTiles := others }
      if bad then
        if d.first.isSome then { d with errTiles := d.errTiles + 1 }
        else { d with first := some status, errTile := t, errTiles := d.errTiles + 1, tend := tend }
      else if d.first.isNone ∧ tend ≠ 0 ∧ (d.tend = 0 ∨ t < d.errTile) then { d with errTile := t, tend := tend }
      else d)
    let s := if bad then
        (others.filter (fun u => !s.tilePaused u)).foldl (fun (s : State) u =>
          let x := s.tile u
          let s := s.setTile u { x with queue := x.queue.filter (fun (q : TileDisp) => !(q.ring == ring && q.seq == seq)) }
          let s := match x.run with
            | some q => if q.ring = ring ∧ q.seq = seq then s.stopTile u else s
            | none => s
          s.updRun ring seq (fun (d : Run) => { d with liveTiles := d.liveTiles.filter (· != u) })) s
      else s
    match s.runOf ring seq with
    | none => s
    | some d => if d.liveTiles = [] then s.finish ring seq d.outcome none d.tileInfo else s

/-- The key of a scratch byte. -/
def scrKey (p a : Nat) : Nat := p * 2 ^ 20 + a

/-- A range of scratch whose contents become undefined. -/
def State.scrOpen (s : State) (p a n : Nat) : State :=
  let k := min n (scratchBytes - a)
  let bs : List Byte := (List.range k).map (fun i => BitVec.ofNat 8 (Config.freeValue (s.free + i)).toNat)
  ({ s with scr := { s.scr with mem := Memory.writeBytes s.scr.mem (scrKey p a) bs } }).useFrees k

/-- A kernel that ends by a trap, its time limit, poison or the loss of its tile leaves the escalation headers that it drained under,
with their maps and areas, undefined (R97, R104). [DESIGN CHOICE, log 177] -/
def State.openEscs (s : State) (t : Nat) : State :=
  match s.slotOf t with
  | none => s
  | some p => (s.tile t).escs.foldl (fun (s : State) a =>
      let word (i n : Nat) : Nat := leValue ((List.range n).map (fun j => Memory.read s.scr.mem (scrKey p (a + i + j))))
      let w0 := word 0 8
      let w1 := word 8 8
      ((s.scrOpen p (bits w0 39 20) (16 * bits w1 15 0)).scrOpen p (bits w0 59 40) (64 * bits w1 31 16)).scrOpen p a 32) s

/-- The dispatch that a tile runs ends on it. -/
def State.endKernel (s : State) (t status tend : Nat) : State :=
  match (s.tile t).run with
  | none => s
  | some q =>
    let s := if status = stKernelTrap ∨ status = stKernelTimeout ∨ status = stPoison ∨ status = stTileLost then s.openEscs t else s
    (s.stopTile t).tileEnded t q.ring q.seq status tend

/-! ### Loss of a tile (R75, R76) -/

/-- The lowest healthy slot of a cluster that carries no logical tile (R430). -/
def State.spareSlot (s : State) (c : Nat) : Option Nat :=
  ((List.range 18).map (· + c * 18)).find? (fun p => !(s.slot p).fenced && !(s.slot p).failed && (s.tileOfSlot p).isNone)

/-- The number of healthy slots of a cluster that carry no logical tile. -/
def State.spareCount (s : State) (c : Nat) : Nat :=
  (((List.range 18).map (· + c * 18)).filter (fun p => !(s.slot p).fenced && !(s.slot p).failed && (s.tileOfSlot p).isNone)).length

/-- GLB_SUBST_PEND's count of tiles that await a spare which their cluster still has (R29). -/
def State.showTiles (s : State) : State := s.wr Reg.GLB_SUBST_PEND_tiles s.glb.rebindPending.length

/-- Every dispatch queued on a tile ends with TILE_LOST without running (R76, R229). -/
def State.loseQueue (s : State) (t : Nat) : State :=
  let q := (s.tile t).queue
  let s := s.setTile t { s.tile t with queue := [] }
  q.foldl (fun (s : State) (d : TileDisp) => s.tileEnded t d.ring d.seq stTileLost 0) s

/-- A logical tile's slot fenced (R75, R76): its dispatches end with TILE_LOST, the spare is awaited or reported missing. -/
def State.fenceTile (s : State) (t : Nat) : State :=
  match s.clusterOf t, s.slotOf t with
  | some c, some p =>
    if (s.slot p).fenced then s
    else
      let l := t / 16
      let s := s.setSlot p { s.slot p with fenced := true }
      let s := (s.tileState t 3).wr (Reg.CL_SLOTS_failed l) (s.rd (Reg.CL_SLOTS_failed l) ||| 2 ^ (p % 18))
      let s := { s with glb := { s.glb with worn := true } }
      let spare := (s.spareSlot c).isSome
      let s := (s.wr (Reg.TILE_STATUS_awaiting_spare l (t % 16)) 1).wr (Reg.TILE_STATUS_no_spare l (t % 16)) (ofBool !spare)
      let s := if spare then { s with glb := { s.glb with rebindPending := s.glb.rebindPending ++ [t] } } else s
      ((s.showTiles).endKernel t stTileLost 0).loseQueue t
  | _, _ => s

/-- A tile failure with its cause (R75, TILE_FAULT), and the slot's record in the fence list (R422). -/
def State.failTile (s : State) (t cause : Nat) : State :=
  match s.slotOf t with
  | none => s
  | some p =>
    if (s.slot p).fenced then s
    else
      let s := s.setSlot p { s.slot p with fault := putBits (s.slot p).fault 7 0 cause, failed := true }
      ((s.fenceTile t).mramWrite (.fence p)).event blkTile 6 3 t cause

/-! ### Scratch (R55, R58, R59, R60) -/

/-- The 8-byte words that a range of scratch touches, as keys. -/
def scrWords (p a n : Nat) : List Nat :=
  if n = 0 then [] else (List.range ((a + n - 1) / 8 - a / 8 + 1)).map (fun i => p * 2 ^ 17 + a / 8 + i)

/-- Bytes of scratch with their poison marks. -/
def State.scrBytes (s : State) (p a n : Nat) : List PByte :=
  (List.range n).map (fun i => (Memory.read s.scr.mem (scrKey p (a + i)), s.scr.poison.contains (p * 2 ^ 17 + (a + i) / 8)))

/-- Bytes written to scratch: a word covered whole loses its poison, and every word that a poisoned byte touches is written
poisoned; a reservation of a word written is lost (R52, R59, R460, R461). -/
def State.scrWrite (s : State) (p a : Nat) (bs : List PByte) : State :=
  let n := bs.length
  let whole := (scrWords p a n).filter (fun w => decide (p * 2 ^ 20 + a ≤ 8 * w) && decide (8 * w + 8 ≤ p * 2 ^ 20 + a + n))
  let bad := (bs.zipIdx.filter (fun b => b.1.2)).map (fun b => p * 2 ^ 17 + (a + b.2) / 8)
  let c := s.scr
  let kept := c.poison.filter (fun w => !whole.contains w)
  let s := { s with scr := { c with
    mem := Memory.writeBytes c.mem (scrKey p a) (bs.map Prod.fst)
    poison := bad.foldl (fun (l : List Nat) w => insertNat w l) kept } }
  match (s.slot p).resv with
  | some w => if (scrWords p a n).contains (p * 2 ^ 17 + w) then s.setSlot p { s.slot p with resv := none } else s
  | none => s

/-- The hub physical address of a scratch byte of a logical tile (R60). -/
def windowAddr (t a : Nat) : Nat := scratchBase + t * 2 ^ 20 + a

/-- What the check of a scratch read finds, with an armed injection of kind 1 or 2 for a word of the range (R478). -/
def State.scrFound (s : State) (t a n : Nat) (ecc : Ecc) : Ecc × Nat × State :=
  match s.evt.inject with
  | some (k, w) =>
    if (k = 1 ∨ k = 2) ∧ windowAddr t a / 8 ≤ w / 8 ∧ w / 8 ≤ windowAddr t (a + n - 1) / 8 ∧ 0 < n then
      (if k = 1 then .corrected else .uncorrectable, w / 8 * 8 - windowAddr t 0,
        { s with evt := { s.evt with inject := none } }.wr Reg.RAS_INJECT_STATUS_result 2)
    else (ecc, a / 8 * 8, s)
  | none => (ecc, a / 8 * 8, s)

/-- A corrected scratch error counted (R59). -/
def State.scrCorrected (s : State) (t p : Nat) : State :=
  let v := (s.slot p).corrected
  let n := satAdd 32 v 1
  let s := (s.setSlot p { s.slot p with corrected := n }).sat Reg.RAS_CNT_CORR_count 1
  if n ≠ v ∧ (List.range 23).any (fun k => n == 1024 * 2 ^ k) = true then s.event blkTile 4 1 t n else s

/-- A new uncorrectable scratch error at a word (R59): poison, TILE_FAULT, the counters, and a tile failure when its line had one
before. -/
def State.scrLost (s : State) (t p a : Nat) : State :=
  let line := a / 2048
  let x := s.slot p
  let second := x.badLines.contains line
  let s := s.setSlot p { x with fault := putBits (putBits x.fault 24 16 line) 7 0 3, faultPc := a, uncorrected := satAdd 32 x.uncorrected 1,
                                badLines := insertNat line x.badLines }
  let s := { s with scr := { s.scr with poison := insertNat (p * 2 ^ 17 + a / 8) s.scr.poison } }
  if second then s.failTile t 0x12 else s.event blkTile 5 2 t (windowAddr t a)

/-- A checked read of a tile's scratch by any agent (R59): errors found are handled, then the bytes with their marks. -/
def State.scrRead (s : State) (t a n : Nat) (ecc : Ecc) : List PByte × State :=
  match s.slotOf t with
  | none => ([], s)
  | some p =>
    let (found, at_, s) := s.scrFound t a n ecc
    let s := match found with
      | .clean => s
      | .corrected => s.scrCorrected t p
      | .uncorrectable => if s.scr.poison.contains (p * 2 ^ 17 + at_ / 8) then s else s.scrLost t p at_
    (s.scrBytes p a n, s)

/-- The words of scratch that a range covers only in part. -/
def scrPartial (a n : Nat) : List Nat :=
  if n = 0 then []
  else (if a % 8 ≠ 0 then [a / 8] else []) ++ (if (a + n) % 8 ≠ 0 ∧ (a % 8 = 0 ∨ (a + n) / 8 ≠ a / 8) then [(a + n) / 8] else [])

/-- A write to a logical tile's scratch: a word that it covers in part is read first, and an error found there is handled as on any
read (R57, R59, R478). [DEDUCED, log 42] -/
def State.scrStore (s : State) (t a : Nat) (bs : List PByte) : State :=
  match s.slotOf t with
  | none => s
  | some p => ((scrPartial a bs.length).foldl (fun (s : State) w => (s.scrRead t (8 * w) 8 .clean).2) s).scrWrite p a bs

/-- The runs of enabled bytes of a write with a byte mask, each with its offset. -/
def enabledRuns (bs : List (Option Byte)) : List (Nat × List Byte) :=
  (bs.zipIdx.foldl (fun (acc : List (Nat × List Byte)) (p : Option Byte × Nat) =>
    match p.1 with
    | none => acc
    | some b => match acc with
      | (o, l) :: rest => if o + l.length = p.2 then (o, l ++ [b]) :: rest else (p.2, [b]) :: acc
      | [] => [(p.2, [b])]) []).reverse

end Sys2Proof.Machine
end

