-- ==== Sys2Proof/Machine/Express.lean ====
section
/-! DEFINITION. The express network: its stops, spines and crossbars, and the route between two stops (R137, R138, R144, R151). -/
namespace Sys2Proof.Machine

/-! ### Stops, spines and crossbars (R137) -/

/-- A place on a spine: a controller's stop, or a crossbar: 0 XN, 1 XM, 2 XS. -/
inductive XPlace where
  | ctl (h : Nat)
  | bar (k : Nat)
  deriving DecidableEq, Repr

/-- The places of the west or the east spine, north to south. -/
def spine (east : Bool) : List XPlace :=
  let h := if east then 8 else 0
  [.bar 0, .ctl h, .ctl (h + 1), .ctl (h + 2), .ctl (h + 3), .bar 1, .ctl (h + 4), .ctl (h + 5), .ctl (h + 6), .ctl (h + 7), .bar 2]

/-- Where a stop is attached: its own spine position, or a crossbar. -/
def stopPlace (stop : Nat) : XPlace :=
  if stop < 16 then .ctl stop
  else if [16, 17, 20, 21, 24, 45, 46].contains stop then .bar 0
  else if [18, 19, 22, 23, 47, 48, 53].contains stop then .bar 2
  else .bar 1

/-- The stops of the endpoints. -/
def siteStop (n : Nat) : Nat := 16 + n
def hostStop : Nat := 24
def fabStop (p : Nat) : Nat := 25 + p
def collStop (e : Nat) : Nat := 41 + e / 4
def moverStop (m : Nat) : Nat := 45 + m / 8
def mgmtStop : Nat := 53

/-- Spine segments are numbered from the north, 0 to 9 on the west spine and 10 to 19 on the east one: the two places that a segment joins.
[DESIGN CHOICE, log 55] [DESIGN CHOICE, log 55] -/
def segEnds (k : Nat) : XPlace × XPlace :=
  let sp := spine (decide (10 ≤ k))
  ((sp[k % 10]?).getD (.bar 0), (sp[k % 10 + 1]?).getD (.bar 2))

/-! ### Routes (R138) -/

/-- An express route: the segments of its first leg, the crossbar at which it crosses between the spines, and the segments of its second leg. The
virtual channel is 0 on the first leg and 1 on the second (R144). -/
structure XRoute where
  first : List Nat
  cross : Option Nat
  second : List Nat
  deriving DecidableEq, Repr

/-- A route that stays where it is: within one crossbar. -/
def XRoute.here : XRoute := { first := [], cross := none, second := [] }

/-- The segments between two positions of a spine, in the order of travel. -/
def spineLeg (east : Bool) (a b : Nat) : List Nat :=
  let lo := (if east then 10 else 0) + min a b
  let segs := (List.range (max a b - min a b)).map (· + lo)
  if a ≤ b then segs else segs.reverse

/-- Whether a stop starts on the east spine: its own one, or by its number's parity on a crossbar. -/
def startsEast (stop : Nat) : Bool :=
  match stopPlace stop with
  | .ctl h => decide (8 ≤ h)
  | .bar _ => stop % 2 == 1

/-- The crossbar nearest to a position of a spine, XM on a tie; crossbar k stands at position 5k. -/
def nearestBar (p : Nat) : Nat :=
  let d (k : Nat) : Nat := (p - 5 * k) + (5 * k - p)
  if d 1 ≤ d 0 ∧ d 1 ≤ d 2 then 1 else if d 0 < d 2 then 0 else 2

/-- The express route between two stops (R138). -/
def expressRoute (src dst : Nat) : XRoute :=
  let a := stopPlace src
  let b := stopPlace dst
  let e := startsEast src
  if a = b then XRoute.here
  else match b with
    | .bar _ => { first := spineLeg e ((spine e).idxOf a) ((spine e).idxOf b), cross := none, second := [] }
    | .ctl h =>
      let f := decide (8 ≤ h)
      let q := (spine f).idxOf b
      if e = f then { first := spineLeg e ((spine e).idxOf a) q, cross := none, second := [] }
      else { first := spineLeg e ((spine e).idxOf a) (5 * nearestBar q), cross := some (nearestBar q), second := spineLeg f (5 * nearestBar q) q }

/-- Whether the express route between two stops passes no segment that has lost both of its links (R151, R463). -/
def State.expressOpen (s : State) (src dst : Nat) : Bool :=
  s.noc.segLost.all (fun p => decide (p.2 < 2)) ||
    ((expressRoute src dst).first ++ (expressRoute src dst).second).all (fun k => decide (s.noc.segLost.get 0 k < 2))

/-! ### Whose stop (R137) -/

/-- The stop of the fabric port that carries a connection. [DESIGN CHOICE, log 55] -/
def State.connStop (s : State) (e : Nat) : Nat := fabStop ((s.nextPort (s.connRd e Reg.FAB_CONN_DATA_peer) (Config.flowHash e)).getD 0)

/-- The stop that a memory request comes from. -/
def State.reqStop (s : State) (r : MemReq) : Nat :=
  match r.port with
  | .host => hostStop
  | .site n => siteStop n
  | .fabric e => s.connStop e
  | .engine _ => mgmtStop
  | .part id _ => match s.asmOf id with
    | some x => (match x.who with | .bar4 _ => hostStop | .fabric e _ _ _ => s.connStop e | .site n _ => siteStop n)
    | none => hostStop

/-- The stop of an engine; the queue manager, the check units and the tiles have none. -/
def State.whoStop (s : State) (who : Who) : Option Nat :=
  match who with
  | .run r _ =>
    let k := s.rd (Reg.QM_RING_CFG_class r)
    let e := s.rd (Reg.QM_RING_CFG_engine r)
    if k = clsMover then some (moverStop e) else if k = clsColl then some (collStop e) else if k = clsStream then some mgmtStop else none
  | .coll e _ => some (collStop e)
  | .site n _ => some (siteStop n)
  | .part id _ => match s.asmOf id with
    | some x => (match x.who with | .bar4 _ => some hostStop | .fabric e _ _ _ => some (s.connStop e) | .site n _ => some (siteStop n))
    | none => none
  | _ => none

/-- The class of a site's port (R183). [DESIGN CHOICE, log 72] -/
def siteClass (n : Nat) : Nat := 36 + n

/-- The regulation class of an engine's requests (R183); the queue manager has none in the table and is taken with MGMT. [DESIGN CHOICE, log 72] -/
def State.whoClass (s : State) (who : Who) : Nat :=
  match who with
  | .run r _ =>
    let k := s.rd (Reg.QM_RING_CFG_class r)
    if k = clsColl then 33 else if k = clsStream then 44 else 32
  | .fetch _ => 45
  | .tile t _ => s.quadOf t
  | .coll _ _ => 33
  | .mirror _ => 33
  | .site n _ => siteClass n
  | .flow _ => 44
  | .gone _ => 45
  | .part id _ => match s.asmOf id with
    | some x => (match x.who with | .bar4 _ => 34 | .fabric _ _ _ _ => 35 | .site n _ => siteClass n)
    | none => 34

/-- A request whose packet is lost on its way: its source waits for it until it times out (R152, R153). -/
def State.strand (s : State) (r : MemReq) : State := { s with noc := { s.noc with stranded := s.noc.stranded ++ [r] } }

end Sys2Proof.Machine
end

