-- ==== Sys2Proof/Machine/Hbm.lean ====
section
/-! DEFINITION. Stacked memory: requests, the write-combining buffer, scrub and repair, owner map commands and zeroing (chapter Stacked memory). -/
namespace Sys2Proof.Machine


/-! ### The quarry (R171) -/

/-- The next quarry row of a controller, if it has one left (R157, R171). -/
def State.quarryRow (s : State) (ctl : Nat) : Option Nat :=
  let n := s.hbm.quarryUsed.get 0 ctl
  if n < 8192 then some (385024 + n) else none

/-- The start of a cell's replacement for a context: it takes its controller's next quarry cell, the granule's buffered writes go out, and the
granule's requests wait at the controller (R165, R171 step 3). With no quarry cell left the cell stays marked (R172). -/
def State.startCopy (s : State) (c cell : Nat) : State :=
  let ctl := cell / 2 ^ 19
  match s.quarryRow ctl with
  | none => s
  | some row =>
    let s := match s.granuleOfCell cell with | some g => s.flushRange (g * granuleBytes) granuleBytes | none => s
    { s with hbm := { s.hbm with
      copying := s.hbm.copying ++ [({ cell := cell, row := row, ctx := c } : CellCopy)]
      quarryUsed := s.hbm.quarryUsed.put ctl (s.hbm.quarryUsed.get 0 ctl + 1)
      marked := s.hbm.marked.filter (· != cell) } }.showCells

/-- The end of a cell's replacement: the pair enters the remap table and the store, the counts move and an event is
posted (R171). -/
def State.endCopy (s : State) (x : CellCopy) : State :=
  let ctl := x.cell / 2 ^ 19
  let s := { s with hbm := { s.hbm with
    remap := s.hbm.remap.put x.cell (cellKey ctl x.row)
    copying := s.hbm.copying.filter (· != x) } }
  let s := s.mramWrite (.remap x.cell x.row)
  let s := (s.sat (Reg.HBM_CTL_STATUS_retired ctl) 1).dec (Reg.HBM_CTL_STATUS_quarry_left ctl)
  s.event blkHbm 8 1 ctl (x.cell + x.row * 2 ^ 32)

/-! ### Answers by port (R170, R175, R298) -/

/-- The data of a read delivered. -/
def State.answerBytes (s : State) (r : MemReq) (bs : List Byte) : State :=
  match r.port with
  | .part id i => s.partDone id i (.data (bs.map (fun b => (b, false))))
  | .site n => (s.siteAnswered n r.tag).send (.memData r.tag bs)
  | _ => s.send (.memData r.tag bs)

/-- A write acknowledged; the host's writes are posted. -/
def State.answerAck (s : State) (r : MemReq) : State :=
  match r.port with
  | .part id i => s.partDone id i .done
  | .host => s
  | .site n => (s.siteAnswered n r.tag).send (.memAck r.tag)
  | _ => s.send (.memAck r.tag)

/-- A poisoned answer: all ones to a host read, nothing to a host write, poison elsewhere. -/
def State.answerPoison (s : State) (r : MemReq) : State :=
  match r.port, r.data with
  | .host, none => s.send (.memData r.tag (List.replicate r.len 0xFF))
  | .host, some _ => s
  | .part id i, none => s.partDone id i (.data (List.replicate r.len (0, true)))
  | .part id i, some _ => s.partDone id i (.error 0x0200)
  | .site n, _ => (s.siteAnswered n r.tag).send (.memPoison r.tag)
  | _, _ => s.send (.memPoison r.tag)

/-- A refused answer: all ones to a host read, a host write discarded, an error response elsewhere. -/
def State.answerRefused (s : State) (r : MemReq) : State :=
  match r.port, r.data with
  | .host, none => s.send (.memData r.tag (List.replicate r.len 0xFF))
  | .host, some _ => s
  | .part id i, _ => s.partDone id i (.error 0x0103)
  | .site n, d => s.refuseUncached n r.tag d.isSome
  | _, _ => s.send (.memError r.tag)

/-- The event of an owner map refusal: one for the first of each context in each 1 ms (R175, R514). [DESIGN CHOICE, log 27] -/
def State.ownerEvent (s : State) (o : Origin) (addr : Nat) : State :=
  match o with
  | .firmware => s
  | .ctx c =>
    match s.hbm.refusedAt.find? (fun p => p.1 == c) with
    | some (_, last) =>
      if s.now - last < msUnits then s
      else { s with hbm := { s.hbm with refusedAt := s.hbm.refusedAt.put c s.now } }.post
        { Event.make blkHbm 3 0 c (addr % 2 ^ 48 + 2 ^ 48) with ctx := some c, opOnly := c == 0 }
    | none => { s with hbm := { s.hbm with refusedAt := s.hbm.refusedAt.put c s.now } }.post
        { Event.make blkHbm 3 0 c (addr % 2 ^ 48 + 2 ^ 48) with ctx := some c, opOnly := c == 0 }

/-! ### Bedrock repair's start (R180 steps 1 and 2) -/

/-- Whether bedrock repair runs for a granule. -/
def State.repairOf (s : State) (g : Nat) : Option BrRepair := s.hbm.repairs.find? (fun r => r.granule == g)

/-- HBM_BR_PEND: the lowest poisoned bedrock granule that awaits the driver's block (R182). -/
def State.showBrPend (s : State) : State :=
  let gs := (s.hbm.repairs.filter (fun r => r.assist)).map (fun r => r.granule)
  match gs with
  | [] => s.setReg Reg.HBM_BR_PEND 0
  | g :: t => s.setReg Reg.HBM_BR_PEND (2 ^ 31 + t.foldl min g)

/-- A granule that fails while bedrock is still loading is loaded again: no read is admitted before every granule has passed (R179). [DEDUCED, log 63] -/
def State.reload (s : State) (g : Nat) : State :=
  { s with hbm := { s.hbm with brPassed := s.hbm.brPassed.filter (· != g) } }

/-- Repair of a bedrock granule begins: poisoned, and a fetch from the manager (by a manager, from its deputy) or, in host-assisted
mode, a wait for the driver's block (R180). [DEDUCED, log 63] -/
def State.startRepair (s : State) (g addr : Nat) : State :=
  if s.rd Reg.HBM_BEDROCK_state = 1 then s.reload g
  else match s.repairOf g with
  | some _ => s
  | none =>
    let s := s.setOwn g { s.own g with poisoned := true }
    let ctl := (s.place addr).1
    let s := (s.sat (Reg.HBM_CTL_ERR_uncorrected ctl) 1).event blkHbm 5 2 ctl (addr / 32 * 32)
    let assist := s.duty 6
    let own := s.rd Reg.FAB_GROUP_role == 3
    let stage : BrStage := if assist then .driver else if own then .deputy else .manager
    let rep : BrRepair := { granule := g, ctl := ctl, stage := stage, assist := assist }
    let s := { s with hbm := { s.hbm with repairs := s.hbm.repairs ++ [rep] } }
    let s := if s.rd Reg.HBM_BEDROCK_state < 2 then s else s.wr Reg.HBM_BEDROCK_state 3
    let s := if assist then s else s.send (.brFetch g own)
    s.showBrPend

/-- The reads that a controller's park buffer holds (R180). -/
def State.parkedAt (s : State) (ctl : Nat) : Nat :=
  (s.hbm.parked.filter (fun p => (s.place p.addr).1 == ctl)).length + (s.hbm.engPark.filter (fun p => (s.place p.2).1 == ctl)).length

/-- A read of a poisoned bedrock granule: parked while its repair is young and the controller's buffer of 1,024 has room,
else poison at once (R180). -/
def State.parkRead (s : State) (r : MemReq) (rep : BrRepair) : State :=
  if rep.stage = .failed ∨ (rep.assist = true ∧ rep.stage ≠ .driver) ∨ 1024 ≤ s.parkedAt (s.place r.addr).1 then s.answerPoison r
  else { s with hbm := { s.hbm with parked := s.hbm.parked ++ [r] } }

/-! ### Serving a request -/

/-- Whether an owner map command or a copy holds the requests of a granule (R171, R176). -/
def State.granBlocked (s : State) (g : Nat) : Bool :=
  match s.hbm.gran with
  | some op => op.next == g
  | none => false

/-- Whether a retirement copy holds the requests of a granule (R171). -/
def State.granCopying (s : State) (g : Nat) : Bool := s.hbm.copying.any (fun c => s.granuleOfCell c.cell == some g)

/-- Whether every byte of a range is covered by write-combining entries (R166). -/
def State.wcbCovers (s : State) (a n : Nat) : Bool :=
  (List.range n).all (fun i => s.hbm.wcb.any (fun e => e.line == (a + i) / 64 && e.bytes.any (fun b => b.1 == (a + i) % 64)))

/-- Whether a read of a byte meets poison (R166, R170, R460): the buffer holds it as poisoned, or does not hold it and its sector is marked. -/
def State.bytePoisoned (s : State) (a : Nat) : Bool :=
  match s.wcbOf (a / 64) with
  | some e => if e.bytes.any (fun b => b.1 == a % 64) then e.bad.contains (a % 64) else s.sectorPoisoned (a / 32)
  | none => s.sectorPoisoned (a / 32)

/-- Whether a range holds poison that a read would meet. -/
def State.rangePoisoned (s : State) (a n : Nat) : Bool :=
  (s.hbm.poison != [] || s.hbm.wcb.any (fun e => !e.bad.isEmpty)) && (List.range n).any (fun i => s.bytePoisoned (a + i))

/-- An admitted read served: the check of the stack's data, then poison or the data (R166, R168, R170, R180). -/
def State.serveRead (s : State) (r : MemReq) : State :=
  let ecc := if s.wcbCovers r.addr r.len then .clean else s.injected r.addr r.len r.ecc
  let at_ := s.errSector r.addr r.len
  let s := if s.wcbCovers r.addr r.len then s else s.useInjection r.addr r.len
  let g := r.addr / granuleBytes
  match ecc with
  | .uncorrectable =>
    if (s.own g).bedrock then
      let s := s.startRepair g at_
      match s.repairOf g with
      | some rep => s.parkRead r rep
      | none => s.answerPoison r
    else if s.sectorPoisoned (at_ / 32) then s.answerPoison r
    else (s.sectorLost at_).answerPoison r
  | _ =>
    let s := if ecc = .corrected then s.sectorCorrected at_ else s
    if s.rangePoisoned r.addr r.len then s.answerPoison r
    else s.answerBytes r (s.memBytes r.addr r.len)

/-- An admitted write taken and acknowledged (R165). -/
def State.serveWrite (s : State) (r : MemReq) (data : List (Option Byte)) : State :=
  let n := if data.length = 0 then 0 else (r.addr + data.length - 1) / 64 - r.addr / 64 + 1
  let s := (List.range n).foldl (fun s i => s.writeLine r.cls r.addr data (fun _ => r.poison) (r.addr / 64 + i)) s
  let lines := lineBytes r.addr (r.addr / 64) data
  let s := if n = 1 && lines.length == data.length then s.forward r.addr (lines.map (·.2)) else s
  (s.mirrorDirty r.addr data.length).answerAck r

/-- A request that has reached its controller: held by an owner map command or a copy, ended with poison by a stack that
does not serve or a withdrawn granule, refused by the owner map, parked, or served (R160, R171, R172, R174, R175, R176,
R178, R180). [DEDUCED, log 66] -/
def State.memRequest (s : State) (r : MemReq) : State :=
  let g := r.addr / granuleBytes
  let e := s.own g
  if s.granBlocked g then { s with hbm := { s.hbm with srcWait := s.hbm.srcWait ++ [r] } }
  else if s.granCopying g then { s with hbm := { s.hbm with copyWait := s.hbm.copyWait ++ [r] } }
  else if s.memTop ≤ r.addr then s.answerRefused r
  else if !s.serves r.addr || e.withdrawn then s.answerPoison r
  else if !e.admits r.origin r.data.isSome || (e.bedrock && r.data.isNone && s.rd Reg.HBM_BEDROCK_state == 1) then
    (s.ownerEvent r.origin r.addr).answerRefused r
  else match r.data with
    | some data => s.serveWrite r data
    | none =>
      match (if e.bedrock && e.poisoned then s.repairOf g else none) with
      | some rep => s.parkRead r rep
      | none => s.serveRead r

/-- The waiting requests of a list taken up again in order. [DEDUCED, log 66] -/
def State.resume (s : State) (rs : List MemReq) : State := rs.foldl State.memRequest s

/-! ### Owner map commands (R176) -/

/-- An owner map command ended: busy clears and result is shown with the granule reached. -/
def State.granEnd (s : State) (result g : Nat) : State :=
  ((({ s with hbm := { s.hbm with gran := none } }).wr Reg.HBM_GRAN_STATUS_busy 0).wr Reg.HBM_GRAN_STATUS_result result).wr
    Reg.HBM_GRAN_STATUS_granule g

/-- The next granule of a running command: refused when bedrock or withdrawn, else its requests begin to wait. -/
def State.granNext (s : State) : State :=
  match s.hbm.gran with
  | none => s
  | some op =>
    if (s.own op.next).bedrock then s.granEnd 1 op.next
    else if (s.own op.next).withdrawn then s.granEnd 2 op.next
    else s.wr Reg.HBM_GRAN_STATUS_granule op.next

/-- A SET or SET_ZERO command written (R176). [DEDUCED, log 182] -/
def State.granStart (s : State) (zero : Bool) : State :=
  let first := s.rd Reg.HBM_GRAN_RANGE_first
  let n := s.rd Reg.HBM_GRAN_RANGE_count_m1 + 1
  let mode := s.rd Reg.HBM_GRAN_ATTR_mode
  if s.on Reg.HBM_GRAN_STATUS_busy then s.regEvent 1 Reg.HBM_GRAN_CMD (if zero then 2 else 1)
  else if s.granules < first + n then s.granEnd 3 first
  else if mode = 3 then s.granEnd 4 first
  else
    let op : GranOp := { zero := zero, next := first, last := first + n - 1, owner := s.rd Reg.HBM_GRAN_ATTR_owner, mode := mode }
    (({ s with hbm := { s.hbm with gran := some op } }).wr Reg.HBM_GRAN_STATUS_busy 1).wr Reg.HBM_GRAN_STATUS_result 0 |>.granNext

/-- The READ command (R176, R182): HBM_GRAN_ATTR loaded from the first granule's entry. -/
def State.granRead (s : State) : State :=
  let first := s.rd Reg.HBM_GRAN_RANGE_first
  if s.on Reg.HBM_GRAN_STATUS_busy then s.regEvent 1 Reg.HBM_GRAN_CMD 3
  else if s.granules ≤ first then s.granEnd 3 first
  else
    let e := s.own first
    let s := s.setReg Reg.HBM_GRAN_ATTR (e.owner + ofBool e.bedrock * 2 ^ 6 + ofBool e.fresh * 2 ^ 7 + e.mode * 2 ^ 8 +
      ofBool e.poisoned * 2 ^ 10 + ofBool e.withdrawn * 2 ^ 11)
    s.granEnd 0 first

/-- One granule of a command done (R176 steps 2 to 5): buffered writes go out, the new entry is in force, the granule is
zeroed when asked or when its mode changes, the waiting requests proceed, and the next granule begins. [DEDUCED, log 61] -/
def State.granDrained (s : State) : State :=
  match s.hbm.gran with
  | none => s
  | some op =>
    let g := op.next
    let s := s.flushRange (g * granuleBytes) granuleBytes
    let e := s.own g
    let s := s.setOwn g { e with owner := op.owner, mode := op.mode }
    let s := if op.zero || e.mode != op.mode then s.zeroGranule g else s
    let waiting := s.hbm.srcWait
    let s := { s with hbm := { s.hbm with srcWait := [] } }
    if g = op.last then (s.granEnd 0 g).resume waiting
    else
      let s := ({ s with hbm := { s.hbm with gran := some { op with next := g + 1 } } }).granNext
      s.resume waiting

/-! ### The commands -/

/-- The requests of a class that a controller has admitted and not yet answered (R184): those that wait there for a copy or a repair. -/
def State.admittedAt (s : State) (cls ctl : Nat) : Nat :=
  ((s.hbm.copyWait ++ s.hbm.parked).filter (fun r => r.cls == cls && (s.place r.addr).1 == ctl)).length +
    (s.hbm.engPark.filter (fun p => s.whoClass p.1 == cls && (s.place p.2).1 == ctl)).length

/-- The outstanding limit of a class at a controller: 32 for MGMT, up to 2,016 for STREAM, and what the last epoch steered for the others (R184,
R185, R190). [DESIGN CHOICE, log 68] -/
def State.limitOf (s : State) (cls ctl : Nat) : Nat :=
  if cls = 45 then 32 else if cls = 44 then 2016 else s.regul.limits.get 2016 (cls * 16 + ctl)

/-- Whether a source interface of a class holds a credit for a controller (R184, R185). -/
def State.hasCredit (s : State) (cls ctl : Nat) : Bool := decide (s.admittedAt cls ctl < s.limitOf cls ctl)

/-- A request sent by its source interface when it holds a credit, else kept there (R184). One whose express route is cut gets no answer
(R151, R153). -/
def State.sourceRequest (s : State) (r : MemReq) : State :=
  if !s.expressOpen (s.reqStop r) (s.place r.addr).1 then s.strand r
  else if s.hasCredit r.cls (s.place r.addr).1 then s.memRequest r
  else { s with hbm := { s.hbm with credWait := s.hbm.credWait ++ [r] } }

/-- WCB_AGE_EXPIRY (R165): an entry older than wcb_age_us goes out. -/
def execWcbAgeExpiry (line : Nat) (s : State) : Host.Outcome State Fault Refusal :=
  match s.wcbOf line with
  | some e => .next (s.wcbRetire e)
  | none => .next s

/-- The latencies of the last four epochs of a class at a controller: number of responses and their sum (R186). A class
with no response takes its target as its mean. -/
def State.latPair (s : State) (c h : Nat) : Nat × Nat :=
  let l := s.regul.lats.get [] (c * 16 + h)
  let n := l.foldl (fun a p => a + p.1) 0
  if n = 0 then (1, s.rd (Reg.REG_CLASS_CTL_target_ns c)) else (n, l.foldl (fun a p => a + p.2) 0)

/-- The priority step of a class at a controller (R186). -/
def State.stepOf (s : State) (c h : Nat) : Nat :=
  let p := s.latPair c h
  let t := s.rd (Reg.REG_CLASS_CTL_target_ns c) * p.1
  if 90 * t ≤ 100 * p.2 then 3 else if 75 * t ≤ 100 * p.2 then 2 else if 50 * t ≤ 100 * p.2 then 1 else 0

/-- The rank of a queued write: its level, and within level 3 the higher priority step first; MGMT ranks at step 3 (R163, R185, R186). -/
def State.rankOf (s : State) (ctl : Nat) (e : WrEntry) : Nat :=
  if e.level < 3 then e.level else 6 - (if e.cls = 45 then 3 else s.stepOf e.cls ctl)

/-- WRITE_BURST_RELEASE (R163): once 24 writes are held for a pseudo-channel or the oldest has waited 2 µs, at most 16 of them are issued in the
order of their ranks, and oldest first within one. [DESIGN CHOICE, log 162] -/
def execWriteBurstRelease (ctl ch pc : Nat) (s : State) : Host.Outcome State Fault Refusal :=
  let here := s.hbm.wq.filter (fun e =>
    let a := 32 * e.sector
    let o := a % granuleBytes
    let m := (s.own (a / granuleBytes)).mode
    (s.place a).1 == ctl && channelOf m o == ch && pcOf m o == pc)
  let order := (List.range 7).flatMap (fun k => here.filter (fun e => s.rankOf ctl e == k))
  if decide (24 ≤ here.length) || here.any (fun e => decide (e.since + usTime 2 ≤ s.now)) then .next ((order.take 16).foldl State.wqOut s) else .next s

/-- REQUEST_AGE_PROMOTION (R163): a queued request that has waited 10 µs moves to level 2. -/
def execRequestAgePromotion (sector : Nat) (s : State) : Host.Outcome State Fault Refusal :=
  .next { s with hbm := { s.hbm with wq := s.hbm.wq.map (fun (e : WrEntry) =>
    if e.sector = sector ∧ e.level = 3 ∧ e.since + usTime 10 ≤ s.now then { e with level := 2 } else e) } }

/-- Where a byte of the quarry lies: the quarries of the enabled controllers stand one after another, 1 GiB each, cell by cell, and a cell's shares
by channel and pseudo-channel: its controller, cell row and DRAM row (R157, R159). [DESIGN CHOICE, log 58] -/
def State.quarryPlace (s : State) (off : Nat) : Nat × Nat × Nat :=
  let i := off / 2 ^ 30
  let ctl := if s.on Reg.HBM_STATUS_layout7 then enabledCtl s.absentStack i else i
  let row := 385024 + off % 2 ^ 30 / 2 ^ 17
  let o := off % 2 ^ 17
  (ctl, row, packRow ctl (o / 8192) (o / 4096 % 2) row (o % 4096 / 256))

/-- SCRUB_VISIT (R168): a sector read on the scrub pass. An address from the top of addressable memory up names a
sector of the quarry. -/
def execScrubVisit (addr : Nat) (ecc : Ecc) (s : State) : Host.Outcome State Fault Refusal :=
  if addr < s.memTop then
    if !s.serves addr then .next s
    else
      let found := s.injected addr 32 ecc
      let s := s.useInjection addr 32
      match found with
      | .clean => .next s
      | .corrected => .next (s.sectorCorrected addr)
      | .uncorrectable =>
        if (s.own (addr / granuleBytes)).bedrock then .next (s.startRepair (addr / granuleBytes) addr)
        else if s.sectorPoisoned (addr / 32) then .next s
        else .next (s.sectorLost addr)
  else
    let p := s.quarryPlace (addr - s.memTop)
    if !s.stackServes (p.1 / 2) then .next s
    else match ecc with
    | .clean => .next s
    | .corrected => .next ((s.corrected (Reg.HBM_CTL_ERR_corrected p.1) blkHbm p.1).visited p.2.2 (cellKey p.1 p.2.1))
    | .uncorrectable => .next (s.sat (Reg.HBM_CTL_ERR_uncorrected p.1) 1)

/-- PPR_REPAIR (R169, R182): the oldest listed row repaired as in hardware mode. Discarded while the list is empty. -/
def execPprRepair (s : State) : Host.Outcome State Fault Refusal :=
  match s.hbm.rowList with
  | [] => .next s
  | r :: t => .next (({ s with hbm := { s.hbm with rowList := t } }.showRows).repairRow r)

/-- PPR_DISMISS (R169, R182): the oldest listed row leaves the list and stays in service. -/
def execPprDismiss (s : State) : Host.Outcome State Fault Refusal :=
  match s.hbm.rowList with
  | [] => .next s
  | _ :: t => .next ({ s with hbm := { s.hbm with rowList := t } }.showRows)

/-- GRAN_READ (R176). -/
def execGranRead (s : State) : Host.Outcome State Fault Refusal := .next s.granRead

/-- The progress of a blanket's phase 2 (R452): the granules without the bedrock flag that are no longer fresh, in per cent. -/
def State.showZero (s : State) : State :=
  if s.rd Reg.SEC_STATUS_blanket_phase ≠ 2 then s
  else
    let done := (s.hbm.own.filter (fun p => !p.2.bedrock && !p.2.fresh)).length
    let all := s.granules - (s.hbm.own.filter (fun p => p.2.bedrock)).length
    let pct := if all = 0 then 100 else min 100 (done * 100 / all)
    let s := s.wr Reg.SEC_BLANKET_STATUS_zero_pct pct
    if pct = 100 then s.wr Reg.SEC_STATUS_blanket_phase 0 else s

/-- ZEROING_PASS (R177): background zeroing passes a fresh granule. Sectors written since it became fresh hold what was
written, and the others read zeros already. -/
def execZeroingPass (granule : Nat) (s : State) : Host.Outcome State Fault Refusal :=
  if (s.own granule).fresh then .next (s.setOwn granule { s.own granule with fresh := false }).showZero else .next s

/-- HBM_COMMIT (R182, R485): HBM_CFG after its range checks, at once. -/
def execHbmCommit (v : Word) (s : State) : Host.Outcome State Fault Refusal :=
  if bits v.toNat 0 0 = 0 then .next s
  else
    let hours := s.shf Reg.HBM_CFG_scrub_hours
    let age := s.shf Reg.HBM_CFG_wcb_age_us
    if hours = 0 ∨ 48 < hours then .next (s.commitRefused Reg.HBM_COMMIT_STATUS 0x01)
    else if age = 0 ∨ 64 < age then .next (s.commitRefused Reg.HBM_COMMIT_STATUS 0x02)
    else .next ((s.commitReg Reg.HBM_CFG).commitDone Reg.HBM_COMMIT_STATUS)

end Sys2Proof.Machine
end

