-- ==== Sys2Proof/Machine/MemAgent.lean ====
section
/-! DEFINITION. Memory as an engine or the home reaches it: one admitted read or write with its checks, byte by byte with poison (R166, R170, R171, R174, R175, R176, R180, R184, R460). -/
namespace Sys2Proof.Machine

/-- What an agent's access to memory finds. -/
inductive MemGot where
  | data (bytes : List PByte)
  | refused
  | wait
  deriving DecidableEq, Repr

/-- Whether some controller serves no memory now (R160, R174). -/
def State.anyStopped (s : State) : Bool := s.on Reg.HBM_STATUS_no_memory || s.rd Reg.HBM_STATUS_halted != 0

/-- Bytes of memory with their poison marks, as an admitted read sees them; a byte on a stack that does not serve is poison (R174). -/
def State.memMarked (s : State) (a n : Nat) : List PByte :=
  if s.anyStopped then (List.range n).map (fun i => if s.serves (a + i) then (s.memByte (a + i), s.bytePoisoned (a + i)) else (0, true))
  else (List.range n).map (fun i => (s.memByte (a + i), s.bytePoisoned (a + i)))

/-- Bytes that are all poison. -/
def allPoison (n : Nat) : List PByte := List.replicate n (0, true)

/-- Whether a request for a granule waits at its controller or its source (R171, R176). -/
def State.granHeld (s : State) (g : Nat) : Bool := s.granBlocked g || s.granCopying g

/-- The end of the granule or range: how many of n bytes at an address lie in its granule. -/
def inGranule (a n : Nat) : Nat := min n (granuleBytes - a % granuleBytes)

/-- The 256-byte units that a range touches, each by an address in it: one request each (R158). -/
def unitsOf (a n : Nat) : List Nat :=
  if n = 0 then [] else (List.range ((a + n - 1) / 256 - a / 256 + 1)).map (fun i => max a ((a / 256 + i) * 256))

/-- Whether any unit of a range is served. -/
def State.servesSome (s : State) (a n : Nat) : Bool := !s.anyStopped || n == 0 || (unitsOf a n).any s.serves

/-- Whether an engine holds a credit for every request of a range (R184). -/
def State.engineCredit (s : State) (who : Who) (a n : Nat) : Bool :=
  (unitsOf a n).all (fun u => s.hasCredit (s.whoClass who) (s.place u).1)

/-- Errors that the stack's check finds on a read, handled as in service (R168, R170, R180, R478). -/
def State.checked (s : State) (a n : Nat) (ecc : Ecc) : State :=
  if s.wcbCovers a n then s
  else
    let found := s.injected a n ecc
    let at_ := s.errSector a n
    let s := s.useInjection a n
    match found with
    | .clean => s
    | .corrected => s.sectorCorrected at_
    | .uncorrectable =>
      if (s.own (a / granuleBytes)).bedrock then s.startRepair (a / granuleBytes) at_
      else if s.sectorPoisoned (at_ / 32) then s else s.sectorLost at_

/-- An engine's read of a poisoned bedrock granule leaves the park buffer. -/
def State.unpark (s : State) (who : Who) : State :=
  { s with hbm := { s.hbm with engPark := s.hbm.engPark.filter (fun (p : Who × Nat) => p.1 != who) } }

/-- An engine's read of a granule under repair: parked while the repair is young and the park buffer has room, else poison at once (R180). -/
def State.parkEngine (s : State) (who : Who) (a n : Nat) (rep : BrRepair) : MemGot × State :=
  if rep.stage = .failed ∨ (rep.assist = true ∧ rep.stage ≠ .driver) then (.data (allPoison n), s.unpark who)
  else if s.hbm.engPark.any (fun p => p.1 == who) then (.wait, s)
  else if 1024 ≤ s.parkedAt (s.place a).1 then (.data (allPoison n), s)
  else (.wait, { s with hbm := { s.hbm with engPark := s.hbm.engPark ++ [(who, a)] } })

/-- One read of memory by an agent, within one granule: it waits for a command or a copy of the granule and for its credits; a young bedrock
repair parks it (R180). -/
def State.agentRead (s : State) (who : Who) (o : Origin) (a n : Nat) (ecc : Ecc) : MemGot × State :=
  let g := a / granuleBytes
  let e := s.own g
  let parked := s.hbm.engPark.any (fun p => p.1 == who)
  if s.granHeld g then (.wait, s)
  else if s.memTop < a + n then (.refused, s)
  else if !s.servesSome a n || e.withdrawn then (.data (allPoison n), s.unpark who)
  else if !e.admits o false || (e.bedrock && s.rd Reg.HBM_BEDROCK_state == 1) then (.refused, s.ownerEvent o a)
  else if !parked && !s.engineCredit who a n then (.wait, s)
  else
    let s := if parked then s else s.checked a n ecc
    match (if (s.own g).bedrock && (s.own g).poisoned then s.repairOf g else none) with
    | some rep => s.parkEngine who a n rep
    | none => (.data (s.memMarked a n), s.unpark who)

/-- Bytes written to memory for a class with their marks: the sectors that a stack which does not serve would hold are lost (R174), and
decision words go on to the stream engines (R373). -/
def State.memPutMarked (s : State) (cls a : Nat) (bs : List PByte) : State :=
  if s.anyStopped then
    (unitsOf a bs.length).foldl (fun (s : State) u =>
      if s.serves u then s.putMarked cls u ((bs.drop (u - a)).take ((u / 256 + 1) * 256 - u)) else s) s
  else s.putMarked cls a bs

/-- One write of memory by an agent, within one granule: `data []` when it is performed, all poison when a stack that it touches does not
serve. -/
def State.agentWrite (s : State) (who : Who) (o : Origin) (a : Nat) (bs : List PByte) : MemGot × State :=
  let g := a / granuleBytes
  let e := s.own g
  if s.granHeld g then (.wait, s)
  else if s.memTop < a + bs.length then (.refused, s)
  else if !s.servesSome a bs.length || e.withdrawn then (.data (allPoison 1), s)
  else if !e.admits o true then (.refused, s.ownerEvent o a)
  else if !s.engineCredit who a bs.length then (.wait, s)
  else
    let whole := !s.anyStopped || (unitsOf a bs.length).all s.serves
    (.data (if whole then [] else allPoison 1), (s.memPutMarked (s.whoClass who) a bs).forward a (bs.map (·.1)))

end Sys2Proof.Machine
end

