-- ==== Sys2Proof/Machine/Spread.lean ====
section
/-! DEFINITION. Which module of a site carries a message, which messages wait at the site port, and the hub's own transactions with a
chiplet (R258–R260, R268, R270, R278, R279). -/
namespace Sys2Proof.Machine

/-! ### A site and its modules -/

/-- A site outside its registers. -/
def State.site (s : State) (n : Nat) : SiteSt := s.sites.get SiteSt.off n

/-- The state with a site replaced. -/
def State.setSite (s : State) (n : Nat) (x : SiteSt) : State := { s with sites := s.sites.put n x }

/-- A site's links outside its registers. -/
def State.link (s : State) (n : Nat) : LinkSt := s.links.get LinkSt.off n

/-- The state with a site's links replaced. -/
def State.setLink (s : State) (n : Nat) (x : LinkSt) : State := { s with links := s.links.put n x }

/-- Modules that a site has (R31). -/
def siteModules (n : Nat) : Nat := if n < 4 then 9 else 8

/-- A site's state code (SITE_STATE). -/
def State.siteState (s : State) (n : Nat) : Nat := s.rd (Reg.SITE_STATE_state n)

/-- A site's entry of the population record, as the last bring-up read it (R49). [DEDUCED, log 183] -/
def State.popSite (s : State) (n : Nat) : Option PopSite := s.boot.pop.bind (fun r => r.sites[n]?)

/-- Whether a site's aperture is open, so that its traffic runs: from attestation until its reset, power cycle or fence (R44, R46, R48). -/
def State.siteOpen (s : State) (n : Nat) : Bool := (s.site n).aperture && !s.siteDark n

/-- The state of a module (R261). -/
def State.modState (s : State) (n m : Nat) : Nat := s.rd (Reg.SITE_MOD_STATUS_state n m)
def State.setModState (s : State) (n m v : Nat) : State := s.wr (Reg.SITE_MOD_STATUS_state n m) v

/-- A module outside its registers. -/
def State.module (s : State) (n m : Nat) : ModSt := (s.link n).mods.get ModSt.off m

/-- The state with a module replaced. -/
def State.setModule (s : State) (n m : Nat) (x : ModSt) : State := s.setLink n { s.link n with mods := (s.link n).mods.put m x }

/-- Whether a module is in service: ACTIVE or L1. [DEDUCED, log 71] -/
def State.inService (s : State) (n m : Nat) : Bool := s.modState n m == 7 || s.modState n m == 8

/-! ### The maps (R257, R258) -/

/-- Bytes of a line. -/
def lineSize : Nat := 64

/-- The physical module of a logical one in a logical map word. -/
def lmapGet (w k : Nat) : Nat := bits w (4 * k + 3) (4 * k)
def lmapPut (w k p : Nat) : Nat := putBits w (4 * k + 3) (4 * k) p

/-- The spread entry of an address (R258). -/
def spreadEntry (a : Nat) : Nat := bits a 13 8 ^^^ bits a 19 14

/-- The logical module that an entry names. -/
def State.spreadOf (s : State) (n e : Nat) : Nat := bits (s.reg (Reg.SITE_SPREAD n (e / 16))) (4 * (e % 16) + 3) (4 * (e % 16))

/-- The physical module that carries a logical module; 15 when it is retired. -/
def State.lmapOf (s : State) (n k : Nat) : Nat := lmapGet (s.reg (Reg.SITE_LMAP n)) k

/-- The logical module that a physical module carries; 15 when it carries none (R257). -/
def State.logicalOf (s : State) (n m : Nat) : Nat := ((List.range 8).find? (fun k => s.lmapOf n k == m)).getD 15

/-- The lowest-numbered logical module in service (R258). -/
def State.lowestLogical (s : State) (n : Nat) : Nat :=
  ((List.range 8).find? (fun k => s.lmapOf n k != 15 && s.inService n (s.lmapOf n k))).getD 0

/-- The physical module that a message belongs on (R258). [DEDUCED, log 86] -/
def State.carrierOf (s : State) (n : Nat) (va : Option Nat) : Nat :=
  match va with
  | some a => s.lmapOf n (s.spreadOf n (spreadEntry a))
  | none => s.lmapOf n (s.lowestLogical n)

/-- A module leaves L1 on a message (R268). [DEDUCED, log 86] -/
def State.leaveL1 (s : State) (n m : Nat) : State :=
  if s.rd (Reg.SITE_MOD_STATUS_state n m) = 8 then s.wr (Reg.SITE_MOD_STATUS_state n m) 7 else s

/-! ### Held entries (R259, R260) -/

/-- Whether an exchange gives an entry another physical module. -/
def State.entryMoves (s : State) (n e : Nat) (x : SpreadExch) : Bool :=
  lmapGet x.lmap ((x.entries[e]?).getD 0) != s.lmapOf n (s.spreadOf n e)

/-- Whether the messages of an entry wait at the site port: its module is out of service, or an exchange under way moves it. -/
def State.entryHeld (s : State) (n e : Nat) : Bool :=
  !s.inService n (s.lmapOf n (s.spreadOf n e)) || (match (s.link n).exch with | some x => s.entryMoves n e x | none => false)

/-- A message of the hub's to a chiplet: on the module of its address, or kept while its entry is held (R258–R260, R268). -/
def State.toSite (s : State) (n va : Nat) (m : SiteMsg) : State :=
  if s.entryHeld n (spreadEntry va) then s.setLink n { s.link n with held := (s.link n).held ++ [(va, m)] }
  else (s.leaveL1 n (s.carrierOf n (some va))).send (.site n (s.carrierOf n (some va)) m)

/-- The messages whose entries are held no more, sent in the order in which they came (R259 step 6). -/
def State.releaseHeld (s : State) (n : Nat) : State :=
  (s.link n).held.foldl (fun (s : State) (p : Nat × SiteMsg) => s.toSite n p.1 p.2) (s.setLink n { s.link n with held := [] })

/-! ### The hub's transactions with a chiplet (R259, R279, R280) -/

/-- The message of one line of an access to an aperture: its tag, its address in the aperture and, of a write, the bytes it
enables (R278, R279). [DEDUCED, log 86] -/
def OutReq.lineMsg (o : OutReq) (a i : Nat) : SiteMsg :=
  let base := (a / lineSize + i) * lineSize
  if o.write then
    .apWr ((o.id + i) % 4096) (base % siteSpan)
      ((List.range lineSize).map (fun j => if a ≤ base + j then (o.bytes[base + j - a]?).join else none))
  else .apRd ((o.id + i) % 4096) (base % siteSpan)

/-- The messages of an access that are not yet answered, each with its address. -/
def OutReq.siteMsgs (o : OutReq) : List (Nat × SiteMsg) :=
  match o.tgt with
  | .site a => (o.lines.zipIdx.filter (fun p => p.1.isNone)).map (fun p => ((a / lineSize + p.2) * lineSize, o.lineMsg a p.2))
  | _ => []

/-- The hub's messages to a site that it awaits answers to: snoops, and accesses to the aperture. -/
def State.siteOpenMsgs (s : State) (n : Nat) : List (Nat × SiteMsg) :=
  let ap := (s.acc.outq.filter (fun o => match o.tgt with | .site a => siteOf a == n | _ => false)).flatMap OutReq.siteMsgs
  let snp := s.home.txns.flatMap (fun t => (t.snoops.filter (fun x => x.1 == n)).map (fun x =>
    let va := ((s.home.filter.find? (fun e => e.site == n && e.line == t.line)).map FilterEntry.va).getD (t.line * lineSize)
    (va, SiteMsg.snoop (x.2.2 % 4096) x.2.1 va)))
  (ap ++ snp).filter (fun p => !(s.link n).held.contains p)

/-- The module whose sideband carries the site's messages: M0, or the lowest-numbered one whose sideband is up (R270). [DESIGN CHOICE, log 179] -/
def State.sbCarrier (s : State) (n : Nat) : Nat :=
  ((List.range (siteModules n)).find? (fun m => (s.site n).sbUp.contains m)).getD 0

/-- A sideband message: on its own module while that module's sideband is up, else on the carrier: M0, or the lowest-numbered
module whose sideband is up (R270). -/
def State.sideband (s : State) (n : Nat) (own : Option Nat) (m : SbMsg) : State :=
  s.send (.sideband n (match own with
    | some k => if (s.site n).sbUp.contains k then k else s.sbCarrier n
    | none => s.sbCarrier n) m)

/-- SPREAD sent for the exchange under way (R259 step 3). -/
def State.sendSpread (s : State) (n : Nat) : State :=
  match (s.link n).exch with
  | none => s
  | some e => s.sideband n none (.spread ((s.rd (Reg.SITE_SPREAD_EPOCH_epoch n) + 1) % 256) e.lmap e.entries)

/-- Step 2 of R259: SPREAD goes out once the hub's own transactions on the entries that move are complete, where their old carrier is
up. -/
def State.exchKick (s : State) (n : Nat) : State :=
  match (s.link n).exch with
  | none => s
  | some x =>
    if x.sent ≠ 0 ∨ (s.siteOpenMsgs n).any (fun p => s.entryMoves n (spreadEntry p.1) x && s.inService n (s.carrierOf n (some p.1))) = true then s
    else (s.setLink n { s.link n with exch := some { x with sent := 1 } }).sendSpread n

end Sys2Proof.Machine
end

