-- ==== Sys2Proof/Machine/Home.lean ====
section
/-! DEFINITION. The coherence home: the snoop filter, its transactions and what each request does (R274–R289). -/
namespace Sys2Proof.Machine

/-- State codes of messages (R278). -/
def stI : Nat := 0
def stS : Nat := 1
def stE : Nat := 2
def stO : Nat := 3
def stM : Nat := 4

/-! ### The filter (R276) -/

/-- The filter entries of a line. -/
def State.holders (s : State) (line : Nat) : List FilterEntry := s.home.filter.filter (fun e => e.line == line)

/-- The entry of a site for a line. -/
def State.entryOf (s : State) (n line : Nat) : Option FilterEntry := s.home.filter.find? (fun e => e.site == n && e.line == line)

/-- The counts of a site's entries shown (COH_SITE_ENTRIES). -/
def State.showEntries (s : State) (n : Nat) : State :=
  let k := (s.home.filter.filter (fun e => e.site == n)).length
  let s := s.wr (Reg.COH_SITE_ENTRIES_in_use n) k
  s.wr (Reg.COH_SITE_ENTRIES_peak n) (max k (s.rd (Reg.COH_SITE_ENTRIES_peak n)))

/-- A site's entry dropped. -/
def State.dropEntry (s : State) (n line : Nat) : State :=
  ({ s with home := { s.home with filter := s.home.filter.filter (fun (e : FilterEntry) => !(e.site == n && e.line == line)) } }).showEntries n

/-- A site's entry given a state, keeping the segment and order of its grant. -/
def State.moveEntry (s : State) (n line : Nat) (st : LineState) : State :=
  { s with home := { s.home with filter := s.home.filter.map (fun (e : FilterEntry) =>
      if e.site = n ∧ e.line = line then { e with state := st } else e) } }

/-- A grant recorded (R276). -/
def State.grantEntry (s : State) (r : HomeReq) (st : LineState) : State :=
  let s := s.dropEntry r.site r.line
  let h := s.home
  ({ s with home := { h with grants := h.grants + 1, filter := h.filter ++
    [({ site := r.site, line := r.line, ctx := r.ctx, seg := r.seg, va := r.va, state := st, order := h.grants } : FilterEntry)] } }).showEntries r.site

/-- The home slice and set of a line (R274, R276). -/
def State.setOf (s : State) (line : Nat) : Nat × Nat :=
  let a := line * lineSize
  ((s.place a).1, bits a 15 6 ^^^ bits a 25 16 ^^^ bits a 35 26)

/-- The victim of a site's full set, if the set of a line has no free way (R277): S entries first, then the earliest grant. -/
def State.victim (s : State) (n line : Nat) : Option FilterEntry :=
  let same := s.home.filter.filter (fun e => e.site == n && s.setOf e.line == s.setOf line)
  if same.length < 16 then none
  else
    let clean := same.filter (fun e => e.state == .s)
    let pool := if clean.isEmpty then same else clean
    pool.foldl (fun (b : Option FilterEntry) e =>
      match b with
      | none => some e
      | some x => if e.order < x.order then some e else b) none

/-! ### Answers to chiplets -/

/-- An answer to a chiplet's request, kept under its tag (R259 step 5). -/
def State.answerChip (s : State) (r : HomeReq) (m : SiteMsg) : State :=
  ((s.siteAnswered r.site r.tag).setLink r.site { s.link r.site with answered := (s.link r.site).answered.put r.tag (r.op, r.va, m) }).toSite r.site r.va m

/-- An error response (R267): in CXL mode a refused read returns poisoned data and a refused write is dropped. -/
def State.refuseSite (s : State) (r : HomeReq) : State :=
  if r.cxl then
    match r.op with
    | .rdShared | .rdOwn | .rdCurr | .upgrade => s.answerChip r (.go r.tag stI (some (allPoison lineSize)))
    | _ => s.siteAnswered r.site r.tag
  else s.answerChip r (.refused r.tag)

/-- Data granted to a site with a state. -/
def State.grantData (s : State) (r : HomeReq) (st : Nat) (bytes : List PByte) : State :=
  if r.cxl then s.answerChip r (.go r.tag st (if r.goOnly then none else some bytes))
  else s.answerChip r (.data r.tag st bytes)

/-- A completion without data. -/
def State.grantComp (s : State) (r : HomeReq) (st : Nat) : State :=
  if r.cxl then s.answerChip r (.go r.tag st none) else s.answerChip r (.comp r.tag st)

/-! ### Transactions (R283) -/

/-- The line that a piece of the home's work concerns. -/
def HomeFor.line : HomeFor → Nat
  | .site r => r.line
  | .mem r => r.addr / lineSize
  | .agent _ _ l => l
  | .recall _ l => l

/-- Whether a line is blocked. -/
def State.lineBlocked (s : State) (line : Nat) : Bool := s.home.txns.any (fun t => t.line == line)

/-- A transaction replaced by number. -/
def State.updTxn (s : State) (id : Nat) (f : HomeTxn → HomeTxn) : State :=
  { s with home := { s.home with txns := s.home.txns.map (fun (t : HomeTxn) => if t.id = id then f t else t) } }

/-- A transaction ended. -/
def State.endTxn (s : State) (id : Nat) : State :=
  { s with home := { s.home with txns := s.home.txns.filter (fun (t : HomeTxn) => t.id != id) } }

/-- A new transaction with its snoops sent. -/
def State.openTxn (s : State) (line : Nat) (why : HomeFor) (snoops : List (FilterEntry × SnoopKind)) : Nat × State :=
  let id := s.home.nextTag
  let tags := snoops.zipIdx.map (fun (p : (FilterEntry × SnoopKind) × Nat) => (p.1.1, p.1.2, id + 1 + p.2))
  let t : HomeTxn := { id := id, line := line, why := why, snoops := tags.map (fun (x : FilterEntry × SnoopKind × Nat) => (x.1.site, x.2.1, x.2.2)),
                       data := none, waitAck := false, got := snoops.isEmpty,
                       others := match why with | .site r => (s.holders line).any (fun e => e.site != r.site) | _ => false }
  let s := { s with home := { s.home with txns := s.home.txns ++ [t], nextTag := id + 1 + snoops.length } }
  (id, tags.foldl (fun (s : State) (x : FilterEntry × SnoopKind × Nat) =>
    s.toSite x.1.site x.1.va (.snoop (x.2.2 % 4096) x.2.1 x.1.va)) s)

/-- The snoops of a site's request (R280, R285, R286). [DEDUCED, log 87] -/
def State.snoopsFor (s : State) (r : HomeReq) : List (FilterEntry × SnoopKind) :=
  let all := s.holders r.line
  let others := all.filter (fun e => e.site != r.site)
  let own := all.filter (fun e => e.site == r.site)
  let moved := own.filter (fun e => !(e.ctx == r.ctx && e.seg == r.seg))
  let dirty := others.filter (fun e => e.state != .s)
  match r.op with
  | .rdShared => moved.map (·, .inv) ++ dirty.map (fun e => (e, if e.state = .x then SnoopKind.share else .cur))
  | .rdOwn => (moved ++ others).map (·, .inv)
  | .upgrade => (moved ++ others).map (·, .inv)
  | .rdCurr => dirty.map (·, .cur)
  | .wrLine => all.map (·, .inv)
  | .wrPartial => all.map (·, .inv)
  | .clFlush => own.map (·, .inv)
  | .wbDirty => []
  | .evictClean => []

/-- Whether a request is cacheable (R275). -/
def HomeOp.cacheable : HomeOp → Bool
  | .rdShared | .rdOwn | .upgrade => true
  | _ => false

/-- The line's bytes for a grant: the dirty data that a snoop brought, or memory (R280, R281). -/
def State.lineData (s : State) (t : HomeTxn) (r : HomeReq) : MemGot × State :=
  match t.data with
  | some d => (.data d, s)
  | none => s.agentRead (.site r.site r.tag) (.ctx r.ctx) (t.line * lineSize) lineSize .clean

/-- A line merged with enabled bytes. -/
def mergeLine (old : List PByte) (new : List (Option Byte)) (poison : Bool) : List PByte :=
  old.zipIdx.map (fun (p : PByte × Nat) => match new[p.2]? with | some (some b) => (b, poison) | _ => p.1)

/-- A site's write performed: its enabled bytes over dirty data or memory (R280, R460). -/
def State.homeWrite (s : State) (t : HomeTxn) (r : HomeReq) : MemGot × State :=
  let a := t.line * lineSize
  let old := match t.data with | some d => d | none => s.memMarked a lineSize
  let whole := r.bytes.length == lineSize && r.bytes.all Option.isSome
  if whole || t.data.isSome then s.agentWrite (.site r.site r.tag) (.ctx r.ctx) a (mergeLine old r.bytes r.poison)
  else
    let on := (List.range lineSize).filter (fun i => match r.bytes[i]? with | some (some _) => true | _ => false)
    on.foldl (fun (p : MemGot × State) i =>
      match p.1 with
      | .data [] => p.2.agentWrite (.site r.site r.tag) (.ctx r.ctx) (a + i) [(((r.bytes[i]?).join).getD 0, r.poison)]
      | _ => p) (.data [], s)

/-- What a site's request does once every snoop has been answered (R280, R285). One that its granule, a repair or a credit holds up stays at the home
(R171, R176, R180, R184). [DEDUCED, log 87] -/
def State.homeGrant (s : State) (t : HomeTxn) (r : HomeReq) : State :=
  let a := t.line * lineSize
  let bedrock := (s.own (a / granuleBytes)).bedrock
  let mine := s.entryOf r.site r.line
  let after (s : State) : State := if r.cxl then s.endTxn t.id else s.updTxn t.id (fun (t : HomeTxn) => { t with waitAck := true })
  match r.op with
  | .rdShared =>
    match s.lineData t r with
    | (.data d, s) =>
      let st := if !t.others && !bedrock && !(r.cxl && r.goOnly) then stE else stS
      -- dirty data that no site holds as dirty any more go to memory (R281)
      let s := if t.data.isSome && !(s.holders t.line).any (fun e => e.site != r.site && e.state != .s) && s.serves a then
        s.memPutMarked (siteClass r.site) a d else s
      after ((s.grantEntry r (if st = stE then .x else .s)).grantData { r with goOnly := false } st d)
    | (.wait, s) => s
    | (_, s) => (s.refuseSite r).endTxn t.id
  | .rdOwn =>
    match s.lineData t r with
    | (.data d, s) => after ((s.grantEntry r .x).grantData r (if r.cxl && t.data.isNone then stE else stM) d)
    | (.wait, s) => s
    | (_, s) => (s.refuseSite r).endTxn t.id
  | .upgrade =>
    if r.cxl then
      -- RdOwnNoData brings no line, so dirty data of another holder goes to memory first
      let s := match t.data with | some d => s.memPutMarked (siteClass r.site) a d | none => s
      after ((s.grantEntry r .x).grantComp r stE)
    else if mine.isSome then after ((s.grantEntry r .x).grantComp r stM)
    else match s.lineData t r with
      | (.data d, s) => after ((s.grantEntry r .x).grantData r stM d)
      | (.wait, s) => s
      | (_, s) => (s.refuseSite r).endTxn t.id
  | .rdCurr =>
    match s.lineData t r with
    | (.data d, s) => (s.grantData r stI d).endTxn t.id
    | (.wait, s) => s
    | (_, s) => (s.refuseSite r).endTxn t.id
  | .wrLine | .wrPartial =>
    match s.homeWrite t r with
    | (.data _, s) => (s.grantComp r stI).endTxn t.id
    | (.wait, s) => s
    | (_, s) => (s.refuseSite r).endTxn t.id
  | .wbDirty =>
    match mine with
    | some e =>
      if e.state = .s then
        ((s.sat (Reg.COH_SITE_RECALLS_stale_wb r.site) 1).answerChip r (if r.cxl then .writePull r.tag else .wbAck r.tag true)).endTxn t.id
      else
        let s := if s.serves a then s.memPutMarked (siteClass r.site) a (mergeLine (s.memMarked a lineSize) r.bytes r.poison) else s
        ((s.dropEntry r.site r.line).answerChip r (if r.cxl then .writePull r.tag else .wbAck r.tag false)).endTxn t.id
    | none => ((s.sat (Reg.COH_SITE_RECALLS_stale_wb r.site) 1).answerChip r
        (if r.cxl then .writePull r.tag else .wbAck r.tag true)).endTxn t.id
  | .evictClean =>
    let s := s.dropEntry r.site r.line
    (if r.cxl then s.grantComp r stI else s.siteAnswered r.site r.tag).endTxn t.id
  | .clFlush =>
    let s := match t.data with | some d => s.memPutMarked (siteClass r.site) a d | none => s
    ((s.dropEntry r.site r.line).grantComp r stI).endTxn t.id

/-- The next step of a transaction whose snoops have all been answered: agents' transactions wait for their agent, which reads or
writes and ends them (R282), or end where it is gone; a recall writes dirty data and ends (R277). [DEDUCED, log 87] -/
def State.homeGot (s : State) (id : Nat) : State :=
  match s.home.txns.find? (fun t => t.id == id) with
  | none => s
  | some t =>
    match t.why with
    | .site r => s.homeGrant t r
    | .recall n _ =>
      let s := match t.data with
        | some d => if s.serves (t.line * lineSize) then s.memPutMarked (siteClass n) (t.line * lineSize) d else s
        | none => s
      (s.dropEntry n t.line).endTxn id
    | .agent w write _ =>
      let s := if write then (match t.data with | some d => s.memPutMarked (s.whoClass w) (t.line * lineSize) d | none => s) else s
      match w with
      | .gone _ => s.endTxn id
      | _ => s.updTxn id (fun (t : HomeTxn) => { t with got := true })
    | .mem r =>
      -- a read takes the holder's data, a write merges over it
      match r.data, t.data with
      | none, some d =>
        let part := (d.drop (r.addr % lineSize)).take r.len
        (if part.any (·.2) then s.answerPoison r else s.answerBytes r (part.map (·.1))).endTxn id
      | _, some d => ((s.memPutMarked r.cls (t.line * lineSize) d).endTxn id).memRequest r
      | _, none => (s.endTxn id).memRequest r

/-- The requests of sites that memory has held up at the home tried again. -/
def State.homeRetry (s : State) : State :=
  (s.home.txns.filter (fun t => t.got && !t.waitAck && (match t.why with | .site _ => true | _ => false))).foldl
    (fun (s : State) t => s.homeGot t.id) s

/-- The snoops that an agent's access to a line needs (R282). -/
def State.agentSnoops (s : State) (line : Nat) (write : Bool) : List (FilterEntry × SnoopKind) :=
  if write then (s.holders line).map (·, .inv)
  else ((s.holders line).filter (fun e => e.state != .s)).map (·, .cur)

/-- A piece of work begun at its slice: a recall goes first when the site's set is full. -/
def State.homeBegin (s : State) (w : HomeFor) : State :=
  let line := w.line
  match w with
  | .site r =>
    match (if r.op.cacheable && (s.entryOf r.site r.line).isNone then s.victim r.site r.line else none) with
    | some v =>
      let s := { s with home := { s.home with waiting := w :: s.home.waiting } }
      if s.lineBlocked v.line then s
      else (s.sat (Reg.COH_SITE_RECALLS_recalls r.site) 1).openTxn v.line (.recall r.site v.line) [(v, .inv)] |>.2
    | none =>
      let (id, s) := s.openTxn line w (s.snoopsFor r)
      if (s.home.txns.any (fun t => t.id == id && t.got)) then s.homeGot id else s
  | .recall n _ =>
    let (id, s) := s.openTxn line w (((s.entryOf n line).toList).map (·, .inv))
    if (s.home.txns.any (fun t => t.id == id && t.got)) then s.homeGot id else s
  | .agent _ write _ =>
    let (id, s) := s.openTxn line w (s.agentSnoops line write)
    if (s.home.txns.any (fun t => t.id == id && t.got)) then s.homeGot id else s
  | .mem r =>
    let (id, s) := s.openTxn line w (s.agentSnoops line r.data.isSome)
    if (s.home.txns.any (fun t => t.id == id && t.got)) then s.homeGot id else s

/-- Transactions that one slice tracks (R283). -/
def sliceTxns : Nat := 1024

/-- Whether a slice has room for one more transaction. -/
def State.sliceRoom (s : State) (line : Nat) : Bool :=
  decide ((s.home.txns.filter (fun t => (s.setOf t.line).1 == (s.setOf line).1)).length < sliceTxns)

/-- Work that waits at the home taken up in arrival order, once through the list (R283). -/
def State.homeKick (s : State) : State :=
  let work := s.home.waiting
  work.foldl (fun (s : State) (w : HomeFor) =>
    let line := w.line
    let earlier := s.home.waiting.takeWhile (· != w)
    if s.lineBlocked line || !s.sliceRoom line || earlier.any (fun x => x.line == line) then s
    else ({ s with home := { s.home with waiting := s.home.waiting.erase w } }).homeBegin w) s

/-- Work brought to the home: begun, or kept behind what waits there, which is taken up as far as it can be. -/
def State.homeAsk (s : State) (w : HomeFor) : State :=
  if s.lineBlocked w.line || !s.sliceRoom w.line || s.home.waiting.any (fun x => x.line == w.line) then
    { s with home := { s.home with waiting := s.home.waiting ++ [w] } }.homeKick
  else s.homeBegin w

/-- Whether a memory request finds no line that the home must work on first. -/
def State.homeFree (s : State) (a n : Nat) (write : Bool) : Bool :=
  ((List.range (if n = 0 then 0 else (a + n - 1) / lineSize - a / lineSize + 1)).map (· + a / lineSize)).all (fun l =>
    !s.lineBlocked l && (s.holders l).all (fun e => !write && e.state == .s) && !s.home.waiting.any (fun w => w.line == l))

/-- A request cut into its lines, each its own transaction at the home when it is coherent (R274, R282, R298, R326). -/
def State.askLines (s : State) (who : AsmFor) (r : MemReq) (coherent : Bool) : State :=
  let lens := lineLens r.addr r.len
  let (id, s) := s.openAsm who r.data.isSome r.addr (0, 0, 0) lens
  lens.zipIdx.foldl (fun (s : State) (p : Nat × Nat) =>
    let lo := max r.addr ((r.addr / lineSize + p.2) * lineSize)
    let q : MemReq := { r with addr := lo, len := p.1, port := .part id p.2, data := r.data.map (fun d => (d.drop (lo - r.addr)).take p.1) }
    if coherent && !s.homeFree lo p.1 r.data.isSome then s.homeAsk (.mem q) else s.sourceRequest q) s

/-! ### Agents (R282) -/

/-- Whether an agent's line needs a snoop. -/
def State.needsSnoop (s : State) (line : Nat) (write : Bool) : Bool := !(s.agentSnoops line write).isEmpty

/-- An agent's transaction on a line, if it has one. -/
def State.agentTxn (s : State) (who : Who) (line : Nat) : Option HomeTxn :=
  s.home.txns.find? (fun t => t.line == line && (match t.why with | .agent w _ _ => w == who | _ => false))

/-- A coherent range made ready for an agent (R282, R283): every line that a site holds gets its own transaction. The answer says
whether every line is ready. -/
def State.cohReady (s : State) (who : Who) (a n : Nat) (write : Bool) : Bool × State :=
  let s := (linesOf a n).foldl (fun (s : State) line =>
    if (s.agentTxn who line).isSome || s.home.waiting.contains (.agent who write line) then s
    else if s.lineBlocked line || s.needsSnoop line write then s.homeAsk (.agent who write line) else s) s
  ((linesOf a n).all (fun line =>
    match s.agentTxn who line with
    | some t => t.got
    | none => !s.lineBlocked line && !s.needsSnoop line write && !s.home.waiting.contains (.agent who write line)), s)

/-- The dirty bytes of an agent's read laid over what memory gave. -/
def State.overlay (s : State) (who : Who) (a : Nat) (bs : List PByte) : List PByte :=
  bs.zipIdx.map (fun (p : PByte × Nat) =>
    match (s.agentTxn who ((a + p.2) / lineSize)).bind (·.data) with
    | some d => (d[(a + p.2) % lineSize]?).getD p.1
    | none => p.1)

/-- An agent's transactions of a range ended, and what waited for their lines taken up. -/
def State.cohEnd (s : State) (who : Who) (a n : Nat) : State :=
  ({ s with home := { s.home with txns := s.home.txns.filter (fun (t : HomeTxn) =>
    !((linesOf a n).contains t.line && (match t.why with | .agent w _ _ => w == who | _ => false))) } }).homeKick

/-- A recall of every line of a range from every site (R287): begun for each entry whose line is not blocked. -/
def State.recallRange (s : State) (a n : Nat) : State :=
  (s.home.filter.filter (fun e => decide (a / lineSize ≤ e.line) && decide (e.line * lineSize < a + n))).foldl
    (fun (s : State) (e : FilterEntry) =>
      if s.lineBlocked e.line then s else (s.openTxn e.line (.recall e.site e.line) [(e, .inv)]).2) s

/-- Whether any line of a range is held or blocked. -/
def State.rangeHeld (s : State) (a n : Nat) : Bool :=
  s.home.filter.any (fun e => decide (a / lineSize ≤ e.line) && decide (e.line * lineSize < a + n)) ||
  s.home.txns.any (fun t => decide (a / lineSize ≤ t.line) && decide (t.line * lineSize < a + n))

/-- A site gone dark (R46, R286): its outstanding snoops end as if answered I, X and O lines are poisoned, S lines dropped,
and its own requests discarded. -/
def State.homeDark (s : State) (n : Nat) : State :=
  let mine := s.home.filter.filter (fun e => e.site == n)
  let s := (mine.filter (fun e => e.state != .s)).foldl (fun (s : State) (e : FilterEntry) =>
    (s.poisonSector (2 * e.line)).poisonSector (2 * e.line + 1)) s
  let s := { s with
    home := { s.home with filter := s.home.filter.filter (fun (e : FilterEntry) => e.site != n) }
    xlat := { s.xlat with siteReqs := s.xlat.siteReqs.filter (fun (q : SiteReq) => q.site != n) } }
  let s := { s with home := { s.home with
    waiting := s.home.waiting.filter (fun w => match w with | .site r => r.site != n | _ => true)
    txns := (s.home.txns.filter (fun (t : HomeTxn) => match t.why with | .site r => r.site != n | .recall m _ => m != n | _ => true)).map
      (fun (t : HomeTxn) => { t with snoops := t.snoops.filter (fun (x : Nat × SnoopKind × Nat) => x.1 != n) }) } }
  let ready := s.home.txns.filter (fun t => t.snoops.isEmpty && !t.got && !t.waitAck)
  ((ready.foldl (fun (s : State) (t : HomeTxn) => s.homeGot t.id) s).showEntries n).homeKick

end Sys2Proof.Machine
end

