-- ==== Sys2Proof/Machine/NocOps.lean ====
section
/-! DEFINITION. The on-chip network: source routes and their legality, the routes firmware installs, and an access that lands in a scratch window (R135–R139, R144–R149, R154, R60). -/
namespace Sys2Proof.Machine

/-! ### The torus (R134, R135, R136) -/

/-- The coordinates of each ring in the order of its + direction (R135). [DEDUCED, log 165] -/
def xRing : List Nat := [0, 2, 4, 6, 8, 10, 12, 14, 15, 13, 11, 9, 7, 5, 3, 1]
def yRing : List Nat := [0, 2, 4, 6, 7, 5, 3, 1]

/-- The position of a coordinate on a ring. -/
def ringPos (ring : List Nat) (c : Nat) : Nat := ring.idxOf c

/-- The coordinate k places further on a ring, modulo its length. -/
def ringAt (ring : List Nat) (p : Nat) : Nat := (ring[p % ring.length]?).getD 0

/-- The router that a hop code leads to from a router (x + 16 y), in the codes of R145. [DEDUCED, log 165] -/
def hopTo (code r : Nat) : Nat :=
  let x := r % 16
  let y := r / 16
  if code = 1 then 16 * y + ringAt xRing (ringPos xRing x + 1)
  else if code = 2 then 16 * y + ringAt xRing (ringPos xRing x + 15)
  else if code = 3 then 16 * ringAt yRing (ringPos yRing y + 1) + x
  else if code = 4 then 16 * ringAt yRing (ringPos yRing y + 7) + x
  else r

/-- The torus link that a hop uses: 2 × the router it leaves by +x or +y, plus 1 for y. -/
def hopLink (code r : Nat) : Nat :=
  if code = 1 then 2 * r else if code = 2 then 2 * hopTo 2 r else if code = 3 then 2 * r + 1 else 2 * hopTo 4 r + 1

/-- The router of attachment a (R136). -/
def attachRouter (a : Nat) : Nat := if a < 16 then a else 7 * 16 + (a - 16)

/-- The router of a network interface: clusters first, then attachments. -/
def niRouter (ni : Nat) : Nat := if ni < 128 then ni else attachRouter (ni - 128)

/-- The destination router of a route entry, for the entries that are used (R145). -/
def entryRouter (e : Nat) : Option Nat := if e < 128 then some e else if e < 160 then some (attachRouter (e - 128)) else none

/-! ### Route entries (R145, R146) -/

/-- The hop codes of an entry. -/
def routeHops (v : Nat) : List Nat := (List.range 12).map (fun k => bits v (3 * k + 2) (3 * k))

/-- The hops before the first stop code. -/
def liveHops (v : Nat) : List Nat := (routeHops v).takeWhile (· != 0)

/-- The routers that a list of hops passes after its start, in order. -/
def walk : Nat → List Nat → List Nat
  | _, [] => []
  | r, h :: t => hopTo h r :: walk (hopTo h r) t

/-- Whether a phase makes its x hops first, then its y hops, each in one direction (R144). -/
def phaseLegal (hs : List Nat) : Bool :=
  let xs := hs.takeWhile (fun h => h == 1 || h == 2)
  let ys := hs.drop xs.length
  xs.eraseDups.length ≤ 1 && ys.all (fun h => h == 3 || h == 4) && decide (ys.eraseDups.length ≤ 1)

/-- The first condition of R146 that a valid entry breaks, 0 for none. -/
def routeFault (lost links : List Nat) (ni e v : Nat) : Nat :=
  let hs := routeHops v
  let live := liveHops v
  let pb := bits v 39 36
  let path := walk (niRouter ni) live
  let used := ((niRouter ni :: path).zip live).map (fun (p : Nat × Nat) => hopLink p.2 p.1)
  if !bit v 40 then 0
  else if hs.any (fun h => decide (4 < h)) || (hs.drop live.length).any (fun h => h != 0) ||
    (entryRouter e == some (niRouter ni) && !live.isEmpty) then 1
  else if pb ≠ 15 ∧ (pb = 0 ∨ live.length ≤ pb) then 2
  else if !(if pb = 15 then phaseLegal live else phaseLegal (live.take pb) && phaseLegal (live.drop pb)) then 3
  else if entryRouter e ≠ some (((niRouter ni) :: path).getLastD (niRouter ni)) then 4
  else if lost.contains ((entryRouter e).getD 0) then 6
  else if (niRouter ni :: path).any (fun r => lost.contains r) || used.any (fun l => links.contains l) then 5
  else 0

/-- The channels that the hops of one phase take in one ring, given what has been passed of its dateline, the link that joins coordinates 0 and 1:
d is 0 up to and on the hop that crosses it and 1 after it (R144). -/
def datelines : Nat → List (Nat × Nat) → List Nat
  | _, [] => []
  | d, (a, b) :: t => d :: datelines (if (a = 0 ∧ b = 1) ∨ (a = 1 ∧ b = 0) then 1 else d) t

/-- The steps of a walk: each hop's start, code and end. -/
def steps : Nat → List Nat → List (Nat × Nat × Nat)
  | _, [] => []
  | r, h :: t => (r, h, hopTo h r) :: steps (hopTo h r) t

/-- The virtual channels of one phase from a router, each with its dimension (0 x, 1 y), in order (R144). -/
def phaseChannels (phase r : Nat) (hs : List Nat) : List (Nat × Nat) :=
  let st := steps r hs
  let xs := st.filter (fun (p : Nat × Nat × Nat) => decide (p.2.1 ≤ 2))
  let ys := st.filter (fun (p : Nat × Nat × Nat) => !decide (p.2.1 ≤ 2))
  ((datelines 0 (xs.map (fun (p : Nat × Nat × Nat) => (p.1 % 16, p.2.2 % 16)))).map (fun d => (0, 2 * phase + d))) ++
    ((datelines 0 (ys.map (fun (p : Nat × Nat × Nat) => (p.1 / 16, p.2.2 / 16)))).map (fun d => (1, 2 * phase + d)))

/-- The virtual channel, 2 × phase + d, of each hop of a route entry, with its dimension (R144). -/
def routeChannels (ni v : Nat) : List (Nat × Nat) :=
  let live := liveHops v
  let n := if bits v 39 36 = 15 then live.length else bits v 39 36
  let r := niRouter ni
  phaseChannels 0 r (live.take n) ++ phaseChannels 1 ((r :: walk r (live.take n)).getLastD r) (live.drop n)

/-- Hops of one code. -/
def hopsOf (code n : Nat) : List Nat := List.replicate n code

/-- The hops along a ring from one position to another: the shorter way, + on a tie; or the other way. -/
def ringHops (len plus minus a b : Nat) (other : Bool) : List Nat :=
  let f := (b + len - a) % len
  let fwd := decide (f ≤ len - f) != other
  if f = 0 then [] else if fwd then hopsOf plus f else hopsOf minus (len - f)

/-- A route word from its phases. -/
def routeWord (a b : List Nat) : Nat :=
  let hs := a ++ b
  (hs.zipIdx.foldl (fun v (p : Nat × Nat) => v + p.1 * 2 ^ (3 * p.2)) 0) +
    (if a = [] ∨ b = [] then 15 else a.length) * 2 ^ 36 + 2 ^ 40

/-- The candidates among which firmware chooses a route between two routers (R146, R147): the minimal x-first route; one hop of
the y way, then x, then the rest of y, as in the example of R146; the minimal y-first route; the long ways round; and one hop
aside and back. [DESIGN CHOICE, log 53] -/
def routeCandidates (src dst : Nat) : List (List Nat × List Nat) :=
  let px := ringPos xRing (src % 16)
  let py := ringPos yRing (src / 16)
  let qx := ringPos xRing (dst % 16)
  let qy := ringPos yRing (dst / 16)
  let xh (o : Bool) := ringHops 16 1 2 px qx o
  let yh (o : Bool) := ringHops 8 3 4 py qy o
  let long := [(true, false), (false, true)]
  [(xh false ++ yh false, []), ((yh false).take 1, xh false ++ (yh false).drop 1), (yh false, xh false)] ++
  (long.map (fun (w : Bool × Bool) => (xh w.1 ++ yh w.2, []))) ++
  (long.map (fun (w : Bool × Bool) => (yh w.2, xh w.1))) ++
  [([3], xh false ++ ringHops 8 3 4 (py + 1) qy false), ([4], xh false ++ ringHops 8 3 4 (py + 7) qy false),
   (1 :: yh false, ringHops 16 1 2 (px + 1) qx false), (2 :: yh false, ringHops 16 1 2 (px + 15) qx false)]

/-- Every run of hops in one direction from one position of a ring to another, of at most n hops. -/
def ringRuns (len plus minus a b n : Nat) : List (List Nat) :=
  (((List.range (n + 1)).filter (fun k => (a + k) % len == b)).map (hopsOf plus)) ++
    (((List.range n).filter (fun k => (b + k + 1) % len == a)).map (fun k => hopsOf minus (k + 1)))

/-- Every run of hops in one direction, of at most n hops. -/
def runsFrom (plus minus n : Nat) : List (List Nat) :=
  ((List.range (n + 1)).map (hopsOf plus)) ++ ((List.range n).map (fun k => hopsOf minus (k + 1)))

/-- Every route of at most 12 hops and two phases between two routers that R144 allows (R147). -/
def everyRoute (src dst : Nat) : List (List Nat × List Nat) :=
  let x (r : Nat) : Nat := ringPos xRing (r % 16)
  let y (r : Nat) : Nat := ringPos yRing (r / 16)
  (runsFrom 1 2 12).flatMap (fun x1 => (runsFrom 3 4 (12 - x1.length)).flatMap (fun y1 =>
    let mid := ((src :: walk src (x1 ++ y1)).getLastD src)
    let left := 12 - x1.length - y1.length
    (ringRuns 16 1 2 (x mid) (x dst) left).flatMap (fun x2 =>
      (ringRuns 8 3 4 (y mid) (y dst) (left - x2.length)).map (fun y2 => (x1 ++ y1, x2 ++ y2)))))

/-- The entry that firmware installs for the routers and links lost: the first legal one of its candidates or, when none of them is legal, of
every route of at most 12 hops; without one, an entry that is not valid. Which legal route it takes is open. [DESIGN CHOICE, log 53] -/
def firmwareRoute (lost links : List Nat) (ni e : Nat) : Nat :=
  match entryRouter e with
  | none => 0
  | some dst =>
    let ok (c : List Nat × List Nat) : Bool :=
      decide ((c.1 ++ c.2).length ≤ 12) && routeFault lost links ni e (routeWord c.1 c.2) == 0
    match (routeCandidates (niRouter ni) dst).find? ok with
    | some c => routeWord c.1 c.2
    | none =>
      if lost.contains dst || lost.contains (niRouter ni) then 0
      else match (everyRoute (niRouter ni) dst).find? ok with
        | some c => routeWord c.1 c.2
        | none => 0

/-- The route entry in force (R145). -/
def State.route (s : State) (ni e : Nat) : Nat :=
  match s.noc.routes.find? (fun p => p.1 == ni * 256 + e) with
  | some p => p.2.toNat
  | none => if s.noc.routed then firmwareRoute s.noc.lost s.noc.links ni e else 0

/-- The shadow of a route entry, which a read of NOC_RT_DATA returns: what was written last, else the entry committed or in force; firmware
rewrites every entry that a loss breaks (R147, R151). -/
def State.routeShadow (s : State) (ni e : Nat) : Nat :=
  match s.noc.routesShadow.find? (fun p => p.1 == ni * 256 + e) with
  | some p => p.2.toNat
  | none =>
    let now := match s.noc.routesPend with
      | some t => (match t.routes.find? (fun p => p.1 == ni * 256 + e) with
        | some p => p.2.toNat
        | none => if s.noc.routed then firmwareRoute t.lost t.links ni e else 0)
      | none => s.route ni e
    match s.noc.pendLost with
    | some l => if routeFault l.1 l.2 ni e now = 0 then now else firmwareRoute l.1 l.2 ni e
    | none => now

/-- An attachment, or its controller's other one while its router is lost (R152). -/
def State.aliveAttach (s : State) (a : Nat) : Nat :=
  if s.noc.lost.contains (attachRouter a) then (if a % 2 = 0 then a + 1 else a - 1) else a

/-- The attachment through which an express endpoint reaches a tile's cluster (R139): the one in its row, on the side of its column. -/
def State.gatewayTo (s : State) (cluster : Nat) : Nat := s.aliveAttach (if cluster / 16 < 4 then cluster % 16 else 16 + cluster % 16)

/-- Whether an express endpoint's packet to a cluster has a valid route (R145). -/
def State.routeTo (s : State) (cluster : Nat) : Bool := bit (s.route (128 + s.gatewayTo cluster) cluster) 40

/-- The attachment of a byte of memory: its controller's even one for channels 0–7, the odd one for 8–15; the other when its
router is lost (R136, R152). -/
def State.attachOf (s : State) (addr : Nat) : Nat :=
  let o := addr % granuleBytes
  let m := (s.own (addr / granuleBytes)).mode
  s.aliveAttach (2 * (s.place addr).1 + channelOf m o / 8)

/-- The gateway's controller that a tile of a cluster takes to a crossbar (R139). -/
def gatewayOf (cluster bar : Nat) : Nat :=
  (if 4 ≤ cluster / 16 then 8 else 0) + (if bar = 0 then 0 else if bar = 1 then 3 else 7)

/-- The crossbar of an express stop. -/
def stopBar (stop : Nat) : Nat :=
  match stopPlace stop with
  | .bar k => k
  | .ctl _ => 1

/-- Whether a tile's packet to a target has a valid route from its cluster's interface (R139, R145). Between two tiles of one cluster it passes the
cluster switch only (R133). Of a gateway's two attachments it takes the even one. [DESIGN CHOICE, log 53] -/
def State.tileRoute (s : State) (t : Nat) (g : Target) : Bool :=
  match s.clusterOf t with
  | none => false
  | some c =>
    let gate (stop : Nat) : Bool := bit (s.route c (0x80 + s.aliveAttach (2 * gatewayOf c (stopBar stop)))) 40
    match g with
    | .mem a _ => bit (s.route c (0x80 + s.attachOf a)) 40
    | .scratch a => match s.clusterOf ((a - scratchBase) / 2 ^ 20) with
      | some d => d == c || bit (s.route c d) 40
      | none => false
    | .site a => gate (siteStop (siteOf a))
    | .host _ _ => gate hostStop
    | .peer _ _ _ => gate (fabStop 0)

/-- Whether the interfaces inject new requests: they stop between a commit and its switch-over (R151). -/
def State.injects (s : State) : Bool := s.noc.routesPend.isNone

/-- Whether a tile's packet to a target must wait for a switch-over; one to its own cluster never enters the router (R133, R151). -/
def State.tileWaits (s : State) (t : Nat) (g : Target) : Bool :=
  !s.injects && (match g with
    | .scratch a => s.clusterOf ((a - scratchBase) / 2 ^ 20) != s.clusterOf t
    | _ => true)

/-! ### Packets (R133, R140, R141) -/

/-- What the packets of the network carry (R141). -/
inductive Carried where
  | readReq | write (n : Nat) | atomic
  | readData | writeAck | snoopRsp | completion
  | snoop
  | moverData | mirrorData
  | regAccess | eventMsg | interrupt | wakeReq | routeUpdate
  | frame | decision | timeDist
  deriving DecidableEq, Repr

/-- The virtual network that carries it (R141). -/
def Carried.vnet : Carried → Vnet
  | .readReq => .req
  | .write n => if n ≤ 64 then .req else .bulk
  | .atomic => .req
  | .readData => .rsp
  | .writeAck => .rsp
  | .snoopRsp => .rsp
  | .completion => .rsp
  | .snoop => .snp
  | .moverData => .bulk
  | .mirrorData => .bulk
  | .regAccess => .mgmt
  | .eventMsg => .mgmt
  | .interrupt => .mgmt
  | .wakeReq => .mgmt
  | .routeUpdate => .mgmt
  | .frame => .rt
  | .decision => .rt
  | .timeDist => .rt

/-- Bytes that one packet carries at most: 224 in its first flit and 256 in each of the eight others, at most 2 KiB (R140). -/
def packetBytes : Nat := 2048

/-- The flits of a packet with a payload: the first holds 224 bytes of it, each later one 256 (R140). -/
def packetFlits (n : Nat) : Nat := 1 + (n - 224 + 255) / 256

/-- What a memory request's packet carries. -/
def carriedBy (r : MemReq) : Carried := match r.data with | some d => .write d.length | none => .readReq

/-- The packet of a request to a physical slot: it takes the local port of the slot's parity (R133). -/
def packetTo (r : MemReq) (p : Nat) : Packet :=
  { slot := p, port := p % 18 % 2, vnet := (carriedBy r).vnet, flits := packetFlits ((r.data.map List.length).getD 0), req := r }

/-! ### A packet at a scratch window (R60, R75, R149, R154) -/

/-- What an access through a scratch window meets before scratch: no map entry or route, interfaces that have stopped injecting, an express route
that is cut, a fenced slot, a sleeping quad, an offset beyond scratch, or scratch. -/
inductive Window where
  | unmapped | paused | cut | fenced | asleep | beyond | open_
  deriving DecidableEq, Repr

/-- Where an access comes from: a cluster of the torus, or an express stop. -/
inductive Source where
  | cluster (c : Nat)
  | stop (k : Nat)
  | none
  deriving DecidableEq, Repr

/-- The logical tile that a window address names, and the place within its window. -/
def windowTile (a : Nat) : Nat := (a - scratchBase) / 2 ^ 20
def windowOff (a : Nat) : Nat := (a - scratchBase) % 2 ^ 20

/-- What an access from a source meets on its way to a cluster: within one cluster it passes the switch only (R133), between clusters the source's own
entry counts (R139, R145), and from an express stop the gateway's. -/
def State.wayTo (s : State) (src : Source) (c : Nat) : Option Window :=
  match src with
  | .cluster d => if d = c then none else if !bit (s.route d c) 40 then some .unmapped else if !s.injects then some .paused else none
  | .stop k =>
    if !s.routeTo c then some .unmapped
    else if !s.injects then some .paused
    else if !s.expressOpen k (s.gatewayTo c / 2) then some .cut
    else none
  | .none => if !s.routeTo c then some .unmapped else if !s.injects then some .paused else none

/-- What an access that has reached the cluster of a tile finds at a place in its window. -/
def State.windowHere (s : State) (t off : Nat) : Window :=
  if s.tileFenced t then .fenced
  else if !s.quadRuns (s.quadOf t) then .asleep
  else if scratchBytes ≤ off then .beyond
  else .open_

/-- What an access from a source at a place in the window of a tile of cluster `c` meets. -/
def State.windowAt (s : State) (src : Source) (t off : Nat) (c : Option Nat) : Window :=
  match c with
  | none => .unmapped
  | some c => (s.wayTo src c).getD (s.windowHere t off)

/-- What an access at a window address meets. -/
def State.window (s : State) (src : Source) (a : Nat) : Window :=
  s.windowAt src (windowTile a) (windowOff a) (s.clusterOf (windowTile a))

/-- What a request does at a place in a window that it meets in a condition. [DEDUCED, log 56] -/
def State.windowMeet (s : State) (r : MemReq) (t off : Nat) (w : Window) : State :=
  let ones := match r.port, r.data with
    | _, some _ => s.answerAck r
    | .part id i, none => s.partDone id i (.error 0x0201)
    | _, none => s.answerBytes r (List.replicate r.len 0xFF)
  match w with
  | .unmapped => (s.answerRefused r).refusal blkNoc 0 8 r.addr
  | .paused => { s with noc := { s.noc with held := s.noc.held ++ [r] } }
  | .cut => s.strand r
  | .fenced => ones.refusal blkTile t 4 r.addr
  | .asleep =>
    ({ s with noc := { s.noc with eject := s.noc.eject ++ [packetTo r ((s.slotOf t).getD 0)] } }).wakeQuad (s.quadOf t)
  | .beyond =>
    (match r.data with
      | some _ => s.answerAck r
      | none => s.answerBytes r (List.replicate r.len 0)).refusal blkTile t 7 r.addr
  | .open_ =>
    match r.data with
    | none =>
      let (bs, s) := s.scrRead t off r.len r.ecc
      if bs.any (·.2) then s.answerPoison r else s.answerBytes r (bs.map (·.1))
    | some data =>
      ((enabledRuns data).foldl (fun (s : State) (p : Nat × List Byte) =>
        s.scrStore t (off + p.1) (p.2.map (fun b => (b, r.poison)))) s).answerAck r

/-- A request at a scratch window performed (R59, R60, R75, R149), or kept: at its source until a switch-over (R151), or in the ejection buffer of
a sleeping quad (R154). -/
def State.windowAccess (s : State) (r : MemReq) : State :=
  s.windowMeet r (windowTile r.addr) (windowOff r.addr) (s.window (.stop (s.reqStop r)) r.addr)

/-- A packet at the slot that it was sent to: a slot that no tile is bound to any more is fenced (R150). -/
def State.deliver (s : State) (p : Packet) : State :=
  match s.tileOfSlot p.slot with
  | some t => s.windowMeet p.req t (windowOff p.req.addr) (s.windowHere t (windowOff p.req.addr))
  | none => s.windowMeet p.req (windowTile p.req.addr) (windowOff p.req.addr) .fenced

/-- The physical quad of a packet's slot: 72 slots each (R132, R134). -/
def Packet.quad (p : Packet) : Nat := p.slot / 72

/-- Packets that wait for a quad delivered once its clock runs (R154). [DEDUCED, log 56] -/
def State.deliverEjected (s : State) (q : Nat) : State :=
  let here := s.noc.eject.filter (fun p => p.quad == q)
  let s := { s with noc := { s.noc with eject := s.noc.eject.filter (fun p => p.quad != q) } }
  here.foldl State.deliver s

end Sys2Proof.Machine
end

