-- ==== Sys2Proof/Machine/Regul.lean ====
section
/-! DEFINITION. Bandwidth and latency regulation: admission of floors at commit and steering at each epoch (chapter Bandwidth and latency regulation). Loads are kept exact: a load of 1 GB/s is `loadUnit`. -/
namespace Sys2Proof.Machine

/-- The scale in which every load of R188 is an integer: fractions of R164, shares of R187 and the factor m_h. -/
def loadUnit : Nat := 33660 * 112 * 100

/-- 1 / f of a pattern (R187), in units of 1 / 33,660; 0 for the reserved codes. -/
def patternCost (p : Nat) : Nat :=
  if p = 0 then 37400 else if p = 1 then 39600 else if p = 2 then 56100 else if p = 3 then 61200
  else if p = 4 then 102000 else if p = 5 then 224400 else 0

/-- The transaction size of a pattern in bytes (R187). -/
def patternSize (p : Nat) : Nat := if p ≤ 1 then 256 else if p ≤ 3 then 64 else 32

/-- Whether a controller is enabled: its stack serves memory. [DEDUCED, log 60] -/
def State.ctlEnabled (s : State) (h : Nat) : Bool :=
  bit (s.rd Reg.HBM_STATUS_present) (h / 2) || s.rd (Reg.HBM_STACK_STATUS_state (h / 2)) == 4

/-- The share of a placement at a controller in 112ths (R187). -/
def State.share (s : State) (placement h : Nat) : Nat :=
  if !s.ctlEnabled h then 0
  else if s.on Reg.HBM_STATUS_layout7 then
    let a := s.absentStack
    if placement = 0 then 8
    else if 1 ≤ placement ∧ placement ≤ 4 then
      if a / 2 = placement - 1 then (if h / 4 = placement - 1 then 28 else 0) + 4
      else if h / 4 = placement - 1 then 28 else 0
    else if 8 ≤ placement ∧ placement ≤ 15 then (if h / 2 = placement - 8 then 56 else 0)
    else 0
  else
    if placement = 0 then 7
    else if 1 ≤ placement ∧ placement ≤ 4 then (if h / 4 = placement - 1 then 28 else 0)
    else if 8 ≤ placement ∧ placement ≤ 15 then (if h / 2 = placement - 8 then 56 else 0)
    else 0

/-- Whether a placement code is reserved, or names a fused or absent stack (R187, R189). -/
def State.badPlacement (s : State) (placement : Nat) : Bool :=
  if placement ≤ 4 then false
  else if placement < 8 then true
  else !bit (s.rd Reg.HBM_STATUS_present) (placement - 8)

/-- The classes in the order in which loads are summed: STREAM first, then 0 to 43 (R189). [DESIGN CHOICE, log 72] -/
def loadOrder : List Nat := 44 :: List.range 44

/-- One floor of a class read from a register value: GB/s and pattern, read (w = 0) or write (w = 1). -/
def floorOf (v w : Nat) : Nat × Nat := if w = 0 then (bits v 15 0, bits v 34 32) else (bits v 31 16, bits v 38 36)

/-- Whether a controller carries a non-zero floor of one side in a set of class registers. -/
def State.carries (s : State) (set : Nat → Nat) (h w : Nat) : Bool :=
  loadOrder.any (fun c => (floorOf (set c) w).1 != 0 && s.share (bits (set c) 43 40) h != 0)

/-- m_h of R188 in per cent. -/
def State.mixFactor (s : State) (set : Nat → Nat) (h : Nat) : Nat :=
  if s.carries set h 0 && s.carries set h 1 then 105 else 100

/-- The load that one floor of a class puts on a controller (R188). -/
def State.floorLoad (s : State) (set : Nat → Nat) (h c w : Nat) : Nat :=
  (floorOf (set c) w).1 * patternCost (floorOf (set c) w).2 * s.share (bits (set c) 43 40) h * s.mixFactor set h

/-- load_h of a set of class registers (R188). -/
def State.ctlLoad (s : State) (set : Nat → Nat) (h : Nat) : Nat :=
  loadOrder.foldl (fun n c => n + s.floorLoad set h c 0 + s.floorLoad set h c 1) 0

/-- 0.95 × 1,638.4 GB/s (R188). -/
def loadLimit : Nat := 155648 * 33660 * 112

/-- The first floor whose addition carries some enabled controller over the limit, as 2 × class + w (R189). -/
def State.overload (s : State) (set : Nat → Nat) : Option Nat :=
  let steps := loadOrder.flatMap (fun c => [2 * c, 2 * c + 1])
  let ctls := (List.range 16).filter s.ctlEnabled
  (steps.foldl (fun (acc : Option Nat × List Nat) k =>
    match acc.1 with
    | some _ => acc
    | none =>
      let sums := (acc.2.zip ctls).map (fun (p : Nat × Nat) => p.1 + s.floorLoad set p.2 (k / 2) (k % 2))
      if sums.any (fun n => loadLimit < n) then (some k, sums) else (none, sums)) (none, ctls.map (fun _ => 0))).1

/-- The first field that breaks a field check, in class order (R189). -/
def State.badClassField (s : State) : Option Nat :=
  (List.range 45).findSome? (fun c =>
    let v := s.shd (Reg.REG_CLASS_FLOOR c)
    if bits v 34 32 % 2 = 1 ∨ 6 ≤ bits v 34 32 ∨ bits v 38 36 % 2 = 0 ∨ 6 ≤ bits v 38 36 ∨ s.badPlacement (bits v 43 40) = true then
      some (0x60 + c)
    else if c < 44 ∧ bits (s.shd (Reg.REG_CLASS_CTL c)) 15 0 < 100 then some (0x90 + c)
    else none)

/-- REG_CHECK loaded with the largest load_h, rounded up, and its controller (R189). -/
def State.showCheck (s : State) (set : Nat → Nat) : State :=
  let best := (List.range 16).foldl (fun (b : Nat × Nat) h => if b.2 < s.ctlLoad set h then (h, s.ctlLoad set h) else b) (0, 0)
  (s.wr Reg.REG_CHECK_controller best.1).wr Reg.REG_CHECK_load_gbps ((best.2 + loadUnit - 1) / loadUnit)

/-- REG_COMMIT (R188, R189, R194): the set is checked and, if accepted, captured for the next epoch boundary (R488). -/
def execRegCommit (v : Word) (s : State) : Host.Outcome State Fault Refusal :=
  if bits v.toNat 0 0 = 0 then .next s
  else
    let set := fun c => s.shd (Reg.REG_CLASS_FLOOR c)
    let s := s.showCheck set
    match s.badClassField with
    | some code => .next (s.commitRefused Reg.REG_COMMIT_STATUS code)
    | none =>
      match s.overload set with
      | some code => .next (s.commitRefused Reg.REG_COMMIT_STATUS code)
      | none =>
        let offs := (List.range 45).map Reg.REG_CLASS_FLOOR ++ (List.range 44).map Reg.REG_CLASS_CTL
        let cap := offs.map (fun o => (o, BitVec.ofNat 64 (s.shd o)))
        .next ({ s with regul := { s.regul with pend := some cap } }.commitDone Reg.REG_COMMIT_STATUS)

/-! ### Steering (R186, R190, R191, R192) -/

/-- The sums of rate_mbps over the open flows, and over those of them with filter tiles (R363). -/
def State.admitted (s : State) (filtered : Bool) : Nat :=
  (s.strm.flows.filter (fun p => bits (p.2.word 0) 10 8 != 2 && (!filtered || bits (p.2.word 5) 17 11 != 0))).foldl (fun n p => n + bits (p.2.word 4) 19 0) 0

/-- Whether the open flows exceed the STREAM floors. -/
def State.overAdmitted (s : State) : Bool :=
  decide (1000 * s.rd (Reg.REG_CLASS_FLOOR_wr_floor 44) < s.admitted false) || decide (1000 * s.rd (Reg.REG_CLASS_FLOOR_rd_floor 44) < s.admitted true)

/-- STRM_ADMIT shown. -/
def State.showAdmit (s : State) : State :=
  (s.wr Reg.STRM_ADMIT_admitted_mbps (s.admitted false)).wr Reg.STRM_ADMIT_limit_mbps (1000 * s.rd (Reg.REG_CLASS_FLOOR_wr_floor 44))

/-- A captured set put in force; floors lowered below the open flows give an event (R363, R515). -/
def State.applySet (s : State) (set : List (Nat × DWord)) : State :=
  let t := (set.foldl (fun s p => s.setReg p.1 (takeRwc p.1 (s.reg p.1) p.2.toNat)) s).showAdmit
  if !s.overAdmitted && t.overAdmitted then t.event blkReg 0x0C 0 44 (44 + t.admitted false * 2 ^ 32) else t

/-- The need of a class (R190): its demand, or the transactions in flight that its floor requires by Little's law. -/
def State.need (s : State) (h : Nat) (k : ClassSample) : Nat :=
  let v := s.reg (Reg.REG_CLASS_FLOOR k.cls)
  let f := floorOf v (if k.demandRd < k.demandWr then 1 else 0)
  let p := s.latPair k.cls h
  let num := f.1 * s.share (bits v 43 40) h * p.2
  let den := 112 * patternSize f.2 * p.1
  min (k.demandRd + k.demandWr) ((num + den - 1) / den)

/-- The thermal step of R191 for a class at a controller. -/
def State.thermalLimit (s : State) (h c limit : Nat) : Nat :=
  let t := s.rd (Reg.HBM_STACK_STATUS_state (h / 2))
  if t = 2 then (if c = 33 then limit else limit / 2)
  else if t = 3 then (if c = 33 then limit / 2 else limit / 4)
  else limit

/-- Limits cut, in order, so that they never exceed 2,048 in all with the 32 of MGMT. [DESIGN CHOICE, log 68] -/
def capLimits : Nat → List (Nat × Nat) → List (Nat × Nat)
  | _, [] => []
  | room, (c, n) :: t => (c, min n room) :: capLimits (room - min n room) t

/-- A class's sample at a controller: nothing asked and nothing answered when the controller reports none. -/
def sampleOf (k : CtlSample) (c : Nat) : ClassSample :=
  (k.classes.find? (fun x => x.cls == c)).getD { cls := c, demandRd := 0, demandWr := 0, latCount := 0, latSum := 0, served := 0 }

/-- What one controller's epoch decides (R190): the new budget, whether it is short, b in per cent, and each class's limit. -/
def State.steer (s : State) (k : CtlSample) : Nat × Bool × Nat × List (Nat × Nat) :=
  let h := k.ctl
  let r0 := s.rd (Reg.REG_CTL_STAT_r h)
  let cap := 2016
  let r := if 1792 < k.occ then r0 - r0 / 8 else if k.occ < 1024 then min cap (r0 + 64) else r0
  let dem (x : ClassSample) : Nat := x.demandRd + x.demandWr
  let stream := min (dem (sampleOf k 44)) cap
  let avail := r - stream
  let others := (List.range 44).map (fun c => (sampleOf k c, s.need h (sampleOf k c)))
  let needs := others.foldl (fun n x => n + x.2) 0
  let overs := others.foldl (fun n x => n + (dem x.1 - x.2)) 0
  let raw (x : ClassSample × Nat) : Nat :=
    if needs ≤ avail then
      x.2 + (if overs = 0 then 0 else min (dem x.1 - x.2) ((dem x.1 - x.2) * (avail - needs) / overs))
    else x.2 * avail / needs
  let lim (x : ClassSample × Nat) : Nat :=
    let t := s.thermalLimit h x.1.cls (raw x)
    if 0 < dem x.1 then max 1 t else t
  (r, decide (avail < needs), if needs ≤ avail then 100 else avail * 100 / needs,
    capLimits cap ((44, stream) :: others.map (fun x => (x.1.cls, lim x))))

/-- The causes of a shortfall at a controller as the mask of R466: bit 0 doubled refresh, 1 thermal throttling, 2 STREAM above
its floor, and 3 pattern when there is none of these (R192). -/
def State.shortCauses (s : State) (k : CtlSample) : Nat :=
  let t := s.rd (Reg.HBM_STACK_STATUS_state (k.ctl / 2))
  let v := s.reg (Reg.REG_CLASS_FLOOR 44)
  let served := match k.classes.find? (fun x => x.cls == 44) with | some x => x.served | none => 0
  let above := decide ((bits v 15 0 + bits v 31 16) * s.share (bits v 43 40) k.ctl < served * 112)
  let m := ofBool (decide (1 ≤ t ∧ t ≤ 3)) + 2 * ofBool (decide (2 ≤ t ∧ t ≤ 3)) + 4 * ofBool above
  if m = 0 then 8 else m

/-- An ended epoch's latencies of a class at a controller taken into its history of four (R186). -/
def State.latEpoch (s : State) (h : Nat) (x : ClassSample) : State :=
  let l := s.regul.lats.get [] (x.cls * 16 + h)
  { s with regul := { s.regul with lats := s.regul.lats.put (x.cls * 16 + h) ((l ++ [(x.latCount, x.latSum)]).drop (l.length + 1 - 4)) } }

/-- One class's epoch at a controller, with the limit that steering gives it: priority step and its event, and the count of epochs
below the floor: with demand and fewer credits than its need (R186, R192). -/
def State.classEpoch (s : State) (k : CtlSample) (x : ClassSample) (limit : Nat) : State :=
  let h := k.ctl
  let key := x.cls * 16 + h
  let step := s.stepOf x.cls h
  -- 1 ms at step 3 raises a latency event, at most one per class in each 1 ms
  let s :=
    if step < 3 then { s with regul := { s.regul with step3Since := s.regul.step3Since.del key } }
    else match s.regul.step3Since.find? (fun p => p.1 == key) with
      | none => { s with regul := { s.regul with step3Since := s.regul.step3Since.put key s.now } }
      | some (_, t0) =>
        let last := s.regul.latEvtAt.find? (fun p => p.1 == x.cls)
        if s.now - t0 < msUnits ∨ (match last with | some (_, l) => decide (s.now - l < msUnits) | none => false) = true then s
        else ({ s with regul := { s.regul with latEvtAt := s.regul.latEvtAt.put x.cls s.now } }).event blkReg 0x0C 0 x.cls
          (x.cls + h * 2 ^ 8)
  -- four epochs below the floor raise OVERSUB, once until the class has been at its floor everywhere for 1 ms
  let short := decide (0 < x.demandRd + x.demandWr ∧ limit < s.need h x)
  let n : Nat := if short then s.regul.below.get 0 key + 1 else 0
  let s := { s with regul := { s.regul with below := s.regul.below.put key n } }
  if 4 ≤ n then
    let s := { s with regul := { s.regul with lastBelow := s.regul.lastBelow.put x.cls s.now } }
    if s.regul.oversubbed.contains x.cls then s
    else (({ s with regul := { s.regul with oversubbed := s.regul.oversubbed ++ [x.cls] } }).sat Reg.REG_STATUS_oversub_events 1).event
      blkReg 0x0C 0 x.cls (x.cls + h * 2 ^ 8 + s.shortCauses k * 2 ^ 12)
  else s

/-- Whether a class is below its floor at some controller (R192). -/
def State.classBelow (s : State) (c : Nat) : Bool := (List.range 16).any (fun h => 4 ≤ s.regul.below.get 0 (c * 16 + h))

/-- One controller's epoch (R190): the latencies of the epoch, the limits that steering makes of them, its classes, and REG_CTL_STAT. -/
def State.ctlEpoch (s : State) (k : CtlSample) : State :=
  let s := (List.range 44).foldl (fun s c => s.latEpoch k.ctl (sampleOf k c)) s
  let d := s.steer k
  let s := (List.range 44).foldl (fun s c =>
    s.classEpoch k (sampleOf k c) (((d.2.2.2.find? (fun (p : Nat × Nat) => p.1 == c)).map Prod.snd).getD 0)) s
  let s := { s with regul := { s.regul with limits := d.2.2.2.foldl (fun (m : Sparse Nat) (p : Nat × Nat) => m.put (p.1 * 16 + k.ctl) p.2) s.regul.limits } }
  (((s.wr (Reg.REG_CTL_STAT_r k.ctl) d.1).wr (Reg.REG_CTL_STAT_short k.ctl) (ofBool d.2.1)).wr
    (Reg.REG_CTL_STAT_b_pct k.ctl) d.2.2.1).wr (Reg.REG_CTL_STAT_occ k.ctl) k.occ

/-! ### Descriptors below their class's floor (R193) -/

/-- The class under which a ring's descriptors run, for those classes whose descriptors report OVERSUB; a dispatch runs under its quads'. -/
def State.runClass (s : State) (r : Nat) : Option Nat :=
  let k := s.rd (Reg.QM_RING_CFG_class r)
  if k = clsMover ∨ k = clsCrc then some 32 else if k = clsColl then some 33 else if k = clsStream then some 44 else none

/-- Every running descriptor whose class is below its floor marked: its execution overlaps the period (R193). -/
def State.markBelow (s : State) : State :=
  let quads := (List.range 32).filter s.classBelow
  let tiles := s.tiles.filterMap (fun p => match p.2.run with
    | some d => if quads.contains (s.quadOf p.1) then some (d.ring, d.seq) else none
    | none => none)
  let low := [32, 33].filter s.classBelow
  if quads.isEmpty && low.isEmpty then s
  else
    let s := s.rings.foldl (fun (s : State) p =>
      if (match s.runClass p.1 with | some c => low.contains c | none => false) then
        p.2.issued.foldl (fun (s : State) d => s.updRun p.1 d.seq (fun (d : Run) => { d with oversub := true })) s
      else s) s
    tiles.foldl (fun (s : State) p => s.updRun p.1 p.2 (fun (d : Run) => { d with oversub := true })) s

/-- The class status registers and REG_STATUS brought up to date (R194). -/
def State.showClasses (s : State) (samples : List CtlSample) : State :=
  let s := (List.range 44).foldl (fun s c =>
    let here := samples.flatMap (fun k => (k.classes.filter (fun x => x.cls == c)).map (fun x => (k.ctl, x)))
    if here.isEmpty then s
    else
      let served := here.foldl (fun n p => n + p.2.served) 0
      let lat := (List.range 16).foldl (fun m h => max m ((s.latPair c h).2 / (s.latPair c h).1)) 0
      let step := (List.range 16).foldl (fun m h => max m (s.stepOf c h)) 0
      s.setReg (Reg.REG_CLASS_STAT c) (min lat 65535 + step * 2 ^ 16 + ofBool (s.classBelow c) * 2 ^ 18 + min served 65535 * 2 ^ 32)) s
  let below := ((List.range 44).filter s.classBelow).length
  let short := (List.range 16).any (fun h => s.on (Reg.REG_CTL_STAT_short h))
  let s := (s.wr Reg.REG_STATUS_below below).wr Reg.REG_STATUS_short (ofBool short)
  { s with regul := { s.regul with oversubbed := s.regul.oversubbed.filter (fun c =>
      s.classBelow c || decide (s.now - s.regul.lastBelow.get 0 c < msUnits)) } }

/-- REG_EPOCH (R190, R194): a pending set comes into force, then every controller steers by its sample. -/
def execRegEpoch (samples : List CtlSample) (s : State) : Host.Outcome State Fault Refusal :=
  let s := match s.regul.pend with
    | some set => ({ s with regul := { s.regul with pend := none } }).applySet set
    | none => s
  let s := { s with regul := { s.regul with epochs := s.regul.epochs + 1 } }
  let s := (samples.filter (fun k => decide (k.ctl < 16))).foldl State.ctlEpoch s
  .next (s.showClasses samples).markBelow

end Sys2Proof.Machine
end

