-- ==== Sys2Proof/Machine/Access.lean ====
section
/-! DEFINITION. An engine's access to any target: memory, scratch, a site aperture, host memory and a peer package (R197, R207, R299, R300, R322, R324, R325, R327, R460). -/
namespace Sys2Proof.Machine

/-- What one access gives its engine: the bytes of a read (none of a write), a failure with its status, or a wait: the engine
asks again when it next moves. -/
inductive Got where
  | data (bytes : List PByte)
  | fail (status : Nat)
  | wait
  deriving DecidableEq, Repr

/-! ### Outstanding requests (R207) -/

/-- An outstanding request of an engine to a target, if it has one. -/
def State.outReq (s : State) (who : Who) (tgt : Target) (write : Bool) : Option OutReq :=
  s.acc.outq.find? (fun o => o.who == who && o.tgt == tgt && o.write == write)

/-- A new outstanding request: its tag and the state that holds it. [DESIGN CHOICE, log 73] -/
def State.newReq (s : State) (who : Who) (tgt : Target) (write : Bool) (len ctx : Nat) (seg : Option (Nat × Nat)) (bytes : List (Option PByte)) :
    Nat × State :=
  let lines : List (Option (List PByte)) := match tgt with | .site a => (lineLens a len).map (fun _ => none) | _ => []
  let o : OutReq := { id := s.acc.nextId, who := who, tgt := tgt, write := write, len := len, ctx := ctx, seg := seg, bytes := bytes,
                      lines := lines, ans := none }
  (o.id, { s with acc := { s.acc with outq := s.acc.outq ++ [o], nextId := s.acc.nextId + max 1 lines.length } })

/-- An outstanding request ended. -/
def State.dropReq (s : State) (id : Nat) : State :=
  { s with acc := { s.acc with outq := s.acc.outq.filter (fun (o : OutReq) => o.id != id) } }

/-- Whether an engine still has requests outstanding. -/
def State.outstanding (s : State) (who : Who) : Bool := s.acc.outq.any (fun o => o.who == who)

/-- The requests of an engine forgotten: their late responses find nothing. -/
def State.dropReqs (s : State) (who : Who) : State :=
  let s := s.leaveMemory (· == who)
  { s with acc := { s.acc with outq := s.acc.outq.filter (fun (o : OutReq) => o.who != who) } }

/-- An answer to an outstanding request. An answered write ends at once, with its error noted in its descriptor or its tile's
dispatch; an answered read waits for its engine. [DESIGN CHOICE, log 73; DEDUCED, log 74] -/
def State.answerReq (s : State) (id : Nat) (a : Answer) : State :=
  match s.acc.outq.find? (fun o => o.id == id) with
  | none => s
  | some o =>
    match o.who with
    | .site n tag => match o.write, a with
      | true, .error e => (s.dropReqs o.who).answerSite n tag true (.error e)
      | w, _ => if w && (s.dropReq id).outstanding o.who then s.dropReq id else (s.dropReq id).answerSite n tag w a
    | .part j i => (s.dropReq id).partDone j i a
    | _ =>
    if o.write then
      let s := s.dropReq id
      match a, o.who with
      | .error st, .run r q => s.noteErr r q st
      | .error st, .gone (some (r, q)) => s.noteErr r q st
      | .error st, .tile t _ => s.endKernel t st 0
      | .error st, .coll e k => match s.coll.slots.find? (fun p => p.1 == e * 4 + k) with
        | some p => s.noteErr p.2.ring p.2.seq st
        | none => s
      | .error st, .mirror n => match s.coll.mirrors.find? (fun p => p.1 == n) with
        | some p => { s with coll := { s.coll with mirrors := s.coll.mirrors.put n { p.2 with fault := if p.2.fault = 0 then st else p.2.fault } } }
        | none => s
      | _, _ => s
    else match o.who with
    | .gone _ => s.dropReq id
    | _ => { s with acc := { s.acc with outq := s.acc.outq.map (fun (x : OutReq) => if x.id = id then { x with ans := some a } else x) } }

/-! ### Host memory (R299, R300, R301) -/

/-- Whether an outbound request is sent now, waits for D0, or is not sent (R299, R304, R306, R310). -/
inductive Outbound where
  | send (addr : Nat)
  | wait
  | no
  | noKey
  deriving DecidableEq, Repr

/-- The fate of an outbound request of a context at an aperture address with a key slot (R299, R304, R306, R310, R445). -/
def State.outbound (s : State) (a n slot ctx : Nat) (acc : Acc) : Outbound :=
  let o := (a - hostBase) / 2 ^ 37
  let v := s.reg (Reg.HOST_OB o)
  let addr := bits v 63 12 * 4096 + (a - hostBase) % 2 ^ 37
  let grant := match acc with | .read => bit v 1 | .write => bit v 2 | .atomic => bit v 3
  if s.rd Reg.HOST_STATUS_dstate = 3 then .wait
  else if !bit v 0 || !grant || decide (2 ^ 64 ≤ addr + n - 1) then .no
  else if !s.on Reg.HOST_STATUS_link_up || !s.host.busMaster then .no
  else if decide (1 ≤ slot ∧ slot ≤ 8) && s.rd Reg.HOST_STATUS_tdisp == 3 then .no
  else if slot == 0 && ctx != 0 && (s.rd Reg.HOST_STATUS_tdisp == 1 || s.rd Reg.HOST_STATUS_tdisp == 2) then .no
  else if !s.hostSlotReady slot then .noKey
  else .send addr

/-- An outbound request ended with HOST_ERROR or POISON counted (HOST_ERR). -/
def State.countHost (s : State) : State := s.sat Reg.HOST_ERR_outbound_err 1

/-- A read of host memory: sent once, then waited for. -/
def State.readHost (s : State) (who : Who) (ctx : Nat) (seg : Option (Nat × Nat)) (a slot n : Nat) : Got × State :=
  match s.outReq who (.host a slot) false with
  | some o =>
    match o.ans with
    | none => (.wait, s)
    | some (.data bs) => (.data bs, s.dropReq o.id)
    | some .done => (.data [], s.dropReq o.id)
    | some (.error st) => (.fail st, s.dropReq o.id)
  | none =>
    match s.outbound a n slot ctx .read with
    | .wait => (.wait, s)
    | .no => (.fail stHostError, s.countHost)
    | .noKey => (.fail stHostError, s.countHost.refusal blkHost 0 0x0D a)
    | .send addr =>
      let (id, s) := s.newReq who (.host a slot) false n ctx seg []
      (.wait, s.send (.hostRead slot id addr n))

/-- A posted write to host memory (R300, R301): poison goes as the TLP's EP bit. -/
def State.writeHost (s : State) (ctx a slot : Nat) (bs : List PByte) : Got × State :=
  match s.outbound a bs.length slot ctx .write with
  | .wait => (.wait, s)
  | .no => (.fail stHostError, s.countHost)
  | .noKey => (.fail stHostError, s.countHost.refusal blkHost 0 0x0D a)
  | .send addr => (.data [], s.send (.hostWrite slot addr (bs.map (·.1)) (bs.any (·.2))))

/-! ### A site's aperture (R46, R47, R280) -/

/-- The aperture messages of a request sent, one for each line (R279). -/
def State.sendSiteReq (s : State) (n id : Nat) : State :=
  match s.acc.outq.find? (fun o => o.id == id) with
  | none => s
  | some o => o.siteMsgs.foldl (fun (s : State) (p : Nat × SiteMsg) => s.toSite n p.1 p.2) s

/-- A read of a site's aperture, by aperture messages. [DEDUCED, log 71] -/
def State.readSite (s : State) (who : Who) (ctx : Nat) (seg : Option (Nat × Nat)) (a n : Nat) : Got × State :=
  match s.outReq who (.site a) false with
  | some o =>
    match o.ans with
    | none => (.wait, s)
    | some (.data bs) => (.data bs, s.dropReq o.id)
    | some .done => (.data [], s.dropReq o.id)
    | some (.error st) => (.fail st, s.dropReq o.id)
  | none =>
    if !s.siteOpen (siteOf a) then (.fail stSiteDark, s)
    else if n = 0 then (.data [], s)
    else
      let (id, s) := s.newReq who (.site a) false n ctx seg []
      (.wait, s.sendSiteReq (siteOf a) id)

/-- A write of the enabled bytes to a site's aperture: it issues now, and its responses are waited for before it has drained. -/
def State.writeSite (s : State) (who : Who) (ctx : Nat) (seg : Option (Nat × Nat)) (a : Nat) (bs : List (Option PByte)) : Got × State :=
  if !s.siteOpen (siteOf a) then (.fail stSiteDark, s)
  else if bs = [] then (.data [], s)
  else
    let (id, s) := s.newReq who (.site a) true bs.length ctx seg bs
    (.data [], s.sendSiteReq (siteOf a) id)

/-! ### Peer memory (R322, R324, R325, R327) -/

/-- The connection that carries a peer request, or none when it completes with PEER_UNREACHABLE (R319, R322, R327). [DEDUCED, log 106] -/
def State.peerConn (s : State) (dev slot : Nat) : Option Nat :=
  match s.connFor dev slot with
  | none => none
  | some e => if s.connRd e Reg.FAB_CONN_DATA_state = 1 ∨ s.connRd e Reg.FAB_CONN_DATA_state = 2 then some e else none

/-- A request that finds no connection: PEER_UNREACHABLE at once, with an event when none is enabled (R322). -/
def State.unreachable (s : State) (dev slot : Nat) : State :=
  match s.connFor dev slot with
  | none => s.event blkFab 10 3 0 (dev * 2 ^ 32)
  | some _ => s

/-- A read of peer memory. -/
def State.readPeer (s : State) (who : Who) (ctx : Nat) (seg : Option (Nat × Nat)) (dev a slot n : Nat) : Got × State :=
  match s.outReq who (.peer dev a slot) false with
  | some o =>
    match o.ans with
    | none => (.wait, s)
    | some (.data bs) => (.data bs, s.dropReq o.id)
    | some .done => (.data [], s.dropReq o.id)
    | some (.error st) => (.fail st, s.dropReq o.id)
  | none =>
    match s.peerConn dev slot with
    | none => (.fail stPeerUnreachable, s.unreachable dev slot)
    | some e =>
      let (id, s) := s.newReq who (.peer dev a slot) false n ctx seg []
      (.wait, s.sendMsg e { FabMsg.make 2 a [] false id (some id) with len := n })

/-- A write to peer memory: it issues now, and has drained when its acknowledgement has arrived. -/
def State.writePeer (s : State) (who : Who) (ctx : Nat) (seg : Option (Nat × Nat)) (dev a slot : Nat) (bs : List PByte) : Got × State :=
  match s.peerConn dev slot with
  | none => (.fail stPeerUnreachable, s.unreachable dev slot)
  | some e =>
    let (id, s) := s.newReq who (.peer dev a slot) true bs.length ctx seg (bs.map some)
    (.data [], s.sendMsg e (FabMsg.make 1 a (bs.map (·.1)) (bs.any (·.2)) id (some id)))

/-! ### Scratch windows -/

/-- A read of a place in a scratch window that it meets in a condition. -/
def State.readWindowAs (s : State) (a t off n : Nat) (w : Window) : Got × State :=
  match w with
  | .unmapped => (.fail stNocTimeout, s.refusal blkNoc 0 8 a)
  | .paused => (.wait, s)
  | .cut => (.wait, s)
  | .fenced => (.data (List.replicate n (0xFF, false)), s.refusal blkTile t 4 a)
  | .asleep => (.wait, s.wakeQuad (s.quadOf t))
  | .beyond => (.data (List.replicate n (0, false)), s.refusal blkTile t 7 a)
  | .open_ => let (bs, s) := s.scrRead t off n .clean; (.data bs, s)

/-- Where an engine's access comes from: a tile's cluster, its express stop, or nowhere that the spec names. -/
def State.whoSource (s : State) (who : Who) : Source :=
  match who with
  | .tile t _ => match s.clusterOf t with | some c => .cluster c | none => .none
  | w => match s.whoStop w with | some k => .stop k | none => .none

/-- A read of a scratch window by an engine. -/
def State.readWindow (s : State) (src : Source) (a n : Nat) : Got × State :=
  s.readWindowAs a (windowTile a) (windowOff a) n (s.window src a)

/-- A write to a place in a scratch window that it meets in a condition. -/
def State.writeWindowAs (s : State) (a t off : Nat) (bs : List PByte) (w : Window) : Got × State :=
  match w with
  | .unmapped => (.fail stNocTimeout, s.refusal blkNoc 0 8 a)
  | .paused => (.wait, s)
  | .cut => (.wait, s)
  | .fenced => (.data [], s.refusal blkTile t 4 a)
  | .asleep => (.wait, s.wakeQuad (s.quadOf t))
  | .beyond => (.data [], s.refusal blkTile t 7 a)
  | .open_ => (.data [], s.scrStore t off bs)

/-- A write to a scratch window by an engine. -/
def State.writeWindow (s : State) (src : Source) (a : Nat) (bs : List PByte) : Got × State :=
  s.writeWindowAs a (windowTile a) (windowOff a) bs (s.window src a)

/-! ### Any target -/

/-- How many of n bytes at a target one access may take: it stays within a granule, a window or its scratch part, and an outbound
entry. -/
def Target.room (t : Target) (n : Nat) : Nat :=
  let cut (a m : Nat) := min n (m - a % m)
  match t with
  | .mem a _ => cut a granuleBytes
  | .scratch a => let off := windowOff a
    if off < scratchBytes then min n (scratchBytes - off) else min n (2 ^ 20 - off)
  | .site a => cut a siteSpan
  | .host a _ => cut a (2 ^ 37)
  | .peer _ _ _ => n

/-- A target some bytes on. -/
def Target.shift (t : Target) (k : Nat) : Target :=
  match t with
  | .mem a c => .mem (a + k) c
  | .scratch a => .scratch (a + k)
  | .site a => .site (a + k)
  | .host a slot => .host (a + k) slot
  | .peer d a slot => .peer d (a + k) slot

/-- The express stop of a target outside the torus, if one is named for it. -/
def State.targetStop (s : State) (t : Target) : Option Nat :=
  match t with
  | .mem a _ => some (s.place a).1
  | .scratch _ => none
  | .site a => some (siteStop (siteOf a))
  | .host _ _ => some hostStop
  | .peer dev _ _ => some (fabStop ((s.nextPort dev 0).getD 0))

/-- Whether an engine's packets reach a target: its express route is not cut (R138, R151). A tile reaches memory over the torus. -/
def State.reaches (s : State) (who : Who) (t : Target) : Bool :=
  match s.whoStop who, s.targetStop t with
  | some a, some b => s.expressOpen a b
  | _, _ => true

/-- Whether an agent's transfers are followed until they drain (R206, R208): movers, check-value units, collectives and the tile DMA. -/
def Who.moves : Who → Bool
  | .run _ _ => true
  | .tile _ _ => true
  | .coll _ _ => true
  | _ => false

/-- An access to memory that waits at the home or in a park buffer held as an outstanding request (R207). -/
def State.memIssued (s : State) (who : Who) (ctx : Nat) (seg : Option (Nat × Nat)) (t : Target) (write : Bool) (n : Nat) : State :=
  if !who.moves || (s.outReq who t write).isSome then s else (s.newReq who t write n ctx seg []).2

/-- An access to memory that has ended is outstanding no more. -/
def State.memEnded (s : State) (who : Who) : State :=
  { s with acc := { s.acc with outq := s.acc.outq.filter (fun (o : OutReq) => !(o.who == who && o.inMemory)) } }

/-- The transfer of an agent that is under way: a read, or a write that waits at the home. It completes under the translation it was issued with
(R208). -/
def State.going (s : State) (who : Who) (write : Bool) : Option OutReq :=
  s.acc.outq.find? (fun o => o.who == who && o.write == write && (!write || o.inMemory))

/-- Read n bytes at a target for an engine whose requests carry a context (R198, R202). -/
def State.readAt (s : State) (who : Who) (ctx : Nat) (seg : Option (Nat × Nat)) (t : Target) (n : Nat) : Got × State :=
  if !s.reaches who t then (.wait, s)
  else match t with
  | .mem a coh =>
    let (ready, s) := if coh then s.cohReady who a n false else (true, s)
    if !ready then (.wait, s.memIssued who ctx seg t false n)
    else match s.agentRead who (.ctx ctx) a n .clean with
      | (.data bs, s) =>
        let s := s.memEnded who
        if coh then (.data (s.overlay who a bs), s.cohEnd who a n) else (.data bs, s)
      | (.refused, s) => (.fail stOwnerFault, if coh then (s.memEnded who).cohEnd who a n else s.memEnded who)
      | (.wait, s) => (.wait, if s.hbm.engPark.any (fun p => p.1 == who) then s.memIssued who ctx seg t false n else s)
  | .scratch a => s.readWindow (s.whoSource who) a n
  | .site a => s.readSite who ctx seg a n
  | .host a slot => s.readHost who ctx seg a slot n
  | .peer d a slot => s.readPeer who ctx seg d a slot n

/-- Write bytes at a target for an engine (R198, R202, R460). A write that a halted stack ends completes with POISON (R174). -/
def State.writeAt (s : State) (who : Who) (ctx : Nat) (seg : Option (Nat × Nat)) (t : Target) (bs : List PByte) : Got × State :=
  if !s.reaches who t then (.wait, s)
  else match t with
  | .mem a coh =>
    let (ready, s) := if coh then s.cohReady who a bs.length true else (true, s)
    if !ready then (.wait, s.memIssued who ctx seg t true bs.length)
    else match s.agentWrite who (.ctx ctx) a bs with
      | (.wait, s) => (.wait, s)
      | (got, s) =>
        let s := s.memEnded who
        (match got with | .data [] => .data [] | .data _ => .fail stPoison | _ => .fail stOwnerFault, if coh then s.cohEnd who a bs.length else s)
  | .scratch a => s.writeWindow (s.whoSource who) a bs
  | .site a => s.writeSite who ctx seg a (bs.map some)
  | .host a slot => s.writeHost ctx a slot bs
  | .peer d a slot => s.writePeer who ctx seg d a slot bs

/-- The enabled bytes of a masked write put at a target, run by run: the bytes between them keep their values (R278). -/
def State.writeMasked (s : State) (who : Who) (ctx : Nat) (seg : Option (Nat × Nat)) (t : Target) (bs : List (Option Byte)) (poison : Bool) : Got × State :=
  (enabledRuns bs).foldl (fun (p : Got × State) (r : Nat × List Byte) =>
    match p.1 with
    | .data _ => p.2.writeAt who ctx seg (t.shift r.1) (r.2.map (fun b => (b, poison)))
    | _ => p) (.data [], s)

end Sys2Proof.Machine
end

