-- ==== Sys2Proof/Machine/Rings.lean ====
section
/-! DEFINITION. Rings and doorbells: fetching, translation at issue, faults, completion records, interrupts, RESTART, ABORT and QM_COMMIT (chapter Rings, doorbells and engines). -/
namespace Sys2Proof.Machine

/-! ### Slots (R217) -/

/-- The address of a ring slot or completion slot, with the target that reaches it (R217). -/
def State.ringTarget (s : State) (r base off : Nat) : Target :=
  if hostBase ≤ base + off then .host (base + off) (s.rd (Reg.QM_RING_CFG_key_slot r)) else .mem (base + off) false

/-! ### Access to the function's BARs (R294, R304, R310) -/

/-- Whether the endpoint serves a BAR access. -/
def State.barOk (s : State) : BusSrc → Bool
  | .firmware => true
  | .host tee =>
    s.host.memEnable && s.rd Reg.HOST_STATUS_dstate == 0 && s.on Reg.HOST_STATUS_link_up &&
    (match s.rd Reg.HOST_STATUS_tdisp, tee with
      | 2, some k => bit (s.rd Reg.HOST_STATUS_ide_secure) k
      | 2, none => false
      | 3, some _ => false
      | _, _ => true)

/-- An inbound request answered as Unsupported Request (R296, R514). -/
def State.unsupportedReq (s : State) (off : Nat) : State :=
  (s.sat Reg.HOST_ERR_inbound_ur 1).refusal blkHost 0 0x0E off

/-- An access to a BAR carried out when the endpoint serves it, else answered as Unsupported Request. -/
def State.gated (s : State) (src : BusSrc) (off size : Nat) (f : State → State) : State :=
  if s.barOk src then f s else (s.unsupportedReq off).send (.unsupported off size)

/-! ### Descriptors (R225, R226, R228, R232, R234) -/

/-- The opcode of a format-2 descriptor. -/
def opOf (b : List Byte) : Nat := descBits b 0 7 0

/-- Whether the reserved header fields hold 0 and fmt is 0x02 (R225, R226); count belongs to hampers. -/
def headerOk (b : List Byte) (hamper : Bool) : Bool :=
  descBits b 0 31 24 == 2 && descBits b 0 15 11 == 0 && descBits b 0 23 22 == 0 && descBits b 0 63 32 == 0 &&
  (hamper || descBits b 0 21 16 == 0)

/-- Whether bytes of a descriptor from an offset up are all 0. -/
def zeroFrom (b : List Byte) (off n : Nat) : Bool := ((b.drop off).take n).all (· == 0)

/-- The opcodes of a class (R225). -/
def opInClass (cls op : Nat) : Bool :=
  op == 0 || op == 1 ||
  (cls == clsMover && (op == 0x10 || op == 0x11 || op == 0x12)) ||
  (cls == clsCompute && op == 0x20) ||
  (cls == clsCrc && decide (0x30 ≤ op ∧ op ≤ 0x33)) ||
  (cls == clsColl && (decide (0x40 ≤ op ∧ op ≤ 0x44) || decide (0x50 ≤ op ∧ op ≤ 0x52))) ||
  (cls == clsStream && (op == 0x60 || op == 0x61))

/-- Whether a descriptor's opcode is one of its ring's: format-1 opcodes on a legacy ring (R234), else those of its class. -/
def State.knownOp (s : State) (r : Nat) (b : List Byte) : Bool :=
  if s.on (Reg.QM_RING_CFG_legacy r) then decide (descBits b 0 15 0 ≤ 2)
  else headerOk b (opOf b == 1) && opInClass (s.ringCls r) (opOf b)

/-- The length that a legacy descriptor names. -/
def legacyLen (b : List Byte) : Nat := descBits b 0 63 32

/-- Bytes of an element of a collective in memory by fmt (R341). -/
def collBytes (fmt : Nat) : Nat :=
  if fmt = 0 then 2 else if fmt = 1 then 4 else if fmt = 2 then 8 else if fmt = 3 then 4 else if fmt = 4 then 8 else 16

/-- The address fields of a collective (R341): a piece's length is known once the communicator record has been read, and a BROADCAST's source only
matters at its root, so a piece is checked whole, and that source at all, when it is accessed. [DEDUCED, log 69] -/
def collFields (b : List Byte) : List (Nat × Nat × Acc) :=
  let a (off : Nat) := descBits b off 55 0
  let whole := descBits b 0x18 39 0 * collBytes (descBits b 0x18 42 40)
  let op := opOf b
  let comm := (a 0x20, 16, Acc.read)
  if op = 0x44 then [comm]
  else if op = 0x43 then [(a 16, whole, .write), comm]
  else [(a 8, if op = 0x42 then 1 else whole, .read), (a 16, if op = 0x41 then 1 else whole, .write), comm]

/-- The address fields of a descriptor: each address, the whole length it names and the access made (R203, R216). -/
def State.addrFields (s : State) (r : Nat) (b : List Byte) : List (Nat × Nat × Acc) :=
  let a (off : Nat) := descBits b off 55 0
  if s.on (Reg.QM_RING_CFG_legacy r) then
    if descBits b 0 15 0 = 1 then [(descBits b 8 47 0, legacyLen b, .read), (descBits b 16 47 0, legacyLen b, .write)]
    else if descBits b 0 15 0 = 2 then [(descBits b 16 47 0, legacyLen b, .write)]
    else []
  else match opOf b with
    | 0x01 => [(a 8, descBits b 0 21 16 * 64, .read)]
    | 0x10 => [(a 8, descBits b 0x18 39 0, .read), (a 16, descBits b 0x18 39 0, .write)]
    | 0x11 => [(a 16, descBits b 0x18 39 0, .write)]
    | 0x12 => [(a 16, descBits b 0x18 5 0, .write)]
    | 0x30 => if descBits b 0x10 39 0 = 0 then [] else [(a 8, descBits b 0x10 39 0, .read)]
    | 0x31 =>
      (a 8, descBits b 0x18 23 0 * descBits b 0x18 43 24, .read) ::
      ((if bit (descBits b 0x18 63 0) 48 then [(a 0x10, 8 * descBits b 0x18 43 24, .write)] else []) ++
       (if bit (descBits b 0x18 63 0) 49 then [(a 0x20, 8 * descBits b 0x18 43 24, .read)] else []))
    | 0x32 => [(a 0x10, 16, .write)]
    | 0x33 => [(a 8, 16, .read)]
    | 0x40 => collFields b
    | 0x41 => collFields b
    | 0x42 => collFields b
    | 0x43 => collFields b
    | 0x44 => collFields b
    | 0x50 => [(a 8, descBits b 0x18 39 0, .read), (a 16, 2 * descBits b 0x18 39 0 + 8192, .write)]
    | _ => []

/-- Whether the descriptors that a doorbell covers from a sequence on carry physical addresses (R25, R213). -/
def State.physOf (s : State) (r seq : Nat) : Bool :=
  s.ringCtx r == 0 &&
  (match ((s.ring r).modes.filter (fun m => laterEq seq m.1)).getLast? with
    | some m => m.2
    | none => false)

/-- Translation of one address field at fetch: the segment and its generation, or untranslated (R203). -/
def State.fetchHeld (s : State) (r : Nat) (phys : Bool) (f : Nat × Nat × Acc) : Option (Nat × Nat) :=
  if phys then none
  else match s.translate (s.ringCtx r) f.1 f.2.2 with
    | .ok _ seg _ => seg
    | .fault _ _ => none

/-- What one access of a descriptor meets: its target with the bytes it may take, or a fault. -/
def State.resolve (s : State) (r : Nat) (phys : Bool) (addr off whole : Nat) (a : Acc) : Xl :=
  if phys then
    match s.physical addr whole with
    | .ok _ _ _ => s.physical (addr + off) (whole - off)
    | f => f
  else s.translate (s.ringCtx r) (addr + off) a

/-! ### Faults and halts of a ring -/

/-- Kind code of a ring's agent (XLAT_FAULT_INFO). -/
def State.faultAgent (s : State) (r seq : Nat) : FaultAgent := { cls := s.ringCls r, unit := r, seq := seq, agent := .ring r }

/-- A segment fault of a ring's descriptor (R210): true when the ring pauses under a record. A halted ring stays HALTED while its issued descriptor
waits there (R220). -/
def State.ringFault (s : State) (r seq va kind : Nat) (seg : Option Nat) (a : Acc) : Bool × State :=
  let (rec_, s) := s.segFault (s.faultAgent r seq) (s.ringCtx r) va kind seg a
  match rec_ with
  | some k => (true, (if s.rd (Reg.QM_RING_STATE_state r) = ringActive then s.wr (Reg.QM_RING_STATE_state r) ringPaused else s).setRing r
      { s.ring r with paused := some { record := k, seq := seq, va := va, acc := a } })
  | none => (false, s)

/-- A ring halted because a slot could not be fetched or a record not written, with its event (R217). [DEDUCED, log 78] -/
def State.haltEvent (s : State) (r cause addr : Nat) : State :=
  let c := s.ringCtx r
  (s.haltRing r cause).eventCtx blkQmgr 3 0 r (addr % 2 ^ 48) c

/-- A ring that RESTART or ABORT finds halted halts again: a record could not be written (R221). -/
def State.haltAgain (s : State) (r : Nat) : State :=
  let c := s.ringCtx r
  (((s.wr (Reg.QM_RING_STATE_cause r) 4).wr Reg.QM_STATUS_last_halted r).irqCause 1).eventCtx blkQmgr 3 0 r (s.rd (Reg.QM_RING_CQ_cq r)) c

/-! ### Fetching (R203, R217, R219, R232, R242) -/

/-- Fetched descriptors over all rings. -/
def State.fetchedCount (s : State) : Nat := s.rings.foldl (fun n p => n + p.2.fetched.length) 0

/-- The hamper at the end of the fetched descriptors whose array has not been read whole. -/
def State.openHamper (s : State) (r : Nat) : Option QDesc :=
  match (s.ring r).fetched.getLast? with
  | some q => if opOf q.bytes = 1 ∧ q.fail.isNone ∧ q.subs.length < descBits q.bytes 0 21 16 ∧
      s.on (Reg.QM_RING_CFG_legacy r) = false ∧ descBits q.bytes 8 5 0 = 0 then some q else none
  | none => none

/-- The last fetched descriptor of a ring changed. -/
def State.updLast (s : State) (r : Nat) (f : QDesc → QDesc) : State :=
  let g := s.ring r
  match g.fetched.getLast? with
  | some q => s.setRing r { g with fetched := g.fetched.dropLast ++ [f q] }
  | none => s

/-- The next sub-descriptor of a hamper's array read and its addresses translated (R232). Poison halts the ring (R460). [DEDUCED, log 75] -/
def State.fetchSub (s : State) (r : Nat) (q : QDesc) : State :=
  let base := descBits q.bytes 8 55 0
  let count := descBits q.bytes 0 21 16
  match s.resolve r q.phys base (64 * q.subs.length) (64 * count) .read with
  | .fault _ _ => s.updLast r (fun (q : QDesc) => { q with fail := some stSegFault })
  | .ok t seg _ =>
    match s.readAt (.fetch r) (s.ringCtx r) seg t 64 with
    | (.wait, s) => s
    | (.fail st, s) => s.updLast r (fun (q : QDesc) => { q with fail := some st })
    | (.data bs, s) =>
      if bs.any (·.2) then s.haltEvent r 3 base
      else
        let b := bs.map (·.1)
        let held := (s.addrFields r b).map (s.fetchHeld r q.phys)
        s.updLast r (fun (q : QDesc) => { q with subs := q.subs ++ [b], subHeld := q.subHeld ++ [held] })

/-- The next descriptor of a ring read into its queue (R203, R219). -/
def State.fetchNext (s : State) (r : Nat) : State :=
  let seq := s.rd (Reg.QM_RING_FETCH_next_fetch r)
  let off := 64 * (seq % s.slots r)
  let base := s.rd (Reg.QM_RING_BASE_base r)
  if seq = s.tailSeq r ∨ 8 ≤ (s.ring r).fetched.length ∨ 4096 ≤ s.fetchedCount then s
  else match s.readAt (.fetch r) (s.ringCtx r) none (s.ringTarget r base off) 64 with
    | (.wait, s) => s
    | (.fail _, s) => s.haltEvent r 3 (base + off)
    | (.data bs, s) =>
      if bs.any (·.2) then s.haltEvent r 3 (base + off)
      else
        let b := bs.map (·.1)
        let phys := s.physOf r seq
        let q : QDesc := { seq := seq, bytes := b, phys := phys, held := (s.addrFields r b).map (s.fetchHeld r phys),
                           subs := [], subHeld := [], fail := none }
        (s.setRing r { s.ring r with fetched := (s.ring r).fetched ++ [q] }).wr (Reg.QM_RING_FETCH_next_fetch r) (seq + 1)

/-- DESCRIPTOR_FETCH (R203, R217, R219, R232): the queue manager reads a ring's next descriptor, or the next part of the array of the
hamper it is fetching. In D3hot it fetches nothing (R304), nor while substitutions of the context run (R242). -/
def execDescriptorFetch (ring : Nat) (s : State) : Host.Outcome State Fault Refusal :=
  if s.glb.stop ≠ 0 ∨ s.rd (Reg.QM_RING_STATE_state ring) ≠ ringActive ∨ s.rd Reg.HOST_STATUS_dstate = 3 ∨ s.glb.armed.contains (64 + s.ringCtx ring) = true then .next s
  else match s.openHamper ring with
    | some q => .next (s.fetchSub ring q)
    | none => .next (s.fetchNext ring)

/-! ### Issue (R203, R204, R205, R226, R235) -/

/-- The status of a decided descriptor: a write that failed after the status was decided is its first error (R236). -/
def Run.final (d : Run) (st : Nat) : Nat := if st < 0x0100 then d.first.getD st else st

/-- Whether an issued descriptor of a ring has ended with a status that halts the ring: nothing issues any more, and the ring halts when its record is
due (R220). [DEDUCED, log 78] -/
def State.halting (s : State) (r : Nat) : Bool :=
  (s.ring r).issued.any (fun d => d.status.any (fun st => s.halts r (d.final st)))

/-- Whether the earlier descriptors of a ring allow the next to issue: with fence every one must have completed, else none may
still be issuing (R227, R235). -/
def State.mayIssue (s : State) (r : Nat) (fence : Bool) : Bool :=
  !s.halting r &&
  (if fence then (s.ring r).issued.isEmpty
   else (s.ring r).issued.all (fun d => d.allIssued && (d.subs.isEmpty || d.status.isSome)))

/-- The head of a ring's fetched descriptors moved to the issued ones. -/
def State.takeHead (s : State) (r : Nat) (q : QDesc) : State :=
  let g := s.ring r
  s.setRing r { g with fetched := g.fetched.drop 1, issued := g.issued ++ [Run.start q] }

/-- The info field of a hamper's record (R233): bit 63, the deciding sub-descriptor and its own info. [DEDUCED, log 75] -/
def hamperInfo (i info : Nat) : Nat := 2 ^ 63 + i % 128 * 2 ^ 56 + info % 2 ^ 56

/-- The head of a ring ended without any part of it issued. -/
def State.endHead (s : State) (r : Nat) (q : QDesc) (status : Nat) : State :=
  (s.takeHead r { q with subs := [], subHeld := [] }).finish r q.seq status none
    (if s.on (Reg.QM_RING_CFG_legacy r) = false ∧ opOf q.bytes = 1 then hamperInfo 0 0 else 0)

/-- What the translation at issue gives for the addresses of a descriptor: what holds them now, a generation met by a strict
descriptor, or the first fault. -/
inductive IssueCheck where
  | ok (held : Held)
  | stale
  | fault (va kind : Nat) (seg : Option Nat) (a : Acc)
  deriving DecidableEq, Repr

/-- The check of one address at issue (R203, R204, R205, R216). -/
def State.checkField (s : State) (r : Nat) (phys strict : Bool) (f : Nat × Nat × Acc) (h : Option (Nat × Nat)) : IssueCheck :=
  if phys then
    match s.physical f.1 f.2.1 with
    | .ok _ _ _ => .ok [none]
    | .fault k g => .fault f.1 k g f.2.2
  else
    let moved := match h with | some (k, g) => s.genOf (s.ringCtx r) k != g | none => false
    if moved && strict then .stale
    else match s.translate (s.ringCtx r) f.1 f.2.2 with
      | .ok _ seg _ => .ok [seg]
      | .fault k g => .fault f.1 k g f.2.2

/-- The check of all addresses of a descriptor at issue. -/
def State.checkFields (s : State) (r : Nat) (phys strict : Bool) : List (Nat × Nat × Acc) → Held → IssueCheck
  | [], _ => .ok []
  | f :: t, h =>
    match s.checkField r phys strict f (h.head?.join) with
    | .ok a => match s.checkFields r phys strict t (h.drop 1) with
      | .ok b => .ok (a ++ b)
      | x => x
    | x => x

/-- The strict flag of a descriptor; format-1 has none (R225, R234). -/
def State.strictOf (s : State) (r : Nat) (b : List Byte) : Bool := !s.on (Reg.QM_RING_CFG_legacy r) && bit (descBits b 0 63 0) 8

/-- The fence flag of a descriptor (R225, R234). -/
def State.fenceOf (s : State) (r : Nat) (b : List Byte) : Bool :=
  if s.on (Reg.QM_RING_CFG_legacy r) then bit (descBits b 0 63 0) 17 else bit (descBits b 0 63 0) 9

/-- The irq flag of a descriptor (R225, R234). -/
def State.irqOf (s : State) (r : Nat) (b : List Byte) : Bool :=
  if s.on (Reg.QM_RING_CFG_legacy r) then bit (descBits b 0 63 0) 16 else bit (descBits b 0 63 0) 10

/-- Whether an engine of a class is fenced (R238, R253, R351, R378). -/
def State.engineFenced (s : State) (cls e : Nat) : Bool :=
  if cls = clsMover then s.eng.moverFenced.contains e
  else if cls = clsColl then bit (s.rd Reg.COLL_STATUS_fenced) e
  else if cls = clsCrc then bit (s.rd Reg.CRC_FENCED_fenced) e
  else cls == clsStream && s.on Reg.STRM_STATUS_engine_fenced

/-- Whether a ring's engine is fenced, so that it runs nothing more (R238). A check-value unit is claimed first (R253). -/
def State.engineGone (s : State) (r : Nat) : Bool :=
  s.ringCls r != clsCrc && s.engineFenced (s.ringCls r) (s.rd (Reg.QM_RING_CFG_engine r))

/-- The head of a ring issued as an opcode: `good` is the opcode's own check of its body (R226), `go` starts it. A descriptor that
no opcode of the ring knows completes with MALFORMED whichever opcode's command finds it at the head. -/
def State.issueHead (s : State) (r : Nat) (isOp : List Byte → Bool) (good : State → QDesc → Bool)
    (wait : State → QDesc → Bool) (go : State → Nat → State) : State :=
  match (s.ring r).fetched.head? with
  | none => s
  | some q =>
    if s.glb.stop ≠ 0 ∨ s.rd (Reg.QM_RING_STATE_state r) ≠ ringActive ∨ s.mayIssue r (s.fenceOf r q.bytes) = false then s
    else if !s.knownOp r q.bytes then s.endHead r q stMalformed
    else if !isOp q.bytes || wait s q then s
    else if !good s q then s.endHead r q stMalformed
    else match s.checkFields r q.phys (s.strictOf r q.bytes) (s.addrFields r q.bytes) q.held with
      | .stale => s.endHead r q stStaleGen
      | .fault va kind seg a =>
        let (paused, s) := s.ringFault r q.seq va kind seg a
        if paused then s else s.endHead r q stSegFault
      | .ok held => if s.engineGone r then s.endHead r q stEngineLost else go ((s.takeHead r q).updRun r q.seq (fun (d : Run) => { d with held := held })) q.seq

/-- A fault of a transfer of an issued descriptor (R204, R210): the ring pauses, or the descriptor ends with SEG_FAULT or with the error that it had met
before (R238). -/
def State.runFault (s : State) (r seq va kind : Nat) (seg : Option Nat) (a : Acc) (info : Nat) : State :=
  let (paused, s) := s.ringFault r seq va kind seg a
  if paused then s
  else
    let s := s.noteErr r seq stSegFault
    s.finish r seq (match s.runOf r seq with | some d => d.first.getD stSegFault | none => stSegFault) none info

/-- A generation met by the current descriptor of a run that differs from the one it holds (R204). -/
def State.movedGen (s : State) (r : Nat) (d : Run) : Bool :=
  !d.phys && d.curHeld.any (fun h => match h with | some (k, g) => s.genOf (s.ringCtx r) k != g | none => false)

/-- What holds one address of the current descriptor replaced. -/
def State.holdField (s : State) (r seq i : Nat) (seg : Option (Nat × Nat)) : State :=
  s.updRun r seq (fun (d : Run) => d.setHeld (d.curHeld.set i seg))

/-- What the next transfer of an issued descriptor meets: its target with the segment and the bytes it may take, a fault, or a new generation that a
strict descriptor does not cross. -/
inductive Xfer where
  | ok (t : Target) (seg : Option (Nat × Nat)) (left : Nat)
  | fault (kind : Nat) (seg : Option Nat)
  | stale
  deriving DecidableEq, Repr

/-- The next transfer of an issued descriptor (R204, R205, R208): one that is under way completes under the translation it was issued with; else the
generations are compared and the address is translated. -/
def State.nextXfer (s : State) (who : Who) (r : Nat) (d : Run) (addr off whole : Nat) (a : Acc) : Xfer :=
  match s.going who (a != .read) with
  | some o => .ok o.tgt o.seg o.len
  | none =>
    if s.strictOf r d.cur && s.movedGen r d then .stale
    else match s.resolve r d.phys addr off whole a with
      | .ok t seg left => .ok t seg left
      | .fault k g => .fault k g

/-- Whether a ring's agent waits under a fault record (R210). -/
def State.ringWaits (s : State) (r : Nat) : Bool := (s.ring r).paused.isSome

/-! ### Completion (R217, R220, R236, R239) -/

/-- The 32 bytes of a completion record (R236). -/
def recordBytes (seq r status check time info : Nat) : List Byte :=
  leBytes 4 seq ++ leBytes 2 (r % 2 ^ 13) ++ leBytes 2 status ++ leBytes 8 check ++ leBytes 8 time ++ leBytes 8 info

/-- A record written to its completion slot. -/
def State.putRecord (s : State) (r : Nat) (rec_ : List Byte) : Got × State :=
  let cq := s.rd (Reg.QM_RING_CQ_cq r)
  let seq := leValue (rec_.take 4)
  s.writeAt (.fetch r) (s.ringCtx r) none (s.ringTarget r cq (32 * (seq % s.slots r))) (rec_.map (fun b => (b, false)))

/-- A ring's vector sent for a record written, under its moderation (R239). [DESIGN CHOICE, log 162] -/
def State.moderate (s : State) (r : Nat) (irq : Bool) : State :=
  let g := s.ring r
  let n := g.unsig + 1
  let count := s.rd (Reg.QM_RING_IRQ_mod_count r)
  if s.on (Reg.QM_RING_IRQ_irq_en r) then
    if irq ∨ count ≤ n then (s.setRing r { g with unsig := 0, unsigAt := none }).msix (s.rd (Reg.QM_RING_IRQ_vector r))
    else s.setRing r { g with unsig := n, unsigAt := some (g.unsigAt.getD s.now) }
  else s

/-- The hold of a compute ring started when the ring is empty (R224). -/
def State.startHold (s : State) (r : Nat) : State :=
  if s.ringCls r = clsCompute ∧ s.ringEmpty r = true ∧ (s.ring r).holdEnd.isNone ∧ (s.ring r).holdUs ≠ 0 then
    s.setRing r { s.ring r with holdEnd := some (s.now + (s.ring r).holdUs * 2 ^ 32 / 1000000) }
  else s

/-- A written record counted: the sequence moves on, the vector is moderated, and an empty ring's hold begins. -/
def State.recordDone (s : State) (r : Nat) (irq : Bool) : State :=
  ((s.wrap (Reg.QM_RING_SEQ_next_done r) 1).ltrCheck.moderate r irq).startHold r

/-- Kept records written in order (R217, R221): true when all are. -/
def State.flushKept (s : State) (r : Nat) : Nat → Bool × State
  | 0 => ((s.ring r).kept.isEmpty, s)
  | n + 1 =>
    match (s.ring r).kept with
    | [] => (true, s)
    | k :: t =>
      match s.putRecord r k.1 with
      | (.data _, s) => ((s.setRing r { s.ring r with kept := t }).recordDone r k.2).flushKept r n
      | (.fail _, s) => (false, (s.setRing r { s.ring r with cmd := 0 }).haltAgain r)
      | (.wait, s) => (false, s)

/-- Records of ABORTED for the descriptors that did not issue (R221). -/
def State.abortRest (s : State) (r : Nat) : Nat → Bool × State
  | 0 => (true, s)
  | n + 1 =>
    let seq := s.rd (Reg.QM_RING_SEQ_next_done r)
    if seq = s.tailSeq r then (true, s)
    else
      let rec_ := recordBytes seq r stAborted 0 s.now 0
      match s.putRecord r rec_ with
      | (.data _, s) => (s.recordDone r false).abortRest r n
      | (.fail _, s) => (false, (s.setRing r { s.ring r with kept := [(rec_, false)], cmd := 0 }).haltAgain r)
      | (.wait, s) => (false, s)

/-- A command that waits on a HALTED ring carried out once every issued descriptor has completed (R221). -/
def State.ringCommand (s : State) (r : Nat) : State :=
  let g := s.ring r
  if s.rd (Reg.QM_RING_STATE_state r) ≠ ringHalted ∨ g.issued ≠ [] ∨ g.cmd = 0 then s
  else
    let (ok, s) := s.flushKept r (g.kept.length + 1)
    if !ok then s
    else
      let (ok, s) := if g.cmd = 2 then s.abortRest r (s.slots r) else (true, s)
      if !ok then s
      else
        let s := s.setRing r { s.ring r with cmd := 0 }
        (s.unhalt r ringActive).wr (Reg.QM_RING_FETCH_next_fetch r) (s.rd (Reg.QM_RING_SEQ_next_done r)) |>.startHold r

/-- The head of the issued descriptors leaves the ring; reads that it has not taken drain alone. -/
def State.dropIssued (s : State) (r : Nat) : State :=
  let s := match (s.ring r).issued.head? with | some d => s.orphan (fun w => w == Who.run r d.seq) none | none => s
  s.setRing r { s.ring r with issued := (s.ring r).issued.drop 1 }

/-- The record of the oldest issued descriptor, once it is decided and has drained (R236): written, or kept while the ring is
halted because a record could not be written (R217). -/
def State.completeHead (s : State) (r : Nat) : State :=
  match (s.ring r).issued.head? with
  | none => s.ringCommand r
  | some d =>
    match d.status with
    | none => s
    | some st =>
      if s.writing r d.seq then s
      else
        let st := d.final st
        let rec_ := recordBytes d.seq r st d.check d.time d.info
        let s := if s.halts r st then s.haltRing r 1 else s
        if (s.ring r).kept ≠ [] then
          ((s.dropIssued r).setRing r { (s.dropIssued r).ring r with kept := (s.ring r).kept ++ [(rec_, s.irqOf r d.bytes)] }).ringCommand r
        else match s.putRecord r rec_ with
          | (.wait, s) => s
          | (.fail _, s) =>
            let s := s.dropIssued r
            let s := s.setRing r { s.ring r with kept := [(rec_, s.irqOf r d.bytes)] }
            if s.rd (Reg.QM_RING_STATE_state r) = ringHalted then
              ((s.wr (Reg.QM_RING_STATE_cause r) (s.rd (Reg.QM_RING_STATE_cause r))).eventCtx blkQmgr 3 0 r (s.rd (Reg.QM_RING_CQ_cq r)) (s.ringCtx r)).ringCommand r
            else s.haltEvent r 4 (s.rd (Reg.QM_RING_CQ_cq r))
          | (.data _, s) =>
            let s := (s.dropIssued r).recordDone r (s.irqOf r d.bytes)
            let s := if s.rd (Reg.QM_RING_STATE_state r) = ringHalted then s.rewind r else s
            s.ringCommand r

/-- COMPLETION_WRITE (R217, R236, R239). A stopped package writes no record (R464). -/
def execCompletionWrite (ring : Nat) (s : State) : Host.Outcome State Fault Refusal :=
  if s.glb.stop ≠ 0 then .next s else .next (s.completeHead ring)

/-- MODERATION_TIMEOUT (R239): mod_us have passed since the first record not yet signalled. -/
def execModerationTimeout (ring : Nat) (s : State) : Host.Outcome State Fault Refusal :=
  let g := s.ring ring
  if s.on (Reg.QM_RING_IRQ_irq_en ring) ∧ s.rd (Reg.QM_RING_IRQ_mod_us ring) ≠ 0 ∧ g.unsig ≠ 0 then
    .next ((s.setRing ring { g with unsig := 0, unsigAt := none }).msix (s.rd (Reg.QM_RING_IRQ_vector ring)))
  else .next s

/-- WAKE_HOLD_EXPIRY (R224): a ring's hold ends. -/
def execWakeHoldExpiry (ring : Nat) (s : State) : Host.Outcome State Fault Refusal :=
  .next (s.setRing ring { s.ring ring with holdEnd := none, holdUs := 0 })

/-! ### Doorbells (R220, R222, R223, R224) -/

/-- The physical quad of a logical quad (R424): those that carry an enabled cluster, in ascending order. -/
def State.quadsOf (s : State) (q : Nat) : List Nat :=
  (((s.noc.clusterMap.map (· / 4)).eraseDups)[q]?).toList

/-- The wake hint of a doorbell on a compute ring (R224). -/
def State.wakeHint (s : State) (r : Nat) (v : Word) : State :=
  if s.ringCls r ≠ clsCompute then s
  else
    let s := if bit v.toNat 31 then
        (((List.range 32).filter (fun q => bit (s.reg (Reg.QM_RING_QUADS r)) q)).flatMap s.quadsOf).foldl State.wakeQuad s
      else s
    (s.setRing r { s.ring r with holdUs := bits v.toNat 30 16, holdEnd := none }).startHold r

/-- From a sequence on, the descriptors of a ring carry physical addresses or not (R25, R213); what no descriptor that may still be fetched needs is
forgotten. -/
def State.setModes (s : State) (r first : Nat) (phys : Bool) : State :=
  let done := s.rd (Reg.QM_RING_SEQ_next_done r)
  let past := (s.ring r).modes.filter (fun m => laterEq done m.1)
  let ahead := (s.ring r).modes.filter (fun m => !laterEq done m.1)
  s.setRing r { s.ring r with modes := past.getLast?.toList ++ ahead ++ [(first, phys)] }

/-- A doorbell taken by its ring (R220, R223). -/
def State.ringDoorbell (s : State) (r off : Nat) (v : Word) : State :=
  let n := s.slots r
  let t := bits v.toNat 15 0 % n
  let old := s.rd (Reg.QM_RING_STATE_tail r)
  let c := s.rd (Reg.QM_RING_SEQ_next_done r) % n
  if s.rd (Reg.QM_RING_STATE_state r) = ringDisabled then
    s.event blkQmgr 1 0 r (off % 2 ^ 26 + 2 ^ 26 + v.toNat * 2 ^ 32)
  else if (old + n - c) % n ≤ (t + n - c) % n then
    let first := s.tailSeq r
    let phys := s.duty 0
    let s := if t = old ∨ ((s.ring r).modes.getLast?).map Prod.snd = some phys then s else s.setModes r first phys
    (s.wr (Reg.QM_RING_STATE_tail r) t).ltrCheck.wakeHint r v
  else s.haltRing r 2

/-- DOORBELL (R222, R223): an access to BAR2. Reads return 0; an access of another size or at another offset is discarded. -/
def execDoorbell (src : BusSrc) (write : Bool) (off size : Nat) (v : Word) (s : State) : Host.Outcome State Fault Refusal :=
  let r := off / 4096 % 8192
  if !s.barOk src then .next ((s.unsupportedReq off).send (.unsupported off size))
  else if write then
    if size = 4 ∧ off % 4096 = 0 then .next (s.ringDoorbell r off v)
    else .next (s.event blkQmgr 2 0 r (off % 2 ^ 26 + 2 ^ 26 + v.toNat * 2 ^ 32))
  else
    let s := if size = 4 ∧ off % 4096 = 0 then s else s.event blkQmgr 2 0 r (off % 2 ^ 26 + 2 ^ 26)
    .next (s.send (.regRead off size 0))

/-! ### RESTART and ABORT (R221) -/

/-- A command of QM_RING_CMD. -/
def State.ringCmd (s : State) (r op : Nat) : State :=
  if s.rd (Reg.QM_RING_STATE_state r) ≠ ringHalted then s.regEvent 1 (Reg.QM_RING_CMD r) op
  else (s.setRing r { s.ring r with cmd := op }).ringCommand r

/-- RESTART (R221). -/
def execRestart (ring : Nat) (s : State) : Host.Outcome State Fault Refusal := .next (s.ringCmd ring 1)

/-- ABORT (R221). -/
def execAbort (ring : Nat) (s : State) : Host.Outcome State Fault Refusal := .next (s.ringCmd ring 2)

/-! ### QM_COMMIT (R216, R244) -/

/-- Whether a ring or completion base with its length obeys R216. -/
def State.baseOk (s : State) (a n : Nat) : Bool := a % 4096 == 0 && (s.inMemory a n || inOutbound a n)

/-- Whether an engine of a class is one that a ring may name: it exists and is not fenced (R244). -/
def State.engineOk (s : State) (cls e : Nat) : Bool :=
  !s.engineFenced cls e && (cls == clsMover || (cls == clsCompute && e == 0) || (cls == clsColl && decide (e < 16)) ||
    (cls == clsCrc && decide (e < 32)) || (cls == clsStream && e == 0))

/-- The first structural check that a ring's shadow breaks, as R244 numbers them, or 0. -/
def State.ringFault0 (s : State) (r : Nat) : Nat :=
  let n := s.shf (Reg.QM_RING_CFG_size_log2 r)
  let base := s.shf (Reg.QM_RING_BASE_base r)
  let cq := s.shf (Reg.QM_RING_CQ_cq r)
  let slot := s.shf (Reg.QM_RING_CFG_key_slot r)
  if n < 4 ∨ 16 < n then 2
  else if !s.baseOk base (64 * 2 ^ n) || !s.baseOk cq (32 * 2 ^ n) then 3
  else if !s.engineOk (s.shf (Reg.QM_RING_CFG_class r)) (s.shf (Reg.QM_RING_CFG_engine r)) then 4
  else if !s.on (Reg.XLAT_CTX_enable (s.shf (Reg.QM_RING_CFG_ctx r))) then 5
  else if !(if hostBase ≤ base ∨ hostBase ≤ cq then decide (slot ≤ 8) else slot == 0) then 6
  else if s.shf (Reg.QM_RING_CFG_legacy r) = 1 ∧ s.shf (Reg.QM_RING_CFG_class r) ≠ clsMover then 7
  else 0

/-- Whether a ring's shadow differs from its committed set in a structural field other than enable. -/
def State.ringMoved (s : State) (r : Nat) : Bool :=
  [Reg.QM_RING_BASE_base r, Reg.QM_RING_CQ_cq r, Reg.QM_RING_CFG_engine r, Reg.QM_RING_CFG_key_slot r, Reg.QM_RING_CFG_ctx r,
    Reg.QM_RING_CFG_class r, Reg.QM_RING_CFG_size_log2 r, Reg.QM_RING_CFG_legacy r].any (fun f => s.shf f != s.rd f)

/-- A ring's work dropped: nothing fetched, issued or kept, and its requests drain alone. -/
def State.clearRing (s : State) (r : Nat) : State :=
  (s.orphan (fun w => match w with | .run q _ => q == r | .fetch q => q == r | _ => false) none).setRing r RingSt.empty

/-- QM_COMMIT (R244): the set of one ring. -/
def execQmCommit (v : Word) (s : State) : Host.Outcome State Fault Refusal :=
  let r := bits v.toNat 12 0
  if !bit v.toNat 31 then .next s
  else
    let was := s.on (Reg.QM_RING_CFG_enable r)
    let will := s.shf (Reg.QM_RING_CFG_enable r) == 1
    let structural := s.ringMoved r || was != will
    let code := if structural && (s.ringMoved r || (was && !will)) && !s.ringIdle r then 1
      else if s.ringMoved r || (will && !was) then s.ringFault0 r else 0
    if code ≠ 0 then .next (s.commitRefused Reg.QM_COMMIT_STATUS code)
    else
      let s := s.commitRegs [Reg.QM_RING_BASE r, Reg.QM_RING_CQ r, Reg.QM_RING_CFG r, Reg.QM_RING_IRQ r, Reg.QM_RING_QUADS r]
      let s := if will && !was then
          (((s.clearRing r).unhalt r ringActive).wr (Reg.QM_RING_STATE_tail r) 0).setReg (Reg.QM_RING_SEQ r) 0
            |>.setReg (Reg.QM_RING_FETCH r) 0
        else if was && !will then (s.clearRing r).unhalt r ringDisabled
        else s
      .next (s.commitDone Reg.QM_COMMIT_STATUS)

end Sys2Proof.Machine
end

