-- ==== Sys2Proof/Machine/CrcOps.lean ====
section
/-! DEFINITION. Check-value units: the four checks, folding, ownership and claiming (R245–R249, R253). -/
namespace Sys2Proof.Machine

/-- Width of a check (R245). -/
def crcWidth (code : Nat) : Nat := if code = 2 then 64 else if code = 3 then 16 else 32

/-- init of a check (R245). -/
def crcInit (code : Nat) : Nat := if code = 0 ∨ code = 1 then 0xFFFFFFFF else if code = 3 then 0xFFFF else 0

/-- xorout of a check (R245). -/
def crcXor (code : Nat) : Nat := if code = 0 ∨ code = 1 then 0xFFFFFFFF else 0

/-- One bit of a reflected check, whose polynomial is given with its bits reversed. -/
def crcBitReflected (poly r : Nat) : Nat := if r % 2 = 1 then (r / 2) ^^^ poly else r / 2

/-- One bit of a check that is not reflected. -/
def crcBitPlain (w poly r : Nat) : Nat :=
  if r.testBit (w - 1) then (2 * r % 2 ^ w) ^^^ poly else 2 * r % 2 ^ w

/-- A function applied n times. -/
def iter (f : Nat → Nat) : Nat → Nat → Nat
  | 0, r => r
  | n + 1, r => iter f n (f r)

/-- One byte fed to a check (R245). The reversed polynomials are those of 0x1EDC6F41 and 0x04C11DB7. -/
def crcByte (code r : Nat) (b : Byte) : Nat :=
  if code = 0 then iter (crcBitReflected 0x82F63B78) 8 (r ^^^ b.toNat)
  else if code = 1 then iter (crcBitReflected 0xEDB88320) 8 (r ^^^ b.toNat)
  else if code = 2 then iter (crcBitPlain 64 0x42F0E1EBA9EA3693) 8 (r ^^^ (b.toNat * 2 ^ 56))
  else iter (crcBitPlain 16 0x1021) 8 (r ^^^ (b.toNat * 2 ^ 8))

/-- Bytes fed to a check in ascending order (R245). -/
def crcFeed (code : Nat) (bs : List Byte) (r : Nat) : Nat := bs.foldl (crcByte code) r

/-- The reported check value (R245, R246). -/
def crcReport (code r : Nat) : Nat := r ^^^ crcXor code

/-- R after init and the fold prefix (R247). -/
def crcStart (code fold value : Nat) : Nat :=
  if fold = 0 then crcInit code else crcFeed code (leBytes 8 value) (crcInit code)

/-- The check value of a message with sequence fold, as links and the manifest use it (R247, R317). -/
def crcOf (code fold value : Nat) (bs : List Byte) : Nat := crcReport code (crcFeed code bs (crcStart code fold value))

/-! ### Claiming (R248, R249, R253) -/

/-- A unit outside its registers. -/
def State.crc (s : State) (u : Nat) : CrcSt := s.eng.crc.get CrcSt.free u

/-- The state with a unit replaced. -/
def State.setCrc (s : State) (u : Nat) (c : CrcSt) : State := { s with eng := { s.eng with crc := s.eng.crc.put u c } }

/-- Whether a unit is fenced. -/
def State.crcFenced (s : State) (u : Nat) : Bool := bit (s.rd Reg.CRC_FENCED_fenced) u

/-- A unit released by its user: the next one claims it by CRC_UNIT_CLAIM. -/
def State.crcRelease (s : State) (u : Nat) : State := (s.setCrc u { s.crc u with holder := none }).wr (Reg.CRC_CTL_busy u) 0

/-- R and the polynomial of a unit. -/
def State.crcVal (s : State) (u : Nat) : Nat := s.rd (Reg.CRC_VAL_running u)
def State.crcPoly (s : State) (u : Nat) : Nat := s.rd (Reg.CRC_CTL_poly u)

/-- R of a unit replaced. -/
def State.crcSet (s : State) (u v : Nat) : State := s.wr (Reg.CRC_VAL_running u) v

/-- Whether a user's context may continue from R (R249). -/
def State.crcMayContinue (s : State) (u ctx : Nat) : Bool := s.on (Reg.CRC_CTL_owned u) && s.rd (Reg.CRC_CTL_owner u) == ctx

/-- A unit made owned by a context (R249). -/
def State.crcOwn (s : State) (u ctx : Nat) : State := (s.wr (Reg.CRC_CTL_owned u) 1).wr (Reg.CRC_CTL_owner u) ctx

/-- What a user's claim of a unit meets (R249, R250, R253). -/
inductive Claim where
  | ok
  | malformed
  | lost
  deriving DecidableEq, Repr

/-- The check of a claim by the current descriptor of a run: a fenced unit, or a user that continues from another's value or
under another polynomial. -/
def State.claimCheck (s : State) (u ctx : Nat) (b : List Byte) : Claim :=
  if s.crcFenced u then .lost
  else match opOf b with
    | 0x10 => if s.crcMayContinue u ctx then .ok else .malformed
    | 0x30 =>
      if bit (descBits b 0x10 63 0) 42 then .ok
      else if s.crcMayContinue u ctx && s.crcPoly u == descBits b 0x10 41 40 then .ok else .malformed
    | 0x32 => if s.crcMayContinue u ctx then .ok else .malformed
    | _ => .ok

/-- A claim carried out for a run: it holds the unit, or ends with MALFORMED or ENGINE_LOST (R248, R249, R253). What a CRC_DATA that
starts, or a CRC_BLOCKS, loads is loaded now, and no bit of R stays above the width (R246). -/
def State.claim (s : State) (u r seq : Nat) : State :=
  match s.runOf r seq with
  | none => s
  | some d =>
    let b := d.cur
    let ctx := s.ringCtx r
    match s.claimCheck u ctx b with
    | .lost => (s.noteErr r seq stEngineLost).finish r seq stEngineLost none 0
    | .malformed => (s.noteErr r seq stMalformed).finish r seq stMalformed none 0
    | .ok =>
      let s := ((s.setCrc u { s.crc u with holder := some (r, seq) }).wr (Reg.CRC_CTL_busy u) 1).updRun r seq
        (fun (d : Run) => { d with crcUnit := some u })
      if opOf b = 0x30 ∧ bit (descBits b 0x10 63 0) 42 = true then
        let poly := descBits b 0x10 41 40
        let fold := descBits b 0x10 44 43
        let value := if fold = 1 then descBits b 8 55 0 else descBits b 0x18 31 0
        ((s.crcOwn u ctx).wr (Reg.CRC_CTL_poly u) poly).crcSet u (crcStart poly fold value)
      else if opOf b = 0x31 then
        let poly := descBits b 0x18 45 44
        ((s.crcOwn u ctx).wr (Reg.CRC_CTL_poly u) poly).crcSet u (s.crcVal u % 2 ^ crcWidth poly)
      else s

/-- A user reaches a unit: it claims a free unit that nobody waits for, else it waits (R248). -/
def State.crcAsk (s : State) (u r seq : Nat) : State :=
  let c := s.crc u
  if c.holder.isNone ∧ c.waiting = [] then s.claim u r seq
  else s.setCrc u { c with waiting := c.waiting ++ [(r, seq)] }

/-- Whether a run's current descriptor holds its unit. -/
def State.holdsUnit (s : State) (u r seq : Nat) : Bool := (s.crc u).holder == some (r, seq)

end Sys2Proof.Machine
end

