-- ==== Sys2Proof/Machine/Movers.lean ====
section
/-! DEFINITION. Movers: COPY, FILL, WRITE_IMM, the legacy format and their transfers; NOP of every class (R204, R205, R225, R228, R234, R235, R460). -/
namespace Sys2Proof.Machine

/-- The bytes that a mover descriptor covers. -/
def State.moveLen (s : State) (r : Nat) (b : List Byte) : Nat :=
  if s.on (Reg.QM_RING_CFG_legacy r) then legacyLen b
  else if opOf b = 0x12 then descBits b 0x18 5 0 else descBits b 0x18 39 0

/-- The source address of a mover descriptor. -/
def State.moveSrc (s : State) (r : Nat) (b : List Byte) : Nat :=
  if s.on (Reg.QM_RING_CFG_legacy r) then descBits b 8 47 0 else descBits b 8 55 0

/-- The destination address of a mover descriptor. -/
def State.moveDst (s : State) (r : Nat) (b : List Byte) : Nat :=
  if s.on (Reg.QM_RING_CFG_legacy r) then descBits b 16 47 0 else descBits b 16 55 0

/-- The body check of COPY (R228). -/
def copyOk (b : List Byte) : Bool :=
  let w := descBits b 0x18 63 0
  descBits b 8 63 56 == 0 && descBits b 16 63 56 == 0 && bits w 39 0 != 0 && bits w 63 47 == 0 &&
  (!bit w 46 || bit w 45) && zeroFrom b 0x28 24

/-- The body check of FILL (R228). -/
def fillOk (b : List Byte) : Bool :=
  let w := descBits b 0x18 63 0
  descBits b 8 63 0 == 0 && descBits b 16 63 56 == 0 && bits w 39 0 != 0 && bits w 63 40 == 0 && zeroFrom b 0x28 24

/-- The body check of WRITE_IMM (R228). -/
def writeImmOk (b : List Byte) : Bool :=
  let n := descBits b 0x18 63 0
  descBits b 8 63 0 == 0 && descBits b 16 63 56 == 0 && decide (1 ≤ n ∧ n ≤ 32)

/-- The body check of NOP (R225). -/
def nopOk (b : List Byte) : Bool := zeroFrom b 8 56

/-- The check of a format-1 descriptor (R234): `op` 0 NOP, 1 COPY, 2 FILL. Nothing says that a NOP's length and addresses are reserved. -/
def legacyOk (b : List Byte) (op : Nat) : Bool :=
  descBits b 0 31 18 == 0 && descBits b 8 63 48 == 0 && descBits b 16 63 48 == 0 &&
  (if op = 0 then descBits b 0x18 63 0 == 0
   else legacyLen b != 0 &&
     (if op = 1 then descBits b 0x18 63 0 == 0 else descBits b 8 63 0 == 0))

/-- Whether a descriptor of a ring is a COPY. -/
def State.isCopy (s : State) (r : Nat) (b : List Byte) : Bool :=
  if s.on (Reg.QM_RING_CFG_legacy r) then descBits b 0 15 0 == 1 else opOf b == 0x10

/-- The CRC unit of a COPY with chk (R228). -/
def State.copyUnit (s : State) (r : Nat) (b : List Byte) : Option Nat :=
  if s.on (Reg.QM_RING_CFG_legacy r) then none
  else if opOf b = 0x10 ∧ bit (descBits b 0x18 63 0) 45 = true then some (descBits b 0x18 44 40) else none

/-- The pattern of a FILL. -/
def State.fillPattern (s : State) (r : Nat) (b : List Byte) : List Byte :=
  if s.on (Reg.QM_RING_CFG_legacy r) then (b.drop 0x18).take 8 else (b.drop 0x20).take 8

/-- The bytes [off, off + n) of a FILL's destination (R228). -/
def State.fillBytes (s : State) (r : Nat) (b : List Byte) (off n : Nat) : List PByte :=
  let p := s.fillPattern r b
  (List.range n).map (fun i => ((p[(off + i) % 8]?).getD 0, false))

/-- A mover descriptor or sub-descriptor started: a COPY with chk asks for its unit (R228, R248). -/
def State.startMove (s : State) (r seq : Nat) : State :=
  match s.runOf r seq with
  | none => s
  | some d =>
    let s := if s.classBelow 32 then s.updRun r seq (fun (d : Run) => { d with oversub := true }) else s
    match s.copyUnit r d.cur with
    | some u => s.crcAsk u r seq
    | none => s

/-- NOP completes when it issues (R193, R225). -/
def State.startNop (s : State) (r seq : Nat) : State :=
  let low := match s.runClass r with | some c => s.classBelow c | none => false
  s.finish r seq (if low then stOversub else stSuccess) none 0

/-- The end of a mover descriptor once its last transfer has issued (R228, R236): its unit is released, and the check compared. A check over poison,
which `aux` 1 notes, is undefined. -/
def State.endMove (s : State) (r seq : Nat) : State :=
  match s.runOf r seq with
  | none => s
  | some d =>
    let b := d.cur
    let oversub := d.oversub || s.classBelow 32
    let s := s.updRun r seq (fun (d : Run) => { d with oversub := oversub })
    let calm := if oversub then stOversub else stSuccess
    match s.copyUnit r b with
    | some u =>
      let v := crcReport (s.crcPoly u) (s.crcVal u)
      if d.aux = 1 then (s.finish r seq (d.first.getD calm) (some s.freeVal) d.pos).useFree
      else
        let miss := bit (descBits b 0x18 63 0) 46 && v != descBits b 0x20 63 0
        s.finish r seq (d.first.getD (if miss then stCheckMismatch else calm)) (some v) d.pos
    | none => s.finish r seq (d.first.getD calm) none d.pos

/-- A mover descriptor ended by an error of one of its transfers. -/
def State.failMove (s : State) (r seq status : Nat) : State :=
  match s.runOf r seq with
  | none => s
  | some d => (s.noteErr r seq status).finish r seq (d.first.getD status) none d.pos

/-- The bytes that a COPY has read fed to its unit; poison leaves R undefined (R228, R253). -/
def State.feedCopy (s : State) (r seq u : Nat) (bs : List PByte) : State :=
  let fed := match s.runOf r seq with | some d => d.aux = 1 | none => false
  if fed || bs.any Prod.snd then
    ((s.crcSet u (s.freeVal % 2 ^ crcWidth (s.crcPoly u))).useFree).updRun r seq (fun (d : Run) => { d with aux := 1 })
  else s.crcSet u (crcFeed (s.crcPoly u) (bs.map Prod.fst) (s.crcVal u))

/-- The bytes of one transfer of a COPY as they are written: a destination byte that the source range also holds is undefined
(R228), a free value each. The answer counts the free values used. -/
def State.copyBytes (s : State) (src dst len pos : Nat) (bs : List PByte) : List PByte × Nat :=
  if src < dst + len ∧ dst < src + len then
    (bs.zipIdx.map (fun (p : PByte × Nat) =>
      let a := dst + pos + p.2
      if src ≤ a ∧ a < src + len then (BitVec.ofNat 8 (Config.freeValue (s.free + p.2)).toNat, p.1.2) else p.1), bs.length)
  else (bs, 0)

/-- The bytes at hand written at the destination, as many as one transfer takes (R204, R205, R208, R228); what a COPY has read and cannot write yet
is kept. -/
def State.moveWrite (s : State) (r : Nat) (d : Run) (bs : List PByte) : State :=
  let b := d.cur
  let seq := d.seq
  let len := s.moveLen r b
  let dst := s.moveDst r b
  let copy := s.isCopy r b
  let who := Who.run r seq
  let keep (s : State) : State := if copy then s.updRun r seq (fun (d : Run) => { d with buf := some bs }) else s
  match s.nextXfer who r d dst d.pos len .write with
  | .stale => s.failMove r seq stStaleGen
  | .fault k g => (keep s).runFault r seq (dst + d.pos) k g .write d.pos
  | .ok td sd left =>
    let n := td.room (min bs.length left)
    let part_ := bs.take n
    let s := s.holdField r seq (if copy then 1 else 0) sd
    let (out, used) := if copy then s.copyBytes (s.moveSrc r b) dst len d.pos part_ else (part_, 0)
    match s.writeAt who (s.ringCtx r) sd td out with
    | (.wait, s) => keep s
    | (.fail st, s) => s.failMove r seq st
    | (.data _, s) =>
      let s := s.useFrees used
      let s := if part_.any Prod.snd then s.noteErr r seq stPoison else s
      let s := match s.copyUnit r b with
        | some u => s.feedCopy r seq u part_
        | none => s
      let rest := bs.drop n
      let s := s.updRun r seq (fun (d : Run) => { d with pos := d.pos + n, buf := if copy && !rest.isEmpty then some rest else none })
      if d.pos + n = len then s.endMove r seq else s

/-- The next transfer of a COPY's source, where no bytes wait to be written: at most one packet of 2 KiB that the destination takes too. -/
def State.moveRead (s : State) (r : Nat) (d : Run) : State :=
  let b := d.cur
  let seq := d.seq
  let len := s.moveLen r b
  let src := s.moveSrc r b
  let dst := s.moveDst r b
  let who := Who.run r seq
  let room : Xfer := if (s.going who false).isSome then .ok (.mem 0 false) none packetBytes else s.nextXfer who r d dst d.pos len .write
  match room with
  | .stale => s.failMove r seq stStaleGen
  | .fault k g => s.runFault r seq (dst + d.pos) k g .write d.pos
  | .ok td _ leftD =>
    match s.nextXfer who r d src d.pos len .read with
    | .stale => s.failMove r seq stStaleGen
    | .fault k g => s.runFault r seq (src + d.pos) k g .read d.pos
    | .ok ts ss leftS =>
      let n := ts.room (min (td.room (min (min (len - d.pos) packetBytes) leftD)) leftS)
      let under := (s.going who false).isSome
      let s := if under then s else s.holdField r seq 0 ss
      match s.readAt who (s.ringCtx r) ss ts n with
      | (.wait, s) => s
      | (.fail st, s) => s.failMove r seq st
      | (.data bs, s) => match s.runOf r seq with | some d => s.moveWrite r d bs | none => s

/-- The next transfer of a mover descriptor (R204, R205, R208, R228). [DESIGN CHOICE, log 73] -/
def State.moveStep (s : State) (r : Nat) (d : Run) : State :=
  let b := d.cur
  let seq := d.seq
  let unit := s.copyUnit r b
  if unit.isSome && !(s.holdsUnit (unit.getD 0) r seq) then s
  else if s.isCopy r b then
    match d.buf with
    | some bs => s.moveWrite r d bs
    | none => s.moveRead r d
  else
    let n := min (s.moveLen r b - d.pos) packetBytes
    s.moveWrite r d (if s.on (Reg.QM_RING_CFG_legacy r) = false ∧ opOf b = 0x12 then
        (((b.drop 0x20).take (s.moveLen r b)).drop d.pos).take n |>.map (fun (x : Byte) => (x, false))
      else s.fillBytes r b d.pos n)

/-- The issued mover descriptor of a ring that still has transfers to issue. -/
def State.moving (s : State) (r : Nat) : Option Run :=
  (s.ring r).issued.find? (fun d => !d.allIssued && (d.subs.isEmpty || d.ends.length == d.sub))

/-- MOVER_TRANSFER (R204, R205): the next transfer of a ring's mover descriptor. -/
def execMoverTransfer (ring : Nat) (s : State) : Host.Outcome State Fault Refusal :=
  if s.glb.stop ≠ 0 ∨ s.ringCls ring ≠ clsMover ∨ s.ringWaits ring = true ∨ s.rd (Reg.QM_RING_STATE_state ring) = ringDisabled then .next s
  else match s.moving ring with
    | none => .next s
    | some d =>
      if (!s.on (Reg.QM_RING_CFG_legacy ring) && opOf d.cur == 0) || s.moveLen ring d.cur == 0 then .next s
      else .next (s.moveStep ring d)

/-- Whether a format-2 ring's descriptor has an opcode. -/
def State.isOp (s : State) (r op : Nat) (b : List Byte) : Bool := !s.on (Reg.QM_RING_CFG_legacy r) && opOf b == op

/-- Whether a legacy ring's descriptor has an opcode. -/
def State.isLegacyOp (s : State) (r op : Nat) (b : List Byte) : Bool := s.on (Reg.QM_RING_CFG_legacy r) && descBits b 0 15 0 == op

/-- Whether the descriptor that runs on a ring must wait for every earlier one to complete, as WRITE_IMM does (R228). -/
def State.undrained (s : State) (r : Nat) : Bool :=
  (s.ring r).issued.any (fun d => d.status.isNone || s.acc.outq.any (fun o => o.who == .run r d.seq))

/-- NOP (R225). -/
def execNop (ring : Nat) (s : State) : Host.Outcome State Fault Refusal :=
  .next (s.issueHead ring (s.isOp ring 0) (fun _ q => nopOk q.bytes) (fun _ _ => false) (fun s seq => s.startNop ring seq))

/-- COPY (R228). -/
def execCopy (ring : Nat) (s : State) : Host.Outcome State Fault Refusal :=
  .next (s.issueHead ring (s.isOp ring 0x10) (fun _ q => copyOk q.bytes) (fun _ _ => false) (fun s seq => s.startMove ring seq))

/-- FILL (R228). -/
def execFill (ring : Nat) (s : State) : Host.Outcome State Fault Refusal :=
  .next (s.issueHead ring (s.isOp ring 0x11) (fun _ q => fillOk q.bytes) (fun _ _ => false) (fun s seq => s.startMove ring seq))

/-- WRITE_IMM (R228): it issues only once every earlier descriptor has drained. -/
def execWriteImm (ring : Nat) (s : State) : Host.Outcome State Fault Refusal :=
  .next (s.issueHead ring (s.isOp ring 0x12) (fun _ q => writeImmOk q.bytes) (fun s _ => s.undrained ring)
    (fun s seq => s.startMove ring seq))

/-- LEGACY_NOP (R234). -/
def execLegacyNop (ring : Nat) (s : State) : Host.Outcome State Fault Refusal :=
  .next (s.issueHead ring (s.isLegacyOp ring 0) (fun _ q => legacyOk q.bytes 0) (fun _ _ => false) (fun s seq => s.startNop ring seq))

/-- LEGACY_COPY (R234). -/
def execLegacyCopy (ring : Nat) (s : State) : Host.Outcome State Fault Refusal :=
  .next (s.issueHead ring (s.isLegacyOp ring 1) (fun _ q => legacyOk q.bytes 1) (fun _ _ => false) (fun s seq => s.startMove ring seq))

/-- LEGACY_FILL (R234). -/
def execLegacyFill (ring : Nat) (s : State) : Host.Outcome State Fault Refusal :=
  .next (s.issueHead ring (s.isLegacyOp ring 2) (fun _ q => legacyOk q.bytes 2) (fun _ _ => false) (fun s seq => s.startMove ring seq))

/-- Descriptors that hold a failed engine end with ENGINE_LOST (R238). -/
def State.loseEngine (s : State) (r : Nat) : State :=
  ((s.ring r).issued.filter (fun d => d.status.isNone)).foldl (fun (s : State) (d : Run) => s.failMove r d.seq stEngineLost) s

/-- A mover fenced, and what its rings run ends with ENGINE_LOST (R459, R515): cause 1 a parity or state error, 2 a flint failure. -/
def State.fenceMover (s : State) (mover cause : Nat) : State :=
  if s.eng.moverFenced.contains mover then s
  else
    let s := { s with eng := { s.eng with moverFenced := s.eng.moverFenced ++ [mover] }, glb := { s.glb with worn := true } }
    let s := s.event blkQmgr 6 3 mover cause
    (s.rings.map (·.1)).foldl (fun (s : State) r =>
      if s.ringCls r = clsMover ∧ s.rd (Reg.QM_RING_CFG_engine r) = mover then s.loseEngine r else s) s

/-- MOVER_PARITY_ERROR (R459, R515). -/
def execMoverParityError (mover : Nat) (s : State) : Host.Outcome State Fault Refusal := .next (s.fenceMover mover 1)

end Sys2Proof.Machine
end

