-- ==== Sys2Proof/Machine/Xlat.lean ====
section
/-! DEFINITION. XLAT_INV, the end of an invalidation, the end of a fault record, and a site's own requests (R196–R202, R204, R206, R207, R209, R211, R212, R287). -/
namespace Sys2Proof.Machine

/-- A site's binding (XLAT_SITE_CTX): whether it is bound, and the context. -/
def siteBound (n : Nat) : Fld := if n % 2 = 0 then Reg.XLAT_SITE_CTX_bound_even (n / 2) else Reg.XLAT_SITE_CTX_bound_odd (n / 2)
def siteCtx (n : Nat) : Fld := if n % 2 = 0 then Reg.XLAT_SITE_CTX_ctx_even (n / 2) else Reg.XLAT_SITE_CTX_ctx_odd (n / 2)

/-! ### The checks of R199 -/

/-- The shadow set of one segment: what a commit would put in force. -/
structure SegSet where
  base : Nat
  limit : Nat
  dev : Nat
  target : Nat
  attr : Nat
  deriving DecidableEq, Repr

/-- A segment's shadow. -/
def State.segShadow (s : State) (c k : Nat) : SegSet :=
  { base := s.shf (Reg.SEG_BASE_base c k), limit := s.shf (Reg.SEG_LIMIT_limit c k), dev := s.shf (Reg.SEG_TARGET_device_id c k),
    target := s.shf (Reg.SEG_TARGET_target_addr c k), attr := s.shd (Reg.SEG_ATTR c k) }

/-- A segment's committed set. -/
def State.segSet (s : State) (c k : Nat) : SegSet :=
  { base := s.rd (Reg.SEG_BASE_base c k), limit := s.rd (Reg.SEG_LIMIT_limit c k), dev := s.rd (Reg.SEG_TARGET_device_id c k),
    target := s.rd (Reg.SEG_TARGET_target_addr c k), attr := s.reg (Reg.SEG_ATTR c k) }

/-- Fields of SEG_ATTR. -/
def SegSet.valid (x : SegSet) : Bool := bit x.attr 6
def SegSet.coherent (x : SegSet) : Bool := bit x.attr 5
def SegSet.kind (x : SegSet) : Nat := bits x.attr 1 0
def SegSet.slot (x : SegSet) : Nat := bits x.attr 11 8
def SegSet.size (x : SegSet) : Nat := x.limit - x.base

/-- Whether a segment maps local memory. -/
def SegSet.inMem (x : SegSet) : Bool := x.kind == 0 && decide (x.target < scratchBase)

/-- Rule 1 of R199. -/
def SegSet.aligned (x : SegSet) : Bool :=
  x.base % granuleBytes == 0 && x.limit % granuleBytes == 0 && x.target % granuleBytes == 0 && decide (x.limit ≤ 2 ^ 56) &&
  (!x.valid || decide (x.base < x.limit))

/-- Rule 2 of R199. -/
def State.segTargetOk (s : State) (x : SegSet) : Bool :=
  if x.kind = 0 then s.inMemory x.target x.size || s.inScratch x.target x.size
  else if x.kind = 1 then inOutbound x.target x.size
  else if x.kind = 2 then inAperture x.target x.size && !s.siteDark (siteOf x.target)
  else s.on Reg.FAB_IDENT_configured && x.dev != s.rd Reg.FAB_IDENT_device_id && decide (x.target + x.size ≤ 2 ^ 48)

/-- Whether a range of memory holds a bedrock granule. -/
def State.bedrockIn (s : State) (a n : Nat) : Bool :=
  s.hbm.own.any (fun p => p.2.bedrock && decide (a < (p.1 + 1) * granuleBytes) && decide (p.1 * granuleBytes < a + n))

/-- Rule 3 of R199: key slots 0 to 8 are of the host kinds and 11 to 15 of the fabric kind (R441). -/
def State.segRightsOk (s : State) (x : SegSet) : Bool :=
  (if x.kind = 1 then decide (x.slot ≤ 8) else if x.kind = 3 then decide (11 ≤ x.slot) else x.slot == 0) &&
  (!x.coherent || x.inMem) &&
  (!(bit x.attr 3 || bit x.attr 4) || !(x.inMem && s.bedrockIn x.target x.size))

/-- Whether two valid segments break rule 4 of R199. -/
def segsClash (x y : SegSet) : Bool :=
  x.valid && y.valid &&
  ((decide (x.base < y.limit) && decide (y.base < x.limit)) ||
   (x.inMem && y.inMem && x.coherent != y.coherent && decide (x.target < y.target + y.size) && decide (y.target < x.target + x.size)))

/-- Whether what holds an address is a segment under a generation. -/
def holdsGen (k g : Nat) (h : Held) : Bool := h.any (fun x => x == some (k, g))

/-- Whether queued or in-flight work of a context still holds a generation of a segment (R209). -/
def State.genHeld (s : State) (c k g : Nat) : Bool :=
  s.rings.any (fun p => s.ringCtx p.1 == c &&
    (p.2.fetched.any (fun q => holdsGen k g q.held || q.subHeld.any (holdsGen k g)) ||
     p.2.issued.any (fun d => d.status.isNone && (holdsGen k g d.held || d.subHeld.any (holdsGen k g))))) ||
  s.tiles.any (fun p => p.2.run.any (fun q => q.ctx == c) && p.2.tdma.any (fun d => d.held == some (k, g))) ||
  s.acc.outq.any (fun o => o.ctx == c && o.ans.isNone && o.seg == some (k, g))

/-- The first rule that a segment of the set to be committed breaks, as the r of first_field. -/
def State.segFault0 (s : State) (c mask : Nat) (all : Bool) (k : Nat) : Option Nat :=
  let get (j : Nat) : SegSet := if bit mask j then s.segShadow c j else s.segSet c j
  let x := get k
  if bit mask k && !x.aligned then some 0
  else if bit mask k && x.valid && !(s.segTargetOk x && s.segRightsOk x) then some 1
  else if bit mask k && (List.range 16).any (fun j => j != k && segsClash x (get j)) then some 2
  else if (bit mask k || all) && x.valid && s.genHeld c k ((s.genOf c k + 1) % 2 ^ 16) then some 3
  else none

/-- The field that refuses an XLAT_INV, or none (R199). [DEDUCED, log 69] -/
def State.xlatRefusal (s : State) (v : Nat) (internal : Bool) : Option Nat :=
  let c := bits v 5 0
  let mask := bits v 31 16
  let all := s.shf (Reg.XLAT_CTX_enable c) != s.rd (Reg.XLAT_CTX_enable c)
  if c = 0 ∧ internal = false then some 5
  else if 16 ≤ s.xlat.pend.length then some 4
  else if c = 0 ∧ 8 < s.shf (Reg.XLAT_CTX_default_key 0) then some 1
  else if bit v 7 && (List.range 8).any (fun n => s.shf (siteBound n) == 1 && s.shf (siteCtx n) == 0) then some 2
  else ((List.range 16).filterMap (fun k => (s.segFault0 c mask all k).map (fun r => 0x10 + 4 * k + r))).head?

/-! ### Drain and completion (R206, R207, R287) -/

/-- Whether what a commit waits for has drained: the transfers and site requests of before it, and the lines it recalls (R206, R207, R287). -/
def State.xlatDrained (s : State) (p : XlatPend) : Bool :=
  !s.acc.outq.any (fun o => p.ids.contains o.id && o.ans.isNone) && !s.xlat.siteReqs.any (fun q => p.reqs.contains q.id) &&
  !p.ranges.any (fun r => s.rangeHeld r.1 r.2)

/-- XLAT_STATUS's count and XLAT_INV_DONE's busy bit shown. -/
def State.showXlat (s : State) : State :=
  (s.wr Reg.XLAT_STATUS_pending s.xlat.pend.length).wr Reg.XLAT_INV_DONE_busy (ofBool (!s.xlat.pend.isEmpty))

/-- The oldest accepted commit completed once it has drained (R206 step 5). -/
def State.invDone (s : State) : State :=
  match s.xlat.pend with
  | [] => s
  | p :: t =>
    let s := p.ranges.foldl (fun (s : State) r => s.recallRange r.1 r.2) s
    if !s.xlatDrained p then s
    else
      let s := { s with xlat := { s.xlat with pend := t } }
      let s := (s.wr Reg.XLAT_INV_DONE_last_done p.tag).showXlat
      if s.on Reg.XLAT_CFG_inv_irq_en then s.msix (s.rd Reg.XLAT_CFG_inv_vector) else s

/-- INVALIDATION_DONE (R206 step 5). -/
def execInvalidationDone (s : State) : Host.Outcome State Fault Refusal := .next s.invDone

/-- The mirror entries of a context whose region has moved to another physical target: every bit of theirs set (R354). -/
def State.mirrorsMoved (s : State) (c : Nat) : State :=
  (s.coll.mirrors.filter (fun p => p.2.ctx == c)).foldl (fun (s : State) (p : Nat × MirSt) =>
    match s.translate c p.2.src .read with
    | .ok (.mem a _) _ _ =>
      if a = p.2.phys then s
      else
        let all := List.range (p.2.length / blockBytes)
        { s with coll := { s.coll with mirrors := s.coll.mirrors.put p.1 { p.2 with phys := a, dirty0 := all, dirty1 := all } } }.showDirty p.1
    | _ => s) s

/-- XLAT_INV (R199, R200, R201, R204, R206): the set of a context committed, or refused. [DEDUCED, log 69] -/
def execXlatInv (v : Word) (internal : Bool) (s : State) : Host.Outcome State Fault Refusal :=
  match s.xlatRefusal v.toNat internal with
  | some f => .next (s.commitRefused Reg.XLAT_COMMIT_STATUS f)
  | none =>
    let c := bits v.toNat 5 0
    let mask := bits v.toNat 31 16
    let sites := bit v.toNat 7
    let was := s.on (Reg.XLAT_CTX_enable c)
    let moved := s.shf (Reg.XLAT_CTX c |> fun o => ⟨o, 31, 0⟩) != s.rd ⟨Reg.XLAT_CTX c, 31, 0⟩
    let bump := (List.range 16).filter (fun k => bit mask k || was != (s.shf (Reg.XLAT_CTX_enable c) == 1))
    let bound := (List.range 8).any (fun n => s.on (siteBound n) && s.rd (siteCtx n) == c)
    let ranges := if bound then (bump.map (s.segSet c)).filterMap (fun x =>
      if x.valid && x.coherent then some (x.target, x.size) else none) else []
    let ids := (s.acc.outq.filter (fun o => o.ctx == c && o.ans.isNone && (match o.seg with | some (k, _) => bump.contains k | none => false))).map OutReq.id
    let reqs := (s.xlat.siteReqs.filter (fun q => sites || (q.ctx == c && bump.contains q.seg))).map SiteReq.id
    let s := s.commitReg (Reg.XLAT_CTX c)
    let s := (List.range 16).foldl (fun (s : State) k =>
      if bit mask k then s.commitRegs [Reg.SEG_BASE c k, Reg.SEG_LIMIT c k, Reg.SEG_TARGET c k, Reg.SEG_ATTR c k] else s) s
    let s := if sites then s.commitRegs ((List.range 4).map Reg.XLAT_SITE_CTX) else s
    let s := (bump.foldl (fun (s : State) k => s.bumpGen c k) s).mirrorsMoved c
    let tag := bits v.toNat 15 8
    let s := (s.commitDone Reg.XLAT_COMMIT_STATUS).wr Reg.XLAT_INV_DONE_last_accepted tag
    let p : XlatPend := { tag := tag, ids := ids, reqs := reqs, ranges := ranges }
    let s := ({ s with xlat := { s.xlat with pend := s.xlat.pend ++ [p] } }).showXlat
    if mask = 0 ∧ moved = false ∧ sites = false then .next s.invDone else .next s

/-- A tile's dispatch ended by a segment fault (R210, TILE_FAULT). -/
def State.tileSegFault (s : State) (t : Nat) : State :=
  let s := match s.slotOf t with
    | some p => s.setSlot p { s.slot p with fault := putBits (s.slot p).fault 7 0 4 }
    | none => s
  s.endKernel t stSegFault 0

/-! ### Requests of a site (R202) -/

/-- The event of a site's request that faulted or came while the site was unbound, at most one per site in each 1 ms (R202). -/
def State.siteRequestEvent (s : State) (n va : Nat) : State :=
  let late := match s.xlat.siteEvtAt.find? (fun p => p.1 == n) with
    | some (_, t) => decide (msUnits ≤ s.now - t)
    | none => true
  if late then { s with xlat := { s.xlat with siteEvtAt := s.xlat.siteEvtAt.put n s.now } }.refusal blkSite n 9 va else s

/-- A site's request admitted under its binding (R206). -/
def State.siteAdmit (s : State) (n tag c seg : Nat) : State :=
  { s with
    xlat := { s.xlat with siteReqs := s.xlat.siteReqs ++ [({ id := s.acc.nextId, site := n, tag := tag, ctx := c, seg := seg } : SiteReq)] }
    acc := { s.acc with nextId := s.acc.nextId + 1 } }

/-- What a site's address translates to under its binding. -/
def State.siteXlat (s : State) (n va : Nat) (write : Bool) : Xl :=
  if s.on (siteBound n) then s.translate (s.rd (siteCtx n)) va (if write then .write else .read)
  else .fault 3 none

/-- A memory request that passes through the home (R274, R282): whole when no line needs work there, else line by line. -/
def State.coherentRequest (s : State) (who : AsmFor) (r : MemReq) : State :=
  if s.homeFree r.addr r.len r.data.isSome then s.sourceRequest r else s.askLines who r true

/-- A request at the memory system: those of the host, the fabric and firmware are coherent (R274). -/
def State.memoryRequest (s : State) (r : MemReq) : State :=
  match r.port with
  | .host => s.coherentRequest (.bar4 r.tag) r
  | .fabric _ => s.coherentRequest (.site 8 r.tag) r
  | _ => if r.origin = Origin.firmware then s.coherentRequest (.site 8 r.tag) r else s.sourceRequest r

/-- MEMORY_READ (R166, R170, R175, R184). -/
def execMemoryRead (req : MemReq) (s : State) : Host.Outcome State Fault Refusal :=
  .next (s.memoryRequest { req with data := none })

/-- MEMORY_WRITE (R165, R175, R184). A request without bytes writes none. -/
def execMemoryWrite (req : MemReq) (s : State) : Host.Outcome State Fault Refusal :=
  .next (s.memoryRequest { req with data := some (req.data.getD []) })

/-- An uncached read or write of a chiplet, translated under its site's binding (R202, R275). -/
def State.siteRequest (s : State) (site tag va len : Nat) (write : Bool) (data : List (Option Byte)) (poison : Bool) : State :=
  match s.siteXlat site va write with
    | .fault _ _ => (s.siteRequestEvent site va).refuseUncached site tag write
    | .ok t seg left =>
      if left < (if write then data.length else len) then (s.siteRequestEvent site va).refuseUncached site tag write else
      let c := s.rd (siteCtx site)
      let s := s.siteAdmit site tag c ((seg.map Prod.fst).getD 0)
      let r (a : Nat) : MemReq :=
        { tag := tag, origin := .ctx c, port := .site site, cls := siteClass site, addr := a,
          len := if write then data.length else len, data := if write then some data else none, poison := poison, ecc := .clean }
      match t with
      | .mem a coh => if coh then s.coherentRequest (.site site tag) (r a) else s.sourceRequest (r a)
      | .scratch a => s.windowAccess (r a)
      | _ =>
        let who := Who.site site tag
        let got := if write then s.writeMasked who c seg t data poison
          else s.readAt who c seg t len
        match got with
        | (.data _, s) => if write && s.outstanding who then s else s.answerSite site tag write .done
        | (.fail _, s) => s.refuseUncached site tag write
        | (.wait, s) => s

/-- A discarded message counted, with one event per site in each 1 ms (R258, R279). [DESIGN CHOICE, log 27; DEDUCED, log 88] -/
def State.misroutedAt (s : State) (n va : Nat) : State :=
  let s := s.sat (Reg.SITE_MISROUTE_misrouted n) 1
  let late := match s.home.misAt.find? (fun p => p.1 == n) with
    | some (_, t) => decide (msUnits ≤ s.now - t)
    | none => true
  if late then { s with home := { s.home with misAt := s.home.misAt.put n s.now } }.refusal blkSite n 5 va else s

/-- SITE_REQUEST (R202, R258, R275): an uncached request that arrives on a module. One on another module than its entry's is discarded
with an error response, and none is heard of a site whose aperture is not open. -/
def execSiteRequest (site : SiteModule) (tag va len : Nat) (write : Bool) (data : List (Option Byte)) (poison : Bool) (s : State) :
    Host.Outcome State Fault Refusal :=
  let n := site.site
  let s := s.leaveL1 n site.module
  if !s.siteOpen n then .next s
  else if site.module != s.carrierOf n (some va) then .next ((s.misroutedAt n va).refuseUncached n tag write)
  else .next (s.siteRequest n tag va len write data poison)

end Sys2Proof.Machine
end

