-- ==== Sys2Proof/Machine/Noc.lean ====
section
/-! DEFINITION. The on-chip network's own commands: packets, replays, retired links, lost routers, timeouts and its commit (R145–R147, R151–R155, R463). -/
namespace Sys2Proof.Machine

/-! ### Links and routers (R151, R152) -/

/-- The four torus links of a router: +x and +y leaving it, −x and −y entering it. -/
def linksOfRouter (r : Nat) : List Nat := [hopLink 1 r, hopLink 2 r, hopLink 3 r, hopLink 4 r]

/-- The routers and links lost once the pending switch-over has taken place. -/
def State.nocLost (s : State) : List Nat × List Nat := s.noc.pendLost.getD (s.noc.lost, s.noc.links)

/-- What the registers show of lost routers and retired links. -/
def State.showNoc (s : State) : State :=
  let l := s.nocLost
  let set (xs : List Nat) (lo : Nat) : Nat := ((List.range 64).filter (fun i => xs.contains (lo + i))).foldl (fun v i => v + 2 ^ i) 0
  let s := (s.wr Reg.NOC_STATUS_routers_lost l.1.length).wr Reg.NOC_STATUS_links_retired (min 255 l.2.length)
  let s := (s.setReg Reg.NOC_ROUTER_LOST_LO (set l.1 0)).setReg Reg.NOC_ROUTER_LOST_HI (set l.1 64)
  (List.range 4).foldl (fun (s : State) k => s.setReg (Reg.NOC_LINK_RETIRED k) (set l.2 (64 * k))) s

/-- Routers or links lost: firmware computes new routes in shadow, in place of every entry that the loss breaks, for its next commit (R147, R151). -/
def State.nocLose (s : State) (routers links : List Nat) : State :=
  let l := s.nocLost
  let a := l.1 ++ routers.filter (fun r => !l.1.contains r)
  let b := l.2 ++ links.filter (fun k => !l.2.contains k)
  let good := s.noc.routesShadow.filter (fun p => routeFault a b (p.1 / 256) (p.1 % 256) p.2.toNat == 0)
  ({ s with noc := { s.noc with pendLost := some (a, b), routesShadow := good }, glb := { s.glb with worn := true } }.wr
    Reg.NOC_STATUS_recompute 1).showNoc

/-- The logical cluster that a physical cluster carries. -/
def State.logicalCluster (s : State) (c : Nat) : Option Nat :=
  (List.range s.noc.clusterMap.length).find? (fun l => s.noc.clusterMap[l]? == some c)

/-- The packets in a lost router discarded: their sources time out (R152). -/
def State.discardPackets (s : State) (c : Nat) : State :=
  { s with noc := { s.noc with
    eject := s.noc.eject.filter (fun p => p.slot / 18 != c)
    stranded := s.noc.stranded ++ (s.noc.eject.filter (fun p => p.slot / 18 == c)).map Packet.req } }

/-- A physical cluster lost with its router (R152): its 18 tiles fenced, without a rebind, and its packets discarded. [DEDUCED, log 54] -/
def State.loseCluster (s : State) (c : Nat) : State :=
  if s.nocLost.1.contains c then s
  else
    let s := (List.range 18).foldl (fun (s : State) k =>
      if (s.tileOfSlot (c * 18 + k)).isNone then s.setSlot (c * 18 + k) { s.slot (c * 18 + k) with fenced := true } else s) s
    let s := match s.logicalCluster c with
      | some l => ((List.range 16).foldl (fun (s : State) i => s.fenceTile (16 * l + i)) s).wr (Reg.CL_STATUS_lost l) 1
          |>.wr (Reg.CL_STATUS_spares l) 0
      | none => s
    ((s.discardPackets c).nocLose [c] []).eventOpen blkNoc 7 3 c

/-- A torus link retired (R151), and the routers that it leaves without a link. [DEDUCED, log 54] -/
def State.retireLink (s : State) (k : Nat) : State :=
  if s.nocLost.2.contains k then s
  else
    let s := (s.nocLose [] [k]).eventOpen blkNoc 7 3 k
    let ends := [k / 2, hopTo (if k % 2 = 0 then 1 else 3) (k / 2)]
    (ends.filter (fun r => (linksOfRouter r).all (fun l => s.nocLost.2.contains l))).foldl State.loseCluster s

/-- One second in time units. -/
def secUnits : Nat := 2 ^ 32

/-- FLIT_REPLAY (R151): a flit with an uncorrectable word is replayed on a torus link. `corrected` counts the words corrected with it;
`third` says that it is the third replay of one flit in a row. -/
def execFlitReplay (link corrected : Nat) (third : Bool) (s : State) : Host.Outcome State Fault Refusal :=
  let s := (List.range corrected).foldl (fun (s : State) _ => s.corrected Reg.NOC_ERR_CORR_corrected blkNoc link) s
  let s := s.sat Reg.NOC_ERR_REPLAY_replays 1
  let recent := ((s.noc.replays.get [] link).filter (fun t => decide (s.now - t < secUnits))) ++ [s.now]
  let s := { s with noc := { s.noc with replays := s.noc.replays.put link recent } }
  .next (if third || decide (1000 < recent.length) then s.retireLink link else s)

/-- ROUTER_LOSS (R152). -/
def execRouterLoss (cluster : Nat) (s : State) : Host.Outcome State Fault Refusal := .next (s.loseCluster (cluster % 128))

/-! ### Route tables (R145–R147, R151) -/

/-- The clusters to which some surviving interface has no legal route under the losses given (R147). -/
def unreachable (lost links : List Nat) : List Nat :=
  (List.range 128).filter (fun d => !lost.contains d &&
    (List.range 160).any (fun ni => !lost.contains (niRouter ni) && firmwareRoute lost links ni d == 0))

/-- Two losses or more can leave a pair of routers without a legal route: firmware then declares the destination's cluster lost, which may cut off
others (R147). -/
def State.loseUnreachable (s : State) : Nat → State
  | 0 => s
  | n + 1 =>
    let l := s.nocLost
    if s.noc.pendLost.isNone || decide (l.1.length + l.2.length < 2) then s
    else match Sys2Proof.Machine.unreachable l.1 l.2 with
      | [] => s
      | d :: t => ((d :: t).foldl State.loseCluster s).loseUnreachable n

/-- The route set that a commit takes: the entries in force that are still legal under the losses known, the shadowed ones over them, and firmware's
own for all others (R146, R147). -/
def State.routeSet (s : State) : RouteSet :=
  let l := s.nocLost
  let base := match s.noc.routesPend with | some t => t.routes | none => s.noc.routes
  let kept := if s.noc.pendLost.isSome then
    base.filter (fun p => routeFault l.1 l.2 (p.1 / 256) (p.1 % 256) p.2.toNat == 0) else base
  { routes := s.noc.routesShadow.foldl (fun (t : Sparse DWord) p => t.put p.1 p.2) kept, lost := l.1, links := l.2,
    timeout := s.shf Reg.NOC_CFG_timeout_us }

/-- The set shadowed committed: it waits for the switch-over (R146, R155). -/
def State.routesTaken (s : State) : State :=
  ({ s with noc := { s.noc with routesPend := some s.routeSet } }.setReg Reg.NOC_RT_BAD 0).commitDone Reg.NOC_COMMIT_STATUS

/-- Every interface switches to the committed tables and injects again: the requests that waited are sent (R146, R151). Losses that came after the
commit wait for the next one. [DEDUCED, log 166] -/
def State.switchover (s : State) : State :=
  match s.noc.routesPend with
  | none => s
  | some t =>
    let held := s.noc.held
    let rest := if s.nocLost = (t.lost, t.links) then none else s.noc.pendLost
    let s := { s with noc := { s.noc with lost := t.lost, links := t.links, routes := t.routes, routesPend := none, pendLost := rest, held := [] } }
    let s := (s.wr Reg.NOC_CFG_timeout_us t.timeout).wr Reg.NOC_STATUS_recompute (ofBool rest.isSome)
    held.foldl State.windowAccess s

/-- ROUTE_SWITCHOVER (R146, R151): the requests of every interface have drained. -/
def execRouteSwitchover (s : State) : Host.Outcome State Fault Refusal := .next s.switchover

/-- The first illegal shadowed entry: its key and the condition of R146 that it breaks. -/
def State.badRoute (s : State) : Option (Nat × Nat) :=
  (s.noc.routesShadow.filterMap (fun p =>
    let f := if p.1 / 256 < 160 then
        (if 160 ≤ p.1 % 256 ∧ bit p.2.toNat 40 = true then 4 else routeFault s.nocLost.1 s.nocLost.2 (p.1 / 256) (p.1 % 256) p.2.toNat)
      else 0
    if f = 0 then none else some (p.1, f))).head?

/-- NOC_COMMIT (R146, R147, R151, R155): firmware, having recomputed what a loss breaks, commits the shadowed set, which waits for the switch-over once
it is accepted. -/
def execNocCommit (v : Word) (s : State) : Host.Outcome State Fault Refusal :=
  if !bit v.toNat 0 then .next s
  else
    let t := s.shf Reg.NOC_CFG_timeout_us
    if t < 100 ∨ 10000 < t then .next (s.commitRefused Reg.NOC_COMMIT_STATUS 1)
    else match s.badRoute with
      | some (k, f) =>
        .next ((((s.wr Reg.NOC_RT_BAD_rule f).wr Reg.NOC_RT_BAD_ni (k / 256)).wr Reg.NOC_RT_BAD_entry (k % 256)).commitRefused
          Reg.NOC_COMMIT_STATUS 2)
      | none => .next (s.loseUnreachable 128).routesTaken

/-! ### Packets (R153, R154) -/

/-- PACKET_EJECT (R151, R154): a request arrives for a tile; a sleeping quad's clock is started and the packet waits. The links on which a word of its
flits was corrected are counted. -/
def execPacketEject (req : TileRequest) (s : State) : Host.Outcome State Fault Refusal :=
  .next ((req.corrected.foldl (fun (s : State) k => s.corrected Reg.NOC_ERR_CORR_corrected blkNoc k) s).windowAccess req.body)

/-- SCRATCH_WINDOW_ACCESS (R60). -/
def execScratchWindowAccess (req : MemReq) (s : State) : Host.Outcome State Fault Refusal := .next (s.windowAccess req)

/-- Whether a request's timer is not restarted while it waits: its target is neither the host nor a peer (R153). -/
def OutReq.timed (o : OutReq) : Bool := match o.tgt with | .host _ _ => false | .peer _ _ _ => false | _ => true

/-- Whether a request's engine has gone from it. -/
def OutReq.left (o : OutReq) : Bool := match o.who with | .gone _ => o.ans.isNone | _ => false

/-- Whether an engine may have a request that ends under R153: one whose target is neither the host nor a peer. [DEDUCED, log 57] -/
def State.endsByTimeout (s : State) (who : Who) : Bool :=
  let mine := s.acc.outq.filter (fun o => o.who == who)
  mine.any OutReq.timed || mine.isEmpty

/-- The waiting memory request with a tag, wherever it waits. -/
def State.waitingReq (s : State) (tag : Nat) : Option MemReq :=
  let h := s.hbm
  (h.srcWait ++ h.credWait ++ h.copyWait ++ h.parked ++ (s.noc.eject.map Packet.req) ++ s.noc.held ++ s.noc.stranded ++
    (s.home.waiting ++ s.home.txns.map HomeTxn.why).filterMap (fun w => match w with | .mem r => some r | _ => none)).find? (fun r => r.tag == tag)

/-- A waiting memory request forgotten: its late response finds nothing. -/
def State.forgetReq (s : State) (tag : Nat) : State :=
  let out (l : List MemReq) : List MemReq := l.filter (fun r => r.tag != tag)
  let h := s.hbm
  { s with
    hbm := { h with srcWait := out h.srcWait, credWait := out h.credWait, copyWait := out h.copyWait, parked := out h.parked }
    noc := { s.noc with eject := s.noc.eject.filter (fun p => p.req.tag != tag), held := out s.noc.held, stranded := out s.noc.stranded }
    home := { s.home with waiting := s.home.waiting.filter (fun w => match w with | .mem r => r.tag != tag | _ => true) } }

/-- NOC_REQUEST_TIMEOUT (R153): a request has had no response for timeout_us. [DEDUCED, log 57] -/
def execNocRequestTimeout (who : Timed) (s : State) : Host.Outcome State Fault Refusal :=
  let n (s : State) : State := s.sat Reg.NOC_TIMEOUTS_timeouts 1
  match who with
  | .ring r seq =>
    match s.runOf r seq with
    | some d =>
      if d.status.isSome || !s.endsByTimeout (.run r seq) then .next s
      else .next (((n s).dropReqs (.run r seq)).failMove r seq stNocTimeout)
    | none => .next s
  | .tile t =>
    let late := (s.tile t).tdma.filter (fun c => s.endsByTimeout (.tile t c.tag))
    if (s.tile t).run.isSome && !late.isEmpty then
      .next ((late.foldl (fun (s : State) (c : TdmaCmd) => s.dropReqs (.tile t c.tag)) (n s)).endKernel t stNocTimeout 0)
    else .next s
  | .request tag =>
    match s.waitingReq tag with
    | none => if s.acc.outq.any (fun o => o.id == tag && o.left && o.timed) then .next ((n s).dropReq tag) else .next s
    | some r =>
      let s := (n s).forgetReq tag
      if r.port = Port.host then
        .next ((if r.data.isSome then s else s.send (.memData tag (List.replicate r.len 0xFF))).event blkNoc 0x0A 3 0 (s.rd Reg.NOC_CFG_timeout_us))
      else match r.port with
        | .part id i => .next (s.partDone id i (.error stNocTimeout))
        | .site k => .next (s.refuseUncached k tag r.data.isSome)
        | _ => .next (s.send (.memError tag))

/-- NOC_LATE_RESPONSE (R153). -/
def execNocLateResponse (s : State) : Host.Outcome State Fault Refusal := .next (s.sat Reg.NOC_TIMEOUTS_late 1)

/-! ### Fatal losses (R151, R463) -/

/-- NOC_PLL_UNLOCK (R463): fatal cause 0x0C11, sub-cause 2. -/
def execNocPllUnlock (s : State) : Host.Outcome State Fault Refusal := .next (s.fatalStop 0x0C11 0 2 0 false)

/-- The number under which detail1 names an end of a segment: a controller's stop, or 54 and up for a crossbar, which has no stop number.
[DESIGN CHOICE, log 55] [DESIGN CHOICE, log 55] -/
def XPlace.code : XPlace → Nat
  | .ctl h => h
  | .bar k => 54 + k

/-- EXPRESS_LINK_LOSS (R151, R463): one link of a spine segment leaves half its bandwidth; both are fatal, and how detail1 packs the two end
stops is open. [DESIGN CHOICE, log 55] -/
def execExpressLinkLoss (segment : Nat) (s : State) : Host.Outcome State Fault Refusal :=
  let k := s.noc.segLost.get 0 segment
  let s := { s with noc := { s.noc with segLost := s.noc.segLost.put segment (k + 1) } }
  if k = 0 then .next (s.eventOpen blkNoc 7 3 segment)
  else if k = 1 then
    .next (s.fatalStop 0x0C11 segment 1 (Config.endStops (segEnds segment).1.code (segEnds segment).2.code).toNat false)
  else .next s

end Sys2Proof.Machine
end

