-- ==== Sys2Proof/Machine/TileCore.lean ====
section
/-! DEFINITION. A tile's control core: its view of scratch, the instruction buffer, traps, and the RV64IMAC instructions with the kernel control registers (R51–R54, R57–R59, R64, R71, R73, R87, R117, R130). -/
namespace Sys2Proof.Machine

/-! ### Scratch as the tile's own agents see it (R55, R58, R59, R73) -/

/-- The agents of a tile that reach its scratch. -/
def agCore : Nat := 0
def agVector : Nat := 1
def agArray : Nat := 2
def agDma : Nat := 3
def agDrain : Nat := 4

/-- Bytes read by an agent: those of a write by another agent that no fence has ordered are undefined (R58, R73). [DESIGN CHOICE, log 33] -/
def State.unsettledMask (s : State) (t agent a : Nat) (bs : List Byte) : List Byte × State :=
  let us := (s.tile t).unsettled.filter (fun u => u.2.2 != agent && decide (u.1 < a + bs.length) && decide (a < u.1 + u.2.1))
  if us.isEmpty then (bs, s)
  else
    (bs.zipIdx.map (fun (p : Byte × Nat) =>
      if us.any (fun u => decide (u.1 ≤ a + p.2) && decide (a + p.2 < u.1 + u.2.1)) then BitVec.ofNat 8 (Config.freeValue (s.free + p.2)).toNat
      else p.1),
     s.useFrees bs.length)

/-- A checked read of a tile's scratch by one of its own agents: none when it meets poison. [DESIGN CHOICE, log 33] -/
def State.tileRead (s : State) (t agent a n : Nat) : Option (List Byte) × State :=
  let (bs, s) := s.scrRead t a n .clean
  if bs.any Prod.snd then (none, s)
  else let (bs, s) := s.unsettledMask t agent a (bs.map Prod.fst); (some bs, s)

/-- A write to a tile's scratch by one of its own agents; bytes beyond scratch do not exist. [DEDUCED, log 42] -/
def State.tileWrite (s : State) (t agent a : Nat) (bs : List Byte) : State :=
  let bs := bs.take (scratchBytes - a)
  if (s.slotOf t).isNone then s
  else
    let s := s.scrStore t a (bs.map (fun b => (b, false)))
    let x := s.tile t
    s.setTile t { x with unsettled := x.unsettled ++ [(a, bs.length, agent)] }

/-! ### What one instruction does -/

/-- The outcome of one instruction: the core goes on at a pc, traps, tries again later, or the dispatch has ended or paused. -/
inductive Ran where
  | go (s : State) (pc : Nat)
  | trap (cause : Nat) (s : State)
  | stall (s : State)
  | ended (s : State)
  deriving DecidableEq, Repr

/-- mcause values of the RISC-V privileged architecture. -/
def cIAlign : Nat := 0
def cIAccess : Nat := 1
/-- [PRESUMED, log 43] -/
def cIllegal : Nat := 2
def cBreak : Nat := 3
def cLoadAlign : Nat := 4
def cLoadAccess : Nat := 5
def cStoreAlign : Nat := 6
def cStoreAccess : Nat := 7
def cEcall : Nat := 8

/-- The dispatch of a tile ended by poison that one of its own agents read (R59). -/
def State.poisoned (s : State) (t : Nat) : State := s.endKernel t stPoison 0

/-- A trap to firmware (R52): TILE_FAULT, TILE_FAULT_PC and KERNEL_TRAP. [PRESUMED, log 43] -/
def State.kernelTrap (s : State) (t cause pc : Nat) : State :=
  let s := match s.slotOf t with
    | some p => s.setSlot p { s.slot p with fault := putBits (putBits (s.slot p).fault 15 8 cause) 7 0 1, faultPc := pc % 2 ^ 20 }
    | none => s
  s.endKernel t stKernelTrap 0

/-- A value read from scratch by an instruction, or the end of the dispatch. -/
def State.readFor (s : State) (t agent a n : Nat) (k : State → List Byte → Ran) : Ran :=
  match s.tileRead t agent a n with
  | (some bs, s) => if (s.tile t).run.isSome then k s bs else .ended s
  | (none, s) => .ended (if (s.tile t).run.isSome then s.poisoned t else s)

/-! ### Registers -/

/-- An integer register; x0 reads 0. -/
def State.xreg (s : State) (t r : Nat) : DWord := if r = 0 then 0 else (s.tile t).x.get 0 r

/-- An integer register written; a write to x0 is discarded. -/
def State.setX (s : State) (t r : Nat) (v : DWord) : State :=
  if r = 0 then s else s.setTile t { s.tile t with x := (s.tile t).x.put r v }

/-- A 32-bit result sign-extended to 64 bits. -/
def sext32 (v : Nat) : DWord := BitVec.ofInt 64 (signed 32 v)

/-! ### The instruction buffer (R54) -/

/-- 8-byte words that the 1 KiB instruction buffer holds. [DESIGN CHOICE, log 46] -/
def ibufWords : Nat := 128

/-- An 8-byte word of code: from the buffer, or read from scratch into it, the oldest word leaving. [DESIGN CHOICE, log 46] -/
def State.fetchWord8 (s : State) (t w : Nat) : Option (List Byte) × State :=
  match (s.tile t).ibuf.find? (fun p => p.1 == w) with
  | some p => (some p.2, s)
  | none =>
    match s.tileRead t agCore (8 * w) 8 with
    | (some bs, s) =>
      let x := s.tile t
      let b := x.ibuf ++ [(w, bs)]
      (some bs, s.setTile t { x with ibuf := b.drop (b.length - ibufWords) })
    | (none, s) => (none, s)

/-- Two bytes of code at an even address. -/
def State.fetchHalf (s : State) (t a : Nat) : Option Nat × State :=
  match s.fetchWord8 t (a / 8) with
  | (some bs, s) => (some (leValue ((bs.drop (a % 8)).take 2)), s)
  | (none, s) => (none, s)

/-- What a fetch finds: an instruction and its length in bytes, a fault with its cause, or poison. -/
inductive Fetched where
  | inst (w len : Nat)
  | fault (cause : Nat)
  | poison
  deriving DecidableEq, Repr

/-- The instruction at the pc. -/
def State.fetchInst (s : State) (t : Nat) : Fetched × State :=
  let pc := (s.tile t).pc
  if pc % 2 ≠ 0 then (.fault cIAlign, s)
  else if scratchBytes < pc + 2 then (.fault cIAccess, s)
  else match s.fetchHalf t pc with
    | (none, s) => (.poison, s)
    | (some lo, s) =>
      if lo % 4 ≠ 3 then (.inst lo 2, s)
      else if scratchBytes < pc + 4 then (.fault cIAccess, s)
      else match s.fetchHalf t (pc + 2) with
        | (none, s) => (.poison, s)
        | (some hi, s) => (.inst (lo + hi * 65536) 4, s)

/-! ### Compressed instructions -/

/-- Instruction words by format (RISC-V unprivileged architecture): fields put in place. -/
def encR (f7 rs2 rs1 f3 rd op : Nat) : Nat := f7 * 2 ^ 25 + rs2 * 2 ^ 20 + rs1 * 2 ^ 15 + f3 * 2 ^ 12 + rd * 2 ^ 7 + op
def encI (imm rs1 f3 rd op : Nat) : Nat := imm % 4096 * 2 ^ 20 + rs1 * 2 ^ 15 + f3 * 2 ^ 12 + rd * 2 ^ 7 + op
def encS (imm rs2 rs1 f3 op : Nat) : Nat :=
  bits imm 11 5 * 2 ^ 25 + rs2 * 2 ^ 20 + rs1 * 2 ^ 15 + f3 * 2 ^ 12 + bits imm 4 0 * 2 ^ 7 + op
def encB (imm rs2 rs1 f3 : Nat) : Nat :=
  bits imm 12 12 * 2 ^ 31 + bits imm 10 5 * 2 ^ 25 + rs2 * 2 ^ 20 + rs1 * 2 ^ 15 + f3 * 2 ^ 12 + bits imm 4 1 * 2 ^ 8 + bits imm 11 11 * 2 ^ 7 + 0x63
def encJ (imm rd : Nat) : Nat :=
  bits imm 20 20 * 2 ^ 31 + bits imm 10 1 * 2 ^ 21 + bits imm 11 11 * 2 ^ 20 + bits imm 19 12 * 2 ^ 12 + rd * 2 ^ 7 + 0x6F

/-- A w-bit field sign-extended to n bits. -/
def sextTo (w n v : Nat) : Nat := unsigned n (signed w v)

/-- A 16-bit instruction of the C extension as the 32-bit instruction that it stands for; 0 when it is illegal. [PRESUMED, log 44] -/
def expandC (c : Nat) : Nat :=
  let rdp := 8 + bits c 4 2
  let rsp := 8 + bits c 9 7
  let rd := bits c 11 7
  let rs2 := bits c 6 2
  let imm6 := bits c 12 12 * 32 + bits c 6 2
  let s6 := sextTo 6 12 imm6
  match c % 4, bits c 15 13 with
  | 0, 0 =>
    let imm := bits c 10 7 * 64 + bits c 12 11 * 16 + bits c 5 5 * 8 + bits c 6 6 * 4
    if imm = 0 then 0 else encI imm 2 0 rdp 0x13
  | 0, 2 => encI (bits c 5 5 * 64 + bits c 12 10 * 8 + bits c 6 6 * 4) rsp 2 rdp 0x03
  | 0, 3 => encI (bits c 6 5 * 64 + bits c 12 10 * 8) rsp 3 rdp 0x03
  | 0, 6 => encS (bits c 5 5 * 64 + bits c 12 10 * 8 + bits c 6 6 * 4) rdp rsp 2 0x23
  | 0, 7 => encS (bits c 6 5 * 64 + bits c 12 10 * 8) rdp rsp 3 0x23
  | 1, 0 => encI s6 rd 0 rd 0x13
  | 1, 1 => if rd = 0 then 0 else encI s6 rd 0 rd 0x1B
  | 1, 2 => encI s6 0 0 rd 0x13
  | 1, 3 =>
    if rd = 2 then
      let imm := bits c 12 12 * 512 + bits c 4 3 * 128 + bits c 5 5 * 64 + bits c 2 2 * 32 + bits c 6 6 * 16
      if imm = 0 then 0 else encI (sextTo 10 12 imm) 2 0 2 0x13
    else if imm6 = 0 then 0 else sextTo 6 20 imm6 * 4096 + rd * 128 + 0x37
  | 1, 4 =>
    match bits c 11 10 with
    | 0 => encI imm6 rsp 5 rsp 0x13
    | 1 => encI (imm6 + 0x400) rsp 5 rsp 0x13
    | 2 => encI s6 rsp 7 rsp 0x13
    | _ =>
      match bits c 12 12, bits c 6 5 with
      | 0, 0 => encR 0x20 rdp rsp 0 rsp 0x33
      | 0, 1 => encR 0 rdp rsp 4 rsp 0x33
      | 0, 2 => encR 0 rdp rsp 6 rsp 0x33
      | 0, _ => encR 0 rdp rsp 7 rsp 0x33
      | _, 0 => encR 0x20 rdp rsp 0 rsp 0x3B
      | _, 1 => encR 0 rdp rsp 0 rsp 0x3B
      | _, _ => 0
  | 1, 5 =>
    encJ (sextTo 12 21 (bits c 12 12 * 2048 + bits c 8 8 * 1024 + bits c 10 9 * 256 + bits c 6 6 * 128 + bits c 7 7 * 64 +
      bits c 2 2 * 32 + bits c 11 11 * 16 + bits c 5 3 * 2)) 0
  | 1, 6 =>
    encB (sextTo 9 13 (bits c 12 12 * 256 + bits c 6 5 * 64 + bits c 2 2 * 32 + bits c 11 10 * 8 + bits c 4 3 * 2)) 0 rsp 0
  | 1, 7 =>
    encB (sextTo 9 13 (bits c 12 12 * 256 + bits c 6 5 * 64 + bits c 2 2 * 32 + bits c 11 10 * 8 + bits c 4 3 * 2)) 0 rsp 1
  | 2, 0 => encI imm6 rd 1 rd 0x13
  | 2, 2 => if rd = 0 then 0 else encI (bits c 3 2 * 64 + bits c 12 12 * 32 + bits c 6 4 * 4) 2 2 rd 0x03
  | 2, 3 => if rd = 0 then 0 else encI (bits c 4 2 * 64 + bits c 12 12 * 32 + bits c 6 5 * 8) 2 3 rd 0x03
  | 2, 4 =>
    if bits c 12 12 = 0 then
      if rs2 = 0 then (if rd = 0 then 0 else encI 0 rd 0 0 0x67) else encR 0 rs2 0 0 rd 0x33
    else if rs2 = 0 then (if rd = 0 then 0x00100073 else encI 0 rd 0 1 0x67)
    else encR 0 rs2 rd 0 rd 0x33
  | 2, 6 => encS (bits c 8 7 * 64 + bits c 12 9 * 4) rs2 2 2 0x23
  | 2, 7 => encS (bits c 9 7 * 64 + bits c 12 10 * 8) rs2 2 3 0x23
  | _, _ => 0

/-! ### Loads, stores and atomics (R52) -/

/-- A load's or store's alignment and range: the trap it takes, if any. [DEDUCED, log 42; PRESUMED, log 43] -/
def accessTrap (a n align access : Nat) : Option Nat :=
  if a % n ≠ 0 then some align else if scratchBytes < a + n then some access else none

/-- A load. -/
def State.coreLoad (s : State) (t f3 rd a pc : Nat) : Ran :=
  let n := 2 ^ (f3 % 4)
  if f3 = 7 then .trap cIllegal s
  else match accessTrap a n cLoadAlign cLoadAccess with
    | some c => .trap c s
    | none => s.readFor t agCore a n (fun s bs =>
        let v := leValue bs
        .go (s.setX t rd (if f3 < 4 then BitVec.ofInt 64 (signed (8 * n) v) else BitVec.ofNat 64 v)) pc)

/-- A store. -/
def State.coreStore (s : State) (t f3 a : Nat) (v : DWord) (pc : Nat) : Ran :=
  let n := 2 ^ (f3 % 4)
  if 4 ≤ f3 then .trap cIllegal s
  else match accessTrap a n cStoreAlign cStoreAccess with
    | some c => .trap c s
    | none => .go (s.tileWrite t agCore a (leBytes n v.toNat)) pc

/-- The result of an atomic memory operation on w-bit values, by funct5; none for a reserved one. -/
def amoOp (f5 w old v : Nat) : Option Nat :=
  match f5 with
  | 0x00 => some ((old + v) % 2 ^ w)
  | 0x01 => some v
  | 0x04 => some (old ^^^ v)
  | 0x08 => some (old ||| v)
  | 0x0C => some (old &&& v)
  | 0x10 => some (if signed w old ≤ signed w v then old else v)
  | 0x14 => some (if signed w old ≤ signed w v then v else old)
  | 0x18 => some (min old v)
  | 0x1C => some (max old v)
  | _ => none

/-- The reservation of a tile's core. -/
def State.setResv (s : State) (t : Nat) (r : Option Nat) : State :=
  match s.slotOf t with
  | some p => s.setSlot p { s.slot p with resv := r }
  | none => s

/-- The word that a tile's core has reserved. -/
def State.resvOf (s : State) (t : Nat) : Option Nat := (s.slotOf t).bind (fun p => (s.slot p).resv)

/-- An instruction of the A extension. [PRESUMED, log 44] -/
def State.coreAmo (s : State) (t w pc : Nat) : Ran :=
  let f3 := bits w 14 12
  let n := 2 ^ f3
  let rd := bits w 11 7
  let f5 := bits w 31 27
  let a := (s.xreg t (bits w 19 15)).toNat
  let v := (s.xreg t (bits w 24 20)).toNat % 2 ^ (8 * n)
  let ext (x : Nat) : DWord := BitVec.ofInt 64 (signed (8 * n) x)
  if f3 ≠ 2 ∧ f3 ≠ 3 then .trap cIllegal s
  else if f5 = 2 then
    if bits w 24 20 ≠ 0 then .trap cIllegal s
    else match accessTrap a n cLoadAlign cLoadAccess with
      | some c => .trap c s
      | none => s.readFor t agCore a n (fun s bs => .go ((s.setResv t (some (a / 8))).setX t rd (ext (leValue bs))) pc)
  else if f5 = 3 then
    match accessTrap a n cStoreAlign cStoreAccess with
    | some c => .trap c s
    | none =>
      if s.resvOf t = some (a / 8) then .go (((s.tileWrite t agCore a (leBytes n v)).setResv t none).setX t rd 0) pc
      else .go ((s.setResv t none).setX t rd 1) pc
  else match amoOp f5 (8 * n) 0 v with
    | none => .trap cIllegal s
    | some _ =>
      match accessTrap a n cStoreAlign cStoreAccess with
      | some c => .trap c s
      | none => s.readFor t agCore a n (fun s bs =>
          let old := leValue bs
          .go ((s.tileWrite t agCore a (leBytes n ((amoOp f5 (8 * n) old v).getD 0))).setX t rd (ext old)) pc)

/-! ### Kernel control registers (R54, R87, R117, R130) -/

/-- The writable bits of a kernel control register; none where it cannot be written. 0x806 and 0x807 discard writes (R87, R117). -/
def csrMask (a : Nat) : Option Nat :=
  match a with
  | 0x800 => some 0xFFFFF
  | 0x801 => some 0xFFFFF
  | 0x802 => some 0xFFFFF
  | 0x803 => some (2 ^ 63 + 0xFFFFF)
  | 0x804 => some (2 ^ 30 - 1)
  | 0x805 => some (2 ^ 63 + 2 ^ 34 - 1)
  | 0x806 => some 0
  | 0x807 => some 0
  | _ => none

/-- tdmadone: bit n is 1 when no command with tag n is outstanding. -/
def State.tdmaDone (s : State) (t : Nat) : Nat :=
  (List.range 16).foldl (fun v n => if (s.tile t).tdma.any (fun c => c.tag == n) then v else v + 2 ^ n) 0

/-- A kernel control register read; none where a kernel has no such register. The count of tile clocks is a free value. [DESIGN CHOICE, log 45] -/
def State.csrRead (s : State) (t a : Nat) : Option (DWord × State) :=
  let x := s.tile t
  match a with
  | 0xC00 => some (BitVec.ofNat 64 s.freeVal, s.useFree)
  | 0xC01 => some (BitVec.ofNat 64 s.now, s)
  | 0xC02 => some (BitVec.ofNat 64 x.instret, s)
  | 0xCC0 => some (BitVec.ofNat 64 t, s)
  | 0xCC1 => some (BitVec.ofNat 64 x.cfg, s)
  | 0xCC2 => some (BitVec.ofNat 64 (s.tdmaDone t), s)
  | 0xCC3 => some (BitVec.ofNat 64 ((x.run.map TileDisp.gpos).getD 0), s)
  | _ => if (csrMask a).isSome then some (BitVec.ofNat 64 (x.csr.get 0 a), s) else none

/-- A value of a kernel control register replaced, reserved bits staying 0 (R8, R87). -/
def State.csrWrite (s : State) (t a v : Nat) : Option State :=
  match csrMask a with
  | none => none
  | some 0 => some s
  | some m => some (s.setTile t { s.tile t with csr := (s.tile t).csr.put a (v &&& m) })

/-- A CSR instruction. -/
def State.coreCsr (s : State) (t w pc : Nat) : Ran :=
  let f3 := bits w 14 12
  let a := bits w 31 20
  let rs1 := bits w 19 15
  let rd := bits w 11 7
  let src : Nat := if 4 ≤ f3 then rs1 else (s.xreg t rs1).toNat
  match s.csrRead t a with
  | none => .trap cIllegal s
  | some (old, s') =>
    let o := old.toNat
    if f3 % 4 = 1 then
      match s'.csrWrite t a src with
      | some s'' => .go (s''.setX t rd old) pc
      | none => .trap cIllegal s
    else if rs1 = 0 then .go (s'.setX t rd old) pc
    else
      let v := if f3 % 4 = 2 then o ||| src else o &&& (2 ^ 64 - 1 - src % 2 ^ 64)
      match s'.csrWrite t a v with
      | some s'' => .go (s''.setX t rd old) pc
      | none => .trap cIllegal s

/-! ### Integer instructions -/

/-- Signed division, with the results that RISC-V gives for a zero divisor and for overflow. -/
def divS (w a b : Nat) : Nat := if b = 0 then 2 ^ w - 1 else unsigned w ((signed w a).tdiv (signed w b))
def remS (w a b : Nat) : Nat := if b = 0 then a else unsigned w ((signed w a).tmod (signed w b))
def divU (w a b : Nat) : Nat := if b = 0 then 2 ^ w - 1 else a / b
def remU (a b : Nat) : Nat := if b = 0 then a else a % b

/-- A register-register operation of w bits; none for a reserved encoding. [PRESUMED, log 44] -/
def aluOp (w f7 f3 a b : Nat) : Option Nat :=
  let sh := b % w
  match f7, f3 with
  | 0x00, 0 => some ((a + b) % 2 ^ w)
  | 0x20, 0 => some ((a + 2 ^ w - b) % 2 ^ w)
  | 0x00, 1 => some (a * 2 ^ sh % 2 ^ w)
  | 0x00, 5 => some (a / 2 ^ sh)
  | 0x20, 5 => some (unsigned w (signed w a / (2 ^ sh : Int)))
  | 0x01, 0 => some (a * b % 2 ^ w)
  | 0x01, 4 => some (divS w a b)
  | 0x01, 5 => some (divU w a b)
  | 0x01, 6 => some (remS w a b)
  | 0x01, 7 => some (remU a b)
  | _, _ =>
    if w = 32 then none
    else match f7, f3 with
      | 0x00, 2 => some (ofBool (decide (signed 64 a < signed 64 b)))
      | 0x00, 3 => some (ofBool (decide (a < b)))
      | 0x00, 4 => some (a ^^^ b)
      | 0x00, 6 => some (a ||| b)
      | 0x00, 7 => some (a &&& b)
      | 0x01, 1 => some (unsigned 64 (signed 64 a * signed 64 b / 2 ^ 64))
      | 0x01, 2 => some (unsigned 64 (signed 64 a * (b : Int) / 2 ^ 64))
      | 0x01, 3 => some (a * b / 2 ^ 64)
      | _, _ => none

/-- A register-immediate operation of w bits; none for a reserved encoding. -/
def aluImm (w f3 a imm12 : Nat) : Option Nat :=
  let imm := sextTo 12 64 imm12 % 2 ^ w
  match f3 with
  | 0 => aluOp w 0 0 a imm
  | 1 => if w = 64 then (if imm12 / 64 = 0 then aluOp 64 0 1 a imm12 else none) else if imm12 / 32 = 0 then aluOp 32 0 1 a imm12 else none
  | 5 =>
    if w = 64 then (if imm12 / 64 = 0 then aluOp 64 0 5 a imm12 else if imm12 / 64 = 0x10 then aluOp 64 0x20 5 a (imm12 % 64) else none)
    else if imm12 / 32 = 0 then aluOp 32 0 5 a imm12 else if imm12 / 32 = 0x20 then aluOp 32 0x20 5 a (imm12 % 32) else none
  | _ => if w = 64 then aluOp 64 0 f3 a imm else none

/-- Whether a branch is taken; none for a reserved encoding. -/
def branchTaken (f3 a b : Nat) : Option Bool :=
  match f3 with
  | 0 => some (a == b)
  | 1 => some (a != b)
  | 4 => some (decide (signed 64 a < signed 64 b))
  | 5 => some (decide (signed 64 b ≤ signed 64 a))
  | 6 => some (decide (a < b))
  | 7 => some (decide (b ≤ a))
  | _ => none

/-- An address a + imm modulo 2^64. -/
def addrOf (a imm12 : Nat) : Nat := (a + sextTo 12 64 imm12) % 2 ^ 64

/-- One standard instruction (R52), given as its 32-bit word; `len` is what it takes up in code. [PRESUMED, log 44] -/
def State.coreStd (s : State) (t w len : Nat) : Ran :=
  let pc := (s.tile t).pc
  let next := pc + len
  let rd := bits w 11 7
  let f3 := bits w 14 12
  let f7 := bits w 31 25
  let a := (s.xreg t (bits w 19 15)).toNat
  let b := (s.xreg t (bits w 24 20)).toNat
  let imm := bits w 31 20
  let put (o : Option Nat) (w32 : Bool) : Ran :=
    match o with
    | some v => .go (s.setX t rd (if w32 then sext32 v else BitVec.ofNat 64 v)) next
    | none => .trap cIllegal s
  match w % 128 with
  | 0x37 => .go (s.setX t rd (sext32 (bits w 31 12 * 4096))) next
  | 0x17 => .go (s.setX t rd (BitVec.ofNat 64 pc + sext32 (bits w 31 12 * 4096))) next
  | 0x6F =>
    let off := bits w 31 31 * 2 ^ 20 + bits w 19 12 * 2 ^ 12 + bits w 20 20 * 2 ^ 11 + bits w 30 21 * 2
    .go (s.setX t rd (BitVec.ofNat 64 next)) ((pc + sextTo 21 64 off) % 2 ^ 64)
  | 0x67 => if f3 ≠ 0 then .trap cIllegal s else .go (s.setX t rd (BitVec.ofNat 64 next)) (addrOf a imm / 2 * 2)
  | 0x63 =>
    let off := bits w 31 31 * 2 ^ 12 + bits w 7 7 * 2 ^ 11 + bits w 30 25 * 2 ^ 5 + bits w 11 8 * 2
    match branchTaken f3 a b with
    | some true => .go s ((pc + sextTo 13 64 off) % 2 ^ 64)
    | some false => .go s next
    | none => .trap cIllegal s
  | 0x03 => s.coreLoad t f3 rd (addrOf a imm) next
  | 0x23 => s.coreStore t f3 (addrOf a (f7 * 32 + rd)) (BitVec.ofNat 64 b) next
  | 0x13 => put (aluImm 64 f3 a imm) false
  | 0x1B => put (aluImm 32 f3 (a % 2 ^ 32) imm) true
  | 0x33 => put (aluOp 64 f7 f3 a b) false
  | 0x3B => put (aluOp 32 f7 f3 (a % 2 ^ 32) (b % 2 ^ 32)) true
  | 0x0F => if f3 = 0 then .go s next else .trap cIllegal s
  | 0x2F => s.coreAmo t w next
  | 0x73 =>
    if f3 = 0 then
      if w = 0x00000073 then .trap cEcall s
      else if w = 0x00100073 then .trap cBreak s
      else if w = 0x10500073 then .go s next
      else .trap cIllegal s
    else if f3 = 4 then .trap cIllegal s
    else s.coreCsr t w next
  | _ => .trap cIllegal s

/-! ### Which command an instruction answers to (R64, R71, R95) -/

/-- The instructions of the custom opcodes, FENCE.I, the standard ones, and what is illegal. -/
inductive Op where
  | mcfg | mloadb | mstream | mdrain | mzero | mfence | tdma | tdmaf | twait | tpoll | tend
  | vec (op : Nat)
  | fenceI | std | illegal
  deriving DecidableEq, Repr

/-- The instruction that a custom-0 word encodes (R64). -/
def custom0 (w : Nat) : Op :=
  let f7 := bits w 31 25
  let rs2 := bits w 24 20
  let rs1 := bits w 19 15
  let rd := bits w 11 7
  if rd ≠ 0 then .illegal
  else match bits w 14 12 with
    | 0 => if f7 = 0 ∧ rs2 = 0 then .mcfg else .illegal
    | 1 => if f7 % 32 = 0 ∧ f7 < 64 ∧ rs2 = 0 then .mloadb else .illegal
    | 2 => if f7 % 8 = 0 then .mstream else .illegal
    | 3 => if f7 % 16 < 12 then .mdrain else .illegal
    | 4 => if f7 % 64 = 0 ∧ rs2 = 0 ∧ rs1 = 0 then .mzero else .illegal
    | 5 => if f7 = 0 ∧ rs2 = 0 ∧ rs1 = 0 then .mfence else .illegal
    | 6 => match f7 with
      | 0 => .tdma
      | 1 => .tdmaf
      | 2 => if rs2 = 0 then .twait else .illegal
      | 3 => .tpoll
      | _ => .illegal
    | _ => if f7 = 0 ∧ rs2 = 0 then .tend else .illegal

/-- The instruction that a custom-1 word encodes (R70, R71, R95). [DEDUCED, log 41] -/
def custom1 (w : Nat) : Op :=
  let op := bits w 31 25
  let ty := bits w 14 12
  if op = 0x10 then (if ty = 0 ∧ bits w 11 7 = 0 then .vec 0x10 else .illegal)
  else if 0x0D < op ∨ 6 ≤ ty then .illegal
  else if (op = 0x0C ∨ op = 0x0D) ∧ (ty = 0 ∨ 4 ≤ ty) then .illegal
  else if op = 0x05 ∧ 4 ≤ ty then .illegal
  else if op = 0x08 ∧ 6 ≤ bits w 22 20 then .illegal
  else .vec op

/-- The instruction that a word encodes, 16-bit ones included. -/
def opOfInst (w len : Nat) : Op :=
  if len = 2 then (if expandC w = 0 then .illegal else .std)
  else match w % 128 with
    | 0x0B => custom0 w
    | 0x2B => custom1 w
    | 0x0F => if bits w 14 12 = 1 then .fenceI else .std
    | _ => .std

/-- Whether a tile's core can execute its next instruction: a kernel runs and the core waits for nothing. -/
def State.coreReady (s : State) (t : Nat) : Bool := (s.tile t).run.isSome && (s.tile t).wait == .none

/-! ### Performance events (TILE_CFG, R476) -/

/-- One counter of a tile raised: it wraps at 2^48, which sets its overflow bit, posts an event and raises perf_ovf. -/
def State.perfAdd (s : State) (t which k : Nat) : State :=
  let l := t / 16
  let i := t % 16
  let f := if which = 0 then Reg.TILE_PERF0_count l i else Reg.TILE_PERF1_count l i
  let v := s.rd f + k
  let s := s.wr f v
  if v < 2 ^ 48 then s
  else
    let o := if which = 0 then Reg.TILE_PERF_OVF_ovf0 l i else Reg.TILE_PERF_OVF_ovf1 l i
    ((s.wr o 1).event blkTile 0x0E 0 t f.off).irqCause 2

/-- Events of one kind counted by the counters that select it. -/
def State.perf (s : State) (t sel k : Nat) : State :=
  let l := t / 16
  let i := t % 16
  if !s.on (Reg.TILE_CFG_perf_run l i) || k == 0 then s
  else
    let s := if s.rd (Reg.TILE_CFG_perf0_sel l i) = sel then s.perfAdd t 0 k else s
    if s.rd (Reg.TILE_CFG_perf1_sel l i) = sel then s.perfAdd t 1 k else s

/-- Events whose number depends on timing that no rule fixes, counted by the counters that select them: array stall cycles under R56
(0x1) and narrow-port cycles lost (0x2). [DESIGN CHOICE, log 45] -/
def State.perfOpen (s : State) (t sel : Nat) : State :=
  let l := t / 16
  let i := t % 16
  if s.on (Reg.TILE_CFG_perf_run l i) && (s.rd (Reg.TILE_CFG_perf0_sel l i) == sel || s.rd (Reg.TILE_CFG_perf1_sel l i) == sel) then
    (s.useFree).perf t sel (s.freeVal % 2 ^ 32)
  else s

/-- The outcome of an instruction brought into the state. -/
def State.retire (s0 : State) (t : Nat) (r : Ran) : State :=
  match r with
  | .go s pc => (s.setTile t { s.tile t with pc := pc, instret := (s.tile t).instret + 1 }).perfOpen t 2
  | .trap cause s => s.kernelTrap t cause (s0.tile t).pc
  | .stall s => s
  | .ended s => s

end Sys2Proof.Machine
end

