-- ==== Sys2Proof/Machine/TileVec.lean ====
section
/-! DEFINITION. The vector unit: element types, lanes and the operations of the custom-1 opcode but VSIDE (R70, R71). -/
namespace Sys2Proof.Machine

/-! ### Lanes -/

/-- Bits of an element type (R71). -/
def vBits (ty : Nat) : Nat := if ty = 0 ∨ ty = 5 then 64 else if ty = 1 ∨ ty = 4 then 32 else 16

/-- Lanes of a register for an element type (R70). -/
def vLanes (ty : Nat) : Nat := 512 / vBits ty

/-- Whether a type is an integer type. -/
def vInt (ty : Nat) : Bool := decide (4 ≤ ty)

/-- The format of a floating-point element type. -/
def vFlt (ty : Nat) : Flt := if ty = 0 then fltFp64 else if ty = 1 then fltFp32 else if ty = 2 then fltBf16 else fltFp16

/-- The lanes of a register. -/
def lanesOf (ty v : Nat) : List Nat := (List.range (vLanes ty)).map (fun i => v / 2 ^ (vBits ty * i) % 2 ^ vBits ty)

/-- A register from its lanes. -/
def ofLanes (ty : Nat) (xs : List Nat) : Nat :=
  xs.zipIdx.foldl (fun v (p : Nat × Nat) => v + p.1 % 2 ^ vBits ty * 2 ^ (vBits ty * p.2)) 0

/-- Purposes of Config.vecChoice. -/
def vcNan : Nat := 0
def vcInt : Nat := 1
def vcUlp : Nat := 2
def vcLane : Nat := 3
def vcOpen : Nat := 4

/-- A NaN result of an operation on given operands. [DESIGN CHOICE, log 39] -/
def vNan (ty op : Nat) (xs : List Nat) : Nat := (vFlt ty).nanCode (Config.vecChoice vcNan (op :: ty :: xs))

/-- An integer result: the value when the type holds it, else one that the spec does not state. [DESIGN CHOICE, log 39] -/
def vIntResult (ty op : Nat) (xs : List Nat) (v : Int) : Nat :=
  let w := vBits ty
  if -(2 ^ (w - 1) : Int) ≤ v ∧ v < (2 ^ (w - 1) : Int) then unsigned w v
  else Config.vecChoice vcInt (op :: ty :: xs) % 2 ^ w

/-! ### Floating-point arithmetic (R70: IEEE 754, round to nearest even) -/

/-- The exact sum of two finite values: numerator and exponent. -/
def exactAdd (a : Int × Int) (b : Int × Int) : Int × Int :=
  let q := min a.2 b.2
  (a.1 * 2 ^ (a.2 - q).toNat + b.1 * 2 ^ (b.2 - q).toNat, q)

/-- The sign of a sum that is zero: minus only when both terms are minus. -/
def zeroSign (a b : Bool) : Bool := a && b

/-- a + b. -/
def vAdd (ty op a b : Nat) : Nat :=
  let f := vFlt ty
  match f.decode a, f.decode b with
  | .nan, _ => vNan ty op [a, b]
  | _, .nan => vNan ty op [a, b]
  | .inf x, .inf y => if x = y then f.infCode x else vNan ty op [a, b]
  | .inf x, _ => f.infCode x
  | _, .inf y => f.infCode y
  | .fin na ma qa, .fin nb mb qb =>
    let s := exactAdd (signedOf na ma, qa) (signedOf nb mb, qb)
    f.encode (if ma = 0 ∧ mb = 0 then zeroSign na nb else false) s.1 1 s.2

/-- A code with its sign turned. -/
def vNeg (ty a : Nat) : Nat := a ^^^ 2 ^ (vBits ty - 1)

/-- a × b. -/
def vMul (ty op a b : Nat) : Nat :=
  let f := vFlt ty
  match f.decode a, f.decode b with
  | .nan, _ => vNan ty op [a, b]
  | _, .nan => vNan ty op [a, b]
  | .inf x, .inf y => f.infCode (x != y)
  | .inf x, .fin y m _ => if m = 0 then vNan ty op [a, b] else f.infCode (x != y)
  | .fin x m _, .inf y => if m = 0 then vNan ty op [a, b] else f.infCode (x != y)
  | .fin na ma qa, .fin nb mb qb => f.encode (na != nb) (signedOf (na != nb) (ma * mb)) 1 (qa + qb)

/-- d + a × b with one rounding. -/
def vFma (ty op d a b : Nat) : Nat :=
  let f := vFlt ty
  match f.decode a, f.decode b, f.decode d with
  | .fin na ma qa, .fin nb mb qb, .fin nd md qd =>
    let p := na != nb
    let s := exactAdd (signedOf p (ma * mb), qa + qb) (signedOf nd md, qd)
    f.encode (if ma * mb = 0 ∧ md = 0 then zeroSign p nd else false) s.1 1 s.2
  | .fin _ _ _, .fin _ _ _, .inf x => f.infCode x
  | da, db, dd =>
    let prod := vMul ty op a b
    match f.decode prod, dd with
    | .inf x, .inf y => if x = y then f.infCode x else vNan ty op [a, b, d]
    | .inf x, .fin _ _ _ => f.infCode x
    | _, _ => if da = .nan ∨ db = .nan then vNan ty op [a, b, d] else vNan ty op [d, a, b]

/-- Whether a ≤ b for codes that are not NaN, −0 below +0. -/
def vLe (ty a b : Nat) : Bool :=
  let key (c : Nat) : Int := if bit c (vBits ty - 1) then -((c % 2 ^ (vBits ty - 1) : Nat) : Int) - 1 else c
  decide (key a ≤ key b)

/-- Maximum or minimum; NaN if either is NaN. -/
def vMaxMin (ty op a b : Nat) : Nat :=
  if vInt ty then
    let le := decide (signed (vBits ty) a ≤ signed (vBits ty) b)
    if op = 6 then (if le then b else a) else if le then a else b
  else
    let f := vFlt ty
    if f.decode a = .nan ∨ f.decode b = .nan then vNan ty op [a, b]
    else if op = 6 then (if vLe ty a b then b else a) else if vLe ty a b then a else b

/-- a + b, a − b or a × b in any type. -/
def vArith (ty op a b : Nat) : Nat :=
  if vInt ty then
    let x := signed (vBits ty) a
    let y := signed (vBits ty) b
    vIntResult ty op [a, b] (if op = 2 then x + y else if op = 3 then x - y else x * y)
  else if op = 2 then vAdd ty op a b
  else if op = 3 then vAdd ty op a (vNeg ty b)
  else vMul ty op a b

/-! ### VCVT -/

/-- One element converted between types: floats to integers round to nearest even, and what the integer type cannot hold is open. -/
def vConvert (from_ into a : Nat) : Nat :=
  if from_ = into then a
  else if vInt from_ then
    let v := signed (vBits from_) a
    if vInt into then vIntResult into 8 [from_, a] v else (vFlt into).encode false v 1 0
  else match (vFlt from_).decode a with
    | .nan => if vInt into then Config.vecChoice vcInt [8, into, from_, a] % 2 ^ vBits into else vNan into 8 [from_, a]
    | .inf n => if vInt into then Config.vecChoice vcInt [8, into, from_, a] % 2 ^ vBits into else (vFlt into).infCode n
    | .fin n m q =>
      if vInt into then let p := onGrid (signedOf n m) 1 q 0; vIntResult into 8 [from_, a] (roundQuot .nearest p.1 p.2)
      else (vFlt into).encode n (signedOf n m) 1 q

/-- VCVT: lane i from lane i; lanes that no source lane fills are open. [DESIGN CHOICE, log 39] -/
def vCvt (from_ into v : Nat) : Nat :=
  let src := lanesOf from_ v
  ofLanes into ((List.range (vLanes into)).map (fun i =>
    match src[i]? with
    | some a => vConvert from_ into a
    | none => Config.vecChoice vcLane [8, into, from_, v, i] % 2 ^ vBits into))

/-! ### VREDSUM -/

/-- A list put in the order that a number names, each digit choosing among what is left. [DESIGN CHOICE, log 40] -/
def permute : Nat → Nat → List Nat → List Nat
  | 0, _, xs => xs
  | n + 1, k, xs =>
    match xs with
    | [] => []
    | _ => let i := k % xs.length; (xs[i]?).getD 0 :: permute n (k / xs.length) (xs.eraseIdx i)

/-- One level of a pairwise sum. -/
def pairSum (add : Nat → Nat → Nat) : List Nat → List Nat
  | a :: b :: t => add a b :: pairSum add t
  | xs => xs

/-- The pairwise sum of a list, by halving. -/
def treeAdd (add : Nat → Nat → Nat) : Nat → List Nat → Nat
  | 0, xs => (xs.head?).getD 0
  | n + 1, xs => treeAdd add n (pairSum add xs)

/-- The sum of the lanes in the fixed pairwise order. [DESIGN CHOICE, log 40] -/
def vRedsum (ty v : Nat) : Nat :=
  treeAdd (vArith ty 2) 6 (permute 32 (Config.redOrder ty) (lanesOf ty v))

/-! ### VEXP2 and VRECIP -/

/-- 2^(2^-i) for i from 1 to 16, in units of 2^-96, rounded down. -/
def exp2Roots0 : List Nat :=
  [0x16a09e667f3bcc908b2fb1366, 0x1306fe0a31b7152de8d5a4630,
   0x1172b83c7d517adcdf7c8c50e, 0x10b5586cf9890f6298b92b718,
   0x1059b0d31585743ae7c548eb6, 0x102c9a3e778060ee6f7caca4f,
   0x10163da9fb33356d84a66ae33, 0x100b1afa5abcbed6129ab13ec,
   0x10058c86da1c09ea1ff19d294, 0x1002c605e2e8cec506d21bfc8,
   0x100162f3904051fa128bca9c5, 0x1000b175effdc76ba38e31671,
   0x100058ba01fb9f96d6cacd4b1, 0x10002c5cc37da9491d0985c34,
   0x1000162e525ee054754457d59, 0x10000b17255775c040618bf4a]

/-- 2^(2^-i) for i from 17 to 32, in units of 2^-96, rounded down. -/
def exp2Roots1 : List Nat :=
  [0x1000058b91b5bc9ae2eed81e9, 0x100002c5c89d5ec6ca4d7c8ac,
   0x10000162e43f4f831060e02d8, 0x100000b1721bcfc99d9f890ea,
   0x10000058b90cf1e6d97f9ca14, 0x1000002c5c863b73f016468f6,
   0x100000162e430e5a18f6119e3, 0x1000000b1721835514b86e6d9,
   0x100000058b90c0b48c6be5df8, 0x10000002c5c8601cc6b9e9421,
   0x1000000162e42fff037df38aa, 0x10000000b17217fba9c739aa5,
   0x1000000058b90bfcdee5acd3c, 0x100000002c5c85fe31f35a6a3,
   0x10000000162e42ff0999ce354, 0x100000000b17217f80f4ef5aa]

/-- 2^(2^-i) for i from 33 to 48, in units of 2^-96, rounded down. -/
def exp2Roots2 : List Nat :=
  [0x10000000058b90bfbf8479bd5, 0x1000000002c5c85fdf84bd62a,
   0x100000000162e42fefb2fed25, 0x1000000000b17217f7d5a7716,
   0x100000000058b90bfbe9ddbac, 0x10000000002c5c85fdf4b15de,
   0x1000000000162e42fefa494f1, 0x10000000000b17217f7d20cf9,
   0x1000000000058b90bfbe8f71c, 0x100000000002c5c85fdf477b6,
   0x10000000000162e42fefa3ae5, 0x100000000000b17217f7d1d35,
   0x10000000000058b90bfbe8e8b, 0x1000000000002c5c85fdf4741,
   0x100000000000162e42fefa39f, 0x1000000000000b17217f7d1cf]

/-- 2^(2^-i) for i from 49 to 64, in units of 2^-96, rounded down. -/
def exp2Roots3 : List Nat :=
  [0x100000000000058b90bfbe8e7, 0x10000000000002c5c85fdf473,
   0x1000000000000162e42fefa39, 0x10000000000000b17217f7d1c,
   0x1000000000000058b90bfbe8e, 0x100000000000002c5c85fdf47,
   0x10000000000000162e42fefa3, 0x100000000000000b17217f7d1,
   0x10000000000000058b90bfbe8, 0x1000000000000002c5c85fdf4,
   0x100000000000000162e42fefa, 0x1000000000000000b17217f7d,
   0x100000000000000058b90bfbe, 0x10000000000000002c5c85fdf,
   0x1000000000000000162e42fef, 0x10000000000000000b17217f7]

/-- The roots of 2 by which 2^f is built up, most significant bit of f first. -/
def exp2Roots : List Nat := exp2Roots0 ++ exp2Roots1 ++ exp2Roots2 ++ exp2Roots3

/-- floor(2^f × 2^96) for f = frac / 2^64 below 1, less at most 64 units. -/
def exp2Frac (frac : Nat) : Nat :=
  (exp2Roots.zipIdx.foldl (fun acc (p : Nat × Nat) => if bit frac (63 - p.2) then acc * p.1 / 2 ^ 96 else acc) (2 ^ 96))

/-- The candidates for a result within 1 ulp of an exact positive value num / den × 2^q: the grid points on either side, and where the
value is a grid point its neighbours too. [DESIGN CHOICE, log 39] -/
def ulpChoice (f : Flt) (num den : Nat) (q : Int) (pick : Nat) : Int × Int :=
  let g := max (floorLog2 num den q) f.emin - f.m
  let p := onGrid num den q g
  let k := p.1 / (p.2 : Int)
  if p.1 % (p.2 : Int) = 0 then (k - 1 + (pick % 3 : Nat), g) else (k + (pick % 2 : Nat), g)

/-- A positive value in FP32 within 1 ulp, or correctly rounded in BF16 and FP16 (R70). [DESIGN CHOICE, log 39] -/
def vNear (ty : Nat) (neg : Bool) (num den : Nat) (q : Int) (key : List Nat) : Nat :=
  let f := vFlt ty
  if ty = 1 then
    let r := ulpChoice f num den q (Config.vecChoice vcUlp key)
    let k := r.1.toNat
    -- one step below a power of two lies in the binade beneath
    if f.beyond k r.2 then f.infCode neg else if k + 1 = 2 ^ f.m ∧ f.emin - f.m < r.2 then f.code neg (2 * k) (r.2 - 1) else f.code neg k r.2
  else f.encode neg (signedOf neg num) den q

/-- 2^a. -/
def vExp2 (ty a : Nat) : Nat :=
  let f := vFlt ty
  match f.decode a with
  | .nan => vNan ty 0x0C [a]
  | .inf neg => if neg then f.code false 0 0 else f.infCode false
  | .fin n m q =>
    let x := signedOf n m
    -- far beyond the range of every type, where the value only has to overflow or vanish
    let big := decide (0 < m) && decide (12 ≤ floorLog2 (max m 1) 1 q)
    let fix : Int := if big then (if n then -4096 else 4096) * 2 ^ 64 else (let p := onGrid x 1 q (-64); p.1 / (p.2 : Int))
    let e := fix / 2 ^ 64
    let frac := (fix % 2 ^ 64).toNat
    vNear ty false (exp2Frac frac) 1 (e - 96) [0x0C, ty, a]

/-- 1 ÷ a. -/
def vRecip (ty a : Nat) : Nat :=
  let f := vFlt ty
  match f.decode a with
  | .nan => vNan ty 0x0D [a]
  | .inf neg => f.code neg 0 0
  | .fin n m q => if m = 0 then f.infCode n else vNear ty n 1 m (-q) [0x0D, ty, a]

/-! ### The instructions -/

/-- A vector register. -/
def State.vreg (s : State) (t r : Nat) : Nat := (s.tile t).v.get 0 r

/-- A vector register written. -/
def State.setV (s : State) (t r v : Nat) : State := s.setTile t { s.tile t with v := (s.tile t).v.put r v }

/-- Two registers combined lane by lane. -/
def vZip (ty : Nat) (op : Nat → Nat → Nat) (a b : Nat) : Nat :=
  ofLanes ty (((lanesOf ty a).zip (lanesOf ty b)).map (fun (p : Nat × Nat) => op p.1 p.2))

/-- What a vector operation that reads and writes vector registers computes. -/
def vCompute (op ty src d a b : Nat) : Nat :=
  if op = 0x05 then
    ofLanes ty (((lanesOf ty d).zip ((lanesOf ty a).zip (lanesOf ty b))).map (fun (p : Nat × Nat × Nat) => vFma ty op p.1 p.2.1 p.2.2))
  else if op = 0x06 ∨ op = 0x07 then vZip ty (vMaxMin ty op) a b
  else if op = 0x08 then vCvt src ty a
  else if op = 0x09 then ofLanes ty [vRedsum ty a]
  else if op = 0x0C then ofLanes ty ((lanesOf ty a).map (vExp2 ty))
  else if op = 0x0D then ofLanes ty ((lanesOf ty a).map (vRecip ty))
  else vZip ty (vArith ty op) a b

/-- A vector instruction but VSIDE (R71). [DEDUCED, log 41] -/
def State.vecInst (s : State) (t w : Nat) : Ran :=
  let next := (s.tile t).pc + 4
  let op := bits w 31 25
  let ty := bits w 14 12
  let rd := bits w 11 7
  let rs1 := bits w 19 15
  let rs2 := bits w 24 20
  let x := (s.xreg t rs1).toNat
  if op = 0x00 then
    match accessTrap x 64 cLoadAlign cLoadAccess with
    | some c => .trap c s
    | none => s.readFor t agVector x 64 (fun s bs => .go (s.setV t rd (leValue bs)) next)
  else if op = 0x01 then
    match accessTrap x 64 cStoreAlign cStoreAccess with
    | some c => .trap c s
    | none => .go (s.tileWrite t agVector x (leBytes 64 (s.vreg t rs2))) next
  else if op = 0x0A then .go (s.setV t rd (ofLanes ty (List.replicate (vLanes ty) x))) next
  else if op = 0x0B then
    .go (s.setX t rd (BitVec.ofInt 64 (signed (vBits ty) (s.vreg t rs1)))) next
  else .go (s.setV t rd (vCompute op ty (rs2 % 8) (s.vreg t rd) (s.vreg t rs1) (s.vreg t rs2))) next

end Sys2Proof.Machine
end

