-- ==== Sys2Proof/Machine/TileMat.lean ====
section
/-! DEFINITION. The matrix instructions and VSIDE (R61–R66, R68, R69, R81, R84–R101, R105–R117). -/
namespace Sys2Proof.Machine

/-! ### The configuration (R65, R66) -/

def cfgForm (c : Nat) : Nat := bits c 1 0
def cfgA (c : Nat) : Nat := bits c 7 4
def cfgB (c : Nat) : Nat := bits c 11 8
def cfgFaithful (c : Nat) : Bool := bits c 13 12 == 1
def cfgSlice (c : Nat) : Bool := fmtSlice (cfgB c)

/-- Whether a configuration word is legal. -/
def cfgOk (c : Nat) : Bool :=
  let a := cfgA c
  let b := cfgB c
  let known (f : Nat) : Bool := fmtNarrow f || fmtSlice f
  cfgForm c != 3 && known a && known b && bits c 3 2 == 0 && bits c 15 14 == 0 && decide (c < 2 ^ 18) && bits c 17 16 != 3 &&
  (bits c 13 12 == 0 || (bits c 13 12 == 1 && a == 14 && b == 14)) &&
  (!(fmtSlice a || fmtSlice b) || (a == b && cfgForm c == 0))

/-- Bits of the wider operand, which sets the array's rate (R61, R81). -/
def cfgWide (c : Nat) : Nat := max (fmtBits (cfgA c)) (fmtBits (cfgB c))

/-- K of one product (R61). -/
def cfgK (c : Nat) : Nat := (if cfgForm c = 1 then 256 else 64) * 4 / cfgWide c

/-- Bytes of a slice-format element. -/
def sliceBytes (c : Nat) : Nat := fmtBits (cfgB c) / 8

/-! ### Reading planes and scale images (R84, R85) -/

/-- Bytes of scratch as an agent of the array reads them, zeros beyond its end (R84). [DEDUCED, log 42] -/
def State.imageRead (s : State) (t agent a n : Nat) : Option (List Byte) × State :=
  let k := min n (scratchBytes - a)
  match s.tileRead t agent a k with
  | (some bs, s) => (some (bs ++ List.replicate (n - k) 0), s)
  | (none, s) => (none, s)

/-- An image read for an instruction, when its format has one; else nothing is read. -/
def State.imageFor (s : State) (t agent a n : Nat) (want : Bool) (k : State → List Byte → Ran) : Ran :=
  if !want || n == 0 then k s []
  else match s.imageRead t agent a n with
    | (some bs, s) => if (s.tile t).run.isSome then k s bs else .ended s
    | (none, s) => .ended (if (s.tile t).run.isSome then s.poisoned t else s)

/-- Bytes of a list from an offset. -/
def slab (bs : List Byte) (off n : Nat) : List Byte := (bs.drop off).take n

/-! ### MCFG, MZERO, MLOADB -/

/-- A kernel control register's value. -/
def State.csrOf (s : State) (t a : Nat) : Nat := (s.tile t).csr.get 0 a

/-- A matrix instruction's source register. -/
def State.rs1 (s : State) (t w : Nat) : Nat := (s.xreg t (bits w 19 15)).toNat
def State.rs2 (s : State) (t w : Nat) : Nat := (s.xreg t (bits w 24 20)).toNat

/-- The pc after a 4-byte instruction. -/
def State.after (s : State) (t : Nat) : Nat := (s.tile t).pc + 4

/-- MCFG (R65, R66). -/
def State.mcfg (s : State) (t w : Nat) : Ran :=
  let c := s.rs1 t w
  if cfgOk c then .go (s.setTile t { s.tile t with cfg := c }) (s.after t) else .trap cIllegal s

/-- MZERO (R62, R109). -/
def State.mzero (s : State) (t w : Nat) : Ran :=
  let x := s.tile t
  if cfgSlice x.cfg then
    if bit w 31 then .trap cIllegal s else .go (s.setTile t { x with comb := [] }) (s.after t)
  else .go (s.setTile t (if bit w 31 then { x with k1 := Bank.empty } else { x with k0 := Bank.empty })) (s.after t)

/-- Bytes of a stationary block (R61, R110). -/
def statBytes (c : Nat) : Nat := if cfgSlice c then 4096 * sliceBytes c else if cfgForm c = 0 then 2048 else 128

/-- Bytes of a stationary scale image (R84). -/
def statScaleBytes (c : Nat) : Nat :=
  if cfgForm c = 0 then 64 * recordBytesOf (cfgB c) 64
  else if cfgForm c = 1 then recordBytesOf (cfgB c) 256 else 4 * recordBytesOf (cfgB c) 64

/-- MLOADB (R61, R65, R84, R85, R109). [DESIGN CHOICE, log 174] -/
def State.mloadb (s : State) (t w : Nat) : Ran :=
  let c := (s.tile t).cfg
  let a := bits (s.rs1 t w) 19 0
  let align := if cfgForm c = 0 then 2048 else 128
  if a % align ≠ 0 ∨ scratchBytes < a + statBytes c then .trap cIllegal s
  else s.readFor t agArray a (statBytes c) (fun s bs =>
    s.imageFor t agArray (s.csrOf t 0x801) (statScaleBytes c) (fmtBlock (cfgB c)) (fun s sc =>
      let b : StatBuf := { form := cfgForm c, fmt := cfgB c, bytes := bs, scales := sc }
      let x := s.tile t
      .go (s.setTile t (if bit w 30 then { x with b1 := some b } else { x with b0 := some b })) (s.after t)))

/-! ### MSTREAM (R61, R68, R81, R84, R88, R100) -/

/-- The stationary buffer that an instruction names, as bytes and scales of the current configuration: an empty one holds zeros, and one loaded
under another form or format holds nothing that the spec states. [DESIGN CHOICE, log 35] -/
def TileSt.stat (x : TileSt) (b : Bool) : Option (List Byte × List Byte) :=
  match (if b then x.b1 else x.b0) with
  | none => some (List.replicate (statBytes x.cfg) 0, List.replicate (statScaleBytes x.cfg) 0)
  | some q => if q.form = cfgForm x.cfg ∧ q.fmt = cfgB x.cfg then some (q.bytes, q.scales) else none

/-- Elements of an operand's vector from the slot of the wider operand that holds it (R81). [DEDUCED, log 36] -/
def vecElems (fmt k : Nat) (slot : List Byte) : List Int := unpack fmt (slot.take (k * fmtBits fmt / 8))

/-- The stationary vectors of a configuration: the columns of SQUARE, the vector of WIDE, the quarters of WIDE4 (R61, R84). -/
def statVectors (c : Nat) (bs sc : List Byte) : List (List Gran) :=
  let f := cfgB c
  let k := cfgK c
  let rec_ (n i : Nat) : List Byte := slab sc (i * recordBytesOf f n) (recordBytesOf f n)
  if cfgForm c = 0 then
    let slot := 64 * cfgWide c / 8
    let rows := (List.range k).map (fun r => vecElems f 64 (slab bs (slot * r) slot))
    (List.range 64).map (fun n => granulesOf f k (rows.map (fun r => (r[n]?).getD 0)) (rec_ 64 n))
  else if cfgForm c = 1 then [granulesOf f k (vecElems f k bs) (rec_ 256 0)]
  else (List.range 4).map (fun q => granulesOf f k (vecElems f k (slab bs (32 * q) 32)) (rec_ 64 q))

/-- One streamed vector: which stationary vector meets it, its output (lane or column base) and where its elements lie. -/
structure StreamVec where
  stat : Nat
  out : Nat
  addr : Nat
  grans : List Gran
  deriving DecidableEq, Repr

/-- The streamed vectors of row or line t: SQUARE has one row that meets every column, WIDE 16 lanes, WIDE4 64 (R61, R84). -/
def streamVectors (c addr t : Nat) (line sc : List Byte) : List StreamVec :=
  let f := cfgA c
  let k := cfgK c
  if cfgForm c = 0 then
    [{ stat := 0, out := 0, addr := addr + 32 * t, grans := granulesOf f k (vecElems f k line) (slab sc (t * recordBytesOf f 64) (recordBytesOf f 64)) }]
  else if cfgForm c = 1 then
    (List.range 16).map (fun j =>
      { stat := 0, out := j, addr := addr + 2048 * t + 128 * j,
        grans := granulesOf f k (vecElems f k (slab line (128 * j) 128)) (slab sc ((16 * t + j) * recordBytesOf f 256) (recordBytesOf f 256)) })
  else
    (List.range 64).map (fun p =>
      { stat := p / 16, out := p, addr := addr + 2048 * t + 32 * p,
        grans := granulesOf f k (vecElems f k (slab line (32 * p) 32)) (slab sc ((64 * t + p) * recordBytesOf f 64) (recordBytesOf f 64)) })

/-- Bytes of a streamed row or line (R61, R110). -/
def streamBytes (c : Nat) : Nat := if cfgSlice c then 64 * sliceBytes c else if cfgForm c = 0 then 32 else 2048

/-- Bytes of a row's or line's scale records (R84). -/
def streamScaleBytes (c : Nat) : Nat :=
  if cfgForm c = 0 then recordBytesOf (cfgA c) 64
  else if cfgForm c = 1 then 16 * recordBytesOf (cfgA c) 256 else 64 * recordBytesOf (cfgA c) 64

/-- Whether output `out` of row or line t is fed (R68). -/
def maskFeeds (c mask t out : Nat) (rows all : Bool) : Bool :=
  if all then true
  else if rows then bit mask (if cfgForm c = 1 then t / 4 else t)
  else bit mask out

/-- Accumulator row of row or line t (R61). -/
def accRowOf (c start t : Nat) : Nat := if cfgForm c = 1 then (start + t) / 4 else start + t

/-- Flat accumulator index of an output of row or line t (R61). -/
def flatOf (c start t out : Nat) : Nat := if cfgForm c = 1 then 16 * (start + t) + out else 64 * (start + t) + out

/-! #### The escalation map (R97, R100) -/

/-- An escalation header's fields (R97). -/
structure EscHeader where
  elem : Nat
  map : Nat
  area : Nat
  groups : Nat
  slots : Nat
  next : Nat
  last : Nat
  overflow : Nat
  errors : Nat
  deriving DecidableEq, Repr

/-- A header read from its 32 bytes. -/
def escHeader (bs : List Byte) : EscHeader :=
  let w0 := leValue (bs.take 8)
  let w1 := leValue (slab bs 8 8)
  let w2 := leValue (slab bs 16 8)
  { elem := bits w0 19 0, map := bits w0 39 20, area := bits w0 59 40, groups := bits w1 15 0, slots := bits w1 31 16,
    next := bits w1 47 32, last := bits w1 63 48, overflow := bits w2 15 0, errors := bits w2 31 16 }

/-- Whether a header's fields are aligned (R97, R100). -/
def EscHeader.aligned (h : EscHeader) : Bool := h.elem % 2048 == 0 && h.map % 16 == 0 && h.area % 64 == 0

/-- Ones of a number below bit k. -/
def popBelow (v k : Nat) : Nat := ((List.range k).filter (fun i => bit v i)).length

/-- The stored copy of the block at an address, if it is escalated (R100): its multiples and e_max. -/
def State.escBlock (s : State) (t : Nat) (h : EscHeader) (a : Nat) : Option (Option (List Int × Int)) × State :=
  if a < h.elem ∨ h.elem + 2048 * h.groups ≤ a then (some none, s)
  else
    let b := (a - h.elem) / 32
    match s.imageRead t agArray (h.map + 16 * (b / 64)) 16 with
    | (none, s) => (none, s)
    | (some m, s) =>
      let bitsW := leValue (m.take 8)
      let slot := leValue (slab m 8 2) + popBelow bitsW (b % 64)
      if !bit bitsW (b % 64) || decide (h.slots ≤ slot) then (some none, s)
      else match s.imageRead t agArray (h.area + 64 * slot) 64 with
        | (none, s) => (none, s)
        | (some x, s) => (some (some (escRead (x.map BitVec.toNat))), s)

/-- The sixteens of one escalated block of 64 for a pass: the digits at their unit, under the scales of the block (R100). -/
def escGrans (fmt : Nat) (gs : List Gran) (ds : List Int) (unit : Int) : List Gran :=
  gs.zipIdx.map (fun (p : Gran × Nat) => { p.1 with elems := (ds.drop (16 * p.2)).take 16, exp := p.1.exp - narrowUnit fmt + unit })

/-- The escalated blocks of one streamed vector, block by block of 64 elements; none when poison was read. -/
def State.escOfVec (s : State) (t : Nat) (h : EscHeader) (v : StreamVec) : Option (List (Option (List Int × Int))) × State :=
  (List.range (v.grans.length / 4)).foldl (fun (p : Option (List (Option (List Int × Int))) × State) g =>
    match p.1 with
    | none => p
    | some l =>
      match p.2.escBlock t h (v.addr + 32 * g) with
      | (none, s) => (none, s)
      | (some e, s) => (some (l ++ [e]), s)) (some [], s)

/-- The pairs of sixteens that take part in the first pass, and in the second (R100). -/
def passPairs (fmt : Nat) (v : List Gran) (esc : List (Option (List Int × Int))) (b : List Gran) : List (Gran × Gran) × List (Gran × Gran) :=
  let at4 (l : List Gran) (g : Nat) : List Gran := (l.drop (4 * g)).take 4
  if esc.isEmpty then (v.zip b, [])
  else
    let parts := esc.zipIdx.map (fun (p : Option (List Int × Int) × Nat) =>
      let gs := at4 v p.2
      let bs := at4 b p.2
      match p.1 with
      | none => (gs.zip bs, [])
      | some (ds, e) =>
        ((escGrans fmt gs (ds.map (fun d => (d - lowDigit d) / 16)) (e - 1)).zip bs, (escGrans fmt gs (ds.map lowDigit) (e - 5)).zip bs))
    ((parts.map (·.1)).flatten, (parts.map (·.2)).flatten)

/-- The tree over pairs of sixteens. -/
def pairsDot (ps : List (Gran × Gran)) : Contr := treeSum (ps.map (fun (p : Gran × Gran) => granDot p.1 p.2))

/-- One row or line fed into a bank: first pass, and second pass where a block is escalated. -/
def feedLine (c start t : Nat) (feeds : Nat → Bool) (stat : List (List Gran)) (vs : List (StreamVec × List (Option (List Int × Int)))) (b : Bank) :
    Bank × Nat :=
  let outs : List (Nat × (List (Gran × Gran) × List (Gran × Gran))) := vs.flatMap (fun (p : StreamVec × List (Option (List Int × Int))) =>
    if cfgForm c = 0 then
      ((List.range 64).filter feeds).map (fun n => (n, passPairs (cfgA c) p.1.grans p.2 ((stat[n]?).getD [])))
    else if feeds p.1.out then [(p.1.out, passPairs (cfgA c) p.1.grans p.2 ((stat[p.1.stat]?).getD []))] else [])
  let row := accRowOf c start t
  let one (f : List (Gran × Gran) × List (Gran × Gran) → List (Gran × Gran)) (os : List (Nat × (List (Gran × Gran) × List (Gran × Gran)))) :
      List (Nat × Contr) := os.map (fun o => (flatOf c start t o.1, pairsDot (f o.2)))
  let b := if outs.isEmpty then b else b.update row (one (·.1) outs)
  let second := outs.filter (fun o => !o.2.2.isEmpty)
  let any := vs.any (fun p => p.2.any Option.isSome)
  (if second.isEmpty then b else b.update row (one (·.2) second), if any then 1 else 0)

/-- A bank of a tile. -/
def TileSt.bank (x : TileSt) (k : Bool) : Bank := if k then x.k1 else x.k0
def TileSt.setBank (x : TileSt) (k : Bool) (b : Bank) : TileSt := if k then { x with k1 := b } else { x with k0 := b }

/-- Accumulators whose sum the spec does not state, each a free value that hangs on the operands alone (R103). [DESIGN CHOICE, log 35] -/
def Bank.feedOpen (b : Bank) (flats key : List Nat) : Bank :=
  { b with cells := flats.foldl (fun (m : Sparse AccCell) f =>
      let old := m.get { v := 0, sat := false } f
      let v := Config.vecChoice vcOpen (f :: unsigned 32 old.v :: key)
      m.put f { v := signed 32 v, sat := old.sat || bit v 32 }) b.cells }

/-- What the free values of a stream against a buffer loaded under another form or format hang on: the configuration, the buffer and the
streamed bytes. -/
def TileSt.openKey (x : TileSt) (b : Bool) (line : List Byte) : List Nat :=
  match (if b then x.b1 else x.b0) with
  | some q => [x.cfg, q.form, q.fmt, leValue q.bytes, leValue q.scales, leValue line]
  | none => [x.cfg, leValue line]

/-- One row or line of a narrow MSTREAM, and whether it met no poison. -/
def State.streamLine (s : State) (t w addr start i : Nat) (sc : List Byte) (esc : Option EscHeader) : Bool × State :=
  let x := s.tile t
  let c := x.cfg
  let k := bit w 31
  let mask := s.rs2 t w
  let all := bits w 24 20 == 0
  let feeds (out : Nat) : Bool := maskFeeds c mask i out (bit w 29) all
  let outs := (List.range (if cfgForm c = 1 then 16 else 64)).filter feeds
  let masked := (if cfgForm c = 1 then 16 else 64) - outs.length
  match s.tileRead t agArray (addr + streamBytes c * i) (streamBytes c) with
  | (none, s) => (false, s)
  | (some line, s) =>
    let x := s.tile t
    let counted (s : State) (extra : Nat) : State := ((s.perf t 0 (1 + extra)).perf t 5 (if masked = 0 then 0 else 1)).perf t 6 extra
    match x.stat (bit w 30) with
    | none => (true, counted (s.setTile t (x.setBank k ((x.bank k).feedOpen (outs.map (flatOf c start i)) (x.openKey (bit w 30) line)))) 0)
    | some (bs, ss) =>
      let vs := streamVectors c addr i line sc
      let blocks := vs.foldl (fun (p : Option (List (StreamVec × List (Option (List Int × Int)))) × State) v =>
        match p.1, esc with
        | none, _ => p
        | some l, none => (some (l ++ [(v, [])]), p.2)
        | some l, some h =>
          match p.2.escOfVec t h v with
          | (none, s) => (none, s)
          | (some e, s) => (some (l ++ [(v, e)]), s)) (some [], s)
      match blocks with
      | (none, s) => (false, s)
      | (some l, s) =>
        let x := s.tile t
        let (b, extra) := feedLine c start i feeds (statVectors c bs ss) l (x.bank k)
        (true, counted (s.setTile t (x.setBank k b)) extra)

/-- The combine accumulators of a slice row whose sums the spec does not state: free values that hang on the operands alone (R103), with
the special flag of R108 where the row itself holds a special value. [DESIGN CHOICE, log 35] -/
def combOpen (m : Sparse CombCell) (flats key : List Nat) (special : Bool) : Sparse CombCell :=
  flats.foldl (fun (m : Sparse CombCell) f =>
    let old := m.get CombCell.zero f
    let k := f :: unsigned 256 old.i :: unsigned 32 old.l :: key
    m.put f { i := signed 192 (Config.vecChoice vcOpen k), l := signed 16 (Config.vecChoice vcOpen (1 :: k)),
              special := old.special || special || bit (Config.vecChoice vcOpen (2 :: k)) 0,
              inexact := old.inexact || bit (Config.vecChoice vcOpen (2 :: k)) 1 }) m

/-- One row of a slice MSTREAM (R107–R111), and whether it met no poison. The windows of a row against a buffer loaded under another
format are a free number, window 0 among them. [DESIGN CHOICE, log 35] -/
def State.sliceRow (s : State) (t w addr start i : Nat) (cols : Option (List (List SliceDigit × Int))) : Bool × State :=
  let c := (s.tile t).cfg
  let f := cfgB c
  let n := sliceCount f
  let mask := s.rs2 t w
  let all := bits w 24 20 == 0
  let outs := (List.range 64).filter (fun j => maskFeeds c mask i j (bit w 29) all)
  match s.tileRead t agArray (addr + streamBytes c * i) (streamBytes c) with
  | (none, s) => (false, s)
  | (some line, s) =>
    let x := s.tile t
    let a := alignBlock f ((codesOf (fmtBits f) line).map (sliceElem f))
    let pairs := slicePairs n (cfgFaithful c)
    let flat (j : Nat) : Nat := 64 * (start + i) + j
    let (comb, windows) := match cols with
      | none =>
        let key := x.openKey (bit w 30) line
        (combOpen x.comb (outs.map flat) key (a.1.any SliceDigit.special), 1 + Config.vecChoice vcOpen (3 :: key) % 64)
      | some cols =>
        let fed := outs.map (fun j => (j, (cols[j]?).getD ([], 0)))
        let ws := rowWindows a.1 (fed.map (fun p => p.2.1))
        (fed.foldl (fun (m : Sparse CombCell) (p : Nat × (List SliceDigit × Int)) =>
          m.put (flat p.1) (combineCol n pairs ws a p.2 (m.get CombCell.zero (flat p.1)))) x.comb, ws.length)
    let sum := s.csrOf t 0x807
    let s := s.setTile t { x with comb := comb, csr := x.csr.put 0x807 (putBits sum 23 0 (satAdd 24 (bits sum 23 0) (windows - 1))) }
    (true, (s.perf t 0 (pairs.length * windows)).perf t 5 (if outs.length = 64 then 0 else pairs.length * windows))

/-- The rows or lines of an MSTREAM in order, until poison ends the dispatch. -/
def streamAll (f : State → Nat → Bool × State) : Nat → Nat → State → Bool × State
  | 0, _, s => (true, s)
  | n + 1, i, s => match f s i with
    | (true, s) => streamAll f n (i + 1) s
    | (false, s) => (false, s)

/-- Lines of 2 KiB that a range touches. -/
def linesTouched (a n : Nat) : Nat := if n = 0 then 0 else (a + n - 1) / 2048 - a / 2048 + 1

/-- The end of a stream instruction: every row taken, with the array's stalls counted: one for each line of the scale image in WIDE and
WIDE4 form (R86) and those of R56 and R102; or a row met poison, which ends the dispatch (R59). -/
def streamedEnd (t stalls : Nat) (r : Bool × State) : Ran :=
  let s := r.2
  if !(s.tile t).run.isSome then .ended s
  else if r.1 then .go ((s.perf t 1 stalls).perfOpen t 1) (s.after t)
  else .ended (s.poisoned t)

/-- MSTREAM (R61–R66, R68, R100, R109). [DEDUCED, log 173] -/
def State.mstream (s : State) (t w : Nat) : Ran :=
  let x := s.tile t
  let c := x.cfg
  let v := s.rs1 t w
  let addr := bits v 19 0
  let n := bits v 27 20 + 1
  let start := bits v 35 28
  let slice := cfgSlice c
  let e := bit w 28
  let top := if cfgForm c = 1 then 256 else 64
  let hdr := s.csrOf t 0x802
  if v / 2 ^ 36 ≠ 0 ∨ top < n ∨ top < start + n ∨ addr % streamBytes c ≠ 0 ∨ (slice = true ∧ bit w 31 = true) ∨
      (e = true ∧ (4 ≤ cfgA c ∨ 4 ≤ cfgB c)) then .trap cIllegal s
  else if scratchBytes < addr + streamBytes c * n then .trap cLoadAccess s
  else if slice then
    let cols := (x.stat (bit w 30)).map (fun p =>
      let codes := (codesOf (fmtBits (cfgB c)) p.1).map (sliceElem (cfgB c))
      (List.range 64).map (fun j => alignBlock (cfgB c) ((List.range 64).map (fun k => (codes[64 * k + j]?).getD .special))))
    streamedEnd t 0 (streamAll (fun s i => s.sliceRow t w addr start i cols) n 0 s)
  else
    let image := if fmtBlock (cfgA c) then streamScaleBytes c * n else 0
    let stalls := if cfgForm c = 0 then 0 else linesTouched (s.csrOf t 0x800) image
    s.imageFor t agArray (s.csrOf t 0x800) image (fmtBlock (cfgA c)) (fun s sc =>
      if !e then streamedEnd t stalls (streamAll (fun s i => s.streamLine t w addr start i sc none) n 0 s)
      else if hdr % 8 ≠ 0 then .trap cIllegal s
      else s.imageFor t agArray hdr 32 true (fun s hb =>
        let h := escHeader hb
        if !h.aligned then .trap cIllegal s
        else streamedEnd t stalls (streamAll (fun s i => s.streamLine t w addr start i sc (some h)) n 0 s)))

/-! ### MDRAIN (R66, R69, R90–R92, R96–R99, R115) -/

/-- The drained accumulators of a row. [DESIGN CHOICE, log 34] -/
def TileSt.drained (x : TileSt) (k : Bool) (row : Nat) : List Drained :=
  (List.range 64).map (fun j =>
    if cfgSlice x.cfg then
      match x.comb.find? (fun p => p.1 == 64 * row + j) with
      | some (_, c) => { num := c.i, q := c.l, fed := true, sat := false }
      | none => { num := 0, q := 0, fed := false, sat := false }
    else match (x.bank k).cells.find? (fun p => p.1 == 64 * row + j) with
      | some (_, c) => { num := c.v, q := (x.bank k).exp row, fed := true, sat := c.sat }
      | none => { num := 0, q := 0, fed := false, sat := false })

/-- The block scales of a row for MXFP4 and CB4, with the bytes of its scale record (R91). -/
def rowScales (fmt clip : Nat) (ds : List Drained) : List DrainScale × List Nat :=
  -- one unit for the whole row: every fed element has the row's block exponent
  let q := ((ds.find? Drained.fed).map Drained.q).getD 0
  let mag (n i : Nat) : Nat := maxMag (((ds.drop (n * i)).take n).map Drained.num)
  if fmt = 9 then
    let ss := (List.range 2).map (fun i => mxScale clip (mag 32 i) q)
    (ss, ss.map DrainScale.code)
  else match cbShared clip (maxMag (ds.map Drained.num)) q with
    | none => (List.replicate 4 { code := 0, sig := 0, exp := 0, zero := true }, [0, 0, 0, 0, 0])
    | some x =>
      let ss := (List.range 4).map (fun i => cbScale clip (mag 16 i) q x)
      (ss, ss.map DrainScale.code ++ [(x + 127).toNat])

/-- The rounding mode of a drain, given the LFSR's state. [DEDUCED, log 37] -/
def drainRnd (c lfsr : Nat) : Rnd := if bits c 17 16 = 0 then .nearest else if bits c 17 16 = 1 then .zero else .stochastic (lfsr % 65536)

/-- The elements of a row converted in order: codes (none where nothing is written), elements clipped, and the LFSR after. [DEDUCED, log 37] -/
def convertRow (c fmt : Nat) (shift : Int) (scales : List DrainScale) (zeros : Bool) (lfsr : Nat) (ds : List Drained) :
    List (Option Nat) × Nat × Nat :=
  ds.zipIdx.foldl (fun (a : List (Option Nat) × Nat × Nat) (p : Drained × Nat) =>
    if !p.1.fed then (a.1 ++ [if zeros then some 0 else none], a.2.1, a.2.2)
    else
      let l := lfsrUpdate a.2.2
      let sc := (scales[p.2 / (if fmt = 9 then 32 else 16)]?).getD { code := 0, sig := 1, exp := 0, zero := false }
      let (code, clip) := convert fmt (drainRnd c l) shift sc p.1.num p.1.q
      (a.1 ++ [some code], a.2.1 + ofBool clip, l)) ([], 0, lfsr)

/-- The bytes of a row image: elements of `w` bits, none where nothing is written; a 4-bit element beside an unwritten one keeps its byte's
other half. -/
def rowImage (w : Nat) (old : List Byte) (codes : List (Option Nat)) : List (Option Byte) :=
  if w = 4 then
    (List.range (codes.length / 2)).map (fun i =>
      match (codes[2 * i]?).join, (codes[2 * i + 1]?).join with
      | none, none => none
      | a, b =>
        let o := ((old[i]?).getD 0).toNat
        some (BitVec.ofNat 8 ((a.getD (o % 16)) % 16 + (b.getD (o / 16)) % 16 * 16)))
  else codes.flatMap (fun c => match c with
    | some v => (leBytes (w / 8) v).map some
    | none => List.replicate (w / 8) none)

/-- Bytes written where they are given: a word given whole is written whole. -/
def State.writeSome (s : State) (t agent a : Nat) (bs : List (Option Byte)) : State :=
  (List.range ((bs.length + 7) / 8)).foldl (fun (s : State) i =>
    let here := (bs.drop (8 * i)).take 8
    if here.all Option.isSome then s.tileWrite t agent (a + 8 * i) (here.filterMap id)
    else here.zipIdx.foldl (fun (s : State) (p : Option Byte × Nat) =>
      match p.1 with
      | some b => s.tileWrite t agent (a + 8 * i + p.2) [b]
      | none => s) s) s

/-- Bits of an element by drain format code. -/
def drainBits (fmt : Nat) : Nat := imageBytes fmt * 8 / 64

/-- Whether a drain format is 4-bit (R96). -/
def drain4 (fmt : Nat) : Bool := decide (7 ≤ fmt ∧ fmt ≤ 10)

/-- int_shift of mdctl. -/
def intShift (m : Nat) : Int := signed 8 (bits m 27 20)

/-- The counts of one row added to mrwsum (R87, R96). -/
def addRwSum (v clipped sat above : Nat) : Nat :=
  putBits (putBits (putBits v 23 0 (satAdd 24 (bits v 23 0) clipped)) 47 24 (satAdd 24 (bits v 47 24) sat)) 63 48 (satAdd 16 (bits v 63 48) above)

/-- The 32 bytes of a header. -/
def EscHeader.words (h : EscHeader) (old : List Byte) : List Byte :=
  leBytes 8 (putBits (leValue (old.take 8)) 59 0 (h.elem + h.map * 2 ^ 20 + h.area * 2 ^ 40)) ++
  leBytes 8 (h.groups + h.slots * 2 ^ 16 + h.next * 2 ^ 32 + h.last * 2 ^ 48) ++
  leBytes 8 (putBits (leValue (slab old 16 8)) 31 0 (h.overflow + h.errors * 2 ^ 16)) ++ slab old 24 8

/-- One drained row under an escalation header (R99). -/
def State.escRow (s : State) (t dest : Nat) (h : EscHeader) (above : Bool) (copy : List Byte) : State × EscHeader :=
  let b := (dest - h.elem) / 32
  let g := b / 64
  if dest < h.elem ∨ h.groups ≤ g ∨ (h.last ≠ 0xFFFF ∧ b ≤ h.last) then (s, { h with errors := satAdd 16 h.errors 1 })
  else
    let entry := h.map + 16 * g
    let s := if h.last = 0xFFFF ∨ h.last / 64 ≠ g then s.tileWrite t agDrain entry (leBytes 8 0 ++ leBytes 2 h.next) else s
    let (s, h) := if !above then (s, h)
      else if h.next < h.slots then
        let s := s.tileWrite t agDrain (h.area + 64 * h.next) copy
        let (was, s) := s.scrRead t entry 8 .clean
        let old := leValue (was.map Prod.fst)
        (s.tileWrite t agDrain entry (leBytes 8 (old ||| 2 ^ (b % 64))), { h with next := h.next + 1 })
      else (s, { h with overflow := satAdd 16 h.overflow 1 })
    (s, { h with last := b })

/-- One drained row: element image, scale record, range watch and escalation. The copy of a block that holds a value over a CB4 scale that
rounded to zero is open (R98). [DESIGN CHOICE, log 34] -/
def State.drainRow (s : State) (t w : Nat) (row i dest : Nat) (h : Option EscHeader) : State × Option EscHeader :=
  let x := s.tile t
  let c := x.cfg
  let fmt := bits w 28 25
  let ds := x.drained (bit w 31) row
  let md := s.csrOf t 0x804
  let rw := s.csrOf t 0x805
  let blockFmt := fmt == 9 || fmt == 10
  let z := bit w 30
  let forced := blockFmt && !z && ds.any (fun d => !d.fed)
  let (scales, rec_) := if blockFmt then rowScales fmt (bits md 29 28) ds else ([], [])
  let (codes, clipped, lfsr) := convertRow c fmt (intShift md) scales (z || blockFmt) x.lfsr ds
  let p := (s.slotOf t).getD 0
  let old := (s.scrBytes p dest (imageBytes fmt)).map Prod.fst
  let s := s.setTile t { x with lfsr := lfsr }
  let s := s.writeSome t agDrain dest (rowImage (drainBits fmt) old codes)
  let s := if blockFmt then s.tileWrite t agDrain (bits md 19 0 + rec_.length * i) (rec_.map (BitVec.ofNat 8)) else s
  let sat := (ds.filter (fun d => d.fed && d.sat)).length
  let above := decide (min 64 (bits rw 26 20) < clipped) || decide (min 64 (bits rw 33 27) < sat)
  let s := if drain4 fmt && !cfgSlice c then
      let x := s.tile t
      let s := s.setTile t { x with csr := x.csr.put 0x806 (addRwSum (s.csrOf t 0x806) clipped sat (ofBool above)) }
      if bit rw 63 then
        s.tileWrite t agDrain (bits rw 19 0 + 2 * i) (leBytes 2 (clipped + ofBool forced * 2 ^ 7 + sat * 2 ^ 8 + ofBool above * 2 ^ 15))
      else s
    else s
  let (s, h) := match h with
    | some hd =>
      let scale (j : Nat) : DrainScale := (scales[j / (if fmt = 9 then 32 else 16)]?).getD { code := 0, sig := 1, exp := 0, zero := false }
      let us := ds.zipIdx.map (fun (p : Drained × Nat) => inUnits fmt (intShift md) (scale p.2) p.1.num p.1.q)
      -- a value over a scale that rounded to zero is none that the spec states
      let open_ := blockFmt && ds.zipIdx.any (fun (p : Drained × Nat) => (scale p.2).zero && p.1.num != 0)
      let key := fmt :: ds.flatMap (fun (d : Drained) => [unsigned 192 d.num, unsigned 16 d.q])
      let copy := if open_ then (List.range 64).map (fun j => BitVec.ofNat 8 (Config.vecChoice vcOpen (j :: key)))
        else us.map (fun u => BitVec.ofNat 8 (escCode (escExp us) u))
      let r := s.escRow t dest hd above copy
      (r.1, some r.2)
    | none => (s, none)
  -- slice sums count what was drained (R108, R117)
  let s := if cfgSlice c then
      let x := s.tile t
      let here := x.comb.filter (fun p => p.1 / 64 == row)
      let v := s.csrOf t 0x807
      let sp := (here.filter (fun p => p.2.special)).length
      let ix := (here.filter (fun p => p.2.inexact)).length
      s.setTile t { x with csr := x.csr.put 0x807 (putBits (putBits v 63 48 (satAdd 16 (bits v 63 48) sp)) 47 24 (satAdd 24 (bits v 47 24) ix)) }
    else s
  let x := s.tile t
  let s := if !bit w 29 then s
    else if cfgSlice c then s.setTile t { x with comb := x.comb.filter (fun p => p.1 / 64 != row) }
    else s.setTile t (x.setBank (bit w 31) ((x.bank (bit w 31)).clearRow row))
  (s, h)

/-- MDRAIN (R65, R66, R69, R90–R99, R109, R115). [DESIGN CHOICE, log 174] -/
def State.mdrain (s : State) (t w : Nat) : Ran :=
  let x := s.tile t
  let v := s.rs1 t w
  let dest := bits v 19 0
  let first := bits v 25 20
  let n := bits v 31 26 + 1
  let stride := bits (s.rs2 t w) 19 0
  let fmt := bits w 28 25
  let me := s.csrOf t 0x803
  if v / 2 ^ 32 ≠ 0 ∨ dest % 32 ≠ 0 ∨ 64 < first + n ∨ stride % 32 ≠ 0 ∨ stride < imageBytes fmt ∨
      scratchBytes < dest + (n - 1) * stride + imageBytes fmt ∨ 12 ≤ fmt ∨
      (cfgSlice x.cfg = true ∧ (bit w 31 = true ∨ (4 ≤ fmt ∧ fmt ≠ 11))) then .trap cIllegal s
  else
    let rows (s : State) (h : Option EscHeader) : State × Option EscHeader :=
      (List.range n).foldl (fun (p : State × Option EscHeader) i => p.1.drainRow t w (first + i) i (dest + i * stride) p.2) (s, h)
    if bit me 63 && drain4 fmt then
      let a := bits me 19 0
      s.imageFor t agDrain a 32 true (fun s hb =>
        let s := s.setTile t { s.tile t with escs := insertNat a (s.tile t).escs }
        let (s, h) := rows s (some (escHeader hb))
        let s := match h with | some h => s.tileWrite t agDrain a (h.words hb) | none => s
        .go s (s.after t))
    else let s := (rows s none).1; .go s (s.after t)

/-! ### VSIDE (R93–R95) -/

/-- The outliers of a sidecar record: position and BF16 value; none for the reserved count. -/
def sideRecord (v : Nat) : Option (List (Nat × Nat)) :=
  match bits v 45 44 with
  | 0 => some []
  | 1 => some [(bits v 37 32, bits v 15 0)]
  | 2 => some [(bits v 37 32, bits v 15 0), (bits v 43 38, bits v 31 16)]
  | _ => none

/-- The activation element of an index among the sixteens of a vector: integer with scale, and exponent; none for a NaN scale. -/
def actElem (gs : List Gran) (i : Nat) : Option (Int × Int) :=
  match gs[i / 16]? with
  | some g => if g.nan then none else some (((g.elems[i % 16]?).getD 0) * g.sig, g.exp)
  | none => some (0, 0)

/-- An outlier's contribution (R95): the exact product; none for a BF16 value that is no number, for which the spec states no sum. -/
def sideContr (act : Option (Int × Int)) (value : Nat) : Option Contr :=
  match fltBf16.decode value with
  | .fin n m q =>
    match act with
    | some (a, e) => some { c := a * signedOf n m, e := some (e + q), sat := false }
    | none => some { c := 0, e := none, sat := true }
  | _ => none

/-- One outlier added to a fed accumulator. -/
def State.sideAdd (s : State) (t : Nat) (k : Bool) (flat : Nat) (act : Option (Int × Int)) (value : Nat) : State :=
  let x := s.tile t
  let b := x.bank k
  if !b.cells.any (fun p => p.1 == flat) then s
  else match sideContr act value with
    | some c => s.setTile t (x.setBank k (b.update (flat / 64) [(flat, c)]))
    | none => s.setTile t (x.setBank k (b.feedOpen [flat] [value, ((act.map (fun a => unsigned 64 a.1)).getD 0), ((act.map (fun a => unsigned 32 a.2)).getD 0)]))

/-- The records of one VSIDE: record offset, accumulator, activation vector and the position of the record's block in it (R94). -/
def sideSlots (form row : Nat) : List (Nat × Nat × Nat × Nat) :=
  if form = 0 then (List.range 64).map (fun n => (8 * n, 64 * row + n, 0, 0))
  else if form = 1 then
    (List.range 256).map (fun p => (512 * (p / 64) + 8 * (p % 64), 64 * row + 16 * (p / 64) + p % 64 / 4, 0, 64 * (p % 4)))
  else (List.range 64).map (fun p => (8 * p, 64 * row + p, p / 16, 0))

/-- VSIDE (R94, R95, R109). -/
def State.vside (s : State) (t w : Nat) : Ran :=
  let x := s.tile t
  let c := x.cfg
  let v := s.rs1 t w
  let u := s.rs2 t w
  let table := bits v 19 0
  let row := bits v 25 20
  let form := cfgForm c
  let size := if form = 1 then 2048 else 512
  if cfgSlice c ∨ v / 2 ^ 28 ≠ 0 ∨ u / 2 ^ 40 ≠ 0 ∨ table % 8 ≠ 0 ∨ (form ≠ 0 ∧ u ≠ 0) ∨
      (form = 0 ∧ fmtBlock (cfgA c) = false ∧ bits u 39 20 ≠ 0) then .trap cIllegal s
  else if scratchBytes < table + size ∨ (form = 0 ∧ scratchBytes < bits u 19 0 + 32) then .trap cLoadAccess s
  else s.readFor t agVector table size (fun s tb =>
    s.imageFor t agVector (bits u 19 0) 32 (form == 0) (fun s ab =>
      s.imageFor t agVector (bits u 39 20) (recordBytesOf (cfgA c) 64) (form == 0 && fmtBlock (cfgA c)) (fun s ar =>
        let slots := sideSlots form row
        let recs := slots.map (fun p => sideRecord (leValue (slab tb p.1 8)))
        let clean := slots.all (fun p => bits (leValue (slab tb p.1 8)) 63 46 == 0)
        if !clean || recs.any Option.isNone then .trap cIllegal s
        else
          let acts : Option (List (List Gran)) := if form = 0 then some [granulesOf (cfgA c) (cfgK c) (vecElems (cfgA c) (cfgK c) ab) ar]
            else ((s.tile t).stat (bit v 27)).map (fun p => statVectors c p.1 p.2)
          let s := match acts with
            | some av =>
              (slots.zip recs).foldl (fun (s : State) (p : (Nat × Nat × Nat × Nat) × Option (List (Nat × Nat))) =>
                (p.2.getD []).foldl (fun (s : State) (o : Nat × Nat) =>
                  s.sideAdd t (bit v 26) p.1.2.1 (actElem ((av[p.1.2.2.1]?).getD []) (p.1.2.2.2 + o.1)) o.2) s) s
            | none =>
              let x := s.tile t
              let b := x.bank (bit v 26)
              let flats := ((slots.zip recs).filter (fun p => p.2.getD [] ≠ [])).map (fun p => p.1.2.1)
              s.setTile t (x.setBank (bit v 26) (b.feedOpen (flats.filter (fun f => b.cells.any (fun q => q.1 == f))) (x.openKey (bit v 27) tb)))
          .go s (s.after t))))

end Sys2Proof.Machine
end

