-- ==== Sys2Proof/Machine/TileCmds.lean ====
section
/-! DEFINITION. The commands of the tiles: each instruction of a kernel, dispatch start, the releases, the tile DMA's transfers, traps, time limits and tile failures (R52–R54, R63, R64, R71–R78, R476). -/
namespace Sys2Proof.Machine

/-! ### Running one instruction -/

/-- Issue cycles of a vector instruction counted once it has executed (TILE_CFG event 0x4). [DESIGN CHOICE, log 45] -/
def Ran.vectorCycles (r : Ran) (t k : Nat) : Ran :=
  match r with
  | .go s pc => .go (s.perf t 4 k) pc
  | r => r

/-- The meaning of an instruction of the matrix and vector extensions by its operation, for those that a unit of the tile carries
out at once. -/
def State.unitInst (s : State) (t w : Nat) : Op → Ran
  | .mcfg => s.mcfg t w
  | .mloadb => s.mloadb t w
  | .mstream => s.mstream t w
  | .mdrain => s.mdrain t w
  | .mzero => s.mzero t w
  | .vec 0x10 => (s.vside t w).vectorCycles t (if cfgForm (s.tile t).cfg = 1 then 32 else 8)
  | .vec _ => (s.vecInst t w).vectorCycles t 1
  | _ => .trap cIllegal s

/-- MFENCE (R63): the core waits until every earlier write has taken place. -/
def State.fenceInst (s : State) (t : Nat) : Ran := .ended (s.setTile t { s.tile t with wait := .fence })

/-- TWAIT (R64, R73): the core waits while a command with a tag of the mask is outstanding. -/
def State.twaitInst (s : State) (t w : Nat) : Ran :=
  let m := s.rs1 t w % 65536
  if (s.tile t).tdma.any (fun c => bit m c.tag) then .ended (s.setTile t { s.tile t with wait := .tags m }) else .go s (s.after t)

/-- TPOLL (R74): the core waits while the word equals the value. -/
def State.tpollInst (s : State) (t w : Nat) : Ran :=
  let a := s.rs1 t w
  let v := s.rs2 t w
  match accessTrap a 8 cLoadAlign cLoadAccess with
  | some c => .trap c s
  | none => s.readFor t agCore a 8 (fun s bs =>
      if leValue bs = v then .ended (s.setTile t { s.tile t with wait := .poll a v }) else .go s (s.after t))

/-- TEND (R63): once all earlier work has completed the kernel ends with a 16-bit result. -/
def State.tendInst (s : State) (t w : Nat) : Ran :=
  if (s.tile t).tdma = [] then
    .ended ((s.setTile t { s.tile t with instret := (s.tile t).instret + 1 }).endKernel t stSuccess (s.rs1 t w % 65536))
  else .stall s

/-- Whether the two words of a tile DMA command obey R72. -/
def tdmaOk (r l : Nat) : Bool :=
  bits r 62 56 == 0 && bits l 63 44 == 0 && bits r 55 0 % 8 == 0 && bits l 19 0 % 8 == 0 && bits l 39 20 % 8 == 0 &&
  decide (8 ≤ bits l 39 20) && decide (bits l 39 20 ≤ scratchBytes) && decide (bits l 19 0 + bits l 39 20 ≤ scratchBytes)

/-- The agent of a tile's DMA in a fault record (XLAT_FAULT_AGENT): class 5. -/
def tileAgent (t : Nat) : FaultAgent := { cls := 5, unit := t, seq := 0, agent := .tile t }

/-- A segment fault of a tile's DMA (R72, R210): the tile pauses, or its dispatch ends with SEG_FAULT. -/
def State.tileFault (s : State) (t c va kind : Nat) (seg : Option Nat) (a : Acc) : State :=
  match s.segFault (tileAgent t) c va kind seg a with
  | (some r, s) => (s.setTile t { s.tile t with wait := .record r va a (s.tile t).wait }).tileState t 2
  | (none, s) => s.tileSegFault t

/-- The first fault of a range beyond its first segment, if there is one: its address, kind and segment (R72, R198, R210). -/
def State.tdmaWalk (s : State) (ctx : Nat) (acc : Acc) : Nat → Nat → Nat → Option (Nat × Nat × Option Nat)
  | 0, _, _ => none
  | _ + 1, _, 0 => none
  | fuel + 1, va, n + 1 =>
    match s.translate ctx va acc with
    | .fault kind seg => some (va, kind, seg)
    | .ok _ _ left => s.tdmaWalk ctx acc fuel (va + left) (n + 1 - left)

/-- TDMA and TDMAF (R64, R72, R73, R464): checked, held back while the queue is full or its tag is in use, translated, and queued. [DEDUCED, log 48] -/
def State.tdmaInst (s : State) (t w : Nat) (after : Bool) : Ran :=
  let r := s.rs1 t w
  let l := s.rs2 t w
  let x := s.tile t
  let tag := bits l 43 40
  let toMem := bit r 63
  let acc : Acc := if toMem then .read else .write
  let acc : Acc := if acc = Acc.read then .write else .read
  if !tdmaOk r l then .trap cIllegal s
  else if s.glb.stop ≠ 0 then .ended (s.endKernel t stSuccess 0)
  else if 16 ≤ x.tdma.length ∨ x.tdma.any (fun c => c.tag == tag) = true ∨ (after = true ∧ x.tdma ≠ []) then .stall s
  else match x.run with
    | none => .ended s
    | some d =>
      match s.translate d.ctx (bits r 55 0) acc with
      | .fault kind seg => .ended (s.tileFault t d.ctx (bits r 55 0) kind seg acc)
      | .ok g seg left =>
        match s.tdmaWalk d.ctx acc 64 (bits r 55 0 + left) (bits l 39 20 - left) with
        | some (va, kind, seg) => .ended (s.tileFault t d.ctx va kind seg acc)
        | none =>
        if !s.tileRoute t g then
          .ended ((s.refusal blkNoc 0 8 (bits r 55 0)).endKernel t stNocTimeout 0)
        else
          let c : TdmaCmd := { tag := tag, toMem := toMem, va := bits r 55 0, scr := bits l 19 0, len := bits l 39 20, pos := 0,
                               held := seg, buf := none, bad := false }
          .go (s.setTile t { x with tdma := x.tdma ++ [c] }) (s.after t)

/-- The outcome of a word at the pc that is the given operation; another operation is not this command's. -/
def State.opInst (s : State) (t w len : Nat) : Op → Ran
  | .mfence => s.fenceInst t
  | .tdma => s.tdmaInst t w false
  | .tdmaf => s.tdmaInst t w true
  | .twait => s.twaitInst t w
  | .tpoll => s.tpollInst t w
  | .tend => s.tendInst t w
  | .fenceI => .go (s.setTile t { s.tile t with ibuf := [] }) (s.after t)
  | .std => s.coreStd t (if len = 2 then expandC w else w) len
  | .illegal => .trap cIllegal s
  | op => s.unitInst t w op

/-- Whether a tile's core can go on: a kernel runs in a quad whose clock runs, and the core waits for nothing. [DEDUCED, log 47] -/
def State.coreRuns (s : State) (t : Nat) : Bool := s.coreReady t && s.quadRuns (s.quadOf t)

/-- One instruction of a tile's kernel executed when it is one that a command stands for. [DEDUCED, log 47] -/
def State.runOp (s : State) (t : Nat) (want : Op → Bool) : State :=
  if !s.coreRuns t then s
  else match s.fetchInst t with
    | (.inst w len, s') => if want (opOfInst w len) then s'.retire t (s'.opInst t w len (opOfInst w len)) else s
    | (.poison, s') => if (s'.tile t).run.isSome then s'.poisoned t else s'
    | (.fault _, _) => s

/-- The command of one operation. [DEDUCED, log 47] -/
def State.execOp (s : State) (t : Nat) (op : Op) : Host.Outcome State Fault Refusal := .next (s.runOp t (· == op))

/-- MCFG (R63–R66). -/
def execMcfg (tile : Nat) (s : State) : Host.Outcome State Fault Refusal := s.execOp tile .mcfg
/-- MLOADB (R63–R65). -/
def execMloadb (tile : Nat) (s : State) : Host.Outcome State Fault Refusal := s.execOp tile .mloadb
/-- MSTREAM (R61–R68). -/
def execMstream (tile : Nat) (s : State) : Host.Outcome State Fault Refusal := s.execOp tile .mstream
/-- MDRAIN (R63–R69). -/
def execMdrain (tile : Nat) (s : State) : Host.Outcome State Fault Refusal := s.execOp tile .mdrain
/-- MZERO (R62–R64). -/
def execMzero (tile : Nat) (s : State) : Host.Outcome State Fault Refusal := s.execOp tile .mzero
/-- MFENCE (R63). -/
def execMfence (tile : Nat) (s : State) : Host.Outcome State Fault Refusal := s.execOp tile .mfence
/-- TDMA (R72, R73). -/
def execTdma (tile : Nat) (s : State) : Host.Outcome State Fault Refusal := s.execOp tile .tdma
/-- TDMAF (R72, R73). -/
def execTdmaf (tile : Nat) (s : State) : Host.Outcome State Fault Refusal := s.execOp tile .tdmaf
/-- TWAIT (R73). -/
def execTwait (tile : Nat) (s : State) : Host.Outcome State Fault Refusal := s.execOp tile .twait
/-- TPOLL (R74). -/
def execTpoll (tile : Nat) (s : State) : Host.Outcome State Fault Refusal := s.execOp tile .tpoll
/-- TEND (R63). -/
def execTend (tile : Nat) (s : State) : Host.Outcome State Fault Refusal := s.execOp tile .tend
/-- FENCE.I (R54). -/
def execFenceI (tile : Nat) (s : State) : Host.Outcome State Fault Refusal := s.execOp tile .fenceI
/-- VLD (R71). -/
def execVld (tile : Nat) (s : State) : Host.Outcome State Fault Refusal := s.execOp tile (.vec 0x00)
/-- VST (R71). -/
def execVst (tile : Nat) (s : State) : Host.Outcome State Fault Refusal := s.execOp tile (.vec 0x01)
/-- VADD (R71). -/
def execVadd (tile : Nat) (s : State) : Host.Outcome State Fault Refusal := s.execOp tile (.vec 0x02)
/-- VSUB (R71). -/
def execVsub (tile : Nat) (s : State) : Host.Outcome State Fault Refusal := s.execOp tile (.vec 0x03)
/-- VMUL (R71). -/
def execVmul (tile : Nat) (s : State) : Host.Outcome State Fault Refusal := s.execOp tile (.vec 0x04)
/-- VFMA (R70, R71). -/
def execVfma (tile : Nat) (s : State) : Host.Outcome State Fault Refusal := s.execOp tile (.vec 0x05)
/-- VMAX (R71). -/
def execVmax (tile : Nat) (s : State) : Host.Outcome State Fault Refusal := s.execOp tile (.vec 0x06)
/-- VMIN (R71). -/
def execVmin (tile : Nat) (s : State) : Host.Outcome State Fault Refusal := s.execOp tile (.vec 0x07)
/-- VCVT (R71). -/
def execVcvt (tile : Nat) (s : State) : Host.Outcome State Fault Refusal := s.execOp tile (.vec 0x08)
/-- VREDSUM (R71). -/
def execVredsum (tile : Nat) (s : State) : Host.Outcome State Fault Refusal := s.execOp tile (.vec 0x09)
/-- VBCAST (R71). -/
def execVbcast (tile : Nat) (s : State) : Host.Outcome State Fault Refusal := s.execOp tile (.vec 0x0A)
/-- VMVX (R71). -/
def execVmvx (tile : Nat) (s : State) : Host.Outcome State Fault Refusal := s.execOp tile (.vec 0x0B)
/-- VEXP2 (R70, R71). -/
def execVexp2 (tile : Nat) (s : State) : Host.Outcome State Fault Refusal := s.execOp tile (.vec 0x0C)
/-- VRECIP (R70, R71). -/
def execVrecip (tile : Nat) (s : State) : Host.Outcome State Fault Refusal := s.execOp tile (.vec 0x0D)
/-- VSIDE (R71, R95–R98). -/
def execVside (tile : Nat) (s : State) : Host.Outcome State Fault Refusal := s.execOp tile (.vec 0x10)
/-- CONTROL_CORE_INSTRUCTION (R52): one standard instruction. -/
def execControlCoreInstruction (tile : Nat) (s : State) : Host.Outcome State Fault Refusal := s.execOp tile .std

/-- KERNEL_TRAP (R52): the instruction at the pc traps, or cannot be fetched, which ends the dispatch. -/
def execKernelTrap (tile : Nat) (s : State) : Host.Outcome State Fault Refusal :=
  if !s.coreRuns tile then .next s
  else match s.fetchInst tile with
    | (.fault cause, s') => .next (s'.kernelTrap tile cause (s.tile tile).pc)
    | (.poison, _) => .next s
    | (.inst w len, s') =>
      match s'.opInst tile w len (opOfInst w len) with
      | .trap cause s'' => .next (s''.kernelTrap tile cause (s.tile tile).pc)
      | _ => .next s

/-! ### Dispatch start (R53, R229, R230) -/

/-- A tile with a dispatch's initial state (R53). -/
def TileSt.start (x : TileSt) (t now : Nat) (d : TileDisp) (rest : List TileDisp) : TileSt :=
  { x with queue := rest, run := some d, startedAt := now, wait := .none, pc := d.entry,
           x := [(10, BitVec.ofNat 64 d.arg), (11, BitVec.ofNat 64 t)], ibuf := [], tdma := [], cfg := 0, k0 := Bank.empty,
           k1 := Bank.empty, comb := [], b0 := none, b1 := none, v := [], csr := [], lfsr := lfsrStart d.seed t, unsettled := [], escs := [] }

/-- DISPATCH_START (R53, R154, R224): a tile that runs nothing starts its next queued dispatch; a sleeping quad is woken first. -/
def execDispatchStart (tile : Nat) (s : State) : Host.Outcome State Fault Refusal :=
  let x := s.tile tile
  match x.run, x.queue with
  | none, d :: rest =>
    if s.glb.stop ≠ 0 ∨ s.tileFenced tile = true then .next s
    else if !s.quadRuns (s.quadOf tile) then .next (s.wakeQuad (s.quadOf tile))
    else
      let s := s.setTile tile (x.start tile s.now d rest)
      let s := (s.tileState tile 1).wr (Reg.TILE_STATUS_ring (tile / 16) (tile % 16)) d.ring
      .next (s.perf tile 7 1)
  | _, _ => .next s

/-! ### Releases (R63, R73, R74) -/

/-- A waiting core goes on past its instruction. [DESIGN CHOICE, log 49] -/
def State.release (s : State) (t : Nat) : State :=
  let x := s.tile t
  s.setTile t { x with wait := .none, pc := x.pc + 4, instret := x.instret + 1 }

/-- MFENCE_RELEASE (R63): every earlier matrix, vector and drain write has taken place. -/
def execMfenceRelease (tile : Nat) (s : State) : Host.Outcome State Fault Refusal :=
  if (s.tile tile).wait = .fence then .next ((s.setTile tile { s.tile tile with unsettled := [] }).release tile) else .next s

/-- TWAIT_RELEASE (R73): no command with a tag of the mask is outstanding. -/
def execTwaitRelease (tile : Nat) (s : State) : Host.Outcome State Fault Refusal :=
  match (s.tile tile).wait with
  | .tags m => if (s.tile tile).tdma.any (fun c => bit m c.tag) then .next s else .next (s.release tile)
  | _ => .next s

/-- TPOLL_RELEASE (R74): the word read again differs from the value. -/
def execTpollRelease (tile : Nat) (s : State) : Host.Outcome State Fault Refusal :=
  match (s.tile tile).wait with
  | .poll a v =>
    match s.tileRead tile agCore a 8 with
    | (some bs, s) => if leValue bs = v then .next s else .next (s.release tile)
    | (none, s) => .next (if (s.tile tile).run.isSome then s.poisoned tile else s)
  | _ => .next s

/-! ### Tile DMA (R72, R73) -/

/-- A tile's DMA command replaced, by its tag. -/
def State.updTdma (s : State) (t tag : Nat) (f : TdmaCmd → TdmaCmd) : State :=
  let x := s.tile t
  s.setTile t { x with tdma := x.tdma.map (fun (c : TdmaCmd) => if c.tag = tag then f c else c) }

/-- A tile's DMA command, if one with the tag is outstanding. -/
def State.tdmaOf (s : State) (t tag : Nat) : Option TdmaCmd := (s.tile t).tdma.find? (fun c => c.tag == tag)

/-- A command whose last bytes have moved: complete once every write has reached its destination; poison that moved ends the
dispatch with POISON (R59, R73). -/
def State.tdmaEnd (s : State) (t tag : Nat) : State :=
  match s.tdmaOf t tag with
  | none => s
  | some c =>
    if c.pos < c.len ∨ s.outstanding (.tile t tag) = true then s
    else if c.bad then s.poisoned t
    else s.setTile t { s.tile t with tdma := (s.tile t).tdma.filter (fun (c : TdmaCmd) => c.tag != tag) }

/-- How far a command has come after one piece: gone on, or held up or ended. -/
inductive Moved where
  | on (s : State)
  | held (s : State)
  deriving DecidableEq, Repr

/-- One piece of a command has moved. -/
def State.tdmaMoved (s : State) (t tag n : Nat) (bad : Bool) : State :=
  (s.updTdma t tag (fun (c : TdmaCmd) => { c with pos := c.pos + n, buf := none, bad := c.bad || bad })).perf t 3 ((n + 63) / 64)

/-- What the next piece of a command meets: a transfer that is under way completes under the translation it was issued with, else the address is
translated (R204, R208). -/
def State.tdmaNext (s : State) (t ctx : Nat) (c : TdmaCmd) : Xl :=
  match s.going (.tile t c.tag) c.toMem with
  | some o => .ok o.tgt o.seg o.len
  | none => s.translate ctx (c.va + c.pos) (if c.toMem then .write else .read)

/-- One piece of a command: translated again, at most one packet (R140), moved, with a segment fault ending or pausing the tile, a destination without
a valid route ending it (R145), and a switch-over holding it up (R151). -/
def State.tdmaPiece (s : State) (t : Nat) (ctx : Nat) (c : TdmaCmd) : Moved :=
  let va := c.va + c.pos
  let acc : Acc := if c.toMem then .write else .read
  match s.tdmaNext t ctx c with
  | .fault kind seg => .held (s.tileFault t ctx va kind seg acc)
  | .ok g seg left =>
    let n := g.room (min (min (c.len - c.pos) left) packetBytes)
    let who := Who.tile t c.tag
    let s := s.updTdma t c.tag (fun (c : TdmaCmd) => { c with held := seg })
    if !s.tileRoute t g then .held ((s.refusal blkNoc 0 8 va).endKernel t stNocTimeout 0)
    else if s.tileWaits t g then .held s
    else if c.toMem then
      let (bs, s) := match c.buf with
        | some b => (b, s)
        | none =>
          let (bs, s) := s.scrRead t (c.scr + c.pos) n .clean
          let (seen, s) := s.unsettledMask t agDma (c.scr + c.pos) (bs.map Prod.fst)
          (seen.zip (bs.map Prod.snd), s)
      match s.writeAt who ctx seg g (bs.take n) with
      | (.wait, s) => .held (s.updTdma t c.tag (fun (c : TdmaCmd) => { c with buf := some bs }))
      | (.fail st, s) => .held (s.endKernel t st 0)
      | (.data _, s) => .on (s.tdmaMoved t c.tag n (bs.any Prod.snd))
    else match s.readAt who ctx seg g n with
      | (.wait, s) => .held s
      | (.fail st, s) => .held (s.endKernel t st 0)
      | (.data bs, s) =>
        let s := match s.slotOf t with
          | some p => s.scrWrite p (c.scr + c.pos) bs
          | none => s
        let x := s.tile t
        .on ((s.setTile t { x with unsettled := x.unsettled.filter (fun u => !(decide (c.scr + c.pos ≤ u.1) && decide (u.1 + u.2.1 ≤ c.scr + c.pos + n))) }).tdmaMoved
          t c.tag bs.length (bs.any Prod.snd))

/-- The pieces of a command moved until it is done, held up or ended. [DEDUCED, log 48] -/
def State.tdmaPieces (s : State) (t tag : Nat) : Nat → State
  | 0 => s
  | n + 1 =>
    match s.tdmaOf t tag, (s.tile t).run with
    | some c, some d =>
      if c.len ≤ c.pos then s
      else match s.tdmaPiece t d.ctx c with
        | .on s => s.tdmaPieces t tag n
        | .held s => s
    | _, _ => s

/-- Pieces that one command can have at most: 320 packets of 2 KiB and those that granules, windows and segments cut. -/
def tdmaMaxPieces : Nat := 512

/-- TDMA_COMPLETE (R72, R73, R193): the tile DMA moves a command's bytes, and the command ends once its writes have reached their
destination. A class below its floor marks the dispatch. -/
def execTdmaComplete (tile tag : Nat) (s : State) : Host.Outcome State Fault Refusal :=
  let x := s.tile tile
  match x.run, s.tdmaOf tile tag with
  | some d, some _ =>
    match x.wait with
    | .record _ _ _ _ => .next s
    | _ =>
      if !s.quadRuns (s.quadOf tile) then .next s
      else
        let s := if s.classBelow (s.quadOf tile) then s.updRun d.ring d.seq (fun (r : Run) => { r with oversub := true }) else s
        .next ((s.tdmaPieces tile tag tdmaMaxPieces).tdmaEnd tile tag)
  | _, _ => .next s

/-! ### Limits, failures and counters (R75, R77, R476) -/

/-- KERNEL_TIMEOUT (R77): the time limit of the dispatch that a tile runs has passed. -/
def execKernelTimeout (tile : Nat) (s : State) : Host.Outcome State Fault Refusal :=
  match (s.tile tile).run with
  | none => .next s
  | some d =>
    if d.limitUs = 0 ∨ s.now - (s.tile tile).startedAt < d.limitUs * 2 ^ 32 / 1000000 then .next s
    else
      let s := match s.slotOf tile with
        | some p => s.setSlot p { s.slot p with fault := putBits (s.slot p).fault 7 0 2 }
        | none => s
      .next (s.endKernel tile stKernelTimeout 0)

/-- TILE_FAILURE (R75): a tree residue mismatch (0x10), a parity error of the core (0x11) or of the tile DMA (0x13); another cause is
none that this command stands for. -/
def execTileFailure (tile cause : Nat) (s : State) : Host.Outcome State Fault Refusal :=
  if cause = 0x10 ∨ cause = 0x11 ∨ cause = 0x13 then .next (s.failTile tile cause) else .next s

/-- PERF_COUNTER_WRAP (R476): a performance counter that counts reaches 2^48. -/
def execPerfCounterWrap (tile which : Nat) (s : State) : Host.Outcome State Fault Refusal :=
  let l := tile / 16
  let i := tile % 16
  let f := if which = 0 then Reg.TILE_PERF0_count l i else Reg.TILE_PERF1_count l i
  if s.tileUnmapped tile || !s.on (Reg.TILE_CFG_perf_run l i) then .next s
  else .next (s.perfAdd tile (if which = 0 then 0 else 1) (2 ^ 48 - s.rd f))

end Sys2Proof.Machine
end

