-- ==== Sys2Proof/Machine/Compute.lean ====
section
/-! DEFINITION. Compute dispatch: a DISPATCH issued with its checks and its generation entry, and placed on its tiles (R129, R130, R224, R226, R229–R231, R235). -/
namespace Sys2Proof.Machine

/-- Fields of a DISPATCH body (R229). -/
def dispEntry (b : List Byte) : Nat := descBits b 8 19 0
def dispFirst (b : List Byte) : Nat := descBits b 8 42 32
def dispCount (b : List Byte) : Nat := descBits b 8 55 44
def dispSeed (b : List Byte) : Nat := descBits b 0x18 31 0
def dispLimit (b : List Byte) : Nat := descBits b 0x18 63 32

/-- Whether a stream word obeys R229: with gen 0 it names nothing. -/
def genWordOk (w : Nat) : Bool := bits w 63 41 == 0 && (genNamed w || bits w 39 0 == 0)

/-- The body check of DISPATCH (R226, R229). -/
def dispatchOk (s : State) (b : List Byte) : Bool :=
  descBits b 8 31 20 == 0 && descBits b 8 43 43 == 0 && descBits b 8 63 56 == 0 && decide (1 ≤ dispCount b ∧ dispCount b ≤ 2048) &&
  decide (dispFirst b + dispCount b ≤ s.glb.tileCount) && genWordOk (genWord b) && zeroFrom b 0x28 24

/-- The tiles of a dispatch. -/
def dispTiles (b : List Byte) : List Nat := (List.range (dispCount b)).map (· + dispFirst b)

/-- The word that gpos reads in a dispatch (R130). -/
def gposOf (g : GenEntry) : Nat := 2 ^ 63 + g.shardCount * 2 ^ 40 + g.shardIndex * 2 ^ 32 + ofBool g.full * 2 ^ 24 + g.pos

/-- Whether a compute descriptor waits at issue for an earlier one with a non-zero advance on the same entry (R129 step 4). -/
def State.genBusy (s : State) (b : List Byte) : Bool :=
  let w := genWord b
  genNamed w && genAdvance w != 0 &&
  s.rings.any (fun p => s.ringCls p.1 == clsCompute && p.2.issued.any (fun d => d.status.isNone && opIsCompute d.bytes &&
    genNamed (genWord d.bytes) && genAdvance (genWord d.bytes) != 0 && genCtx (genWord d.bytes) == genCtx w))

/-- What the generation entry of a compute descriptor gives at issue: the word of gpos, or the status that ends it (R129). [DEDUCED, log 50] -/
def State.genIssue (s : State) (r : Nat) (b : List Byte) : Nat ⊕ Nat :=
  let w := genWord b
  if !genNamed w then .inl 0
  else match s.gens.find? (fun p => p.1 == genCtx w) with
    | none => .inr stMalformed
    | some (_, g) =>
      if g.ctx ≠ s.ringCtx r then .inr stMalformed
      else if genAdvance w ≠ 0 ∧ (g.full = true ∨ g.limit < g.pos + genAdvance w) then .inr stPositionLimit
      else .inl (gposOf g)

/-- The current DISPATCH of a run started: it waits for its placement, or ends because a tile of its range is bound to a fenced slot
(R229, R231). [DEDUCED, log 50] -/
def State.startTiles (s : State) (r seq : Nat) : State :=
  match s.runOf r seq with
  | none => s
  | some d =>
    let tiles := dispTiles d.cur
    match tiles.find? s.tileFenced with
    | some t => (s.updRun r seq (fun (d : Run) => { d with errTile := t, errTiles := 1, tend := 0 })).finish r seq stTileLost none (t * 2 ^ 32 + 2 ^ 16)
    | none =>
      s.updRun r seq (fun (d : Run) => { d with placed := false, liveTiles := [], errTile := 0, errTiles := 0, tend := 0, first := none })

/-- A DISPATCH issued: its generation entry is captured first (R129). -/
def State.startDispatch (s : State) (r seq : Nat) : State :=
  match s.runOf r seq with
  | none => s
  | some d =>
    match s.genIssue r d.bytes with
    | .inr st => s.finish r seq st none 0
    | .inl g => (s.updRun r seq (fun (d : Run) => { d with aux := g })).startTiles r seq

/-- DISPATCH (R129, R226, R229). -/
def execDispatch (ring : Nat) (s : State) : Host.Outcome State Fault Refusal :=
  .next (s.issueHead ring (s.isOp ring 0x20) (fun s q => dispatchOk s q.bytes) (fun s q => s.genBusy q.bytes)
    (fun s seq => s.startDispatch ring seq))

/-- The DISPATCH of a ring that waits for its placement. -/
def State.unplaced (s : State) (r : Nat) : Option Run :=
  (s.ring r).issued.find? (fun d => !d.placed && d.status.isNone && (d.subs.isEmpty || d.ends.length == d.sub) && opOf d.cur == 0x20)

/-- Dispatches that one tile's queue holds (R230). -/
def tileQueue : Nat := 4

/-- A dispatch placed on every tile of its range, whose sleeping quads are woken (R224, R230). -/
def State.placeRun (s : State) (r : Nat) (d : Run) : State :=
  let b := d.cur
  let tiles := dispTiles b
  let q : TileDisp := { ring := r, seq := d.seq, ctx := s.ringCtx r, entry := dispEntry b, arg := descBits b 0x10 63 0, seed := dispSeed b,
                        limitUs := dispLimit b, gpos := d.aux }
  let s := tiles.foldl (fun (s : State) t => s.setTile t { s.tile t with queue := (s.tile t).queue ++ [q], users := insertNat q.ctx (s.tile t).users }) s
  let s := (tiles.map s.quadOf).eraseDups.foldl State.wakeQuad s
  s.updRun r d.seq (fun (d : Run) => { d with placed := true, liveTiles := tiles, allIssued := d.subs.isEmpty })

/-- DISPATCH_PLACEMENT (R229, R230, R235): the next dispatch of a ring placed once every queue of its range has room. A range that
has lost a tile since its issue ends with TILE_LOST (R76). [DEDUCED, log 50] -/
def execDispatchPlacement (ring : Nat) (s : State) : Host.Outcome State Fault Refusal :=
  if s.glb.stop ≠ 0 then .next s
  else match s.unplaced ring with
    | none => .next s
    | some d =>
      match (dispTiles d.cur).find? s.tileFenced with
      | some t => .next (s.finish ring d.seq stTileLost none (t * 2 ^ 32 + 2 ^ 16))
      | none =>
        if (dispTiles d.cur).all (fun t => decide ((s.tile t).queue.length < tileQueue)) then .next (s.placeRun ring d) else .next s

end Sys2Proof.Machine
end

