-- ==== Sys2Proof/Machine/HomeCmds.lean ====
section
/-! DEFINITION. What chiplets send to the home, and the home's limits (R258, R267, R275, R279–R286, R290). -/
namespace Sys2Proof.Machine

/-! ### Arrival at a site port (R258, R279) -/

/-- Whether a message is one that the hub takes: on the module of its entry, with nothing reserved. [DEDUCED, log 88] -/
def State.msgOk (s : State) (n : Nat) (m : SysMsg) : Bool := !m.bad && m.module == s.carrierOf n m.va

/-! ### Requests -/

/-- Whether a site may cache: its population record entry has coherent set (R40, R275). -/
def State.siteCoherent (s : State) (n : Nat) : Bool := ((s.popSite n).map PopSite.coherent).getD false

/-- A cacheable request refused under R275. [DEDUCED, log 88] -/
def State.refuseCache (s : State) (r : HomeReq) : State :=
  ((s.sat (Reg.COH_SITE_ERR_refused r.site) 1).refusal blkCoh r.site 6 r.va).refuseSite r

/-- Whether a request needs the right to write. -/
def HomeOp.writes : HomeOp → Bool
  | .rdOwn | .upgrade | .wrLine | .wrPartial | .wbDirty => true
  | _ => false

/-- A message from a chiplet on the module it names: the module leaves L1, and a message on the wrong module or with a reserved field
is discarded (R258, R268, R279). Nothing is heard of a site whose aperture is not open (R44, R48). -/
def State.siteHears (s : State) (n : Nat) (m : SysMsg) (refuse act : State → State) : State :=
  let s := s.leaveL1 n m.module
  if !s.siteOpen n then s
  else if !s.msgOk n m then refuse (s.misroutedAt n (m.va.getD 0))
  else act s

/-- Whether a piece of the home's work is a site's request under a tag. -/
def HomeFor.isReq (n tag : Nat) : HomeFor → Bool
  | .site r => r.site == n && r.tag == tag
  | _ => false

/-- A request under a tag that the hub has already seen (R259 step 5): one that is still served is not performed twice, and one that
was answered before the exchange receives the same answer again. None: the request is new. [DEDUCED, log 85] -/
def State.askedAgain (s : State) (r : HomeReq) : Option State :=
  let x := s.link r.site
  let old := (x.answered.find? (fun p => p.1 == r.tag)).filter (fun p => p.2.1 == r.op && p.2.2.1 == r.va)
  match s.home.txns.find? (fun t => t.why.isReq r.site r.tag) with
  | some t => some (if t.waitAck then (match old with | some p => s.toSite r.site r.va p.2.2.2 | none => s) else s)
  | none =>
    if s.home.waiting.any (HomeFor.isReq r.site r.tag) then some s
    else if x.replays.contains r.tag then
      match old with
      | some p => some ((s.setLink r.site { x with replays := x.replays.erase r.tag }).toSite r.site r.va p.2.2.2)
      | none => none
    else none

/-- A chiplet's request served: translated under its binding, checked, and brought to the home (R267, R275, R280, R285). [DEDUCED, log 87] -/
def State.siteServe (s : State) (m : SysMsg) (r : HomeReq) : State :=
  let n := r.site
  let op := r.op
  match s.siteXlat n r.va op.writes with
  | .fault _ _ => (s.siteRequestEvent n r.va).refuseSite r
  | .ok (.mem a coh) seg _ =>
    let r := { r with line := a / lineSize, seg := (seg.map Prod.fst).getD 0 }
    let s := s.siteAdmit n r.tag r.ctx r.seg
    let owns := op == .rdOwn || op == .upgrade
    if op.cacheable && !(coh && s.siteCoherent n) then s.refuseCache r
    else if owns && (s.own (a / granuleBytes)).bedrock then s.refuseCache r
    else if owns && !s.segPermits r.ctx r.seg .read then (s.siteRequestEvent n r.va).refuseSite r
    else s.homeAsk (.site r)
  | .ok _ _ _ =>
    match op with
    | .rdCurr => s.siteRequest n m.tag r.va lineSize false [] false
    | .wrLine => s.siteRequest n m.tag r.va lineSize true r.bytes r.poison
    | .wrPartial => s.siteRequest n m.tag r.va lineSize true r.bytes r.poison
    | .wbDirty => (s.sat (Reg.COH_SITE_RECALLS_stale_wb n) 1).answerChip r (if r.cxl then .writePull r.tag else .wbAck r.tag true)
    | .evictClean => s
    | .clFlush => s.grantComp r stI
    | _ => s.refuseCache r

/-- A chiplet's request (R258, R259, R267, R275, R280, R285). -/
def State.siteAsk (s : State) (n : Nat) (m : SysMsg) (op : HomeOp) (cxl goOnly : Bool) (bytes : List (Option Byte)) (poison : Bool) : State :=
  let r : HomeReq := { site := n, op := op, cxl := cxl, goOnly := goOnly, tag := m.tag, line := 0, va := m.va.getD 0 / lineSize * lineSize,
                       ctx := s.rd (siteCtx n), seg := 0, bytes := bytes, poison := poison }
  s.siteHears n m (fun s => s.refuseSite r) (fun s => (s.askedAgain r).getD (s.siteServe m r))

/-- The bytes of a whole line. -/
def wholeLine (bs : List Byte) : List (Option Byte) := ((bs ++ List.replicate lineSize 0).take lineSize).map some

/-- RDSHARED (R280). -/
def execRdshared (site : Nat) (m : SysMsg) (s : State) : Host.Outcome State Fault Refusal :=
  .next (s.siteAsk site m .rdShared false false [] false)
/-- RDOWN (R280). -/
def execRdown (site : Nat) (m : SysMsg) (s : State) : Host.Outcome State Fault Refusal :=
  .next (s.siteAsk site m .rdOwn false false [] false)
/-- UPGRADE (R280). -/
def execUpgrade (site : Nat) (m : SysMsg) (s : State) : Host.Outcome State Fault Refusal :=
  .next (s.siteAsk site m .upgrade false false [] false)
/-- RDCURR (R280). -/
def execRdcurr (site : Nat) (m : SysMsg) (s : State) : Host.Outcome State Fault Refusal :=
  .next (s.siteAsk site m .rdCurr false false [] false)
/-- WRLINE (R280). -/
def execWrline (site : Nat) (m : SysMsg) (bytes : List Byte) (poison : Bool) (s : State) : Host.Outcome State Fault Refusal :=
  .next (s.siteAsk site m .wrLine false false (wholeLine bytes) poison)
/-- WRPARTIAL (R280). -/
def execWrpartial (site : Nat) (m : SysMsg) (bytes : List (Option Byte)) (poison : Bool) (s : State) : Host.Outcome State Fault Refusal :=
  .next (s.siteAsk site m .wrPartial false false (bytes.take lineSize) poison)
/-- WBDIRTY (R280). -/
def execWbdirty (site : Nat) (m : SysMsg) (bytes : List Byte) (poison : Bool) (s : State) : Host.Outcome State Fault Refusal :=
  .next (s.siteAsk site m .wbDirty false false (wholeLine bytes) poison)
/-- EVICTCLEAN (R280). -/
def execEvictclean (site : Nat) (m : SysMsg) (s : State) : Host.Outcome State Fault Refusal :=
  .next (s.siteAsk site m .evictClean false false [] false)
/-- CXL_RDSHARED (R285): never GO-E. -/
def execCxlRdshared (site : Nat) (m : SysMsg) (s : State) : Host.Outcome State Fault Refusal :=
  .next (s.siteAsk site m .rdShared true true [] false)
/-- CXL_RDANY (R285). -/
def execCxlRdany (site : Nat) (m : SysMsg) (s : State) : Host.Outcome State Fault Refusal :=
  .next (s.siteAsk site m .rdShared true false [] false)
/-- CXL_RDOWN (R285). -/
def execCxlRdown (site : Nat) (m : SysMsg) (s : State) : Host.Outcome State Fault Refusal :=
  .next (s.siteAsk site m .rdOwn true false [] false)
/-- CXL_RDOWNNODATA (R285). -/
def execCxlRdownnodata (site : Nat) (m : SysMsg) (s : State) : Host.Outcome State Fault Refusal :=
  .next (s.siteAsk site m .upgrade true false [] false)
/-- CXL_RDCURR (R285). -/
def execCxlRdcurr (site : Nat) (m : SysMsg) (s : State) : Host.Outcome State Fault Refusal :=
  .next (s.siteAsk site m .rdCurr true false [] false)
/-- CXL_WRINV (R285). -/
def execCxlWrinv (site : Nat) (m : SysMsg) (bytes : List Byte) (poison : Bool) (s : State) : Host.Outcome State Fault Refusal :=
  .next (s.siteAsk site m .wrLine true false (wholeLine bytes) poison)
/-- CXL_CLEANEVICT (R285): CleanEvict and CleanEvictNoData. -/
def execCxlCleanevict (site : Nat) (m : SysMsg) (s : State) : Host.Outcome State Fault Refusal :=
  .next (s.siteAsk site m .evictClean true false [] false)
/-- CXL_DIRTYEVICT (R285). -/
def execCxlDirtyevict (site : Nat) (m : SysMsg) (bytes : List Byte) (poison : Bool) (s : State) : Host.Outcome State Fault Refusal :=
  .next (s.siteAsk site m .wbDirty true false (wholeLine bytes) poison)
/-- CXL_CLFLUSH (R285). -/
def execCxlClflush (site : Nat) (m : SysMsg) (s : State) : Host.Outcome State Fault Refusal :=
  .next (s.siteAsk site m .clFlush true false [] false)

/-! ### Acknowledgements and answers to snoops (R281, R283–R286) -/

/-- The grant to a site that waits for its Ack. -/
def State.grantOf (s : State) (n tag : Nat) : Option HomeTxn :=
  s.home.txns.find? (fun t => t.waitAck && (match t.why with | .site r => r.site == n && r.tag == tag | _ => false))

/-- SYSTINI_ACK (R283): the grant ends and the line is free. -/
def execSystiniAck (site : Nat) (m : SysMsg) (s : State) : Host.Outcome State Fault Refusal :=
  .next (s.siteHears site m (fun s => s) (fun s => match s.grantOf site m.tag with
    | some t => (s.endTxn t.id).homeKick
    | none => s))

/-- The transaction that waits for a snoop's answer, with the kind of the snoop. -/
def State.snoopOf (s : State) (n tag : Nat) : Option (HomeTxn × SnoopKind) :=
  s.home.txns.findSome? (fun t => (t.snoops.find? (fun x => x.1 == n && x.2.2 % 4096 == tag)).map (fun x => (t, x.2.1)))

/-- A snoop of a transaction answered, with the data it brought; the transaction goes on once none is left. Data for a line on a halted stack
are lost, and the transaction meets its poison (R288). -/
def State.snoopDone (s : State) (n tag : Nat) (t : HomeTxn) (data : Option (List PByte)) : State :=
  let data := if s.serves (t.line * lineSize) then data else none
  let s := s.updTxn t.id (fun (t : HomeTxn) =>
    let left := t.snoops.filter (fun (x : Nat × SnoopKind × Nat) => !(x.1 == n && x.2.2 % 4096 == tag))
    { t with snoops := left, data := (match data with | some d => some d | none => t.data), got := left.isEmpty })
  if s.home.txns.any (fun x => x.id == t.id && x.got) then (s.homeGot t.id).homeKick else s

/-- The filter entry of a snooped site after its answer (R280, R281). -/
def State.snoopEntry (s : State) (n line state : Nat) (kind : SnoopKind) : State :=
  if kind = SnoopKind.inv ∨ state = stI then s.dropEntry n line
  else s.moveEntry n line (if state = stS then .s else if state = stO then .o else .x)

/-- SNPRSP (R280, R281, R285): one answer to a snoop. An answer after its limit is discarded. Data that a CXL chiplet forwards as its
line goes to S are written to memory. -/
def execSnprsp (site : Nat) (m : SysMsg) (state : Nat) (data : Option (List Byte)) (poison : Bool) (s : State) : Host.Outcome State Fault Refusal :=
  .next (s.siteHears site m (fun s => s) (fun s => match s.snoopOf site m.tag with
    | none => s
    | some (t, kind) =>
      let d := data.map (fun bs => ((bs ++ List.replicate lineSize 0).take lineSize).map (fun (b : Byte) => (b, poison)))
      let s := match d with
        | some bs => if kind = SnoopKind.share ∧ s.on (Reg.SITE_LINK_STATUS_cxl site) = true ∧ s.serves (t.line * lineSize) = true then
            s.memPutMarked (siteClass site) (t.line * lineSize) bs else s
        | none => s
      ((s.snoopEntry site t.line state kind).snoopDone site m.tag t d).exchKick site))

/-- The place of a tag among the lines of an access to a site's aperture (R279). -/
def OutReq.lineOf (o : OutReq) (site tag : Nat) : Option Nat :=
  let i := (tag + 4096 - o.id % 4096) % 4096
  match o.tgt with
  | .site a => if siteOf a == site && (o.lines[i]?) == some none then some i else none
  | _ => none

/-- One line of an access to an aperture answered; the last answers the access with all of them. -/
def State.lineAnswered (s : State) (o : OutReq) (i : Nat) (line : List PByte) : State :=
  let ls := o.lines.set i (some line)
  let a := match o.tgt with | .site a => a | _ => 0
  if ls.any Option.isNone then
    { s with acc := { s.acc with outq := s.acc.outq.map (fun (x : OutReq) => if x.id = o.id then { x with lines := ls } else x) } }
  else if o.write then s.answerReq o.id (if (ls.flatMap (fun l => l.getD [])).any (·.2) then .error stPoison else .done)
  else s.answerReq o.id (.data (((ls.flatMap (fun l => l.getD [])).drop (a % lineSize)).take o.len))

/-- APRSP (R267, R279): the response to one line of a hub access to the aperture. Poison in a response ends the access's descriptor with POISON. [DEDUCED, log 74; DESIGN CHOICE, log 90] -/
def execAprsp (site : Nat) (m : SysMsg) (data : List Byte) (poison : Bool) (s : State) : Host.Outcome State Fault Refusal :=
  .next (s.siteHears site m (fun s => s) (fun s => match s.acc.outq.findSome? (fun o => (o.lineOf site m.tag).map (fun i => (o, i))) with
    | none => s
    | some (o, i) => (s.lineAnswered o i (((data ++ List.replicate lineSize 0).take lineSize).map (fun (b : Byte) => (b, poison)))).exchKick site))

/-! ### Limits (R284) -/

/-- An expiry counted, with at most one event per site in each 1 ms. [DESIGN CHOICE, log 89] -/
def State.homeLate (s : State) (n : Nat) : State :=
  let s := s.sat (Reg.COH_SITE_ERR_late n) 1
  let due := match s.home.lateAt.find? (fun p => p.1 == n) with
    | some (_, t) => decide (msUnits ≤ s.now - t)
    | none => true
  if due then { s with home := { s.home with lateAt := s.home.lateAt.put n s.now } }.event blkCoh 0x0A 0 n
    (s.rd Reg.COH_CFG_snoop_limit_us + n * 2 ^ 32) else s

/-- A line poisoned in memory, both sectors (R170). -/
def State.poisonLine (s : State) (line : Nat) : State := (s.poisonSector (2 * line)).poisonSector (2 * line + 1)

/-- SNOOP_LIMIT_EXPIRY (R284): the answer to a snoop is missing. [DESIGN CHOICE, log 89] -/
def execSnoopLimitExpiry (site tag : Nat) (s : State) : Host.Outcome State Fault Refusal :=
  match s.snoopOf site tag with
  | none => .next s
  | some (t, _) =>
    let dirty : Bool := match s.entryOf site t.line with | some e => e.state != LineState.s | none => false
    let s := s.homeLate site
    let s := if dirty then s.poisonLine t.line else s
    .next (((s.dropEntry site t.line).snoopDone site tag t none).exchKick site)

/-- ACK_LIMIT_EXPIRY (R284): a missing Ack is taken as given. [DESIGN CHOICE, log 89] -/
def execAckLimitExpiry (site tag : Nat) (s : State) : Host.Outcome State Fault Refusal :=
  match s.grantOf site tag with
  | none => .next s
  | some t => .next ((s.homeLate site).endTxn t.id).homeKick

/-- COH_COMMIT (R290). -/
def execCohCommit (v : Word) (s : State) : Host.Outcome State Fault Refusal :=
  if bits v.toNat 0 0 = 0 then .next s
  else
    let l := s.shf Reg.COH_CFG_snoop_limit_us
    if l < 50 ∨ 1000 < l then .next (s.commitRefused Reg.COH_COMMIT_STATUS 1)
    else .next ((s.commitReg Reg.COH_CFG).commitDone Reg.COH_COMMIT_STATUS)

/-! ### Credits (R184) -/

/-- CREDIT_SEND (R184): a source interface that regains a credit of a class for a controller sends the oldest request
that waits for it; the requests that wait at the home are tried again. -/
def execCreditSend (cls ctl : Nat) (s : State) : Host.Outcome State Fault Refusal :=
  let mine (r : MemReq) : Bool := r.cls == cls && (s.place r.addr).1 == ctl
  if !s.hasCredit cls ctl then .next s
  else match s.hbm.credWait.find? mine with
  | none => .next (s.homeRetry).homeKick
  | some r => .next (({ s with hbm := { s.hbm with credWait := s.hbm.credWait.erase r } }).memRequest r)

end Sys2Proof.Machine
end

