-- ==== Sys2Proof/Machine/GlbCmds.lean ====
section
/-! DEFINITION. The GLB commit, the duty fallback, and substitutions at quiescent points (R25–R27, R29, R76, R171, R242, R430, R484). -/
namespace Sys2Proof.Machine

/-- A fallback of a duty function (R26): its bit in duty_fallback and an event. -/
def State.fallback (s : State) (b : Nat) : State :=
  (s.wr Reg.DUTY_ACTIVE_duty_fallback (s.rd Reg.DUTY_ACTIVE_duty_fallback ||| 2 ^ b)).event blkGlb 0x0B 0 0 b

/-- GLB_COMMIT (R25, R27, R484): DUTY_MODE and GLB_DRV_INFO after their checks, at once. -/
def execGlbCommit (v : Word) (s : State) : Host.Outcome State Fault Refusal :=
  if bits v.toNat 0 0 = 0 then .next s
  else
    let t := s.rd Reg.HOST_STATUS_tdisp
    if s.shf Reg.DUTY_MODE_desc_translation = 1 ∧ (t = 1 ∨ t = 2) then .next (s.commitRefused Reg.GLB_COMMIT_STATUS 0)
    else if 2 < s.shf Reg.GLB_DRV_INFO_drv_api then .next (s.commitRefused Reg.GLB_COMMIT_STATUS 0x10)
    else
      let s := s.commitRegs [Reg.DUTY_MODE, Reg.GLB_DRV_INFO]
      let steer := s.on Reg.DUTY_MODE_time_discipline && !s.duty 9
      let s := { s with pwr := { s.pwr with missed := 0 }, time := { s.time with steerAt := if steer then s.now else s.time.steerAt } }
      .next ((s.wr Reg.DUTY_ACTIVE_duty_active (bits (s.reg Reg.DUTY_MODE) 9 0)).commitDone Reg.GLB_COMMIT_STATUS)

/-! ### Substitutions (R29, R76, R171, R242, R430) -/

/-- Whether a tile has a dispatch placed or running. -/
def State.tileInUse (s : State) (t : Nat) : Bool := (s.tile t).run.isSome || !(s.tile t).queue.isEmpty

/-- Whether the ring set of a context is idle (R242). -/
def State.ctxIdle (s : State) (c : Nat) : Bool :=
  (s.rings.all (fun p => s.ringCtx p.1 != c || s.ringIdle p.1)) &&
  s.tiles.all (fun p => !(p.2.run.toList ++ p.2.queue).any (fun q => q.ctx == c))

/-- The scratch of a slot zeroed. -/
def State.zeroScratch (s : State) (p : Nat) : State :=
  { s with scr := { s.scr with
    mem := Memory.clear s.scr.mem (p * 2 ^ 20) ((p + 1) * 2 ^ 20)
    poison := s.scr.poison.filter (fun w => w / 2 ^ 17 != p) } }

/-- What the cluster registers show of a logical cluster's spares. -/
def State.showSpares (s : State) (l : Nat) : State :=
  match s.noc.clusterMap[l]? with
  | some c => s.wr (Reg.CL_STATUS_spares l) (s.spareCount c)
  | none => s

/-- A logical tile bound to a spare of its cluster (R76, R430); the spare's scratch is zeroed first. [DESIGN CHOICE, log 181] -/
def State.rebindTile (s : State) (t : Nat) : State :=
  match s.clusterOf t, s.slotOf t with
  | some c, some old =>
    let s := { s with glb := { s.glb with rebindPending := s.glb.rebindPending.filter (· != t) } }
    let l := t / 16
    match s.spareSlot c with
    | none => ((s.wr (Reg.TILE_STATUS_no_spare l (t % 16)) 1).showTiles)
    | some p =>
      let s := s.zeroScratch p
      let s := { s with noc := { s.noc with slotMap := s.noc.slotMap.put t (p % 18) } }
      let s := ((s.wr (Reg.TILE_STATUS_phys_slot l (t % 16)) (p % 18)).wr (Reg.TILE_STATUS_awaiting_spare l (t % 16)) 0).tileState t 0
      ((s.showTiles).showSpares l).event blkTile 8 1 t (old + p * 2 ^ 32)
  | _, _ => s

/-- Pending rebinds of the tiles that a context uses and that no placed dispatch holds up, performed (R76). [DEDUCED, log 79] -/
def State.rebindAll (s : State) (c : Nat) : State :=
  (s.glb.rebindPending.filter (fun t => !s.tileInUse t && (s.tile t).users.contains c)).foldl State.rebindTile s

/-- The marked cells of granules that a context owns, without bedrock (R171). -/
def State.ownedCells (s : State) (c : Nat) : List Nat :=
  s.hbm.marked.filter (fun k => match s.granuleOfCell k with
    | some g => (s.own g).owner == c && !(s.own g).bedrock
    | none => c == 0)

/-- The substitutions of a context's quiescent point begun (R29, R242): rebinds now, and copies of the cells as long as their controllers have
quarry cells left; fetching for the context waits until they end. [DEDUCED, log 79] -/
def State.quiesce (s : State) (c : Nat) : State :=
  let armed := bit (s.reg Reg.GLB_SUBST_ARMED) c
  if !s.ctxIdle c || (s.duty 5 && !armed) then s
  else
    let s := s.wr ⟨Reg.GLB_SUBST_ARMED, c, c⟩ 0
    let s := s.rebindAll c
    let s := (s.ownedCells c).foldl (fun (s : State) k => s.startCopy c k) s
    if !s.hbm.copying.any (fun x => x.ctx == c) then s else { s with glb := { s.glb with armed := s.glb.armed ++ [64 + c] } }

/-- QUIESCENT_POINT (R242). -/
def execQuiescentPoint (ctx : Nat) (s : State) : Host.Outcome State Fault Refusal := .next (s.quiesce (ctx % 64))

/-- GLB_SUBST_CMD (R29): one context armed, or all; a context whose ring set is idle substitutes at once. [DEDUCED, log 79] -/
def execGlbSubstCmd (v : Word) (s : State) : Host.Outcome State Fault Refusal :=
  if !s.duty 5 then .next (s.regEvent 1 Reg.GLB_SUBST_CMD v.toNat)
  else
    let cs := if bit v.toNat 6 then List.range 64 else [bits v.toNat 5 0]
    let s := cs.foldl (fun (s : State) c => s.wr ⟨Reg.GLB_SUBST_ARMED, c, c⟩ 1) s
    .next (cs.foldl State.quiesce s)

/-- SUBSTITUTIONS_END (R171, R242): a context's copies have ended, and requests that waited for them go on. [DEDUCED, log 79] -/
def execSubstitutionsEnd (ctx : Nat) (s : State) : Host.Outcome State Fault Refusal :=
  let c := ctx % 64
  if !s.glb.armed.contains (64 + c) then .next s
  else
    let s := (s.hbm.copying.filter (fun x => x.ctx == c)).foldl State.endCopy s
    let s := { s with glb := { s.glb with armed := s.glb.armed.filter (· != 64 + c) } }
    let waiting := s.hbm.copyWait
    .next ((({ s with hbm := { s.hbm with copyWait := [] } }).resume waiting).homeRetry).homeKick

end Sys2Proof.Machine
end

