-- ==== Sys2Proof/Machine/SiteOps.lean ====
section
/-! DEFINITION. A site as others see it: its life, the fence of a site, its mailbox, and the record that names it (R35, R36, R43, R45–R47, R272). -/
namespace Sys2Proof.Machine

/-- SITE_PWREN driven. -/
def State.pwren (s : State) (n : Nat) (on : Bool) : State :=
  if (s.site n).pwren = on then s else (s.setSite n { s.site n with pwren := on }).send (.pin (.sitePwren n) on)

/-- A mailbox access ended (R272). -/
def State.endMailbox (s : State) (n code : Nat) : State :=
  if (s.link n).sb.isNone then s
  else ((s.setLink n { s.link n with sb := none }).wr (Reg.SITE_SB_STATUS_busy n) 0).wr (Reg.SITE_SB_STATUS_end n) code

/-- GB/s per direction of a module at a rate code (R31, R262). -/
def moduleGbps (n rate : Nat) : Nat :=
  let gt := match rate with | 0 => 8 | 1 => 12 | 2 => 16 | 3 => 24 | _ => 32
  if n < 4 then 8 * gt else 2 * gt

/-- The logical modules in service, with the physical module of each. -/
def State.serving (s : State) (n : Nat) : List (Nat × Nat) :=
  ((List.range 8).map (fun k => (k, s.lmapOf n k))).filter (fun p => p.2 != 15 && s.inService n p.2)

/-- Whether the spare is free. -/
def State.spareFree (s : State) (n : Nat) : Bool := n < 4 && s.modState n 8 == 10

/-- What SITE_REC_PEND offers for a module: RETRY at most three times, SPARE while one is free, HALF at full width, RETIRE (R269). -/
def State.recOffered (s : State) (n m : Nat) : Nat :=
  let x := s.module n m
  ofBool (decide (x.retries < 3)) + 2 * ofBool (s.spareFree n && m != 8) + 4 * ofBool (!s.on (Reg.SITE_MOD_STATUS_half n m)) + 8

/-- SITE_REC_PEND: the lowest physical module that awaits a choice. -/
def State.showPend (s : State) (n : Nat) : State :=
  match (List.range (siteModules n)).find? (fun m => s.modState n m == 11) with
  | none => s.setReg (Reg.SITE_REC_PEND n) 0
  | some m =>
    let x := s.module n m
    s.setReg (Reg.SITE_REC_PEND n) (2 ^ 31 + m * 2 ^ 24 + x.logical % 16 * 2 ^ 20 + x.reason * 2 ^ 16 + s.recOffered n m * 2)

/-- SITE_LINK_STATUS and SITE_REC_PEND brought up to date (R269, R273). -/
def State.showLink (s : State) (n : Nat) : State :=
  let ks := s.serving n
  let bw := ks.foldl (fun b p =>
    let g := moduleGbps n (s.rd (Reg.SITE_MOD_STATUS_rate n p.2))
    b + (if s.on (Reg.SITE_MOD_STATUS_half n p.2) then g / 2 else g)) 0
  let half := (ks.filter (fun p => s.on (Reg.SITE_MOD_STATUS_half n p.2))).length
  let s := ((s.wr (Reg.SITE_LINK_STATUS_bw_gbps n) bw).wr (Reg.SITE_LINK_STATUS_half_count n) half).wr (Reg.SITE_LINK_STATUS_in_service n) ks.length
  ((s.wr (Reg.SITE_LINK_STATUS_spare_free n) (ofBool (s.spareFree n))).wr (Reg.SITE_LINK_STATUS_version n)
    (if ks = [] then 0 else (s.module n (s.sbCarrier n)).version)).showPend n

/-- COH_STATUS brought up to date (R290). -/
def State.showCaching (s : State) (n : Nat) : State :=
  s.wr ⟨Reg.COH_STATUS, n, n⟩ (ofBool (s.siteState n == 5 && s.siteCoherent n))

/-- A site's modules powered down: a retired one stays retired, and loans stand until their module is back (R260, R261, R266). -/
def State.modulesOff (s : State) (n : Nat) : State :=
  let s := (List.range (siteModules n)).foldl (fun (s : State) m =>
    let s := s.setModule n m { ModSt.off with lent := (s.module n m).lent, logical := (s.module n m).logical }
    if s.modState n m = 12 then s else s.setModState n m 0) s
  (s.setLink n { LinkSt.off with mods := (s.link n).mods, sb := (s.link n).sb }).wr (Reg.SITE_SPREAD_EPOCH_moving n) 0 |>.showLink n

/-- Requests that are still on their way discarded wherever they wait; what the home has begun for them ends once its snoops have been
answered. -/
def State.forgetRequests (s : State) (mine : MemReq → Bool) : State :=
  let out (l : List MemReq) : List MemReq := l.filter (fun r => !mine r)
  let h := s.hbm
  let txns : List HomeTxn := s.home.txns.map (fun (t : HomeTxn) =>
    match t.why with | .mem r => if mine r then { t with why := .agent (.gone none) false t.line } else t | _ => t)
  { s with
    hbm := { h with srcWait := out h.srcWait, credWait := out h.credWait, copyWait := out h.copyWait, parked := out h.parked }
    noc := { s.noc with eject := s.noc.eject.filter (fun p => !mine p.req), held := out s.noc.held, stranded := out s.noc.stranded }
    home := { s.home with waiting := s.home.waiting.filter (fun w => match w with | .mem r => !mine r | _ => true), txns := txns } }

/-- Requests of a site that are still on their way discarded (R46). -/
def State.dropSiteRequests (s : State) (n : Nat) : State :=
  let own (w : AsmFor) : Bool := match w with | .site m _ => m == n | _ => false
  let gone := (s.acc.asms.filter (fun (x : Asm) => own x.who)).map Asm.id
  let mine (r : MemReq) : Bool := match r.port with | .site m => m == n | .part id _ => gone.contains id | _ => false
  let s := s.forgetRequests mine
  { s with
    acc := { s.acc with
      asms := s.acc.asms.filter (fun (x : Asm) => !own x.who)
      outq := s.acc.outq.filter (fun (o : OutReq) => match o.who with | .site m _ => m != n | _ => true) } }

/-- The hub's own requests to a site's aperture ended with SITE_DARK (R46). -/
def State.endAperture (s : State) (n : Nat) : State :=
  (s.acc.outq.filter (fun o => o.ans.isNone && (match o.tgt with | .site a => siteOf a == n | _ => false))).foldl
    (fun (s : State) (o : OutReq) => s.answerReq o.id (.error stSiteDark)) s

/-- A site's traffic ended: what a fence or a power cycle of an active site does to it (R46, R48, R286). -/
def State.cutSite (s : State) (n : Nat) : State :=
  let s := (s.homeDark n).dropSiteRequests n
  (s.endAperture n).endMailbox n 3

/-- Whether a site is populated and not dark, so that it draws power (R37). -/
def State.siteDraws (s : State) (n : Nat) : Bool :=
  decide (1 ≤ s.siteState n ∧ s.siteState n ≤ 5) && s.on (Reg.SITE_POP_populated n)

/-- Stacks that the fuses enable (R429). [DEDUCED, log 84] -/
def State.enabledStacks (s : State) : Nat := if s.fuse.part = Part.x672 then 7 else 8

/-- What R406 reserves from the envelope. [DEDUCED, log 84] -/
def State.reservedW (s : State) : Nat :=
  ((List.range 8).filter s.siteDraws).foldl (fun w n => w + s.rd (Reg.SITE_PWR_LIMIT_pwr_limit_w n)) 0 + 40 * s.enabledStacks + 100

/-- The hub die's share of power (R37, R406). -/
def State.shareW (s : State) : Nat := min 1450 (s.rd Reg.PWR_ENVELOPE_envelope_w - s.reservedW)

/-- PWR_SHARE brought up to date. -/
def State.showShare (s : State) : State :=
  (s.wr Reg.PWR_SHARE_reserved_w s.reservedW).wr Reg.PWR_SHARE_share_w s.shareW

/-- LOCK_INTERFACE answered once every site has been re-attested (R448, R310). -/
def State.lockCheck (s : State) : State :=
  if s.host.lockPend && (List.range 8).all (fun n => (s.site n).spdmStep == 0) then
    (({ s with host := { s.host with lockPend := false } }).wr Reg.HOST_STATUS_tdisp 1).send (.doe 0x103 [1])
  else s

/-- A site fenced with a cause (R36, R43–R46, R515): the first cause stays. [DESIGN CHOICE, log 82] -/
def State.fenceSite (s : State) (n cause : Nat) : State :=
  if s.siteDark n then s
  else
    let s := (s.wr (Reg.SITE_STATE_state n) 6).wr (Reg.SITE_STATE_cause n) cause
    let s := ((s.pwren n false).cutSite n).modulesOff n
    let s := s.setSite n { SiteSt.off with spdmStep := 0, pgood := (s.site n).pgood, readings := (s.site n).readings, digest := (s.site n).digest }
    let s := { s with glb := { s.glb with worn := true } }
    ((s.showCaching n).showShare.event blkSite 6 3 n cause).lockCheck

end Sys2Proof.Machine
end

