-- ==== Sys2Proof/Machine/Links.lean ====
section
/-! DEFINITION. Site links: training, the width check, the recovery ladder, the spread exchange, lending, the driver's choices and the mailbox (R256–R273). -/
namespace Sys2Proof.Machine

/-! ### The maps (R257–R260, R266) -/

/-- The maps in force: the logical map as one word and the 64 entries. -/
def State.mapsInForce (s : State) (n : Nat) : Nat × List Nat :=
  (s.reg (Reg.SITE_LMAP n), (List.range 64).map (s.spreadOf n))

/-- The maps once every exchange under way and waiting has ended. -/
def State.mapsPlanned (s : State) (n : Nat) : Nat × List Nat :=
  match (s.link n).next.getLast?, (s.link n).exch with
  | some p, _ => p
  | none, some e => (e.lmap, e.entries)
  | none, none => s.mapsInForce n

/-- An exchange begun: from now the entries whose carrier changes are held, and SPREAD goes out once the hub's own transactions on
them are complete, where the old carrier is up (R259 steps 1 to 3). [DEDUCED, log 85] -/
def State.beginExch (s : State) (n : Nat) (m : Nat × List Nat) : State :=
  ((s.setLink n { s.link n with exch := some { lmap := m.1, entries := m.2, sent := 0 } }).wr (Reg.SITE_SPREAD_EPOCH_moving n) 1).exchKick n

/-- New maps asked for: exchanges run one after another. [DEDUCED, log 85] -/
def State.changeMaps (s : State) (n : Nat) (m : Nat × List Nat) : State :=
  if m = s.mapsPlanned n then s
  else match (s.link n).exch with
    | none => s.beginExch n m
    | some _ => s.setLink n { s.link n with next := (s.link n).next ++ [m] }

/-- The load of a logical module: its entries, doubled at half width (R260). -/
def State.loadOf (s : State) (n : Nat) (m : Nat × List Nat) (k : Nat) : Nat :=
  (m.2.filter (· == k)).length * (if s.on (Reg.SITE_MOD_STATUS_half n (lmapGet m.1 k)) then 2 else 1)

/-- The in-service logical module with the least load, other than one (R260). -/
def State.leastLoaded (s : State) (n : Nat) (m : Nat × List Nat) (not_ : Nat) : Option Nat :=
  ((List.range 8).filter (fun k => k != not_ && lmapGet m.1 k != 15 && s.inService n (lmapGet m.1 k))).foldl
    (fun (b : Option Nat) k => match b with
      | none => some k
      | some j => if s.loadOf n m k < s.loadOf n m j then some k else b) none

/-- Entries moved, in ascending order, each to the least loaded other module (R260, R266). -/
def State.moveEntries (s : State) (n : Nat) (m : Nat × List Nat) (from_ : Nat) (es : List Nat) : Nat × List Nat :=
  es.foldl (fun (m : Nat × List Nat) e => match s.leastLoaded n m from_ with
    | some k => (m.1, m.2.set e k)
    | none => m) m

/-- The entries that name a logical module, ascending. -/
def entriesOf (m : Nat × List Nat) (k : Nat) : List Nat := (m.2.zipIdx.filter (fun p => p.1 == k)).map (·.2)

/-- A module's entries lent (R260). -/
def State.lend (s : State) (n m : Nat) : State :=
  let x := s.module n m
  let p := s.mapsPlanned n
  let es := entriesOf p x.logical
  if x.logical = 15 ∨ es = [] ∨ x.lent ≠ [] then s
  else
    let q := s.moveEntries n p x.logical es
    (s.setModule n m { x with lent := es }).changeMaps n q

/-- Lent entries moved back (R260). -/
def State.unlend (s : State) (n m : Nat) : State :=
  let x := s.module n m
  if x.lent = [] then s
  else
    let p := s.mapsPlanned n
    (s.setModule n m { x with lent := [] }).changeMaps n (p.1, x.lent.foldl (fun l e => l.set e x.logical) p.2)

/-- Every second entry of a logical module at half width moved away (R266). -/
def State.halveEntries (s : State) (n k : Nat) : State :=
  let p := s.mapsPlanned n
  let es := ((entriesOf p k).zipIdx.filter (fun e => e.2 % 2 == 1)).map (·.1)
  s.changeMaps n (s.moveEntries n p k es)

/-- A logical module retired: its entries move, and the last one's retirement fences the site (R265, R266). -/
def State.retireLogical (s : State) (n k : Nat) : State :=
  if k = 15 then s
  else
    let p := s.mapsPlanned n
    let q := s.moveEntries n p k (entriesOf p k)
    let l := lmapPut q.1 k 15
    if (List.range 8).all (fun j => lmapGet l j == 15) then s.fenceSite n 0x0A else s.changeMaps n (l, q.2)

/-! ### Steps of a module -/

/-- The event of a recovery step (R265, R466): the step of the ladder in the low half of its detail, the physical module in the high
half. [DESIGN CHOICE, log 82] -/
def State.stepEvent (s : State) (n m step : Nat) : State := s.event blkSite 9 0 n (step + m * 2 ^ 32)

/-- A physical module retired with a cause (R261, R265). [DESIGN CHOICE, log 82] -/
def State.retireModule (s : State) (n m cause : Nat) : State :=
  let s := (s.setModState n m 12).wr (Reg.SITE_MOD_STATUS_retire_cause n m) cause
  let s := s.wr (Reg.SITE_MOD_STATUS_logical n m) 15
  let s := { s with glb := { s.glb with worn := true } }
  (s.showLink n).event blkSite 7 3 n cause

/-- A module retrains: its entries are held from now (R260, R265). -/
def State.retrain (s : State) (n m state : Nat) : State :=
  let x := s.module n m
  let s := s.setModule n m { x with heldAt := some (x.heldAt.getD s.now), assist := some (x.assist.getD (s.duty 4)) }
  ((s.setModState n m state).sat (Reg.SITE_MOD_STATUS_retrains n m) 1).showLink n

/-- The spare takes up the logical module of another (R265 step 2). -/
def State.useSpare (s : State) (n m cause : Nat) : State :=
  let x := s.module n m
  let s := (s.retireModule n m cause).setModule n m { x with ladder := .spare, heldAt := none, lent := [] }
  let y := s.module n 8
  ((s.setModule n 8 { y with logical := x.logical, heldAt := x.heldAt, lent := x.lent, assist := x.assist }).retrain n 8 9).stepEvent n m 2

/-- A module retrains at half width, from the fastest rate allowed (R262, R265 step 3). -/
def State.halfStep (s : State) (n m : Nat) : State :=
  let s := s.setModule n m { s.module n m with ladder := .half }
  let s := (s.wr (Reg.SITE_MOD_STATUS_half n m) 1).wr (Reg.SITE_MOD_STATUS_retire_cause n m) 0
  let s := (s.wr (Reg.SITE_MOD_STATUS_rate n m) (s.rd (Reg.SITE_LINK_CFG_max_rate n))).wr (Reg.SITE_MOD_STATUS_mismatches n m) 0
  (s.retrain n m 4).stepEvent n m 3

/-- A module and its logical module retired (R265 step 4). -/
def State.endModule (s : State) (n m cause : Nat) : State :=
  let k := (s.module n m).logical
  ((s.retireModule n m cause).stepEvent n m 4).retireLogical n k

/-- The hardware-mode step at a decision (R264, R265): reason 1 repair spent, 2 retrain failed, 3 second width mismatch, 4 spare failed. -/
def State.ladderStep (s : State) (n m reason : Nat) : State :=
  let x := s.module n m
  if n < 4 ∧ m = 8 ∧ x.logical = 15 then s.retireModule n m (if reason = 3 then 2 else 3)
  else if reason = 3 then (if s.spareFree n && m != 8 then s.useSpare n m 2 else s.endModule n m 2)
  else if reason = 4 then s.halfStep n m
  else if x.ladder = LadderStep.half then s.endModule n m 1
  else if s.spareFree n && m != 8 then s.useSpare n m 1
  else if s.on (Reg.SITE_MOD_STATUS_half n m) then s.endModule n m 1
  else s.halfStep n m

/-- A decision point (R265, R269): the hub takes its step, or the module waits for the driver; the event of the wait has the step 16
plus the reason. [DESIGN CHOICE, log 82] -/
def State.decide_ (s : State) (n m reason : Nat) : State :=
  let assist := (s.module n m).assist.getD (s.duty 4)
  if assist ∧ ¬(n < 4 ∧ m = 8 ∧ (s.module n m).logical = 15) then
    let s := s.setModule n m { s.module n m with reason := reason, awaitAt := s.now, assist := some assist }
    (((s.setModState n m 11).lend n m).showLink n).stepEvent n m (16 + reason)
  else s.ladderStep n m reason

/-- The module that waits while the spare trains for it. -/
def State.spareFor (s : State) (n : Nat) : Option Nat :=
  (List.range 8).find? (fun m => (s.module n m).ladder == LadderStep.spare)

/-- The spare fails while it takes up a logical module: it retires with cause 4, and the original goes on (R265). -/
def State.spareFails (s : State) (n : Nat) : State :=
  let y := s.module n 8
  let s := s.retireModule n 8 4
  let s := s.setModule n 8 ModSt.off
  match s.spareFor n with
  | none => s
  | some m =>
    let s := s.setModule n m { s.module n m with ladder := .none, logical := y.logical, heldAt := y.heldAt, lent := y.lent, assist := y.assist }
    s.decide_ n m 4

/-- Training of a module has failed (R262, R264, R265). -/
def State.moduleFails (s : State) (n m reason : Nat) : State :=
  if m = 8 ∧ n < 4 ∧ (s.spareFor n).isSome then s.spareFails n else s.decide_ n m reason

/-! ### Training (R261, R262, R264) -/

/-- Whether a module is one of the site's. -/
def moduleOk (n m : Nat) : Bool := decide (n < 8 ∧ m < siteModules n)

/-- Whether a module searches for a rate: every training but a retrain and the full retrain of the width check, which keep the
module's rate (R262, R264). -/
def State.searches (s : State) (n m : Nat) : Bool :=
  decide (s.modState n m = 3 ∨ s.modState n m = 4) && s.rd (Reg.SITE_MOD_STATUS_mismatches n m) == 0

/-- MODULE_TRAINED (R256, R262, R264, R265): training ends at a rate, with lanes repaired, and the width check begins. A retrain keeps
the module's rate and width. An end with an unsupported version, or above the rate that is tried, is a failed training. -/
def execModuleTrained (n m rate repaired version : Nat) (s : State) : Host.Outcome State Fault Refusal :=
  let st := s.modState n m
  if !moduleOk n m || !(decide (3 ≤ st ∧ st ≤ 5) || st == 9) then .next s
  else if !(version == 1 || version == 2) || decide (4 < rate) || (s.searches n m && decide (s.rd (Reg.SITE_MOD_STATUS_rate n m) < rate)) then .next (s.moduleFails n m 2)
  else
    let s := if s.searches n m then s.wr (Reg.SITE_MOD_STATUS_rate n m) rate else s
    let s := s.wr (Reg.SITE_MOD_STATUS_repairs n m) (min 15 (s.rd (Reg.SITE_MOD_STATUS_repairs n m) + repaired))
    let s := s.setModule n m { s.module n m with version := version }
    .next ((s.setModState n m 6).sideband n (some m) (.widthCheck m))

/-- RATE_ATTEMPT_TIMEOUT (R32, R262, R264, R265): a search goes to the next slower rate, and a module that trains at no rate, fails a
retrain or never has its sideband up goes down the ladder; `spent` says that lane repair is spent. -/
def execRateAttemptTimeout (n m : Nat) (spent : Bool) (s : State) : Host.Outcome State Fault Refusal :=
  let st := s.modState n m
  if !moduleOk n m || !(decide (2 ≤ st ∧ st ≤ 5) || st == 9) then .next s
  else
    let r := s.rd (Reg.SITE_MOD_STATUS_rate n m)
    if s.searches n m && r != 0 then .next ((s.wr (Reg.SITE_MOD_STATUS_rate n m) (r - 1)).setModState n m 4)
    else .next (s.moduleFails n m (if spent then 1 else 2))

/-- A module back in service: its entries return, a spare takes its logical module over, a module at half width gives half away
(R259, R260, R264–R266). -/
def State.modulePasses (s : State) (n m : Nat) : State :=
  let x := s.module n m
  let s := s.wr (Reg.SITE_MOD_STATUS_mismatches n m) 0
  let s := s.setModule n m { x with heldAt := none, retries := 0, reason := 0, ladder := .none, assist := none }
  if n < 4 ∧ m = 8 ∧ x.logical = 15 then (s.setModState n m 10).showLink n
  else
    let s := ((s.setModState n m 7).wr (Reg.SITE_MOD_STATUS_logical n m) x.logical)
    let p := s.mapsPlanned n
    let s := s.changeMaps n (lmapPut p.1 x.logical m, p.2)
    let s := match (if n < 4 ∧ m = 8 then s.spareFor n else none) with
      | some o => s.setModule n o { s.module n o with ladder := .none, logical := 15 }
      | none => s
    let s := s.unlend n m
    ((if x.ladder = LadderStep.half then s.halveEntries n x.logical else s).showLink n).releaseHeld n

/-- A mismatch of the width check, or its silence (R264). -/
def State.mismatch (s : State) (n m : Nat) : State :=
  let k := s.rd (Reg.SITE_MOD_STATUS_mismatches n m)
  let s := s.sideband n (some m) (.moduleReset m)
  if 2 ≤ k then s.moduleFails n m 3
  else ((s.wr (Reg.SITE_MOD_STATUS_mismatches n m) (k + 1)).retrain n m 3).stepEvent n m 1

/-- WIDTH_CHECK_ANSWER (R264): the chiplet's trained width, rate, version and lane map against the hub's. -/
def execWidthCheckAnswer (n m : Nat) (half : Bool) (rate version : Nat) (lanesMatch : Bool) (s : State) : Host.Outcome State Fault Refusal :=
  if !moduleOk n m || s.modState n m != 6 then .next s
  else if half = s.on (Reg.SITE_MOD_STATUS_half n m) ∧ rate = s.rd (Reg.SITE_MOD_STATUS_rate n m) ∧ version = (s.module n m).version ∧ lanesMatch = true then
    .next (s.modulePasses n m)
  else .next (s.mismatch n m)

/-- WIDTH_CHECK_TIMEOUT (R264). -/
def execWidthCheckTimeout (n m : Nat) (s : State) : Host.Outcome State Fault Refusal :=
  if !moduleOk n m || s.modState n m != 6 then .next s else .next (s.mismatch n m)

/-- MODULE_RETRAIN (R265): replays and failed flits of the last second counted; past the limit, or with a flit that failed three times,
the module retrains. -/
def execModuleRetrain (n m replays crcErrors : Nat) (third : Bool) (s : State) : Host.Outcome State Fault Refusal :=
  if !moduleOk n m || !s.inService n m then .next s
  else
    let s := (s.sat (Reg.SITE_MOD_ERR_replays n m) replays).sat (Reg.SITE_MOD_ERR_crc_errors n m) crcErrors
    if third || decide (s.rd (Reg.SITE_LINK_CFG_retry_limit n) < replays) then .next ((s.retrain n m 9).stepEvent n m 1) else .next s

/-- A module's link down (R265, R268). -/
def State.moduleDown (s : State) (n m : Nat) : State :=
  if s.inService n m || s.modState n m == 6 || s.modState n m == 10 then (s.retrain n m 9).stepEvent n m 1 else s

/-- MODULE_LINK_DOWN (R264, R265, R268). -/
def execModuleLinkDown (n m : Nat) (s : State) : Host.Outcome State Fault Refusal :=
  if moduleOk n m then .next (s.moduleDown n m) else .next s

/-- MODULE_L1_ENTRY (R268): a module idle for 10 µs. -/
def execModuleL1Entry (n m : Nat) (s : State) : Host.Outcome State Fault Refusal :=
  if moduleOk n m ∧ s.modState n m = 7 ∧ s.on (Reg.SITE_LINK_CFG_l1_enable n) = true then .next (s.setModState n m 8) else .next s

/-! ### The exchange (R259) -/

/-- Transactions of the hub's own on moved entries issued again on their new modules, and the tags of answered requests on them
marked, so that one that the chiplet issues again is not performed twice (R259 step 5). -/
def State.reissue (s : State) (n : Nat) (moved : Nat → Bool) : State :=
  let x := s.link n
  let s := s.setLink n { x with replays := (x.answered.filter (fun p => moved (spreadEntry p.2.2.1))).map (·.1) }
  ((s.siteOpenMsgs n).filter (fun p => moved (spreadEntry p.1))).foldl (fun (s : State) (p : Nat × SiteMsg) => s.toSite n p.1 p.2) s

/-- An attested site opened: ACTIVE, with its aperture and coherence (R44, R262). -/
def State.finishOpen (s : State) (n : Nat) : State :=
  (((s.setSite n { s.site n with aperture := true, rejoin := false, opening := false }).wr (Reg.SITE_STATE_state n) 5).showCaching n).showLink n

/-- SPREAD_ANSWER (R259 steps 4 to 6): the new maps come into force. -/
def execSpreadAnswer (n epoch : Nat) (s : State) : Host.Outcome State Fault Refusal :=
  match (s.link n).exch with
  | none => .next s
  | some e =>
    let want := (s.rd (Reg.SITE_SPREAD_EPOCH_epoch n) + 1) % 256
    if epoch ≠ want ∨ e.sent = 0 then .next s
    else
      let old := s.mapsInForce n
      let down := (List.range 64).filter (fun i =>
        let p := lmapGet old.1 ((old.2[i]?).getD 0)
        ((old.2[i]?).getD 0 != (e.entries[i]?).getD 0 || p != lmapGet e.lmap ((e.entries[i]?).getD 0)) && !s.inService n p)
      let s := (s.setReg (Reg.SITE_LMAP n) e.lmap).wr (Reg.SITE_SPREAD_EPOCH_epoch n) want
      let s := (List.range 4).foldl (fun (s : State) i => s.setReg (Reg.SITE_SPREAD n i)
        (((e.entries.drop (16 * i)).take 16).zipIdx.foldl (fun v (p : Nat × Nat) => v + p.1 * 16 ^ p.2) 0)) s
      let s := (s.setLink n { s.link n with exch := none }).wr (Reg.SITE_SPREAD_EPOCH_moving n) 0
      let s := ((s.reissue n (fun i => down.contains i)).showLink n).releaseHeld n
      match (s.link n).next with
      | [] => .next (if (s.site n).opening then s.finishOpen n else s)
      | m :: t => .next ((s.setLink n { s.link n with next := t }).beginExch n m)

/-- SPREAD_TIMEOUT (R259): sent again twice, then the site is fenced with cause 0x02. -/
def execSpreadTimeout (n : Nat) (s : State) : Host.Outcome State Fault Refusal :=
  match (s.link n).exch with
  | none => .next s
  | some e =>
    if e.sent = 0 then .next (s.exchKick n)
    else if e.sent < 3 then .next ((s.setLink n { s.link n with exch := some { e with sent := e.sent + 1 } }).sendSpread n)
    else .next (s.fenceSite n 2)

/-- Time units of 150 µs, rounded up. -/
def lendUnits : Nat := 644246

/-- ENTRY_LEND (R260): a module has not been back in service for 150 µs. -/
def execEntryLend (n m : Nat) (s : State) : Host.Outcome State Fault Refusal :=
  match (s.module n m).heldAt with
  | none => .next s
  | some t => if !moduleOk n m || s.inService n m || decide (s.now - t < lendUnits) then .next s else .next (s.lend n m)

/-! ### The driver's choices (R269) -/

/-- A choice of SITE_REC_CMD for the pending module, if it is on offer; any other write is discarded with an event. -/
def State.recChoice (s : State) (n m op : Nat) (f : State → State) : State :=
  let p := s.reg (Reg.SITE_REC_PEND n)
  if bit p 31 && bits p 27 24 == m && bit (bits p 4 1) (op - 1) then (f s).showLink n
  else s.regEvent 1 (Reg.SITE_REC_CMD n) (op + m % 16 * 2 ^ 8)

/-- SITE_REC_RETRY (R269). -/
def execSiteRecRetry (n m : Nat) (s : State) : Host.Outcome State Fault Refusal :=
  .next (s.recChoice n m 1 (fun s =>
    let x := s.module n m
    (s.setModule n m { x with retries := x.retries + 1 }).retrain n m (if x.reason = 3 then 3 else 9)))

/-- SITE_REC_SPARE (R269). -/
def execSiteRecSpare (n m : Nat) (s : State) : Host.Outcome State Fault Refusal :=
  .next (s.recChoice n m 2 (fun s => s.useSpare n m (if (s.module n m).reason = 3 then 2 else 1)))

/-- SITE_REC_HALF (R269). -/
def execSiteRecHalf (n m : Nat) (s : State) : Host.Outcome State Fault Refusal := .next (s.recChoice n m 3 (fun s => s.halfStep n m))

/-- SITE_REC_RETIRE (R269): retired by the driver, cause 5. -/
def execSiteRecRetire (n m : Nat) (s : State) : Host.Outcome State Fault Refusal := .next (s.recChoice n m 4 (fun s => s.endModule n m 5))

/-- SITE_REC_RETRAIN (R262, R269): a fresh search for a rate on an ACTIVE or L1 module. -/
def execSiteRecRetrain (n m : Nat) (s : State) : Host.Outcome State Fault Refusal :=
  if !moduleOk n m || !s.inService n m then .next (s.regEvent 1 (Reg.SITE_REC_CMD n) (5 + m % 16 * 2 ^ 8))
  else .next (((s.wr (Reg.SITE_MOD_STATUS_rate n m) (s.rd (Reg.SITE_LINK_CFG_max_rate n))).retrain n m 4).stepEvent n m 1)

/-- SITE_AWAIT_TIMEOUT (R269): 100 ms without a choice; the hub takes the hardware-mode step. -/
def execSiteAwaitTimeout (n m : Nat) (s : State) : Host.Outcome State Fault Refusal :=
  if !moduleOk n m || s.modState n m != 11 || decide (s.now - (s.module n m).awaitAt < 100 * msUnits) then .next s
  else .next ((s.fallback 4).ladderStep n m (s.module n m).reason |>.showLink n)

/-! ### The mailbox (R272) -/

/-- A mailbox access started; a go while busy is discarded with an event, and one at a dark site ends with code 3. -/
def State.startMailbox (s : State) (n : Nat) (size8 write : Bool) : State :=
  let ctl := 1 + 2 * ofBool write + 4 * ofBool size8
  if (s.link n).sb.isSome then s.regEvent 1 (Reg.SITE_SB_CTL n) ctl
  else
    let a := s.rd (Reg.SITE_SB_ADDR_addr n)
    let m := s.rd (Reg.SITE_SB_ADDR_module n)
    let size := if size8 then 8 else 4
    let s := (s.setLink n { s.link n with sb := some (write, a, size) }).wr (Reg.SITE_SB_STATUS_busy n) 1
    if s.siteDark n then s.endMailbox n 3
    else s.sideband n (if m = 15 then none else some m) (.access a size (if write then some (s.reg (Reg.SITE_SB_DATA n)) else none))

/-- SB_READ (R272). -/
def execSbRead (n : Nat) (size8 : Bool) (s : State) : Host.Outcome State Fault Refusal := .next (s.startMailbox n size8 false)

/-- SB_WRITE (R272). -/
def execSbWrite (n : Nat) (size8 : Bool) (s : State) : Host.Outcome State Fault Refusal := .next (s.startMailbox n size8 true)

/-- SB_RESPONSE (R272). -/
def execSbResponse (n : Nat) (refused : Bool) (data : DWord) (s : State) : Host.Outcome State Fault Refusal :=
  match (s.link n).sb with
  | none => .next s
  | some (write, _, size) =>
    let s := if write || refused then s else s.setReg (Reg.SITE_SB_DATA n) (data.toNat % 2 ^ (8 * size))
    .next (s.endMailbox n (if refused then 2 else 1))

end Sys2Proof.Machine
end

