-- ==== Sys2Proof/Machine/SiteCmds.lean ====
section
/-! DEFINITION. A site's power, temperature, bring-up, identity and attestation (R35–R50, R449). -/
namespace Sys2Proof.Machine

/-! ### Power (R36, R50) -/

/-- A power-cap message to a site (R36, R43). -/
def State.powerCap (s : State) (n watts : Nat) : State :=
  (s.sideband n none (.powerCap watts)).sat (Reg.SITE_PWR_STATUS_cap_events n) 1

/-- The power-cap message by which alone an unmonitored site learns its limit (R36). No rule gives its moment: the model sends it when the site's
sideband comes up, when its telemetry is first found missing, and at each change of the limit in force. [DESIGN CHOICE, log 172] -/
def State.capNotice (s : State) (n : Nat) : State :=
  if s.on (Reg.SITE_PWR_STATUS_unmonitored n) && !(s.site n).sbUp.isEmpty then s.powerCap n (s.rd (Reg.SITE_PWR_LIMIT_pwr_limit_w n)) else s

/-- The site's committed limit switched at its safe point, the next telemetry read (R50). -/
def State.takeLimit (s : State) (n : Nat) : State :=
  match (s.site n).pendLimit with
  | none => s
  | some w =>
    let s := ((s.setSite n { s.site n with pendLimit := none }).wr (Reg.SITE_PWR_LIMIT_pwr_limit_w n) w).showShare
    s.capNotice n

/-- SITE_POWER_TELEMETRY (R36, R405): one 1 ms reading of a site's rails, or none where the board offers no telemetry. [DESIGN CHOICE, log 62; DESIGN CHOICE, log 82] -/
def execSitePowerTelemetry (n : Nat) (watts : Option Nat) (s : State) : Host.Outcome State Fault Refusal :=
  if 8 ≤ n ∨ s.siteDraws n = false then .next s
  else
    let s := s.takeLimit n
    match watts with
    | none =>
      if s.on (Reg.SITE_PWR_STATUS_unmonitored n) then .next s
      else
        let s := (s.wr (Reg.SITE_PWR_STATUS_unmonitored n) 1).eventOpen blkSite 0x0D 0 n
        .next (s.capNotice n)
    | some w =>
      let x := s.site n
      let l := x.readings ++ [w]
      let full := decide (100 ≤ l.length)
      let s := if full then s.wr (Reg.SITE_PWR_STATUS_power_w n) (l.foldl (· + ·) 0 / l.length / 5 * 5) else s
      let above := decide (s.rd (Reg.SITE_PWR_LIMIT_pwr_limit_w n) < w)
      let o := if !above then 0 else if x.overrun = 0 then 1 else x.overrun
      .next (s.setSite n { x with readings := if full then [] else l, overrun := o })

/-- POWER_OVERRUN_TIMEOUT (R36 step 2): 10 ms over the limit. [DESIGN CHOICE, log 10] -/
def execPowerOverrunTimeout (n : Nat) (s : State) : Host.Outcome State Fault Refusal :=
  if 8 ≤ n ∨ (s.site n).overrun ≠ 1 then .next s
  else .next ((s.setSite n { s.site n with overrun := 2 }).powerCap n (s.rd (Reg.SITE_PWR_LIMIT_pwr_limit_w n)))

/-- POWER_CAP_DEADLINE (R36 step 3): still over the limit 10 ms after the message. -/
def execPowerCapDeadline (n : Nat) (s : State) : Host.Outcome State Fault Refusal :=
  if 8 ≤ n ∨ (s.site n).overrun ≠ 2 then .next s else .next (s.fenceSite n 6)

/-- SITE_COMMIT (R50, R273): the power field waits for the next telemetry read, the link fields apply at once. -/
def execSiteCommit (n : Nat) (v : Word) (s : State) : Host.Outcome State Fault Refusal :=
  if 8 ≤ n ∨ bits v.toNat 0 0 = 0 then .next s
  else
    let w := s.shf (Reg.SITE_PWR_LIMIT_pwr_limit_w n)
    if s.rd (Reg.SITE_POP_power_limit_w n) < w then .next (s.commitRefused (Reg.SITE_COMMIT_STATUS n) 0x01)
    else if 4 < s.shf (Reg.SITE_LINK_CFG_max_rate n) then .next (s.commitRefused (Reg.SITE_COMMIT_STATUS n) 0x10)
    else if s.shf (Reg.SITE_LINK_CFG_retry_limit n) = 0 then .next (s.commitRefused (Reg.SITE_COMMIT_STATUS n) 0x11)
    else
      let s := (s.commitReg (Reg.SITE_LINK_CFG n)).setSite n { s.site n with pendLimit := some w }
      .next (s.commitDone (Reg.SITE_COMMIT_STATUS n))

/-! ### Temperature (R43) -/

/-- TEMPERATURE_REQUEST (R43): every 10 ms, to every site whose sideband is up. -/
def execTemperatureRequest (s : State) : Host.Outcome State Fault Refusal :=
  .next (((List.range 8).filter (fun n => !s.siteDark n && !(s.site n).sbUp.isEmpty)).foldl
    (fun (s : State) n => (s.setSite n { s.site n with tempAsked := true }).sideband n none .temperature) s)

/-- A site's thermal trip (R43). -/
def State.siteTrip (s : State) (n : Nat) : State := s.fenceSite n 8

/-- TEMPERATURE_REPORT (R43): the register shows every tenth report, which is 10 Hz. [DESIGN CHOICE, log 62] -/
def execTemperatureReport (n tempC : Nat) (s : State) : Host.Outcome State Fault Refusal :=
  if 8 ≤ n ∨ s.siteDark n = true then .next s
  else
    let x := s.site n
    let s := s.setSite n { x with tempAsked := false, tempReports := (x.tempReports + 1) % 10 }
    let s := if x.tempReports = 9 then s.wr (Reg.SITE_PWR_STATUS_chiplet_temp_c n) (min tempC 255) else s
    let p := s.popSite n
    let limit := (p.map PopSite.tempLimitC).getD 0
    if limit + 10 ≤ tempC then .next (s.siteTrip n)
    else if limit ≤ tempC then .next (s.powerCap n ((p.map PopSite.powerLimitW).getD 0 / 2))
    else .next s

/-- TEMPERATURE_SILENCE (R43): 100 ms without an answer. -/
def execTemperatureSilence (n : Nat) (s : State) : Host.Outcome State Fault Refusal :=
  if n < 8 ∧ (s.site n).tempAsked = true then .next (s.siteTrip n) else .next s

/-- THERMAL_TRIP_MESSAGE (R43). -/
def execThermalTripMessage (n : Nat) (s : State) : Host.Outcome State Fault Refusal :=
  if n < 8 then .next (s.siteTrip n) else .next s

/-! ### Bring-up (R39, R44, R48) -/

/-- A site's rails asked for: SITE_PWREN high and the state POWERING. -/
def State.powerSite (s : State) (n : Nat) : State :=
  (((s.pwren n true).wr (Reg.SITE_STATE_state n) 1).setSite n { (s.pwren n true).site n with cycling := false }).showShare

/-- SITE_PWREN_ASSERT (R44): 5 ms after the release of PERST_N, for each populated site; none without SYSREF (R396). -/
def execSitePwrenAssert (s : State) : Host.Outcome State Fault Refusal :=
  if s.boot.perst || s.boot.trip || !s.boot.sysref || s.boot.stage == 0 || decide (3 ≤ s.boot.plan) then .next s
  else .next (((List.range 8).filter (fun n => s.on (Reg.SITE_POP_populated n) && s.siteState n == 0)).foldl State.powerSite s)

/-- SCLK runs and sideband training starts on every module (R44, R261). [DEDUCED, log 178] -/
def State.startSideband (s : State) (n : Nat) : State :=
  if s.boot.sysref then
    let s := (s.setSite n { s.site n with sclk := true }).wr (Reg.SITE_STATE_state n) 2
    ((List.range (siteModules n)).filter (fun m => s.modState n m != 12)).foldl
      (fun (s : State) m => ((s.setModule n m { s.module n m with logical := s.logicalOf n m }).setModState n m 2).send (.sideband n m (.train m))) s
  else s

/-- SITE_PGOOD_RISE (R44). -/
def execSitePgoodRise (n : Nat) (s : State) : Host.Outcome State Fault Refusal :=
  if 8 ≤ n then .next s
  else
    let s := s.setSite n { s.site n with pgood := true }
    if (s.site n).pwren = true ∧ s.siteState n = 1 then .next (s.startSideband n) else .next s

/-- SITE_PGOOD_TIMEOUT (R44): no SITE_PGOOD by 25 ms. -/
def execSitePgoodTimeout (n : Nat) (s : State) : Host.Outcome State Fault Refusal :=
  if n < 8 ∧ s.siteState n = 1 ∧ (s.site n).pgood = false ∧ (s.site n).cycling = false then .next (s.fenceSite n 1) else .next s

/-- SITE_PGOOD_FALL (R35, R46): a loss of power, unless the hub itself cycles the site's power. [DEDUCED, log 83] -/
def execSitePgoodFall (n : Nat) (s : State) : Host.Outcome State Fault Refusal :=
  if 8 ≤ n then .next s
  else
    let lost : Bool := (s.site n).pgood && !(s.site n).cycling
    let s := s.setSite n { s.site n with pgood := false }
    if lost then .next (s.fenceSite n 7) else .next s

/-- SIDEBAND_UP (R44, R261): the module goes on to its mainband; the first one starts the identity read. -/
def execSidebandUp (n m : Nat) (s : State) : Host.Outcome State Fault Refusal :=
  if !moduleOk n m || s.modState n m != 2 then .next s
  else
    let s := s.setSite n { s.site n with sbUp := (s.site n).sbUp ++ [m] }
    let s := s.setModule n m { s.module n m with sideband := true }
    let s := ((s.setModState n m 3).wr (Reg.SITE_MOD_STATUS_rate n m) (s.rd (Reg.SITE_LINK_CFG_max_rate n))).wr
      (Reg.SITE_MOD_STATUS_logical n m) (s.module n m).logical
    if s.siteState n = 2 then .next (((s.wr (Reg.SITE_STATE_state n) 3).sideband n none .identity).capNotice n) else .next s

/-- SIDEBAND_TIMEOUT (R44): no sideband by 40 ms. -/
def execSidebandTimeout (n : Nat) (s : State) : Host.Outcome State Fault Refusal :=
  if n < 8 ∧ s.siteState n = 2 then .next (s.fenceSite n 2) else .next s

/-! ### Identity and attestation (R40–R42, R48, R449) -/

/-- One SPDM request sent; CHALLENGE (6) and GET_MEASUREMENTS (7) carry a fresh nonce. [DEDUCED, log 80; DESIGN CHOICE, log 100] -/
def State.spdmSend (s : State) (n step : Nat) : State :=
  if 6 ≤ step then
    let k := s.freeVal
    ((s.setSite n { s.site n with spdmStep := step, nonce := k }).sideband n none (.spdm step k)).useFree
  else (s.setSite n { s.site n with spdmStep := step, nonce := 0 }).sideband n none (.spdm step 0)

/-- The record's fields against an identity block's (R40). -/
def identityMatches (p : PopSite) (b : IdentityBlock) : Bool :=
  let l := b.lo.toNat
  bits l 15 0 == p.makerId && bits l 31 16 == p.partId && bits l 47 40 == p.revisionMajor && bits l 55 48 == p.modules &&
  bits l 57 56 == p.protocol && bit l 58 == p.coherent && bits b.hi.toNat 31 0 == p.coherentCacheKib

/-- IDENTITY_BLOCK_READ (R23, R40, R41): checked in IDENTIFYING; a block that matches starts attestation. [DEDUCED, log 81] -/
def execIdentityBlockRead (n : Nat) (block : IdentityBlock) (s : State) : Host.Outcome State Fault Refusal :=
  if 8 ≤ n ∨ s.siteState n ≠ 3 then .next s
  else
    let s := (s.setReg (Reg.SITE_ID_LO n) block.lo.toNat).setReg (Reg.SITE_ID_HI n) block.hi.toNat
    let s := s.setSite n { s.site n with resetPending := false }
    if 16384 < bits block.hi.toNat 31 0 then .next (s.fenceSite n 9)
    else match s.popSite n with
      | none => .next (s.fenceSite n 4)
      | some p =>
        if identityMatches p block then .next ((s.wr (Reg.SITE_STATE_state n) 4).spdmSend n 1)
        else .next (s.fenceSite n 4)

/-- IDENTITY_TIMEOUT (R40): not readable within 50 ms; within a blanket the 20 ms of R48 govern. -/
def execIdentityTimeout (n : Nat) (s : State) : Host.Outcome State Fault Refusal :=
  if n < 8 ∧ s.siteState n = 3 ∧ (s.site n).resetPending = false then .next (s.fenceSite n 3) else .next s

/-- A site that has passed attestation: the entries of its untrained modules are lent, and it opens once they are (R44, R262). -/
def State.openSite (s : State) (n : Nat) : State :=
  let s := ((List.range (siteModules n)).filter (fun m => !s.inService n m)).foldl (fun (s : State) m => s.lend n m) s
  if (s.link n).exch.isSome then s.setSite n { s.site n with opening := true } else s.finishOpen n

/-- What an SPDM answer fails: a refused request, a chain that does not end in the record's root, or a signature (R42). -/
def State.spdmBad (s : State) (n : Nat) (a : SpdmAnswer) : Bool :=
  let step := (s.site n).spdmStep
  let root := ((s.popSite n).map PopSite.rootDigest).getD 0
  a.refused || (step == 5 && a.rootDigest != root) ||
  (decide (6 ≤ step) && !(Config.verifies 1 [step, root, (s.site n).nonce, a.measurement, a.signature]))

/-- SPDM_RESPONSE (R42, R449): the next request, or the end of the attestation with its digest. [DEDUCED, log 80] -/
def execSpdmResponse (n : Nat) (answer : SpdmAnswer) (s : State) : Host.Outcome State Fault Refusal :=
  let x := s.site n
  if 8 ≤ n ∨ x.spdmStep = 0 then .next s
  else if s.spdmBad n answer then .next (s.fenceSite n 5)
  else if x.spdmStep < 7 then .next (s.spdmSend n (x.spdmStep + 1))
  else
    let s := s.setSite n { x with spdmStep := 0, digest := some answer.measurement }
    if x.digest.isSome && x.digest != some answer.measurement then .next (s.fenceSite n 5)
    else if s.siteState n = 4 then .next (s.openSite n)
    else .next s.lockCheck

/-- SPDM_TIMEOUT (R42): a request left unanswered for 100 ms. -/
def execSpdmTimeout (n : Nat) (s : State) : Host.Outcome State Fault Refusal :=
  if n < 8 ∧ (s.site n).spdmStep ≠ 0 then .next (s.fenceSite n 5) else .next s

/-! ### A blanket's reset of a site (R48) -/

/-- The reset message to an ACTIVE site: its traffic ends and it identifies again. -/
def State.resetSite (s : State) (n : Nat) : State :=
  if s.siteState n = 5 then
    let s := s.cutSite n
    let s := s.setSite n { s.site n with aperture := false, opening := false, resetPending := true, rejoin := true, spdmStep := 0 }
    ((s.wr (Reg.SITE_STATE_state n) 3).showCaching n).sideband n none .reset
  else s

/-- SITE_RESET_TIMEOUT (R48): no identity within 20 ms of the reset; the site's power is cycled. -/
def execSiteResetTimeout (n : Nat) (s : State) : Host.Outcome State Fault Refusal :=
  if 8 ≤ n ∨ (s.site n).resetPending = false then .next s
  else
    let s := ((s.pwren n false).endMailbox n 3).modulesOff n
    let s := s.setSite n { s.site n with resetPending := false, aperture := false, opening := false, cycling := true, sclk := false, sbUp := [], tempAsked := false, spdmStep := 0 }
    .next (s.wr (Reg.SITE_STATE_state n) 1)

/-- SITE_POWER_CYCLE_END (R48): 10 ms later the timeline starts again at SITE_PWREN. -/
def execSitePowerCycleEnd (n : Nat) (s : State) : Host.Outcome State Fault Refusal :=
  if n < 8 ∧ (s.site n).cycling = true then .next (s.powerSite n) else .next s

end Sys2Proof.Machine
end

