-- ==== Sys2Proof/Machine/HostCmds.lean ====
section
/-! DEFINITION. The host endpoint's traffic: BAR4, outbound completions, MSI-X, link and device power states, and HOST_COMMIT (R292, R296, R298–R305, R312). -/
namespace Sys2Proof.Machine

/-! ### BAR4 (R296, R298) -/

/-- A window entry as committed. -/
def State.win (s : State) (e : Nat) : Nat := s.reg (Reg.HOST_WIN e)

/-- The event of a line that its window entry or a dark site ends: one for each entry until it is rewritten. [DEDUCED, log 98] -/
def State.winEvent (s : State) (e code addr : Nat) : State :=
  if s.host.winBad.contains e then s
  else ({ s with host := { s.host with winBad := s.host.winBad ++ [e] } }).refusal blkHost e code addr

/-- Whether the windows of BAR4 are closed: from row 1 of a blanket until its phase 1 ends (R451). -/
def State.winClosed (s : State) : Bool := s.rd Reg.SEC_STATUS_blanket_phase == 1

/-- A line of BAR4 that reads as ones or is discarded. -/
def State.lineOnes (s : State) (id i : Nat) : State := s.partDone id i (.error 0)

/-- One line of a BAR4 request at its target (R298): the owner map checks the entry's context, and the request is coherent. [DEDUCED, log 98] -/
def State.barLine (s : State) (id i b len : Nat) (data : Option (List (Option Byte))) : State :=
  let e := b / 2 ^ 28
  let v := s.win e
  let c := bits v 13 8
  let a := bits v 47 28 * 2 ^ 28 + b % 2 ^ 28
  let may := if data.isSome then bit v 2 else bit v 1
  if s.winClosed then s.lineOnes id i
  else if !bit v 0 || !may then (s.lineOnes id i).winEvent e 2 b
  else
    let r : MemReq := { tag := id, origin := .ctx c, port := .part id i, cls := 34, addr := a, len := len, data := data, poison := false, ecc := .clean }
    if siteBase ≤ a then
      if s.siteDark (siteOf a) then (s.lineOnes id i).winEvent e 3 a
      else
        let got := match data with
          | none => s.readAt (.part id i) c none (.site a) len
          | some d => s.writeSite (.part id i) c none a (d.map (fun (x : Option Byte) => x.map (fun b => (b, false))))
        match got with
        | (.fail _, s) => s.lineOnes id i
        | (_, s) => s
    else if scratchBase ≤ a then s.windowAccess r
    else if s.homeFree a len data.isSome then s.sourceRequest r
    else s.homeAsk (.mem r)

/-- BAR4_ACCESS (R296, R298): a read of `len` bytes, or a write of bytes with their enables, at a BAR4 offset. -/
def execBar4Access (tag b len : Nat) (write : Bool) (data : List (Option Byte)) (tee : Option Nat) (s : State) :
    Host.Outcome State Fault Refusal :=
  if !s.barOk (.host tee) then .next ((s.unsupportedReq b).send (.unsupported b len))
  else
    let n := if write then data.length else len
    let lens := lineLens b n
    if n = 0 then .next (if write then s else s.send (.memData tag [])) else
    let (id, s) := s.openAsm (.bar4 tag) write b (0, 0, 0) lens
    .next (lens.zipIdx.foldl (fun (s : State) (p : Nat × Nat) =>
      let lo := max b ((b / lineSize + p.2) * lineSize)
      s.barLine id p.2 lo p.1 (if write then some ((data.drop (lo - b)).take p.1) else none)) s)

/-- UNSUPPORTED_REQUEST (R296): an AtomicOp, an I/O request or a message that the endpoint does not accept. -/
def execUnsupportedRequest (off : Nat) (s : State) : Host.Outcome State Fault Refusal :=
  .next ((s.unsupportedReq off).send (.unsupported off 0))

/-! ### Outbound reads (R300) -/

/-- An outstanding read of host memory by its tag. -/
def State.outRead (s : State) (tag : Nat) : Option OutReq :=
  s.acc.outq.find? (fun o => o.id == tag && !o.write && o.ans.isNone && (match o.tgt with | .host _ _ => true | _ => false))

/-- OUTBOUND_COMPLETION (R300): the data of a read, poisoned data, or an error completion. [DEDUCED, log 74] -/
def execOutboundCompletion (tag : Nat) (ok poison : Bool) (data : List Byte) (s : State) : Host.Outcome State Fault Refusal :=
  match s.outRead tag with
  | none => .next s
  | some o =>
    if !ok then .next (s.countHost.answerReq tag (.error stHostError))
    else
      let bs := ((data ++ List.replicate o.len 0).take o.len).map (fun (b : Byte) => (b, poison))
      .next ((if poison then s.countHost else s).answerReq tag (.data bs))

/-- OUTBOUND_TIMEOUT (R300): no completion within cto_ms; in D3hot the timeout does not run (R304). -/
def execOutboundTimeout (tag : Nat) (s : State) : Host.Outcome State Fault Refusal :=
  match s.outRead tag with
  | none => .next s
  | some _ => if s.rd Reg.HOST_STATUS_dstate = 3 then .next s else .next (s.countHost.answerReq tag (.error stHostError))

/-- KEEPALIVE_TIMER (R300, R327): the keep-alive flit restarts the source's timer of R153. In this model that timer never ends a
transfer to the host or to a peer (NOC_REQUEST_TIMEOUT), so the command changes nothing else. [DESIGN CHOICE, log 99] -/
def execKeepaliveTimer (s : State) : Host.Outcome State Fault Refusal := .next s

/-! ### MSI-X (R302) -/

/-- A pending message of a vector tried: sent when its vector is unmasked and its slot can send. -/
def State.msixRetry (s : State) (v : Nat) : State :=
  if s.host.msixPend.contains v then
    ({ s with host := { s.host with msixPend := s.host.msixPend.filter (· != v) } }).msixTry v
  else s

/-- Every pending message tried, in ascending order of vectors. -/
def State.msixFlush (s : State) : State :=
  ((List.range 2048).filter (fun v => s.host.msixPend.contains v)).foldl State.msixRetry s

/-- A dword of the MSI-X table written; unmasking a vector sends its pending message once. -/
def State.setMsixWord (s : State) (i : Nat) (v : Word) : State :=
  let t := { s with host := { s.host with msix := s.host.msix.put i v } }
  if i % 4 = 3 ∧ bit v.toNat 0 = false then t.msixRetry (i / 4) else t

/-- MSIX_UNMASK (R302). -/
def execMsixUnmask (vector : Nat) (s : State) : Host.Outcome State Fault Refusal :=
  if 2048 ≤ vector then .next s
  else .next (s.setMsixWord (4 * vector + 3) (BitVec.ofNat 32 (putBits (s.msixWord (4 * vector + 3)) 0 0 0)))

/-! ### Link and device power (R292, R303–R306) -/

/-- The link's power state. -/
def State.pstate (s : State) (v : Nat) : State := s.wr Reg.HOST_LINK_STATUS_pstate v

/-- L0P_ENTRY (R303). -/
def execL0pEntry (s : State) : Host.Outcome State Fault Refusal :=
  if s.on Reg.HOST_STATUS_link_up ∧ s.on Reg.HOST_CFG_l0p_en ∧ s.rd Reg.HOST_LINK_STATUS_pstate = 0 then .next (s.pstate 1) else .next s

/-- L0P_EXIT (R303). -/
def execL0pExit (s : State) : Host.Outcome State Fault Refusal :=
  if s.rd Reg.HOST_LINK_STATUS_pstate = 1 then .next (s.pstate 0) else .next s

/-- Whether an outbound read or an inbound read still waits for its completion. -/
def State.linkBusy (s : State) : Bool :=
  s.acc.outq.any (fun o => match o.tgt with | .host _ _ => true | _ => false) ||
  s.acc.asms.any (fun x => match x.who with | .bar4 _ => true | _ => false)

/-- Whether the host has enabled L1: ASPM L1 in the link control, which a function in D3hot does not need. PRESUMED: the standard's fields. [PRESUMED, log 91] -/
def State.l1Enabled (s : State) : Bool := s.rd Reg.HOST_STATUS_dstate == 3 || bit (s.host.cfgSpace.get 0 0x070).toNat 1

/-- Whether the host has enabled L1.2 and its LTR threshold allows it: in D0 the latency last reported reaches the threshold, and in D3hot
the enable alone counts. PRESUMED: the standard's fields. [PRESUMED, log 91] -/
def State.l12Enabled (s : State) : Bool :=
  let v := (s.host.cfgSpace.get 0 0x248).toNat
  if s.rd Reg.HOST_STATUS_dstate = 3 then bit v 0
  else bit v 2 && decide (bits v 25 16 * 32 ^ bits v 31 29 ≤ 1000 * s.host.ltr)

/-- LINK_L1_ENTRY (R303). -/
def execLinkL1Entry (s : State) : Host.Outcome State Fault Refusal :=
  if s.on Reg.HOST_STATUS_link_up ∧ s.rd Reg.HOST_LINK_STATUS_pstate ≤ 1 ∧ s.linkBusy = false ∧ s.l1Enabled = true then .next (s.pstate 2) else .next s

/-- L12_ENTRY (R303): 100 µs in L1. -/
def execL12Entry (s : State) : Host.Outcome State Fault Refusal :=
  if s.on Reg.HOST_STATUS_link_up ∧ s.rd Reg.HOST_LINK_STATUS_pstate = 2 ∧ s.l12Enabled = true then .next (s.pstate 3) else .next s

/-- LINK_STATE_EXIT (R303). -/
def execLinkStateExit (s : State) : Host.Outcome State Fault Refusal :=
  if 2 ≤ s.rd Reg.HOST_LINK_STATUS_pstate then .next (s.pstate 0) else .next s

/-- WAKE_N released (R305). [DEDUCED, log 161] -/
def State.releaseWake (s : State) : State :=
  if s.host.wakeLow then ({ s with host := { s.host with wakeLow := false } }).send (.pin .wakeN true) else s

/-- Entry to D3hot (R304): rings stop fetching and outbound requests wait, both by the device state. -/
def State.enterD3 (s : State) : State := s.wr Reg.HOST_STATUS_dstate 3

/-- The return to D0 (R304, R305): writes of the event ring and messages that waited for it are sent. -/
def State.enterD0 (s : State) : State := ((s.wr Reg.HOST_STATUS_dstate 0).releaseWake).evtFlush.msixFlush

/-- D3HOT_ENTRY (R304). -/
def execD3hotEntry (s : State) : Host.Outcome State Fault Refusal := .next s.enterD3

/-- D0_RETURN (R304, R305). -/
def execD0Return (s : State) : Host.Outcome State Fault Refusal := .next s.enterD0

/-- Whether the endpoint is out of reset: PERST_N released, and no outcome that keeps the link from training (R411, R419, R437, R438). -/
def State.endpointUp (s : State) : Bool :=
  s.boot.vaon && !s.boot.perst && !s.boot.trip && !s.boot.recovery && s.boot.plan != 4 &&
  (s.fuse.lc == .production || s.fuse.lc == .test)

/-- LINK_RETRAINED (R292, R306): the link trains with its partner at a speed and width. [DESIGN CHOICE, log 99] -/
def execLinkRetrained (speed width : Nat) (flit : Bool) (s : State) : Host.Outcome State Fault Refusal :=
  if !s.endpointUp then .next s
  else
    let again := s.rd Reg.HOST_LINK_STATUS_speed != 0
    let low := decide (speed < 4 ∨ width < 16)
    let s := if again then s.sat Reg.HOST_LINK_STATUS_retrains 1 else s
    let s := ({ s with host := { s.host with linkEnabled := true } }).wr Reg.HOST_STATUS_link_up 1
    let s := ((s.wr Reg.HOST_LINK_STATUS_speed speed).wr Reg.HOST_LINK_STATUS_width width).wr Reg.HOST_LINK_STATUS_flit (ofBool flit)
    let s := (s.pstate 0).wr Reg.HOST_LINK_STATUS_degraded (ofBool low)
    if low then .next (s.eventOpen blkHost 9 0 0) else .next s

/-! ### HOST_COMMIT (R312) -/

/-- The entries of a table whose shadow has been written, lowest first, with their shadows. -/
def State.shadowed (s : State) (base count : Nat) : List (Nat × Nat) :=
  (s.shadow.filter (fun p => decide (base ≤ p.1 ∧ p.1 < base + 8 * count))).map (fun p => ((p.1 - base) / 8, s.shd p.1))

/-- Whether a valid window entry breaks R298. -/
def State.winBroken (s : State) (v : Nat) : Bool :=
  let a := bits v 47 28 * 2 ^ 28
  bit v 0 && !(s.inMemory a (2 ^ 28) || s.inScratch a (2 ^ 28) || inAperture a (2 ^ 28))

/-- Whether a valid outbound entry covers addresses past 2^64. -/
def obBroken (v : Nat) : Bool := bit v 0 && decide (2 ^ 64 < bits v 63 12 * 4096 + 2 ^ 37)

/-- The field that refuses a commit of the HOST block, with the entry it names (R312). -/
def State.hostRefusal (s : State) : Option (Nat × Nat) :=
  let tdisp := s.rd Reg.HOST_STATUS_tdisp
  if tdisp = 1 ∨ tdisp = 2 then some (2, s.rd Reg.HOST_BAD_bad_entry)
  else if 8 < s.shf Reg.HOST_CFG_msix_key ∨ s.shf Reg.HOST_CFG_cto_ms = 0 ∨ 100 < s.shf Reg.HOST_CFG_cto_ms ∨ s.shf Reg.HOST_CFG_l1_idle_us < 10 then
    some (1, s.rd Reg.HOST_BAD_bad_entry)
  else match (s.shadowed (Reg.HOST_WIN 0) 256).find? (fun p => s.winBroken p.2) with
    | some p => some (0x10, p.1)
    | none => ((s.shadowed (Reg.HOST_OB 0) 1024).find? (fun p => obBroken p.2)).map (fun p => (0x11, p.1))

/-- The whole HOST set put in force. -/
def State.hostSet (s : State) : State :=
  let s := s.commitReg Reg.HOST_CFG
  let s := s.commitRegs ((s.shadowed (Reg.HOST_WIN 0) 256).map (fun p => Reg.HOST_WIN p.1))
  s.commitRegs ((s.shadowed (Reg.HOST_OB 0) 1024).map (fun p => Reg.HOST_OB p.1))

/-- HOST_COMMIT (R312): a new msix_key sends what waited for a slot (R302). [DEDUCED, log 101] -/
def execHostCommit (v : Word) (s : State) : Host.Outcome State Fault Refusal :=
  if bits v.toNat 0 0 = 0 then .next s
  else match s.hostRefusal with
    | some (f, e) => .next ((s.commitRefused Reg.HOST_COMMIT_STATUS f).wr Reg.HOST_BAD_bad_entry e)
    | none => .next ((s.hostSet.commitDone Reg.HOST_COMMIT_STATUS).msixFlush)

end Sys2Proof.Machine
end

