-- ==== Sys2Proof/Machine/FabOps.lean ====
section
/-! DEFINITION. Teurn ports, links and connections: training, recovery, blocks that arrive, opening and closing, and FAB_COMMIT (R313–R323, R327, R328, R333, R337, R338). -/
namespace Sys2Proof.Machine

/-! ### Ports (R313, R314, R315) -/

/-- Whether a mode is a Teurn mode. -/
def teurnMode (m : Nat) : Bool := m == 1 || m == 2

/-- A recovery step's event; its code is one that no rule states. [DESIGN CHOICE, log 105] -/
def State.portEvent (s : State) (p : Nat) : State := s.eventOpen blkFab 9 0 p

/-- A port that starts training in its committed mode (R314): a Teurn port trains, a stream port is for the stream chapter. [DESIGN CHOICE, log 105] -/
def State.trainPort (s : State) (p : Nat) : State :=
  if s.portState p = 8 then s
  else
    let m := s.rd (Reg.FAB_PORT_CFG_mode p)
    let s := s.setPort p { PortSt.off with mode := m }
    let s := ((s.wr (Reg.FAB_PORT_STATUS_neighbour p) 0xFFFF).wr (Reg.FAB_PORT_STATUS_version p) 0).wr ⟨Reg.STRM_STATUS, 16 + p, 16 + p⟩ 0
    s.setPortState p (if m = 0 then 0 else if teurnMode m then 1 else 7)

/-- PORT_TRAINED (R313, R314, R337): the port goes UP at x8 with its neighbour and Teurn version. One whose partner is its own package, or runs a
version that its mode has not, stays in TRAINING. -/
def execPortTrained (port neighbour version : Nat) (s : State) : Host.Outcome State Fault Refusal :=
  let alien := (s.on Reg.FAB_IDENT_configured && neighbour == s.deviceId) || !(version == 2 || (version == 1 && (s.port port).mode == 2))
  if s.portState port ≠ 1 ∨ 16 ≤ port then .next s
  else if alien then .next (s.portEvent port)
  else
    let s := (s.wr (Reg.FAB_PORT_STATUS_neighbour port) neighbour).wr (Reg.FAB_PORT_STATUS_version port) version
    let s := s.setPort port { PortSt.off with mode := (s.port port).mode }
    .next (s.setPortState port 2)

/-- PORT_TRAINING_MISMATCH (R313): the port stays in TRAINING. -/
def execPortTrainingMismatch (port : Nat) (s : State) : Host.Outcome State Fault Refusal :=
  if s.portState port = 1 ∧ port < 16 then .next (s.portEvent port) else .next s

/-- A retrain begun at a step. -/
def State.retrainPort (s : State) (p step : Nat) : State :=
  (((s.setPort p { s.port p with step := step }).sat (Reg.FAB_PORT_STATUS_retrains p) 1).setPortState p 4).portEvent p

/-- A port that has ended: DOWN until its next bring-up, with nothing left to send. [DESIGN CHOICE, log 105] -/
def State.portDown (s : State) (p : Nat) : State :=
  let gone := (s.port p).queue
  let s := gone.foldl (fun (s : State) b => s.freeBlock b) (s.setPort p { s.port p with unacked := [], queue := [] })
  let s := (s.setPortState p 6).wr (Reg.FAB_PORT_STATUS_version p) 0
  { s with glb := { s.glb with worn := true } }.portEvent p

/-- PORT_RETRAIN (R25, R315): a recovery begins, in the mode that is in force then. -/
def execPortRetrain (port : Nat) (s : State) : Host.Outcome State Fault Refusal :=
  if s.portUp port ∧ port < 16 then .next ((s.setPort port { s.port port with assist := s.duty 4 }).retrainPort port 0) else .next s

/-- The choices offered to the driver: op 1 RETRY, 2 HALF after a failure at full width, 3 DOWN. -/
def State.awaitPort (s : State) (p reason : Nat) : State :=
  let s := (s.wr (Reg.FAB_PORT_REC_pending p) 1).wr (Reg.FAB_PORT_REC_reason p) reason
  ((s.wr (Reg.FAB_PORT_REC_offered p) (if reason = 1 then 0xE else 0xA)).setPortState p 5).portEvent p

/-- The step that hardware mode takes after a failure. -/
def State.portFallsBack (s : State) (p reason : Nat) : State := if reason = 1 then s.retrainPort p 1 else s.portDown p

/-- A failed step handed to the driver or taken. -/
def State.portFailed (s : State) (p reason : Nat) : State :=
  if (s.port p).assist then s.awaitPort p reason else s.portFallsBack p reason

/-- PORT_RETRAIN_RESULT (R315): at the same width, then x4 on lanes 0–3, then x4 on lanes 4–7. -/
def execPortRetrainResult (port : Nat) (ok : Bool) (s : State) : Host.Outcome State Fault Refusal :=
  let x := s.port port
  if s.portState port ≠ 4 ∨ 16 ≤ port then .next s
  else if ok then .next ((s.setPortState port (if x.step = 0 then 2 else 3)).pump port x.queue.length)
  else if x.step = 0 then .next (s.portFailed port 1)
  else if x.step = 1 then .next (s.retrainPort port 2)
  else .next (s.portFailed port 2)

/-- The wait for a choice ended. -/
def State.endAwait (s : State) (p : Nat) : State :=
  (s.wr (Reg.FAB_PORT_REC_pending p) 0).wr (Reg.FAB_PORT_REC_offered p) 0

/-- A choice written to FAB_PORT_REC: one that is not on offer is discarded with an event. -/
def State.portChoice (s : State) (p op : Nat) (f : State → Nat → State) : State :=
  if 16 ≤ p then s
  else if s.on (Reg.FAB_PORT_REC_pending p) && bit (s.rd (Reg.FAB_PORT_REC_offered p)) op then f (s.endAwait p) (s.rd (Reg.FAB_PORT_REC_reason p))
  else s.regEvent 1 (Reg.FAB_PORT_REC p) op

/-- PORT_REC_RETRY (R315). -/
def execPortRecRetry (port : Nat) (s : State) : Host.Outcome State Fault Refusal :=
  .next (s.portChoice port 1 (fun s reason => s.retrainPort port (if reason = 1 then 0 else 1)))

/-- PORT_REC_HALF (R315). -/
def execPortRecHalf (port : Nat) (s : State) : Host.Outcome State Fault Refusal :=
  .next (s.portChoice port 2 (fun s _ => s.retrainPort port 1))

/-- PORT_REC_DOWN (R315). -/
def execPortRecDown (port : Nat) (s : State) : Host.Outcome State Fault Refusal :=
  .next (s.portChoice port 3 (fun s _ => s.portDown port))

/-- PORT_AWAIT_TIMEOUT (R26, R315): 100 ms without a choice. -/
def execPortAwaitTimeout (port : Nat) (s : State) : Host.Outcome State Fault Refusal :=
  if s.portState port = 5 ∧ port < 16 then
    .next (((s.endAwait port).fallback 4).portFallsBack port (s.rd (Reg.FAB_PORT_REC_reason port)))
  else .next s

/-! ### Blocks that arrive (R316, R317, R318, R320) -/

/-- Whether a sequence number lies at or before another, modulo 2^24. -/
def seqUpTo (q ack : Nat) : Bool := decide ((ack % 2 ^ 24 + 2 ^ 24 - q % 2 ^ 24) % 2 ^ 24 < 2 ^ 23)

/-- Every unacknowledged block of a port sent again, in order. -/
def State.resendBlocks (s : State) (p : Nat) : State :=
  let x := s.port p
  let ack := (x.recvSeq + 2 ^ 24 - 1) % 2 ^ 24
  x.unacked.foldl (fun (s : State) b => s.send (.link p { b with ack := ack })) (s.sat (Reg.FAB_PORT_ERR_resends p) x.unacked.length)

/-- What a block's header brings: acknowledgement, credits, and a request to send again. -/
def State.linkHeader (s : State) (p : Nat) (b : LinkBlock) : State :=
  let x := s.port p
  let x := { x with unacked := x.unacked.filter (fun (u : LinkBlock) => !seqUpTo u.seq b.ack),
                    credits := if b.creditCount = 0 then x.credits else x.credits.put b.creditLane (x.credit b.creditLane + b.creditCount) }
  let s := s.setPort p x
  let s := if b.nak then s.resendBlocks p else s
  s.pump p x.queue.length

/-- A block discarded at the hop limit: counted, with an event at most once in each 1 ms. [DESIGN CHOICE, log 27] -/
def State.hopLimit (s : State) (p : Nat) : State :=
  let s := s.sat Reg.FAB_DROPS_hop_limit 1
  let late := match s.fab.hopAt with | some t => decide (msUnits ≤ s.now - t) | none => true
  if late then { s with fab := { s.fab with hopAt := some s.now } }.eventOpen blkFab 9 0 p else s

/-- A block accepted in order (R320): for this package its messages follow as their own commands; in transit it goes on by the path its
flow takes, one hop higher, and its credit returns when it leaves (R318). After a lost heartbeat nothing in transit goes on (R464). [DESIGN CHOICE, log 30] -/
def State.linkAccept (s : State) (p : Nat) (b : LinkBlock) : State :=
  let x := s.port p
  let s := s.setPort p { x with recvSeq := (x.recvSeq + 1) % 2 ^ 24, naked := false }
  if s.on Reg.FAB_IDENT_configured && b.dest == s.deviceId then s.sendIdle p false b.lane 1
  else if s.glb.stop = 2 then s
  else if laneHop b.lane = 15 then (s.hopLimit p).sendIdle p false b.lane 1
  else match s.nextPort b.dest b.flow with
    | none => (s.sat Reg.FAB_DROPS_no_route 1).sendIdle p false b.lane 1
    | some q => (s.putBlock q { block := LinkBlock.make (b.lane + 1) b.dest b.flow b.pay, from_ := some p }).sendIdle p false 0 0

/-- A data block that is not accepted: the first one since the last accepted block sends a nak. -/
def State.linkDiscard (s : State) (p : Nat) : State :=
  if (s.port p).naked then s else (s.setPort p { s.port p with naked := true }).sendIdle p true 0 0

/-- LINK_BLOCK_RECEIVE (R316, R317, R318, R320). -/
def execLinkBlockReceive (port : Nat) (b : LinkBlock) (crcOk : Bool) (s : State) : Host.Outcome State Fault Refusal :=
  if !s.portUp port || decide (16 ≤ port) then .next s
  else if !crcOk then .next ((s.sat (Reg.FAB_PORT_ERR_crc_errors port) 1).linkDiscard port)
  else
    let s := s.linkHeader port b
    if b.kind ≠ 0 then .next s
    else if b.seq % 2 ^ 24 = (s.port port).recvSeq ∧ b.lane < 48 then .next (s.linkAccept port b)
    else .next (s.linkDiscard port)

/-- LINK_RESEND_TIMER (R317): the oldest unacknowledged block has waited 2 µs. -/
def execLinkResendTimer (port : Nat) (s : State) : Host.Outcome State Fault Refusal :=
  if s.portUp port ∧ port < 16 then .next (s.resendBlocks port) else .next s

/-! ### Opening and closing connections (R322, R323, R327, R328, R333) -/

/-- The key a slot holds. -/
def State.key (s : State) (slot : Nat) : Nat := s.sec.keys.get 0 slot

/-- Whether a key slot holds a key (SEC_SLOT). -/
def State.slotLoaded (s : State) (slot : Nat) : Bool := bit (s.reg (Reg.SEC_SLOT slot)) 6

/-- Whether a device of this group is quarantined. -/
def State.quarantined (s : State) (dev : Nat) : Bool :=
  dev / 64 == s.deviceId / 64 && bit (s.rd Reg.FAB_QUARANTINE_quarantined) (dev % 64)

/-- Whether a connection must be held: its peer is quarantined and its slot is not a management slot, or this package is quarantined and
the entry is not 0 or 1 (R333). -/
def State.connHeld (s : State) (e : Nat) : Bool :=
  let slot := s.connRd e Reg.FAB_CONN_DATA_key_slot
  (s.quarantined (s.connRd e Reg.FAB_CONN_DATA_peer) && slot != 9) || (s.rd Reg.FAB_GROUP_role == 4 && decide (2 ≤ e))

/-- The Teurn version of the links to a peer: 1 when a port's neighbour of that ID runs version 1, or a forwarding candidate toward it
(R337). -/
def State.peerV1 (s : State) (dev : Nat) : Bool :=
  (List.range 16).any (fun p => s.portUp p && s.rd (Reg.FAB_PORT_STATUS_neighbour p) == dev && s.rd (Reg.FAB_PORT_STATUS_version p) == 1) ||
  (s.candidates dev).any (fun p => s.portUp p && s.rd (Reg.FAB_PORT_STATUS_version p) == 1)

/-- Whether a connection leads to a CM2 package: it was opened under version 1, or its links run it (R24, R337). [DEDUCED, log 168] -/
def State.toCm2 (s : State) (dev slot : Nat) : Bool :=
  s.peerV1 dev || (match s.connFor dev slot with | some e => (s.connState e).v1 | none => false)

/-- A control message of a connection. -/
def State.ctl (s : State) (e op : Nat) (args : List Nat) : State :=
  let dest := s.connRd e Reg.FAB_CONN_DATA_peer
  s.launch dest 2 (Config.flowHash e) op 0 e (4 * args.length) (.fabricCtl dest (s.connRd e Reg.FAB_CONN_DATA_peer_index) op args)

/-- OPEN sent: the entry index, the key slot and the nonce. -/
def State.sendOpen (s : State) (e : Nat) : State :=
  s.ctl e 0x10 [e, s.connRd e Reg.FAB_CONN_DATA_key_slot, (s.connState e).nonce]

/-- An enabled connection's opening begun with a fresh nonce. It stays CLOSED without a device ID or a key and while its slot drains (R444), and HELD for a
quarantined peer. [DEDUCED, log 106] -/
def State.startOpen (s : State) (e : Nat) : State :=
  let slot := s.connRd e Reg.FAB_CONN_DATA_key_slot
  if !s.on Reg.FAB_IDENT_configured || !s.slotLoaded slot || s.on (Reg.SEC_SLOT_draining slot) then s.connTo e 0
  else if s.connHeld e then s.connTo e 5
  else
    let c := s.connState e
    let s := s.setConn e { ConnSt.closed with nonce := s.freeVal, waiting := c.waiting, reopening := c.reopening, openAt := s.now,
                                              v1 := s.peerV1 (s.connRd e Reg.FAB_CONN_DATA_peer) }
    (s.useFree.connTo e 1).sendOpen e

/-- The outstanding requests that travel on a connection. -/
def State.connReqs (s : State) (e : Nat) : List OutReq :=
  let dev := s.connRd e Reg.FAB_CONN_DATA_peer
  let slot := s.connRd e Reg.FAB_CONN_DATA_key_slot
  s.acc.outq.filter (fun o => o.ans.isNone && (match o.tgt with | .peer d _ k => d == dev && k == slot | _ => false))

/-- Every unfinished transfer of a connection ended with PEER_UNREACHABLE (R327, R328). -/
def State.endTransfers (s : State) (e : Nat) : State :=
  let rs := s.connReqs e
  let s := s.setConn e { s.connState e with unacked := [], waiting := [], held := [], undone := [] }
  let s := { s with acc := { s.acc with asms := s.acc.asms.filter (fun (x : Asm) => match x.who with | .fabric c _ _ _ => c != e | _ => true) } }
  rs.foldl (fun (s : State) o => s.answerReq o.id (.error stPeerUnreachable)) s

/-- Whether everything issued on a connection has drained. -/
def State.connDrained (s : State) (e : Nat) : Bool :=
  let c := s.connState e
  c.unacked.isEmpty && c.waiting.isEmpty && c.undone.isEmpty && (s.connReqs e).isEmpty

/-- A connection that has drained closed (R328): opened again while it stays enabled. -/
def State.endConn (s : State) (e : Nat) : State :=
  let s := ((s.ctl e 0x12 []).setConn e ConnSt.closed).connTo e 0
  if s.connRd e Reg.FAB_CONN_DATA_enable = 1 then s.startOpen e else s

/-- What a connection waits for taken up: its close, or its reopening under a new session (R328, R337). -/
def State.connSettle (s : State) (e : Nat) : State :=
  let c := s.connState e
  let idle := (s.connReqs e).all (fun o => c.waiting.any (fun m => m.req == some o.id)) && c.unacked.isEmpty && c.undone.isEmpty
  if c.draining && s.connDrained e then s.endConn e
  else if c.reopening && idle && s.connRd e Reg.FAB_CONN_DATA_state == 2 then
    let s := (s.ctl e 0x12 []).setConn e { ConnSt.closed with waiting := c.waiting, reopening := true }
    s.startOpen e
  else s

/-- A connection closed by this package: at once when it is not open, else when its transfers have drained. -/
def State.closeConn (s : State) (e : Nat) : State :=
  if s.connRd e Reg.FAB_CONN_DATA_state = 2 then
    ((s.setConn e { s.connState e with draining := true }).connTo e 4).connSettle e
  else if s.connRd e Reg.FAB_CONN_DATA_state = 4 then s
  else
    let s := (((s.endTransfers e).setConn e ConnSt.closed).connTo e 0)
    if s.connRd e Reg.FAB_CONN_DATA_enable = 1 then s.startOpen e else s

/-- The session key of a connection from its slot's key, both nonces and both device IDs, the lower ID first (R323). [DESIGN CHOICE, log 100] -/
def State.sessionKey (s : State) (e nonce peerNonce : Nat) : Nat :=
  let own := s.deviceId
  let peer := s.connRd e Reg.FAB_CONN_DATA_peer
  let k := s.key (s.connRd e Reg.FAB_CONN_DATA_key_slot)
  if own ≤ peer then Config.crypto 3 [k, nonce, peerNonce, own, peer] else Config.crypto 3 [k, peerNonce, nonce, peer, own]

/-- A member of the own group known again: what the loss of it said before is past. -/
def State.foundAgain (s : State) (dev : Nat) : State :=
  if dev / 64 = s.deviceId / 64 then { s with hier := { s.hier with lostKnown := s.hier.lostKnown.filter (· != dev % 64) } } else s

/-- A connection open under a session: sequences at 0, and what waited sent. -/
def State.nowOpen (s : State) (e index nonce peerNonce : Nat) : State :=
  let s := s.foundAgain (s.connRd e Reg.FAB_CONN_DATA_peer)
  let c := s.connState e
  let s := s.setConn e { ConnSt.closed with nonce := nonce, peerNonce := peerNonce, key := s.sessionKey e nonce peerNonce, waiting := c.waiting, v1 := c.v1 }
  ((s.connWr e Reg.FAB_CONN_DATA_peer_index index).connTo e 2).sendWaiting e

/-- OPEN (R323): accepted by an enabled entry that names the sender and the slot; unfinished work of an earlier session ends. [DEDUCED, log 106] -/
def execOpenMsg (src index slot nonce : Nat) (s : State) : Host.Outcome State Fault Refusal :=
  match s.connFor src slot with
  | none => .next s
  | some e =>
    if s.connHeld e || !s.slotLoaded slot || s.connRd e Reg.FAB_CONN_DATA_state == 4 then .next s
    else
      let opening := s.connRd e Reg.FAB_CONN_DATA_state == 1 || s.connRd e Reg.FAB_CONN_DATA_state == 3
      let s := if opening then s else (s.endTransfers e)
      let own := if opening then (s.connState e).nonce else s.freeVal
      let s := if opening then s else s.useFree
      let s := s.setConn e { s.connState e with v1 := s.peerV1 src }
      let s := s.connWr e Reg.FAB_CONN_DATA_peer_index index
      .next ((s.ctl e 0x11 [e, own]).nowOpen e index own nonce)

/-- OPEN_ACK (R323). -/
def execOpenAck (conn src index nonce : Nat) (s : State) : Host.Outcome State Fault Refusal :=
  let st := s.connRd conn Reg.FAB_CONN_DATA_state
  if (st = 1 ∨ st = 3) ∧ s.connRd conn Reg.FAB_CONN_DATA_peer = src then .next (s.nowOpen conn index (s.connState conn).nonce nonce)
  else .next s

/-- OPEN_RETRY_TIMER (R323, R327): every 10 ms while opening, every 100 ms while BROKEN. -/
def execOpenRetryTimer (conn : Nat) (s : State) : Host.Outcome State Fault Refusal :=
  let st := s.connRd conn Reg.FAB_CONN_DATA_state
  if st = 1 ∨ st = 3 then .next (s.sendOpen conn) else .next s

/-- Whether a message of a connection comes from its peer under its session. -/
def State.connLive (s : State) (h : FabHdr) : Bool :=
  let st := s.connRd h.conn Reg.FAB_CONN_DATA_state
  h.authentic && (st == 2 || st == 4) && s.connRd h.conn Reg.FAB_CONN_DATA_peer == h.src

/-- CLOSE (R328): the peer's side ends, and the entry stays enabled. -/
def execClose (h : FabHdr) (s : State) : Host.Outcome State Fault Refusal :=
  if !s.connLive h then .next s
  else .next (((s.endTransfers h.conn).setConn h.conn ConnSt.closed).connTo h.conn 0)

/-- Fresh nonces and a fresh session key; sequence numbers stay (R323). -/
def State.rekeyed (s : State) (e nonce peerNonce : Nat) : State :=
  s.setConn e { s.connState e with nonce := nonce, peerNonce := peerNonce, key := s.sessionKey e nonce peerNonce, sent := 0 }

/-- REKEY (R323). A version-1 link has none (R337). [DEDUCED, log 106] -/
def execRekey (h : FabHdr) (nonce : Nat) (s : State) : Host.Outcome State Fault Refusal :=
  if !s.connLive h || (s.connState h.conn).v1 then .next s
  else .next ((s.rekeyed h.conn s.freeVal nonce).useFree)

/-- REKEY_THRESHOLD (R323): before 2^32 messages under one key. -/
def execRekeyThreshold (conn : Nat) (s : State) : Host.Outcome State Fault Refusal :=
  if s.connRd conn Reg.FAB_CONN_DATA_state ≠ 2 ∨ (s.connState conn).v1 = true then .next s
  else
    let k := s.freeVal
    let s := s.useFree.ctl conn 0x13 [k]
    .next (s.rekeyed conn k (s.connState conn).peerNonce)

/-- SESSION_LIMIT_V1 (R337): a version-1 connection drains, closes and opens again; requests wait meanwhile. -/
def execSessionLimitV1 (conn : Nat) (s : State) : Host.Outcome State Fault Refusal :=
  if s.connRd conn Reg.FAB_CONN_DATA_state = 2 ∧ (s.connState conn).v1 = true then
    .next ((s.setConn conn { s.connState conn with reopening := true }).connSettle conn)
  else .next s

/-! ### FAB_COMMIT (R338) -/

/-- The shadow of a connection entry. -/
def State.connShd (s : State) (e : Nat) : Nat := (s.connShadow.get (s.conns.get 0 e) e).toNat

/-- What a commit would put in force for an entry: its RWC fields. -/
def connFields (v : Nat) : Nat := bits v 31 0

/-- The rule of FAB_CONN_BAD that an entry of the set to be committed breaks, or 0. [DEDUCED, log 107] -/
def State.connFault (s : State) (e : Nat) : Nat :=
  let v := s.connShd e
  let slot := bits v 19 16
  let peer := bits v 15 0
  let old := s.conn e
  let others := (s.conns.map (·.1) ++ s.connShadow.map (·.1)).eraseDups
  if bits v 31 31 = 0 then 0
  else if 2048 ≤ e ∧ (bits v 25 20 = 0 ∨ s.on (Reg.XLAT_CTX_enable (bits v 25 20)) = false) then 1
  else if (if e < 2048 then !(slot == 9 || slot == 10) else decide (slot < 11)) then 2
  else if peer = s.deviceId ∧ s.on Reg.FAB_IDENT_configured = true then 3
  else if others.any (fun o => o != e && bits (s.connShd o) 31 31 == 1 && bits (s.connShd o) 15 0 == peer && bits (s.connShd o) 19 16 == slot) then 4
  else if bits old 31 31 = 1 ∧ (bits old 15 0 ≠ peer ∨ bits old 19 16 ≠ slot) then 5
  else 0

/-- The field that refuses a FAB_COMMIT, with the entry and reason of FAB_CONN_BAD. [DEDUCED, log 107] -/
def State.fabRefusal (s : State) : Option (Nat × Nat × Nat) :=
  let lim := s.shf Reg.FAB_CFG_peer_limit_ms
  if lim < 10 ∨ 1000 < lim then some (1, 0, 0)
  else if s.shf Reg.FAB_CFG_retry_limit = 0 then some (2, 0, 0)
  else match s.connShadow.find? (fun p => s.connFault p.1 != 0) with
    | some p => some (0x10, p.1, s.connFault p.1)
    | none => ((List.range 16).find? (fun p => decide (6 ≤ s.shf (Reg.FAB_PORT_CFG_mode p)))).map (fun p => (0x20 + p, 0, 0))

/-- One entry's committed set replaced: its OPEN or CLOSE begins. -/
def State.commitConn (s : State) (e : Nat) : State :=
  let old := s.conn e
  let v := connFields (s.connShd e)
  let s := { s with conns := s.conns.put e (BitVec.ofNat 64 (old - bits old 31 0 + v)) }
  if bits old 31 31 = 0 ∧ bits v 31 31 = 1 then (s.setConn e ConnSt.closed).startOpen e
  else if bits old 31 31 = 1 ∧ bits v 31 31 = 0 then s.closeConn e
  else s

/-- FAB_COMMIT (R338, R486). A port mode applies at the port's next training. -/
def execFabCommit (v : Word) (s : State) : Host.Outcome State Fault Refusal :=
  if bits v.toNat 0 0 = 0 then .next s
  else match s.fabRefusal with
    | some (f, e, r) =>
      let s := s.commitRefused Reg.FAB_COMMIT_STATUS f
      .next (if f = 0x10 then (s.wr Reg.FAB_CONN_BAD_entry e).wr Reg.FAB_CONN_BAD_reason r else s)
    | none =>
      let es := s.connShadow.map (·.1)
      let s := s.commitRegs (Reg.FAB_CFG :: (List.range 16).map Reg.FAB_PORT_CFG)
      let s := es.foldl State.commitConn s
      .next ({ s with connShadow := [] }.commitDone Reg.FAB_COMMIT_STATUS)

end Sys2Proof.Machine
end

