-- ==== Sys2Proof/Machine/CollArith.lean ====
section
/-! DEFINITION. What a collective moves: element formats, reduction, pieces and chunks, and the steps of each operation at one member (R341, R343–R345). -/
namespace Sys2Proof.Machine

/-! ### Elements (R341, R344, R345) -/

/-- Whether an operation reduces. -/
def collReduces (op : Nat) : Bool := op == 0x40 || op == 0x41

/-- Bytes of an element as it travels: partial sums of BF16 as FP32, of exact formats as XS128. -/
def wireBytes (op fmt : Nat) : Nat :=
  if collReduces op then (if fmt = 0 then 4 else if fmt = 4 then 16 else collBytes fmt) else collBytes fmt

/-- An FP64 value as XS128 in units of 2^e: round(x × 2^−e), ties to even, and whether it saturated. The value to which an input saturates
is one that no rule states; a NaN or infinity is read as 0. [DESIGN CHOICE, log 118] -/
def toXs (e : Int) (c : Nat) : Nat × Bool :=
  match fltFp64.decode c with
  | .fin neg m q =>
    let p := onGrid (signedOf neg m) 1 q e
    let v := roundQuot .nearest p.1 p.2
    if (2 : Int) ^ 126 ≤ v.natAbs then (Config.vecChoice 9 [c, unsigned 16 e] % 2 ^ 128, true) else (unsigned 128 v, false)
  | _ => (0, true)

/-- An element of src as it is reduced or moved, and whether it saturated. -/
def collLoad (op fmt : Nat) (e : Int) (c : Nat) : Nat × Bool :=
  if collReduces op then
    if fmt = 0 then (c * 2 ^ 16, false) else if fmt = 4 then toXs e c else (c, false)
  else (c, false)

/-- An element as dst holds it. -/
def collStore (op fmt : Nat) (e : Int) (v : Nat) : Nat :=
  if collReduces op then
    if fmt = 0 then vConvert 1 2 v
    else if fmt = 4 then fltFp64.encode false (signed 128 v) 1 e
    else v
  else v

/-- Two elements reduced (R344, R345): redop 0 SUM, 1 MAX, 2 MIN. [DESIGN CHOICE, log 118] -/
def collReduce (fmt redop a b : Nat) : Nat :=
  if fmt = 4 ∨ fmt = 5 then (a + b) % 2 ^ 128
  else if fmt = 3 then (if redop = 0 then (a + b) % 2 ^ 32 else vMaxMin 4 (5 + redop) a b)
  else
    let ty := if fmt = 2 then 0 else 1
    if redop = 0 then vAdd ty 2 a b else vMaxMin ty (5 + redop) a b

/-! ### Pieces and steps (R341, R343) -/

/-- Elements of a piece: the vector in n pieces. -/
def pieceLen (count n : Nat) : Nat := (count + n - 1) / n

/-- First element and number of elements of `m` pieces from piece q of n. -/
def pieces (count n q m : Nat) : Nat × Nat :=
  let p := pieceLen count n
  let lo := min count (q * p)
  (lo, min count ((q + m) * p) - lo)

/-- The least n with 2^n ≥ g. -/
def ceilLog2 (g : Nat) : Nat := if g ≤ 1 then 0 else Nat.log2 (g - 1) + 1

/-- The depth of a part in the tree. -/
def treeDepth (p : Nat) : Nat := Nat.log2 (p + 1)

/-- A step in which this member does nothing. -/
def CollStep.idle : CollStep := { recv := [], to_ := [], sendAt := 0, sendLen := 0, recvAt := 0, recvLen := 0, reduce := false }

/-- A step that sends one range and receives another. -/
def CollStep.move (recv to_ : List Nat) (send got : Nat × Nat) (reduce : Bool) : CollStep :=
  { recv := recv, to_ := to_, sendAt := send.1, sendLen := send.2, recvAt := got.1, recvLen := got.2, reduce := reduce }

/-- The ring reduce-scatter over the k chunks within a part. -/
def ringReduce (count k g i p : Nat) : List CollStep :=
  (List.range (k - 1)).map (fun s => CollStep.move [p * k + (i + k - 1) % k] [p * k + (i + 1) % k]
    (pieces count (k * g) ((i + k - 1 - s) % k * g) g) (pieces count (k * g) ((i + 2 * k - 2 - s) % k * g) g) true)

/-- The ring allgather over the k chunks within a part. -/
def ringGather (count k g i p : Nat) : List CollStep :=
  (List.range (k - 1)).map (fun s => CollStep.move [p * k + (i + k - 1) % k] [p * k + (i + 1) % k]
    (pieces count (k * g) ((i + k - s) % k * g) g) (pieces count (k * g) ((i + 2 * k - 1 - s) % k * g) g) false)

/-- The children of a part in the tree that exist. -/
def treeChildren (g p : Nat) : List Nat := [2 * p + 1, 2 * p + 2].filter (fun c => decide (c < g))

/-- The way up the tree across parts at one position: sums to part 0. [DEDUCED, log 116] -/
def treeUp (k g i p : Nat) (range : Nat × Nat) : List CollStep :=
  let d := ceilLog2 g
  (List.range d).map (fun u =>
    if treeDepth p = d - u then CollStep.move [] [(p - 1) / 2 * k + i] range (0, 0) true
    else if treeDepth p + 1 = d - u then CollStep.move ((treeChildren g p).map (fun c => c * k + i)) [] (0, 0) range true
    else CollStep.idle)

/-- The way down the tree across parts at one position: part 0's result to every part. -/
def treeDown (k g i p : Nat) (range : Nat × Nat) : List CollStep :=
  (List.range (ceilLog2 g)).map (fun d =>
    if treeDepth p = d then CollStep.move [] ((treeChildren g p).map (fun c => c * k + i)) range (0, 0) false
    else if treeDepth p = d + 1 then CollStep.move [(p - 1) / 2 * k + i] [] (0, 0) range false
    else CollStep.idle)

/-- The ring across parts that gathers the pieces of one chunk. [DEDUCED, log 116] -/
def partsGather (count k g i p : Nat) : List CollStep :=
  (List.range (g - 1)).map (fun s => CollStep.move [(p + g - 1) % g * k + i] [(p + 1) % g * k + i]
    (pieces count (k * g) (i * g + (p + g - s) % g) 1) (pieces count (k * g) (i * g + (p + 2 * g - 1 - s) % g) 1) false)

/-- The steps of a BROADCAST: to position root % k of part 0, down the tree there, then round each part's ring. -/
def broadcastSteps (count k g i p root : Nat) : List CollStep :=
  let c := root % k
  let all := (0, count)
  let first := if root / k = 0 then []
    else [if p * k + i = root then CollStep.move [] [c] all (0, 0) false
      else if p = 0 ∧ i = c then CollStep.move [root] [] (0, 0) all false else CollStep.idle]
  let down := if i = c then treeDown k g i p all else List.replicate (ceilLog2 g) CollStep.idle
  first ++ down ++ (List.range (k - 1)).map (fun s =>
    if i = (c + s) % k then CollStep.move [] [p * k + (i + 1) % k] all (0, 0) false
    else if i = (c + s + 1) % k then CollStep.move [p * k + (i + k - 1) % k] [] (0, 0) all false
    else CollStep.idle)

/-- The steps of a collective at a rank (R343). A BARRIER has none: it exchanges READYs alone. [DEDUCED, log 116] -/
def collSteps (op count k g rank root : Nat) : List CollStep :=
  let p := rank / k
  let i := rank % k
  let chunk := pieces count (k * g) (i * g) g
  if op = 0x40 then ringReduce count k g i p ++ treeUp k g i p chunk ++ treeDown k g i p chunk ++ ringGather count k g i p
  else if op = 0x41 then ringReduce count k g i p ++ treeUp k g i p chunk ++ treeDown k g i p chunk
  else if op = 0x42 then partsGather count k g i p ++ ringGather count k g i p
  else if op = 0x43 then broadcastSteps count k g i p root
  else []

/-- The piece that a rank keeps or gives: q = position × G + part. -/
def ownPiece (count k g rank : Nat) : Nat × Nat := pieces count (k * g) (rank % k * g + rank / k) 1

/-- The elements of the vector that src holds at a rank, and those that dst takes. -/
def srcRange (op count k g rank root : Nat) : Nat × Nat :=
  if op = 0x40 ∨ op = 0x41 then (0, count) else if op = 0x42 then ownPiece count k g rank
  else if op = 0x43 ∧ rank = root then (0, count) else (0, 0)
def dstRange (op count k g rank : Nat) : Nat × Nat :=
  if op = 0x41 then ownPiece count k g rank else if op = 0x44 then (0, 0) else (0, count)

end Sys2Proof.Machine
end

