-- ==== Sys2Proof/Machine/Coll.lean ====
section
/-! DEFINITION. Collectives on the engines: issue, the communicator record, credit, steps, results, and how a collective ends (R339–R352). -/
namespace Sys2Proof.Machine

/-- The key of an engine's slot. -/
def collKey (e sl : Nat) : Nat := e * 4 + sl

/-- The collective in a slot. -/
def State.collRun (s : State) (key : Nat) : Option CollRun := (s.coll.slots.find? (fun p => p.1 == key)).map (·.2)

/-- COLL_ENG_STATUS of an engine shown. -/
def State.showEngine (s : State) (e : Nat) : State :=
  let here := (List.range 4).filter (fun i => (s.collRun (collKey e i)).isSome)
  (s.wr (Reg.COLL_ENG_STATUS_open e) here.length).wr (Reg.COLL_ENG_STATUS_slots e) (here.foldl (fun v i => v + 2 ^ i) 0)

/-- The state with a slot's collective replaced. -/
def State.setColl (s : State) (key : Nat) (x : CollRun) : State :=
  { s with coll := { s.coll with slots := s.coll.slots.put key x } }

/-- Whether a slot waits for COLL_STEP, and the bit that shows it. -/
def State.collPend (s : State) (key : Nat) (on : Bool) : State := s.wr ⟨Reg.COLL_PEND, key, key⟩ (ofBool on)

/-! ### Messages (R346) -/

/-- The 16-byte subheader. -/
def collSub (comm cseq step offset : Nat) : List Byte := leBytes 4 comm ++ leBytes 4 cseq ++ leBytes 2 step ++ leBytes 6 offset

/-- The device of a rank. -/
def CollRun.device (x : CollRun) (rank : Nat) : Nat := (x.members[rank]?).getD 0

/-- A collective message to a rank, on the connection to its device under the record's slot. -/
def State.collSend (s : State) (x : CollRun) (rank op step offset : Nat) (body : List Byte) (poison : Bool) : State :=
  match s.connFor (x.device rank) x.slot with
  | some e => s.sendMsg e (FabMsg.make op 0 (collSub x.comm x.cseq step offset ++ body) poison 0 none)
  | none => s

/-- The fields of a descriptor as a READY carries them; R346 names them and gives no places, so the model packs them. [DESIGN CHOICE, log 115] -/
def readyBody (op count fmt redop xs root : Nat) : List Byte :=
  leBytes 1 op ++ leBytes 5 count ++ leBytes 1 (fmt + 8 * redop) ++ leBytes 1 0 ++ leBytes 2 xs ++ leBytes 2 root ++ leBytes 4 0

/-- A READY that grants credit for a step to the rank that sends in it. -/
def State.sendReady (s : State) (x : CollRun) (rank step credit : Nat) : State :=
  s.collSend x rank 0x40 step credit (readyBody x.op x.count x.fmt x.redop x.xsExp x.root) false

/-! ### The end of a collective (R347, R348, R351) -/

/-- Info field of the collective class. -/
def CollRun.info (x : CollRun) (device origin : Nat) : Nat :=
  device * 2 ^ 34 + ofBool (decide (x.extended ≠ 0)) * 2 ^ 33 + ofBool x.saturated * 2 ^ 32 + min x.done 65535 * 2 ^ 16 + origin

/-- A collective completes at this member with a status; its slot is free. -/
def State.collFinish (s : State) (key status device origin : Nat) : State :=
  match s.collRun key with
  | none => s
  | some x =>
    let e := key / 4
    let s := { s with coll := { s.coll with slots := s.coll.slots.del key } }
    let s := ((s.orphan (fun w => w == Who.coll e (key % 4)) (some (x.ring, x.seq))).collPend key false).showEngine e
    let s := s.sat (Reg.COLL_ENG_COUNT_completed e) 1
    let s := if 0x0100 ≤ status then s.sat (Reg.COLL_ENG_COUNT_errors e) 1 else s
    s.finish x.ring x.seq status none (x.info device origin)

/-- ABORT with a status sent to every other member. -/
def State.sendAbort (s : State) (x : CollRun) (status : Nat) : State :=
  ((List.range (x.k * x.g)).filter (fun r => r != x.rank)).foldl (fun (s : State) r =>
    s.collSend x r 0x42 0 0 (leBytes 2 status ++ leBytes 2 s.deviceId ++ leBytes 4 x.rank) false) s

/-- A collective ended by an error of this member: ABORT to the others, and its own completion. [DEDUCED, log 119] -/
def State.collFail (s : State) (key status device : Nat) : State :=
  match s.collRun key with
  | none => s
  | some x => (if x.ready then s.sendAbort x status else s).collFinish key status device 0

/-- A collective ended because a member is lost, by an ABORT with the status of its origin or by a LOST: neither is one of R351's causes, so no ABORT
is sent on. [DEDUCED, log 119] -/
def State.collLost (s : State) (key device origin : Nat) : State :=
  match s.collRun key with
  | none => s
  | some _ => s.collFinish key stMemberLost device origin

/-! ### Issue (R339, R340, R341, R342, R347) -/

/-- The body check of opcodes 0x40–0x44 (R341). -/
def collOk (b : List Byte) : Bool :=
  let w := descBits b 0x18 63 0
  let bar := opOf b == 0x44
  let fmt := bits w 42 40
  let redop := bits w 44 43
  descBits b 8 63 56 == 0 && descBits b 0x10 63 56 == 0 && descBits b 0x20 63 56 == 0 && bits w 63 45 == 0 &&
  (if bar then descBits b 8 63 0 == 0 && descBits b 0x10 63 0 == 0 && bits w 39 0 == 0 else bits w 39 0 != 0) &&
  decide (fmt ≤ 5 ∧ redop ≤ 2) && (decide (fmt < 4) || redop == 0) &&
  (opOf b == 0x43 || descBits b 0x28 63 48 == 0) && descBits b 0x30 63 16 == 0 && zeroFrom b 0x38 8

/-- The engine of a ring. -/
def State.ringEngine (s : State) (r : Nat) : Nat := s.rd (Reg.QM_RING_CFG_engine r)

/-- A free slot of an engine. -/
def State.freeSlot (s : State) (e : Nat) : Option Nat := (List.range 4).find? (fun i => (s.collRun (collKey e i)).isNone)

/-- Units of time of a number of milliseconds or microseconds. -/
def msTime (n : Nat) : Nat := n * 2 ^ 32 / 1000
/-- A collective put in a slot: its record is read next. -/
def State.openColl (s : State) (r seq : Nat) : State :=
  match s.runOf r seq, s.freeSlot (s.ringEngine r) with
  | some d, some i =>
    let b := d.cur
    let w := descBits b 0x18 63 0
    let ms := descBits b 0x28 47 32
    let x : CollRun :=
      { ring := r, seq := seq, ctx := s.ringCtx r, phys := d.phys, op := opOf b, fmt := bits w 42 40, redop := bits w 44 43, count := bits w 39 0,
        root := descBits b 0x28 63 48, xsExp := descBits b 0x30 15 0, src := descBits b 8 55 0, dst := descBits b 0x10 55 0,
        commVa := descBits b 0x20 55 0, cseq := descBits b 0x28 31 0,
        deadline := s.now + msTime (if ms = 0 then s.rd Reg.COLL_CFG_default_timeout_ms else ms),
        ready := false, rec_ := [], comm := 0, k := 1, g := 1, slot := 0, rank := 0, members := [], extended := 0, steps := [], done := 0,
        begun := false, stepped := s.duty 2, released := false, byFirmware := false, work := [], loaded := 0, part_ := [], got := [], granted := [], sent := [], credits := [],
        saturated := false, poison := false, extSeq := [], written := 0 }
    let s := if s.classBelow 33 then s.updRun r seq (fun (d : Run) => { d with oversub := true }) else s
    (s.setColl (collKey (s.ringEngine r) i) x).showEngine (s.ringEngine r)
  | _, _ => s

/-- What is wrong with a record that has been read, as a status, or 0 (R339, R340, R341). A CM2 package is no member that a collective
reaches (R24). [DEDUCED, log 168] -/
def State.collRefused (s : State) (x : CollRun) : Nat :=
  let n := x.k * x.g
  let parts := (List.range x.g).map (fun p => (x.members.drop (p * x.k)).take x.k)
  let groups := parts.map (fun (m : List Nat) => (m.head?.getD 0) / 64)
  if x.device x.rank ≠ s.deviceId ∨ n ≤ x.rank ∨ x.members.eraseDups.length ≠ n ∨ groups.eraseDups.length ≠ x.g ∨
      (parts.zip groups).any (fun (p : List Nat × Nat) => p.1.any (fun d => d / 64 != p.2)) ∨ x.slot < 11 ∨ (x.op = 0x43 ∧ n ≤ x.root) then stMalformed
  else
    let others := x.members.filter (fun d => d != s.deviceId)
    if others.any (fun d => (s.connFor d x.slot).isNone || s.toCm2 d x.slot) then stPeerUnreachable
    else if others.any (fun d => s.quarantined d || (d / 64 == s.deviceId / 64 && s.hier.lostKnown.contains (d % 64))) then stMemberLost
    else 0

/-- The member that a refused record names in the info field. -/
def State.collCulprit (s : State) (x : CollRun) : Nat :=
  ((x.members.filter (fun d => d != s.deviceId)).find? (fun d => (s.connFor d x.slot).isNone || s.toCm2 d x.slot || s.quarantined d ||
    (d / 64 == s.deviceId / 64 && s.hier.lostKnown.contains (d % 64)))).getD 0

/-- READY's count of waiting entries shown. -/
def State.showReady (s : State) : State := s.wr Reg.COLL_READY_STAT_in_use s.coll.ready.length

/-- Whether a READY's fields agree with a collective's (R342). -/
def ReadyMsg.agrees (m : ReadyMsg) (x : CollRun) : Bool :=
  m.op == x.op && m.count == x.count && m.fmt == x.fmt && m.redop == x.redop && m.xsExp == x.xsExp && m.root == x.root

/-- A READY taken by an open collective. [DEDUCED, log 119] -/
def State.takeReady (s : State) (key : Nat) (m : ReadyMsg) : State :=
  match s.collRun key with
  | none => s
  | some x =>
    if !x.members.contains m.src then s
    else if !m.agrees x then s.collFail key stMalformed m.src
    else s.setColl key { x with credits := x.credits ++ [(x.members.idxOf m.src, m.step, m.credit)] }

/-- The READYs that waited for a collective taken by it. -/
def State.takeWaiting (s : State) (key : Nat) : State :=
  match s.collRun key with
  | none => s
  | some x =>
    let mine (m : ReadyMsg) : Bool := m.ctx == x.ctx && m.comm == x.comm && m.cseq == x.cseq
    let ms := s.coll.ready.filter mine
    let s := { s with coll := { s.coll with ready := s.coll.ready.filter (fun m => !mine m) } }.showReady
    ms.foldl (fun (s : State) m => s.takeReady key m) s

/-- A record that has been read whole: refused, or laid out in steps. A malformed one sends ABORT to the members that it names (R351); when a member
cannot be reached or is lost, nothing is sent (R340). -/
def State.collLaidOut (s : State) (key : Nat) (x : CollRun) : State :=
  let n := x.k * x.g
  let members := (List.range n).map (fun i => leValue ((x.rec_.drop (16 + 2 * i)).take 2))
  let x := { x with members := members, comm := leValue (x.rec_.take 4), slot := descBits x.rec_ 0 51 48, rank := descBits x.rec_ 8 15 0 }
  let bad := s.collRefused x
  if descBits x.rec_ 0 63 52 ≠ 0 ∨ descBits x.rec_ 8 63 16 ≠ 0 ∨ bad = stMalformed then
    (if x.slot < 11 then s else s.sendAbort x stMalformed).collFinish key stMalformed s.deviceId 0
  else if bad ≠ 0 then s.collFinish key bad (s.collCulprit x) 0
  else
    let x := { x with ready := true, steps := collSteps x.op x.count x.k x.g x.rank x.root,
                      work := List.replicate x.count (0, false) }
    (s.setColl key x).takeWaiting key

/-! ### Access to memory by an engine -/

/-- One access of a collective to an address field of its descriptor, number `i`: bytes, a wait, or its end by a fault, an error or a new generation that
a strict descriptor meets (R204, R205, R208). -/
def State.collAccess (s : State) (key : Nat) (x : CollRun) (i addr off whole n : Nat) (a : Acc) (data : List PByte) : Option (List PByte) × State :=
  match s.runOf x.ring x.seq with
  | none => (none, s)
  | some d =>
  let who := Who.coll (key / 4) (key % 4)
  match s.nextXfer who x.ring d addr off whole a with
  | .stale => (none, s.collFail key stStaleGen s.deviceId)
  | .fault kind seg =>
    let (paused, s) := s.ringFault x.ring x.seq (addr + off) kind seg a
    (none, if paused then s else s.collFail key stSegFault s.deviceId)
  | .ok t seg left =>
    let m := t.room (min n left)
    let s := if (s.going who (a != .read)).isSome then s else s.holdField x.ring x.seq i seg
    let got := match a with
      | .write => s.writeAt who x.ctx seg t (data.take m)
      | _ => s.readAt who x.ctx seg t m
    match got with
    | (.wait, s) => (none, s)
    | (.fail st, s) => (none, s.collFail key st s.deviceId)
    | (.data bs, s) => (some (match a with | .write => data.take m | _ => bs), s)

/-- Most bytes that an engine takes in one access. -/
def collUnit : Nat := 2048

/-- The next part of the communicator record read. -/
def State.collRecord (s : State) (key : Nat) (x : CollRun) : Bool × State :=
  let total := if x.rec_.length < 16 then 16 else 16 + 2 * x.k * x.g
  if total ≤ x.rec_.length then (true, s.collLaidOut key x)
  else match s.collAccess key x (if x.op = 0x44 then 0 else if x.op = 0x43 then 1 else 2) x.commVa x.rec_.length total (min collUnit (total - x.rec_.length)) .read [] with
    | (none, s) => (false, s)
    | (some bs, s) =>
      if bs.any (·.2) then (true, s.collFinish key stPoison 0 0)
      else
        let r := x.rec_ ++ bs.map (·.1)
        let x := { x with rec_ := r }
        let x := if 16 ≤ r.length then { x with k := descBits r 0 37 32 + 1, g := descBits r 0 47 38 + 1 } else x
        (true, s.setColl key x)

/-- Elements of the vector replaced from an index up. -/
def putElems (work : List (Nat × Bool)) (i : Nat) (es : List (Nat × Bool)) : List (Nat × Bool) :=
  work.take i ++ (es.take (work.length - i)) ++ work.drop (i + es.length)

/-- Elements of w bytes from marked bytes. -/
def elemsOf (w : Nat) (bs : List PByte) : List (Nat × Bool) :=
  (List.range (bs.length / w)).map (fun i =>
    let e := (bs.drop (i * w)).take w
    (leValue (e.map (·.1)), e.any (·.2)))

/-- Marked bytes of elements of w bytes. -/
def bytesOf (w : Nat) (es : List (Nat × Bool)) : List PByte := es.flatMap (fun e => (leBytes w e.1).map (fun b => (b, e.2)))

/-- The next part of src read; an element that the end of a part cuts is kept until the next part brings its rest. -/
def State.collInput (s : State) (key : Nat) (x : CollRun) (range : Nat × Nat) : Bool × State :=
  let w := collBytes x.fmt
  let total := range.2 * w
  match s.collAccess key x 0 x.src x.loaded total (min collUnit (total - x.loaded)) .read [] with
  | (none, s) => (false, s)
  | (some bs, s) =>
    let e := signed 16 x.xsExp
    let at_ := x.loaded - x.part_.length
    let all := x.part_ ++ bs
    let raw := elemsOf w all
    let es := raw.map (fun (p : Nat × Bool) => ((collLoad x.op x.fmt e p.1).1, p.2))
    let sat := raw.any (fun p => (collLoad x.op x.fmt e p.1).2)
    let y := { x with work := putElems x.work (range.1 + at_ / w) es, loaded := x.loaded + bs.length, part_ := all.drop (raw.length * w) }
    (decide (bs ≠ []), s.setColl key { y with saturated := x.saturated || sat, poison := x.poison || raw.any (·.2) })

/-! ### Steps (R343, R346, R348) -/

/-- Credit that one receiver grants for a step at a time. [DESIGN CHOICE, log 117] -/
def collCredit : Nat := 262144

/-- The value under a rank in a list. -/
def rankGet (l : List (Nat × Nat)) (r : Nat) : Nat := ((l.find? (fun p => p.1 == r)).map (·.2)).getD 0
def rankPut (l : List (Nat × Nat)) (r v : Nat) : List (Nat × Nat) := (r, v) :: l.filter (fun p => p.1 != r)

/-- Bytes received from a rank in the current step. -/
def CollRun.gotFrom (x : CollRun) (r : Nat) : List PByte := ((x.got.find? (fun p => p.1 == r)).map (·.2)).getD []

/-- Credit that a receiver has granted for a step. -/
def CollRun.creditOf (x : CollRun) (r step : Nat) : Nat :=
  (x.credits.filter (fun c => c.1 == r && c.2.1 == step)).foldl (fun n c => n + c.2.2) 0

/-- A step begun: credit granted to every rank that sends in it. The first READY lets the ring's next descriptor issue (R347). -/
def State.collBegin (s : State) (key : Nat) (x : CollRun) (st : CollStep) : State :=
  let total := st.recvLen * wireBytes x.op x.fmt
  let grant := min total collCredit
  let x := { x with begun := true, granted := st.recv.map (fun r => (r, grant)), sent := [], got := [] }
  let s := s.setColl key x
  if total = 0 ∨ st.recv = [] then s
  else (st.recv.foldl (fun (s : State) r => s.sendReady x r x.done grant) s).updRun x.ring x.seq (fun (d : Run) => { d with allIssued := true })

/-- The next piece that the current step can send under its credit: the receiver, the offset and the length. -/
def CollRun.nextSend (x : CollRun) (st : CollStep) : Option (Nat × Nat × Nat) :=
  let total := st.sendLen * wireBytes x.op x.fmt
  (st.to_.find? (fun r => decide (rankGet x.sent r < min total (x.creditOf r x.done)))).map (fun r =>
    (r, rankGet x.sent r, min 2032 (min total (x.creditOf r x.done) - rankGet x.sent r)))

/-- Whether everything of the current step has been sent and received. -/
def CollRun.stepDone (x : CollRun) (st : CollStep) : Bool :=
  let w := wireBytes x.op x.fmt
  st.to_.all (fun r => rankGet x.sent r == st.sendLen * w) && st.recv.all (fun r => (x.gotFrom r).length == st.recvLen * w)

/-- The vector after a step: what arrived added in order, or stored. -/
def CollRun.applied (x : CollRun) (st : CollStep) : List (Nat × Bool) :=
  let w := wireBytes x.op x.fmt
  let own := (x.work.drop st.recvAt).take st.recvLen
  let new := st.recv.foldl (fun (acc : List (Nat × Bool)) r =>
    let es := elemsOf w (x.gotFrom r)
    if st.reduce then (acc.zip es).map (fun (p : (Nat × Bool) × (Nat × Bool)) =>
      (if st.to_ = [] then collReduce x.fmt x.redop p.1.1 p.2.1 else collReduce x.fmt x.redop p.2.1 p.1.1, p.1.2 || p.2.2))
    else es) own
  if st.recv = [] then x.work else putElems x.work st.recvAt new

/-- The vector's bytes that a step sends. -/
def CollRun.sendBytes (x : CollRun) (st : CollStep) (off n : Nat) : List PByte :=
  let w := wireBytes x.op x.fmt
  let first := off / w
  let es := (x.work.drop (st.sendAt + first)).take (n / w + 2)
  ((bytesOf w es).drop (off % w)).take n

/-- A slot stops before a step in host-assisted mode (R348); the mode is that in force when the collective started (R25). -/
def CollRun.heldUp (x : CollRun) : Bool := x.stepped && !x.released

/-- Progress within the current step. -/
def State.collStepOn (s : State) (key : Nat) (x : CollRun) (st : CollStep) : Bool × State :=
  if !x.begun then
    if x.heldUp then (false, s.collPend key true) else (true, (s.collPend key false).collBegin key x st)
  else match x.nextSend st with
    | some (r, off, n) =>
      let bs := x.sendBytes st off n
      let s := s.collSend x r 0x41 x.done off (bs.map (·.1)) (bs.any (·.2))
      (true, s.setColl key { x with sent := rankPut x.sent r (off + n) })
    | none =>
      if x.stepDone st then
        let work := x.applied st
        (true, s.setColl key { x with work := work, done := x.done + 1, begun := false, released := false, got := [], granted := [], sent := [],
                                      poison := x.poison || work.any (·.2) })
      else (false, s)

/-- The status that a collective ends with when its dst holds the whole result. -/
def State.collStatus (s : State) (x : CollRun) : Nat :=
  match s.runOf x.ring x.seq with
  | some d => d.first.getD (if x.poison then stPoison else if d.oversub || s.classBelow 33 then stOversub else stSuccess)
  | none => stSuccess

/-- A BARRIER: a READY to every other member, and the end once every other member's has come (R341). [DEDUCED, log 116] -/
def State.collBarrier (s : State) (key : Nat) (x : CollRun) : Bool × State :=
  let others := (List.range (x.k * x.g)).filter (fun r => r != x.rank)
  if !x.begun then
    if x.heldUp then (false, s.collPend key true)
    else
      let s := others.foldl (fun (s : State) r => s.sendReady x r 0 0) (s.collPend key false)
      (true, (s.setColl key { x with begun := true }).updRun x.ring x.seq (fun (d : Run) => { d with allIssued := true }))
  else if others.all (fun r => x.credits.any (fun c => c.1 == r)) then (true, s.collFinish key (s.collStatus x) 0 0)
  else (false, s)

/-- The next part of dst written, or the end once every write has drained (R347, R348). -/
def State.collOutput (s : State) (key : Nat) (x : CollRun) : Bool × State :=
  let range := dstRange x.op x.count x.k x.g x.rank
  let w := collBytes x.fmt
  let total := range.2 * w
  if total ≤ x.written then
    if s.outstanding (.coll (key / 4) (key % 4)) then (false, s)
    else
      let st := s.collStatus x
      (true, if st = stPoison ∨ st < 0x0100 then s.collFinish key st 0 0 else s.collFail key st s.deviceId)
  else
    let first := x.written / w
    let es := ((x.work.drop (range.1 + first)).take (collUnit / w)).map (fun (p : Nat × Bool) => (collStore x.op x.fmt (signed 16 x.xsExp) p.1, p.2))
    let bs := ((bytesOf w es).drop (x.written % w)).take (min collUnit (total - x.written))
    match s.collAccess key x (if x.op = 0x43 then 0 else 1) x.dst x.written total bs.length .write bs with
    | (none, s) => (false, s)
    | (some done, s) => (true, s.setColl key { x with written := x.written + done.length })

/-- The status with which a collective's descriptor has ended elsewhere, by a time limit of the network or a failed engine, if it has. -/
def State.collOver (s : State) (x : CollRun) : Option Nat :=
  match s.runOf x.ring x.seq with
  | none => some stEngineLost
  | some d => if d.subs.isEmpty then d.status else if d.ends.length = d.sub then none else d.ends.getLast?.map SubEnd.status

/-- One unit of an open collective's progress: whether it moved. -/
def State.collMove (s : State) (key : Nat) : Bool × State :=
  match s.collRun key with
  | none => (false, s)
  | some x =>
    match s.collOver x with
    | some st => (true, s.collFail key st s.deviceId)
    | none =>
    if s.glb.stop ≠ 0 ∨ s.ringWaits x.ring = true then (false, s)
    else if !x.ready then s.collRecord key x
    else if x.op = 0x44 then s.collBarrier key x
    else
      let range := srcRange x.op x.count x.k x.g x.rank x.root
      if x.loaded < range.2 * collBytes x.fmt then s.collInput key x range
      else match x.steps[x.done]? with
        | some st => s.collStepOn key x st
        | none => s.collOutput key x

/-- An open collective carried on as far as it can go, up to a number of units. -/
def State.collAdvance (s : State) (key : Nat) : Nat → State
  | 0 => s
  | n + 1 =>
    match s.collMove key with
    | (true, s) => s.collAdvance key n
    | (false, s) => s

/-- Units that one command carries a collective on by. [DESIGN CHOICE, log 13] -/
def collFuel : Nat := 4096

/-- Every open collective of an engine's ring carried on. [DESIGN CHOICE, log 13] -/
def State.collAll (s : State) : State := (s.coll.slots.map (·.1)).foldl (fun (s : State) key => s.collAdvance key collFuel) s

/-- A collective descriptor started: a slot taken and carried on. -/
def State.startColl (s : State) (r seq : Nat) : State :=
  match s.freeSlot (s.ringEngine r) with
  | some i => (s.openColl r seq).collAdvance (collKey (s.ringEngine r) i) collFuel
  | none => s

/-- A collective at the head of a ring issued when its engine has a free slot (R347); what the ring has open is carried on. -/
def State.collIssue (s : State) (r op : Nat) : State :=
  let s := s.issueHead r (s.isOp r op) (fun _ q => collOk q.bytes) (fun s _ => (s.freeSlot (s.ringEngine r)).isNone)
    (fun s seq => s.startColl r seq)
  ((s.coll.slots.filter (fun p => p.2.ring == r)).map (·.1)).foldl (fun (s : State) key => s.collAdvance key collFuel) s

/-- ALLREDUCE (R343). -/
def execAllreduce (ring : Nat) (s : State) : Host.Outcome State Fault Refusal := .next (s.collIssue ring 0x40)

/-- REDUCE_SCATTER (R343). -/
def execReduceScatter (ring : Nat) (s : State) : Host.Outcome State Fault Refusal := .next (s.collIssue ring 0x41)

/-- ALLGATHER (R343). -/
def execAllgather (ring : Nat) (s : State) : Host.Outcome State Fault Refusal := .next (s.collIssue ring 0x42)

/-- BROADCAST (R343). -/
def execBroadcast (ring : Nat) (s : State) : Host.Outcome State Fault Refusal := .next (s.collIssue ring 0x43)

/-- BARRIER (R341). -/
def execBarrier (ring : Nat) (s : State) : Host.Outcome State Fault Refusal := .next (s.collIssue ring 0x44)

/-! ### Messages that arrive (R340, R342, R346, R350, R351, R352) -/

/-- The open collective of a context that a communicator and sequence name. -/
def State.collFor (s : State) (ctx comm cseq : Nat) : Option Nat :=
  (s.coll.slots.find? (fun p => p.2.ready && p.2.ctx == ctx && p.2.comm == comm && p.2.cseq == cseq)).map (·.1)

/-- READYs that the table holds at most. -/
def readyTable : Nat := 1024

/-- Whether a READY can be performed: its collective is open, or the table has room. -/
def State.readyRoom (s : State) (ctx comm cseq : Nat) : Bool :=
  (s.collFor ctx comm cseq).isSome || decide (s.coll.ready.length < readyTable)

/-- A READY performed. -/
def State.readyIn (s : State) (m : ReadyMsg) : State :=
  match s.collFor m.ctx m.comm m.cseq with
  | some key => (s.takeReady key m).collAdvance key collFuel
  | none => { s with coll := { s.coll with ready := s.coll.ready ++ [m] } }.showReady

/-- DATA performed: within its step and credit it is taken, and the credit is topped up as it is consumed. [DESIGN CHOICE, log 117] -/
def State.dataIn (s : State) (ctx src comm cseq step offset : Nat) (bs : List PByte) : State :=
  match s.collFor ctx comm cseq with
  | none => s
  | some key =>
    match s.collRun key with
    | none => s
    | some x =>
      match x.steps[x.done]? with
      | none => s
      | some st =>
        let r := x.members.idxOf src
        let have_ := x.gotFrom r
        if step ≠ x.done ∨ x.begun = false ∨ st.recv.contains r = false ∨ offset ≠ have_.length ∨ rankGet x.granted r < offset + bs.length then s
        else
          let total := st.recvLen * wireBytes x.op x.fmt
          let n := offset + bs.length
          let more := min (total - rankGet x.granted r) (collCredit - (rankGet x.granted r - n))
          let x := { x with got := (r, have_ ++ bs) :: x.got.filter (fun p => p.1 != r), granted := rankPut x.granted r (rankGet x.granted r + more) }
          let s := s.setColl key x
          let s := if more = 0 then s else s.sendReady x r x.done more
          s.collAdvance key collFuel

/-- ABORT performed. [DEDUCED, log 119] -/
def State.abortIn (s : State) (ctx comm cseq status device : Nat) : State :=
  match s.collFor ctx comm cseq with
  | some key => s.collLost key device status
  | none => s

/-- An EXTEND applied to every open collective that names the slow member (R350). -/
def State.extendIn (s : State) (device delay cairnSeq : Nat) : State :=
  (s.coll.slots.filter (fun p => p.2.ready && p.2.members.contains device)).foldl (fun (s : State) (p : Nat × CollRun) =>
    let x := p.2
    let newer := match x.extSeq.find? (fun q => q.1 == device) with
      | some q => decide (q.2 ≠ cairnSeq % 2 ^ 24) && seqUpTo q.2 cairnSeq
      | none => true
    let room := s.rd Reg.COLL_CFG_ext_limit_s * 1000000 - x.extended
    if newer then s.setColl p.1 { x with deadline := x.deadline + usTime (min delay room), extended := x.extended + min delay room,
                                         extSeq := rankPut x.extSeq device (cairnSeq % 2 ^ 24) }
    else s) s

/-- LOST applied to every open collective that names the member (R351, R352). -/
def State.lostIn (s : State) (device : Nat) : State :=
  ((s.coll.slots.filter (fun p => p.2.ready && p.2.members.contains device)).map (·.1)).foldl
    (fun (s : State) key => s.collLost key device 0) s

/-- A waiting slot's step released, by firmware or the driver (R348); one that is not waiting gives an event. -/
def State.releaseStep (s : State) (fw : Bool) (engine slot : Nat) : State :=
  let key := collKey (engine % 16) (slot % 4)
  match s.collRun key with
  | some x =>
    if bit (s.rd Reg.COLL_PEND_waiting) key then
      ((s.collPend key false).setColl key { x with released := true, byFirmware := x.byFirmware || fw }).collAdvance key collFuel
    else s.regEvent 1 Reg.COLL_STEP (engine % 16 + slot % 4 * 16)
  | none => s.regEvent 1 Reg.COLL_STEP (engine % 16 + slot % 4 * 16)

/-- COLL_STEP (R348). -/
def execCollStep (v : Word) (s : State) : Host.Outcome State Fault Refusal :=
  .next (s.releaseStep false (bits v.toNat 3 0) (bits v.toNat 5 4))

/-- COLL_DEADLINE (R351). -/
def execCollDeadline (engine slot : Nat) (s : State) : Host.Outcome State Fault Refusal :=
  match s.collRun (collKey engine slot) with
  | some x => if x.deadline ≤ s.now then .next (s.collFail (collKey engine slot) stCollTimeout s.deviceId) else .next s
  | none => .next s

/-- COLL_COMMIT (R357): at once. -/
def execCollCommit (v : Word) (s : State) : Host.Outcome State Fault Refusal :=
  if bits v.toNat 0 0 = 0 then .next s
  else if s.shf Reg.COLL_CFG_default_timeout_ms < 10 then .next (s.commitRefused Reg.COLL_COMMIT_STATUS 1)
  else if 200 < s.shf Reg.COLL_CFG_mirror_gbps then .next (s.commitRefused Reg.COLL_COMMIT_STATUS 2)
  else if s.shf Reg.COLL_CFG_ext_limit_s = 0 then .next (s.commitRefused Reg.COLL_COMMIT_STATUS 3)
  else .next ((s.commitReg Reg.COLL_CFG).commitDone Reg.COLL_COMMIT_STATUS)

end Sys2Proof.Machine
end

