-- ==== Sys2Proof/Machine/Faults.lean ====
section
/-! DEFINITION. The end of a fault record: RESUME and ABORT (R210–R212). -/
namespace Sys2Proof.Machine

/-! ### The end of a fault record (R211, R212) -/

/-- The agents joined to a record. -/
def State.joinedTo (s : State) (r : Nat) : List Agent := s.xlat.joined.get [] r

/-- A record freed. -/
def State.freeRecord (s : State) (r : Nat) : State :=
  let s := { s with xlat := { s.xlat with joined := s.xlat.joined.del r } }
  let s := (s.wr (Reg.XLAT_FAULT_INFO_state r) 0).wr (Reg.XLAT_FAULT_INFO_join_count r) 0
  s.wr Reg.XLAT_STATUS_open_records (s.rd Reg.XLAT_STATUS_open_records - 1)

/-- Whether an agent still waits under a record: a halt, a time limit or a blanket may have taken it away. -/
def State.waitsUnder (s : State) (r : Nat) : Agent → Bool
  | .ring q => (s.ring q).paused.any (fun p => p.record == r)
  | .tile t => match (s.tile t).wait with | .record k _ _ _ => k == r | _ => false

/-- A ring that waits under a record goes on: its state is ACTIVE again unless it has halted meanwhile (R220). -/
def State.unpause (s : State) (q : Nat) : State :=
  (if s.rd (Reg.QM_RING_STATE_state q) = ringPaused then s.wr (Reg.QM_RING_STATE_state q) ringActive else s).setRing q { s.ring q with paused := none }

/-- The paused descriptor of a ring ended with SEG_FAULT as hardware mode does, or with the error that it had met before (R238): an issued one, with its
collective, or the next to issue. -/
def State.abortRing (s : State) (q seq : Nat) : State :=
  match s.runOf q seq with
  | some d =>
    match s.coll.slots.find? (fun p => p.2.ring == q && p.2.seq == seq) with
    | some p => s.collFail p.1 stSegFault s.deviceId
    | none =>
      let s := s.updRun q seq (fun (d : Run) => if d.subs.isEmpty then d else { d with sub := d.ends.length })
      (s.noteErr q seq stSegFault).finish q seq (d.first.getD stSegFault) none d.pos
  | none =>
    match (s.ring q).fetched.head? with
    | some h => if h.seq = seq then s.endHead q h stSegFault else s
    | none => s

/-- An aborted agent handled as in hardware mode (R210, R212): its event carries what the record holds. [DEDUCED, log 70] -/
def State.abortAgent (s : State) (r : Nat) (a : Agent) : State :=
  let c := s.rd (Reg.XLAT_FAULT_INFO_ctx r)
  let kind := s.rd (Reg.XLAT_FAULT_INFO_kind r)
  let seg := if s.on (Reg.XLAT_FAULT_INFO_no_segment r) then none else some (s.rd (Reg.XLAT_FAULT_INFO_segment r))
  let acc : Acc := match s.rd (Reg.XLAT_FAULT_INFO_access r) with | 0 => .read | 1 => .write | _ => .atomic
  let va := s.rd (Reg.XLAT_FAULT_VA_va r)
  match a with
  | .ring q =>
    let seq := ((s.ring q).paused.map PauseAt.seq).getD 0
    ((s.segFaultEvent (s.faultAgent q seq) c va kind seg acc false).unpause q).abortRing q seq
  | .tile t => (s.segFaultEvent (tileAgent t) c va kind seg acc false).tileSegFault t

/-- A resumed ring (R212): the address that faulted translates again under the set now in force, and the other addresses of a head that has not
issued. A translation that still fails faults again. -/
def State.resumeRing (s : State) (q : Nat) (p : PauseAt) : State :=
  let s := s.unpause q
  let again (va kind : Nat) (seg : Option Nat) (a : Acc) : State :=
    let (paused, s) := s.ringFault q p.seq va kind seg a
    if paused then s else s.abortRing q p.seq
  match s.translate (s.ringCtx q) p.va p.acc with
  | .fault kind seg => again p.va kind seg p.acc
  | .ok _ _ _ =>
    match (s.ring q).fetched with
    | h :: t =>
      if h.seq ≠ p.seq then s
      else match s.checkFields q h.phys (s.strictOf q h.bytes) (s.addrFields q h.bytes) h.held with
        | .fault va kind seg a => again va kind seg a
        | .stale => s
        | .ok held => s.setRing q { s.ring q with fetched := { h with held := held } :: t }
    | [] => s

/-- A resumed tile (R212): its command translates again. -/
def State.resumeTile (s : State) (t va : Nat) (acc : Acc) (back : TileWait) : State :=
  let s := (s.setTile t { s.tile t with wait := back }).tileState t 1
  match (s.tile t).run with
  | none => s
  | some d => match s.translate d.ctx va acc with
    | .ok _ _ _ => s
    | .fault kind seg => s.tileFault t d.ctx va kind seg acc

/-- A resumed agent: its ring or tile translates again and goes on (R212). -/
def State.resumeAgent (s : State) : Agent → State
  | .ring q => match (s.ring q).paused with | some p => s.resumeRing q p | none => s
  | .tile t => match (s.tile t).wait with | .record _ va acc back => s.resumeTile t va acc back | _ => s

/-- A write of XLAT_RESUME that names a free record is discarded with an event (R212). [DESIGN CHOICE, log 10] -/
def State.noRecord (s : State) (v : Nat) : State := s.regEvent 1 Reg.XLAT_RESUME v

/-- FAULT_RESUME (R212). -/
def execFaultResume (index : Nat) (s : State) : Host.Outcome State Fault Refusal :=
  let r := index % 64
  if s.rd (Reg.XLAT_FAULT_INFO_state r) = 0 then .next (s.noRecord r)
  else .next (((s.joinedTo r).filter (s.waitsUnder r)).foldl State.resumeAgent (s.freeRecord r))

/-- Every agent of a record aborted, and the record freed. -/
def State.abortRecord (s : State) (r : Nat) : State :=
  (((s.joinedTo r).filter (s.waitsUnder r)).foldl (fun (s : State) a => s.abortAgent r a) s).freeRecord r

/-- FAULT_ABORT (R212). -/
def execFaultAbort (index : Nat) (s : State) : Host.Outcome State Fault Refusal :=
  let r := index % 64
  if s.rd (Reg.XLAT_FAULT_INFO_state r) = 0 then .next (s.noRecord (256 + r))
  else .next (s.abortRecord r)

end Sys2Proof.Machine
end

