-- ==== Sys2Proof/Machine/CrcUnits.lean ====
section
/-! DEFINITION. The CRC descriptors, claims, failures and register writes of the check-value units (R248–R255). -/
namespace Sys2Proof.Machine

/-- The body check of CRC_DATA (R250). -/
def crcDataOk (b : List Byte) : Bool :=
  let w := descBits b 0x10 63 0
  let fold := bits w 44 43
  descBits b 8 63 56 == 0 && bits w 63 46 == 0 && fold != 3 && (bit w 42 || fold == 0) &&
  descBits b 0x18 63 32 == 0 && (fold == 2 || descBits b 0x18 31 0 == 0) && zeroFrom b 0x28 24

/-- The body check of CRC_BLOCKS (R251). -/
def crcBlocksOk (b : List Byte) : Bool :=
  let w := descBits b 0x18 63 0
  let out := descBits b 0x10 63 0
  let exp := descBits b 0x20 63 0
  descBits b 8 63 56 == 0 && bits out 63 56 == 0 && bits exp 63 56 == 0 && out % 8 == 0 && exp % 8 == 0 &&
  (bit w 48 || out == 0) && (bit w 49 || exp == 0) && bits w 23 0 != 0 && bits w 43 24 != 0 && bits w 47 46 != 3 &&
  bits w 63 50 == 0 && descBits b 0x28 63 32 == 0 && (bits w 47 46 == 2 || descBits b 0x28 31 0 == 0) && zeroFrom b 0x30 16

/-- The body check of CRC_SAVE (R252). -/
def crcSaveOk (b : List Byte) : Bool :=
  descBits b 8 63 0 == 0 && descBits b 16 63 56 == 0 && descBits b 16 3 0 == 0 && zeroFrom b 0x18 40

/-- The body check of CRC_LOAD (R252). -/
def crcLoadOk (b : List Byte) : Bool :=
  descBits b 8 63 56 == 0 && descBits b 8 3 0 == 0 && zeroFrom b 0x10 48

/-- The unit that a CRC ring names. -/
def State.ringUnit (s : State) (r : Nat) : Nat := s.rd (Reg.QM_RING_CFG_engine r)

/-- A CRC descriptor or sub-descriptor started: it asks for its ring's unit (R248). -/
def State.startCrc (s : State) (r seq : Nat) : State :=
  let s := if s.classBelow 32 then s.updRun r seq (fun (d : Run) => { d with oversub := true }) else s
  s.crcAsk (s.ringUnit r) r seq

/-- A CRC descriptor ended, and its unit released, which every end does (R248): with the error that it met first, if there is one. -/
def State.endCrc (s : State) (r seq status : Nat) (check : Option Nat) (info : Nat) : State :=
  let oversub := match s.runOf r seq with | some d => d.oversub || s.classBelow 32 | none => false
  let st := match s.runOf r seq with | some d => d.first.getD status | none => status
  s.finish r seq (if st = stSuccess ∧ oversub = true then stOversub else st) check info

/-- A source read that returned poison: POISON, and R is undefined (R253). [DESIGN CHOICE, log 77] -/
def State.poisonCrc (s : State) (r seq info : Nat) : State :=
  let u := s.ringUnit r
  let x := s.freeVal
  ((s.crcSet u (x % 2 ^ crcWidth (s.crcPoly u))).useFree).endCrc r seq stPoison none info

/-- One read of a CRC descriptor: the transfer's bytes, after the generation check (R204, R205, R208), or what ended or held it. Poison in a source
leaves R undefined (R253). -/
def State.crcRead (s : State) (r : Nat) (d : Run) (i addr off whole n : Nat) (source : Bool) (go : State → List Byte → State) : State :=
  let who := Who.run r d.seq
  match s.nextXfer who r d addr off whole .read with
  | .stale => s.endCrc r d.seq stStaleGen none d.pos
  | .fault k g => s.runFault r d.seq (addr + off) k g .read d.pos
  | .ok t seg left =>
    let n := t.room (min (min n packetBytes) left)
    let s := if (s.going who false).isSome then s else s.holdField r d.seq i seg
    match s.readAt who (s.ringCtx r) seg t n with
    | (.wait, s) => s
    | (.fail st, s) => s.endCrc r d.seq st none d.pos
    | (.data bs, s) =>
      if !bs.any Prod.snd then go s (bs.map Prod.fst)
      else if source then s.poisonCrc r d.seq d.pos else s.endCrc r d.seq stPoison none d.pos

/-- CRC_DATA's next transfer (R250). -/
def State.crcDataStep (s : State) (r : Nat) (d : Run) : State :=
  let u := s.ringUnit r
  let b := d.cur
  let len := descBits b 0x10 39 0
  let done (s : State) : State :=
    let v := crcReport (s.crcPoly u) (s.crcVal u)
    s.endCrc r d.seq (if bit (descBits b 0x10 63 0) 45 && v != descBits b 0x20 63 0 then stCheckMismatch else stSuccess)
      (some v) len
  if len ≤ d.pos then done s
  else s.crcRead r d 0 (descBits b 8 55 0) d.pos len (len - d.pos) true (fun s bs =>
    let s := s.crcSet u (crcFeed (s.crcPoly u) bs (s.crcVal u))
    let s := s.updRun r d.seq (fun (d : Run) => { d with pos := d.pos + bs.length })
    if len ≤ d.pos + bs.length then done s else s)

/-- The move from one block of CRC_BLOCKS to the next, or its end (R251). -/
def State.crcNextBlock (s : State) (r : Nat) (d : Run) : State :=
  let u := s.ringUnit r
  let w := descBits d.cur 0x18 63 0
  let total := bits w 23 0 * bits w 43 24
  if total ≤ d.pos then s.endCrc r d.seq stSuccess (some (crcReport (s.crcPoly u) (s.crcVal u))) d.pos
  else s.updRun r d.seq (fun (d : Run) => { d with aux := 0 })

/-- CRC_BLOCKS's next transfer (R251): feeding (aux 0), writing the block's value (aux 1), comparing it (aux 2). -/
def State.crcBlocksStep (s : State) (r : Nat) (d : Run) : State :=
  let u := s.ringUnit r
  let b := d.cur
  let w := descBits b 0x18 63 0
  let bl := bits w 23 0
  let total := bl * bits w 43 24
  let poly := bits w 45 44
  let fold := bits w 47 46
  let src := descBits b 8 55 0
  let put := bit w 48
  let cmp := bit w 49
  if d.aux = 0 then
    let k := d.pos / bl
    let value := if fold = 1 then src + k * bl else (descBits b 0x28 31 0 + k) % 2 ^ 32
    s.crcRead r d 0 src d.pos total (bl - d.pos % bl) true (fun s bs =>
      let s := if d.pos % bl = 0 then s.crcSet u (crcStart poly fold value) else s
      let s := s.crcSet u (crcFeed poly bs (s.crcVal u))
      let pos := d.pos + bs.length
      let s := s.updRun r d.seq (fun (d : Run) => { d with pos := pos })
      if pos % bl ≠ 0 then s
      else if put then s.updRun r d.seq (fun (d : Run) => { d with aux := 1 })
      else if cmp then s.updRun r d.seq (fun (d : Run) => { d with aux := 2 })
      else match s.runOf r d.seq with | some d => s.crcNextBlock r d | none => s)
  else
    let k := d.pos / bl - 1
    let v := crcReport poly (s.crcVal u)
    if d.aux = 1 then
      let out := descBits b 0x10 55 0
      match s.nextXfer (.run r d.seq) r d out (8 * k) (8 * bits w 43 24) .write with
      | .stale => s.endCrc r d.seq stStaleGen none (k * bl)
      | .fault kind g => s.runFault r d.seq (out + 8 * k) kind g .write (k * bl)
      | .ok t seg _ =>
        let s := s.holdField r d.seq 1 seg
        match s.writeAt (.run r d.seq) (s.ringCtx r) seg t ((leBytes 8 v).map (fun x => (x, false))) with
        | (.wait, s) => s
        | (.fail st, s) => s.endCrc r d.seq st none (k * bl)
        | (.data _, s) => if cmp then s.updRun r d.seq (fun (d : Run) => { d with aux := 2 }) else s.crcNextBlock r d
    else s.crcRead r d (if put then 2 else 1) (descBits b 0x20 55 0) (8 * k) (8 * bits w 43 24) 8 false (fun s bs =>
      if leValue bs = v then s.crcNextBlock r d else s.endCrc r d.seq stCheckMismatch (some v) (k * bl))

/-- CRC_SAVE carried out (R252). -/
def State.crcSaveStep (s : State) (r : Nat) (d : Run) : State :=
  let u := s.ringUnit r
  let dst := descBits d.cur 16 55 0
  match s.nextXfer (.run r d.seq) r d dst 0 16 .write with
  | .stale => s.endCrc r d.seq stStaleGen none 0
  | .fault k g => s.runFault r d.seq dst k g .write 0
  | .ok t seg _ =>
    let s := s.holdField r d.seq 0 seg
    match s.writeAt (.run r d.seq) (s.ringCtx r) seg t
        ((leBytes 8 (s.crcVal u) ++ leBytes 8 (s.crcPoly u)).map (fun x => (x, false))) with
    | (.wait, s) => s
    | (.fail st, s) => s.endCrc r d.seq st none 0
    | (.data _, s) => s.endCrc r d.seq stSuccess none 16

/-- CRC_LOAD carried out (R252): a record with a reserved bit or bits above the width leaves the unit unchanged. -/
def State.crcLoadStep (s : State) (r : Nat) (d : Run) : State :=
  let u := s.ringUnit r
  s.crcRead r d 0 (descBits d.cur 8 55 0) 0 16 16 true (fun s bs =>
    let running := leValue (bs.take 8)
    let word := leValue (bs.drop 8)
    let poly := word % 4
    if 4 ≤ word ∨ 2 ^ crcWidth poly ≤ running then s.endCrc r d.seq stMalformed none 0
    else (((s.crcOwn u (s.ringCtx r)).wr (Reg.CRC_CTL_poly u) poly).crcSet u running).endCrc r d.seq stSuccess none 16)

/-- The next step of the CRC descriptor that a ring runs, once it holds its unit (R205, R248). -/
def State.crcStep (s : State) (r : Nat) (d : Run) : State :=
  if s.glb.stop ≠ 0 ∨ !s.holdsUnit (s.ringUnit r) r d.seq ∨ s.ringWaits r = true then s
  else match opOf d.cur with
    | 0x30 => s.crcDataStep r d
    | 0x31 => s.crcBlocksStep r d
    | 0x32 => s.crcSaveStep r d
    | 0x33 => s.crcLoadStep r d
    | _ => s

/-- A CRC opcode's command: it moves the ring's descriptor of that opcode on when one is issued, else issues the head (R235: one
descriptor at a time). -/
def State.crcCommand (s : State) (r op : Nat) (ok : List Byte → Bool) : State :=
  match (s.ring r).issued.find? (fun d => !d.allIssued && (d.subs.isEmpty || d.ends.length == d.sub)) with
  | some d => if opOf d.cur = op then s.crcStep r d else s
  | none =>
    if (s.ring r).issued.any (fun d => d.status.isNone) then s
    else s.issueHead r (s.isOp r op) (fun _ q => ok q.bytes) (fun _ _ => false) (fun s seq => s.startCrc r seq)

/-- CRC_DATA (R250). -/
def execCrcData (ring : Nat) (s : State) : Host.Outcome State Fault Refusal := .next (s.crcCommand ring 0x30 crcDataOk)

/-- CRC_BLOCKS (R251). -/
def execCrcBlocks (ring : Nat) (s : State) : Host.Outcome State Fault Refusal := .next (s.crcCommand ring 0x31 crcBlocksOk)

/-- CRC_SAVE (R252). -/
def execCrcSave (ring : Nat) (s : State) : Host.Outcome State Fault Refusal := .next (s.crcCommand ring 0x32 crcSaveOk)

/-- CRC_LOAD (R252). -/
def execCrcLoad (ring : Nat) (s : State) : Host.Outcome State Fault Refusal := .next (s.crcCommand ring 0x33 crcLoadOk)

/-- CRC_UNIT_CLAIM (R248, R249): the user that has waited longest claims a free unit. -/
def execCrcUnitClaim (unit : Nat) (s : State) : Host.Outcome State Fault Refusal :=
  let c := s.crc unit
  match c.holder, c.waiting with
  | none, (r, seq) :: t => .next ((s.setCrc unit { c with waiting := t }).claim unit r seq)
  | _, _ => .next s

/-- A unit fenced, and its user ends with ENGINE_LOST (R253, R515): cause 1 a parity or state error, 2 a flint failure. -/
def State.fenceCrc (s : State) (unit cause : Nat) : State :=
  if s.crcFenced unit then s
  else
    let c := s.crc unit
    let s := s.wr Reg.CRC_FENCED_fenced (s.rd Reg.CRC_FENCED_fenced + 2 ^ (unit % 32))
    let s := { (s.wr (Reg.CRC_CTL_fenced unit) 1) with glb := { s.glb with worn := true } }
    let s := s.event blkCrc 6 3 unit cause
    match c.holder with
    | some (r, seq) =>
      let info := match s.runOf r seq with | some d => d.pos | none => 0
      (s.noteErr r seq stEngineLost).finish r seq (match s.runOf r seq with | some d => d.first.getD stEngineLost | none => stEngineLost) none info
    | none => s

/-- CRC_PARITY_ERROR (R253, R515). -/
def execCrcParityError (unit : Nat) (s : State) : Host.Outcome State Fault Refusal := .next (s.fenceCrc unit 1)

/-- Whether a write to a unit's registers is discarded (R255). -/
def State.crcWriteBarred (s : State) (src : BusSrc) (u : Nat) : Bool :=
  s.on (Reg.CRC_CTL_busy u) || s.crcFenced u ||
  (src != .firmware && s.on (Reg.CRC_CTL_owned u) && s.rd (Reg.CRC_CTL_owner u) == 0)

/-- A write of CRC_CTL performed (R249, R255). -/
def State.writeCrcCtl (s : State) (src : BusSrc) (u : Nat) (v : Word) : State :=
  let owner := bits v.toNat 13 8
  let poly := bits v.toNat 1 0
  if s.crcWriteBarred src u || (src != .firmware && owner == 0) then s.regEvent 1 (Reg.CRC_CTL u) v.toNat
  else ((s.crcOwn u owner).wr (Reg.CRC_CTL_poly u) poly).crcSet u (s.crcVal u % 2 ^ crcWidth poly)

/-- A write of CRC_VAL performed (R246, R255). -/
def State.writeCrcVal (s : State) (src : BusSrc) (u : Nat) (v : DWord) : State :=
  if s.crcWriteBarred src u then s.regEvent 1 (Reg.CRC_VAL u) (v.toNat % 2 ^ 32)
  else s.crcSet u (v.toNat % 2 ^ crcWidth (s.crcPoly u))

/-- CRC_CTL_WRITE (R249, R255). -/
def execCrcCtlWrite (src : BusSrc) (unit : Nat) (v : Word) (s : State) : Host.Outcome State Fault Refusal :=
  .next (s.gated src (Reg.CRC_CTL unit) 4 (fun s => s.writeCrcCtl src (unit % 32) v))

/-- CRC_VAL_WRITE (R255). -/
def execCrcValWrite (src : BusSrc) (unit : Nat) (v : DWord) (s : State) : Host.Outcome State Fault Refusal :=
  .next (s.gated src (Reg.CRC_VAL unit) 8 (fun s => s.writeCrcVal src (unit % 32) v))

end Sys2Proof.Machine
end

