-- ==== Sys2Proof/Machine/Mirror.lean ====
section
/-! DEFINITION. Buddy mirroring, and the loss of a collective engine (R351, R353–R356, R515). -/
namespace Sys2Proof.Machine

/-- A mirror entry, if it is in use. -/
def State.mirror (s : State) (n : Nat) : Option MirSt := (s.coll.mirrors.find? (fun p => p.1 == n)).map (·.2)

/-- COLL_MIRROR of an entry shown: its state is 1 streaming, 2 syncing or 3 FAULTED, and 0 free. -/
def State.showMirror (s : State) (n : Nat) : State :=
  let s := s.wr Reg.COLL_STATUS_mirrors s.coll.mirrors.length
  match s.mirror n with
  | none => (s.setReg (Reg.COLL_MIRROR n) 0).setReg (Reg.COLL_MIRROR_EPOCH n) 0
  | some m =>
    let s := s.wr (Reg.COLL_MIRROR_state n) (if m.fault ≠ 0 then 3 else if m.sync.isSome then 2 else 1)
    let s := (s.wr (Reg.COLL_MIRROR_engine n) m.engine).wr (Reg.COLL_MIRROR_ctx n) m.ctx
    (s.wr (Reg.COLL_MIRROR_open_half n) m.half).showDirty n

/-- The state with a mirror entry replaced. -/
def State.setMirror (s : State) (n : Nat) (m : MirSt) : State :=
  { s with coll := { s.coll with mirrors := s.coll.mirrors.put n m } }.showMirror n

/-- The entry freed. -/
def State.freeMirror (s : State) (n : Nat) : State :=
  ({ s with coll := { s.coll with mirrors := s.coll.mirrors.del n } }.orphan (fun w => w == Who.mirror n) none).showMirror n

/-- An entry FAULTED with a status: an event, and the end of a sync under way (R356). [DEDUCED, log 120] -/
def State.faultMirror (s : State) (n status : Nat) : State :=
  match s.mirror n with
  | none => s
  | some m =>
    let s := (s.setMirror n { m with fault := if m.fault = 0 then status else m.fault, sync := none }).eventOpen blkColl 9 0 n
    match m.sync with
    | some y => s.finish y.ring y.seq status none 0
    | none => s

/-- An entry whose write has failed made FAULTED. -/
def State.checkMirror (s : State) (n : Nat) : State :=
  match s.mirror n with
  | some m => if m.fault ≠ 0 ∧ s.rd (Reg.COLL_MIRROR_state n) ≠ 3 then s.faultMirror n m.fault else s
  | none => s

/-- The entry that a mirror descriptor names, and its length. -/
def mirEntry (b : List Byte) : Nat := descBits b 0x18 45 40
def mirLength (b : List Byte) : Nat := descBits b 0x18 39 0

/-- The body check of opcodes 0x50–0x52 (R353). -/
def mirrorOk (b : List Byte) : Bool :=
  let op := opOf b
  descBits b 0x18 63 46 == 0 && zeroFrom b 0x28 24 &&
  (if op = 0x50 then descBits b 8 63 56 == 0 && descBits b 0x10 63 56 == 0 && descBits b 8 15 0 == 0 && mirLength b != 0 && mirLength b % blockBytes == 0
   else descBits b 8 63 0 == 0 && descBits b 0x10 63 0 == 0 && mirLength b == 0) &&
  (op == 0x51 || descBits b 0x20 63 0 == 0)

/-- Bytes that all mirror entries cover. -/
def State.mirrored (s : State) : Nat := s.coll.mirrors.foldl (fun n p => n + p.2.length) 0

/-- MIRROR_SET carried out: the region in one segment of local memory, the area in one segment of kind PEER (R353),
on a package of this kind (R24). [DEDUCED, log 120] -/
def State.startMirrorSet (s : State) (r seq : Nat) : State :=
  match s.runOf r seq with
  | none => s
  | some d =>
    let b := d.cur
    let n := mirEntry b
    let len := mirLength b
    let bad := (s.mirror n).isSome || decide (2 ^ 39 < s.mirrored + len)
    match s.resolve r d.phys (descBits b 8 55 0) 0 len .read, s.resolve r d.phys (descBits b 0x10 55 0) 0 (2 * len + 8192) .write with
    | .ok (.mem a _) _ left, .ok (.peer dev _ slot) _ room =>
      if bad || s.toCm2 dev slot || decide (left < len) || decide (room < 2 * len + 8192) then s.finish r seq stMalformed none 0
      else
        let all := List.range (len / blockBytes)
        let m : MirSt := { ctx := s.ringCtx r, engine := s.ringEngine r, src := descBits b 8 55 0, dst := descBits b 0x10 55 0, length := len, phys := a,
                           dirty0 := all, dirty1 := all, half := 0, zeroed := false, sync := none, fault := 0 }
        (s.setMirror n m).finish r seq stSuccess none 0
    | _, _ => s.finish r seq stMalformed none 0

/-- The dirty blocks of the open half, and an entry with one of them clean. -/
def MirSt.open_ (m : MirSt) : List Nat := if m.half = 0 then m.dirty0 else m.dirty1
def MirSt.clean (m : MirSt) (b : Nat) : MirSt :=
  if m.half = 0 then { m with dirty0 := m.dirty0.filter (· != b) } else { m with dirty1 := m.dirty1.filter (· != b) }

/-- Bytes written to the buddy area by an entry, in messages of one transfer each: its status on a failure (R204). -/
def State.mirrorWrite (s : State) (n : Nat) (m : MirSt) (off : Nat) (bs : List Byte) : Option Nat × State :=
  (List.range ((bs.length + 2047) / 2048)).foldl (fun (acc : Option Nat × State) i =>
    match acc.1 with
    | some _ => acc
    | none =>
      let part_ := (bs.drop (2048 * i)).take 2048
      match acc.2.translate m.ctx (m.dst + off + 2048 * i) .write with
      | .fault _ _ => (some stSegFault, acc.2)
      | .ok t seg _ =>
        if (match t with | .peer dev _ slot => acc.2.toCm2 dev slot | _ => false) then (some stPeerUnreachable, acc.2)
        else match acc.2.writeAt (.mirror n) m.ctx seg t (part_.map (fun b => (b, false))) with
        | (.fail st, s) => (some st, s)
        | (_, s) => (none, s)) (none, s)

/-- Whether the express route from an entry's engine to its buddy area is cut: nothing of it is copied meanwhile (R138, R151). -/
def State.areaCut (s : State) (n : Nat) (m : MirSt) : Bool :=
  match s.translate m.ctx m.dst .write with
  | .ok t _ _ => !s.reaches (.mirror n) t
  | .fault _ _ => false

/-- The offset of a half, and of its trailer. -/
def MirSt.halfAt (m : MirSt) : Nat := m.half * (m.length + 4096)
def MirSt.trailerAt (m : MirSt) : Nat := m.halfAt + m.length

/-- The trailer of a finished copy (R355). -/
def mirrorTrailer (n epoch length source issued done : Nat) : List Byte :=
  [0x4D, 0x49, 0x52, 0x52] ++ leBytes 1 n ++ leBytes 3 0 ++ leBytes 8 epoch ++ leBytes 8 length ++ leBytes 2 source ++ leBytes 6 0 ++
  leBytes 8 issued ++ leBytes 8 done ++ leBytes 16 0

/-- One dirty block copied into the open half: before the first, zeros over the half's trailer (R354, R355). -/
def State.copyBlock (s : State) (n : Nat) (m : MirSt) (b : Nat) : State :=
  match s.translate m.ctx (m.src + b * blockBytes) .read with
  | .fault _ _ => s.faultMirror n stSegFault
  | .ok t seg _ =>
    match s.readAt (.mirror n) m.ctx seg t blockBytes with
    | (.wait, s) => s
    | (.fail st, s) => s.faultMirror n st
    | (.data bs, s) =>
      if bs.any (·.2) then s.faultMirror n stPoison
      else
        let (bad, s) := if m.zeroed then (none, s) else s.mirrorWrite n m m.trailerAt (List.replicate 64 0)
        match bad with
        | some st => s.faultMirror n st
        | none =>
          match s.mirrorWrite n m (m.halfAt + b * blockBytes) (bs.map (·.1)) with
          | (some st, s) => s.faultMirror n st
          | (none, s) =>
            let left := m.sync.map (fun (y : SyncRun) => { y with left := y.left.filter (· != b) })
            s.setMirror n { (m.clean b) with zeroed := true, sync := left }

/-- A sync carried on: its blocks, then once they are acknowledged the trailer, then the flip and the completion (R355). -/
def State.syncOn (s : State) (n : Nat) (m : MirSt) (y : SyncRun) : State :=
  match y.left with
  | b :: _ => s.copyBlock n m b
  | [] =>
    if s.outstanding (.mirror n) then s
    else if !y.trailer then
      match s.mirrorWrite n m m.trailerAt (mirrorTrailer n y.epoch m.length s.deviceId y.issued s.now) with
      | (some st, s) => s.faultMirror n st
      | (none, s) => (s.setMirror n { m with sync := some { y with trailer := true } }).updRun y.ring y.seq (fun (d : Run) => { d with allIssued := true })
    else
      let s := s.setMirror n { m with half := 1 - m.half, zeroed := false, sync := none }
      (s.wr (Reg.COLL_MIRROR_EPOCH_epoch n) y.epoch).finish y.ring y.seq
        (match s.runOf y.ring y.seq with | some d => d.outcome | none => stSuccess) none 0

/-- Whether an engine has a collective step with data ready to send or to take in (R354). -/
def State.collDue (s : State) (e : Nat) : Bool :=
  (List.range 4).any (fun i => match s.collRun (collKey e i) with
    | some x => x.ready && x.begun && (match x.steps[x.done]? with
      | some st => (x.nextSend st).isSome || x.stepDone st
      | none => false)
    | none => false)

/-- Time that one block takes at mirror_gbps. -/
def State.blockTime (s : State) : Nat := blockBytes * 2 ^ 32 / (s.rd Reg.COLL_CFG_mirror_gbps * 10 ^ 9)

/-- Whether the background copy may take a block (R354): the package's rate admits one, and the engine has no collective step with data
ready. [DEDUCED, log 120] -/
def State.mayMirror (s : State) (e : Nat) : Bool :=
  decide (s.rd Reg.COLL_CFG_mirror_gbps ≠ 0 ∧ s.coll.mirrorAt ≤ s.now) && !s.collDue e

/-- One entry carried on by one block: its sync, or the background copy. -/
def State.mirrorOn (s : State) (n : Nat) : State :=
  let s := s.checkMirror n
  match s.mirror n with
  | none => s
  | some m =>
    if m.fault ≠ 0 ∨ s.glb.stop ≠ 0 ∨ s.areaCut n m = true then s
    else match m.sync with
      | some y => s.syncOn n m y
      | none => match m.open_ with
        | b :: _ => if !s.mayMirror m.engine then s else { s with coll := { s.coll with mirrorAt := s.now + s.blockTime } }.copyBlock n m b
        | [] => s

/-- MIRROR_SYNC carried out: on a FAULTED entry it completes with the fault's status (R356). -/
def State.startMirrorSync (s : State) (r seq : Nat) : State :=
  match s.runOf r seq with
  | none => s
  | some d =>
    let n := mirEntry d.cur
    match s.mirror n with
    | none => s.finish r seq stMalformed none 0
    | some m =>
      if m.ctx ≠ s.ringCtx r then s.finish r seq stMalformed none 0
      else if m.fault ≠ 0 then s.finish r seq m.fault none 0
      else
        let s := if s.classBelow 33 then s.updRun r seq (fun (d : Run) => { d with oversub := true }) else s
        (s.setMirror n { m with sync := some { ring := r, seq := seq, epoch := descBits d.cur 0x20 63 0, issued := s.now, left := m.open_,
                                               trailer := false } }).mirrorOn n

/-- MIRROR_CLEAR carried out. -/
def State.startMirrorClear (s : State) (r seq : Nat) : State :=
  match s.runOf r seq with
  | none => s
  | some d =>
    let n := mirEntry d.cur
    match s.mirror n with
    | some m => if m.ctx ≠ s.ringCtx r then s.finish r seq stMalformed none 0 else (s.freeMirror n).finish r seq stSuccess none 0
    | none => s.finish r seq stMalformed none 0

/-- Whether a MIRROR_CLEAR must wait for its entry's writes and sync. -/
def State.mirrorBusy (s : State) (n : Nat) : Bool :=
  s.outstanding (.mirror n) || (match s.mirror n with | some m => m.sync.isSome | none => false)

/-- MIRROR_SET (R353). -/
def execMirrorSet (ring : Nat) (s : State) : Host.Outcome State Fault Refusal :=
  .next (s.issueHead ring (s.isOp ring 0x50) (fun _ q => mirrorOk q.bytes) (fun _ _ => false) (fun s seq => s.startMirrorSet ring seq))

/-- MIRROR_SYNC (R355): it waits for another sync of its entry. -/
def execMirrorSync (ring : Nat) (s : State) : Host.Outcome State Fault Refusal :=
  .next (s.issueHead ring (s.isOp ring 0x51) (fun _ q => mirrorOk q.bytes)
    (fun s q => match s.mirror (mirEntry q.bytes) with | some m => m.sync.isSome | none => false) (fun s seq => s.startMirrorSync ring seq))

/-- MIRROR_CLEAR (R353): it completes once the entry's writes have drained. -/
def execMirrorClear (ring : Nat) (s : State) : Host.Outcome State Fault Refusal :=
  .next (s.issueHead ring (s.isOp ring 0x52) (fun _ q => mirrorOk q.bytes) (fun s q => s.mirrorBusy (mirEntry q.bytes))
    (fun s seq => s.startMirrorClear ring seq))

/-- MIRROR_BLOCK_COPY (R354, R355): an engine has capacity for the next block of an entry. -/
def execMirrorBlockCopy (entry : Nat) (s : State) : Host.Outcome State Fault Refusal := .next (s.mirrorOn entry)

/-- A collective engine fenced until the next reset (R351, R515): its collectives end with ENGINE_LOST, its mirror entries fault, and its
rings end what they run. The cause is 1 for a parity or state error, 2 for a flint failure. -/
def State.fenceColl (s : State) (engine cause : Nat) : State :=
  if 16 ≤ engine ∨ bit (s.rd Reg.COLL_STATUS_fenced) engine = true then s
  else
    let s := (s.wr ⟨Reg.COLL_STATUS, engine, engine⟩ 1).wr (Reg.COLL_ENG_STATUS_fenced engine) 1
    let s := { s with glb := { s.glb with worn := true } }.event blkColl 6 3 engine cause
    let s := (List.range 4).foldl (fun (s : State) i => s.collFail (collKey engine i) stEngineLost s.deviceId) s
    let s := ((s.coll.mirrors.filter (fun p => p.2.engine == engine)).map (·.1)).foldl (fun (s : State) n => s.faultMirror n stEngineLost) s
    (s.rings.map (·.1)).foldl (fun (s : State) r =>
      if s.ringCls r = clsColl ∧ s.ringEngine r = engine then s.loseEngine r else s) s

/-- COLL_ENGINE_PARITY (R351, R515). -/
def execCollEngineParity (engine : Nat) (s : State) : Host.Outcome State Fault Refusal := .next (s.fenceColl engine 1)

end Sys2Proof.Machine
end

