-- ==== Sys2Proof/Machine/FabMsgs.lean ====
section
/-! DEFINITION. Messages that arrive on connections: delivery in order, checks, performance, acknowledgement, resending and a connection that breaks (R324–R327, R337, R340, R346, R350–R352). -/
namespace Sys2Proof.Machine

/-! ### Version-1 links (R337) -/

/-- The port whose neighbour is a device that runs version 1. -/
def State.v1Port (s : State) (dev : Nat) : Nat :=
  ((List.range 16).find? (fun p => s.portUp p && s.rd (Reg.FAB_PORT_STATUS_neighbour p) == dev && s.rd (Reg.FAB_PORT_STATUS_version p) == 1)).getD 0

/-- A message that a version-1 link does not carry discarded, with one event of its port in each 1 ms. [DESIGN CHOICE, log 27; DEDUCED, log 110] -/
def State.v1Discard (s : State) (dev : Nat) : State :=
  let p := s.v1Port dev
  let late := match (s.port p).v1At with | some t => decide (msUnits ≤ s.now - t) | none => true
  if late then (s.setPort p { s.port p with v1At := some s.now }).portEvent p else s

/-- An unsequenced control message taken from a live firmware connection of version 2 (R322, R330). -/
def State.control (s : State) (h : FabHdr) (f : State → State) : State :=
  if !s.connLive h || decide (2048 ≤ h.conn) then s else if (s.connState h.conn).v1 then s.v1Discard h.src else f s

/-! ### Requests at the receiver (R326) -/

/-- Whether an arriving READ, WRITE or ATOMIC is admitted: its permission bit, its range, and the owner map. -/
def State.fabAdmits (s : State) (e op a n : Nat) : Bool :=
  let perm := if op = 1 then s.connRd e Reg.FAB_CONN_DATA_wr else if op = 2 then s.connRd e Reg.FAB_CONN_DATA_rd else s.connRd e Reg.FAB_CONN_DATA_atomic
  perm == 1 &&
  ((s.inMemory a n && s.admits (.ctx (s.connRd e Reg.FAB_CONN_DATA_ctx)) (op != 2) a n) ||
   (s.inScratch a n && s.connRd e Reg.FAB_CONN_DATA_scratch == 1))

/-- The length of the range that a message names. -/
def FabMsg.span (m : FabMsg) : Nat := if m.op = 4 then 8 else if m.op = 2 then m.len else m.bytes.length

/-- The operation and operands of an ATOMIC (R324). -/
def FabMsg.atomicArgs (m : FabMsg) : Nat × Nat × Nat :=
  (leValue (m.bytes.take 1), leValue ((m.bytes.drop 1).take 8), leValue ((m.bytes.drop 9).take 8))

/-- A refused message: performed as nothing, and answered. [DEDUCED, log 108] -/
def State.fabRefuse (s : State) (e : Nat) (m : FabMsg) : State :=
  let s := s.refusal blkFab e 0x0A m.addr
  let s := if m.op = 2 then s.respond e 3 m.tag [] false true else if m.op = 4 then s.respond e 5 m.tag [] false true else s
  s.msgPerformed e m.seq

/-- A request of the connection at scratch, line by line through the windows (R60). -/
def State.fabScratch (s : State) (e : Nat) (m : FabMsg) (r : MemReq) : State :=
  let lens := lineLens r.addr r.len
  let (id, s) := s.openAsm (.fabric e m.seq m.tag m.op) r.data.isSome r.addr (0, 0, 0) lens
  lens.zipIdx.foldl (fun (s : State) (p : Nat × Nat) =>
    let lo := max r.addr ((r.addr / lineSize + p.2) * lineSize)
    s.windowAccess { r with addr := lo, len := p.1, port := .part id p.2, data := r.data.map (fun d => (d.drop (lo - r.addr)).take p.1) }) s

/-- An atomic's new value written at a place in a window, where it may be. -/
def State.windowPut (s : State) (off : Nat) (new : List PByte) (w : Window) (p : Option Nat) : State :=
  match w, p with
  | .open_, some p => s.scrWrite p off new
  | _, _ => s

/-- An ATOMIC at scratch whose old value has been read. -/
def State.fabScratchAtomicAs (s : State) (e : Nat) (m : FabMsg) (g : Got) : Bool × State :=
  match g with
  | .wait => (false, s)
  | .fail _ => (true, (s.respond e 5 m.tag [] false true).msgPerformed e m.seq)
  | .data bs =>
    let old := leValue (bs.map (·.1))
    let marked := bs.any (·.2)
    let new := (leBytes 8 (atomicNew m.atomicArgs old)).map (fun b => (b, marked))
    let s := s.windowPut (windowOff m.addr) new (s.window (.stop (s.connStop e)) m.addr) (s.slotOf (windowTile m.addr))
    (true, (s.respond e 5 m.tag (leBytes 8 old) marked false).msgPerformed e m.seq)

/-- An ATOMIC at scratch, in one step; `none` while its quad wakes. [DEDUCED, log 109] -/
def State.fabScratchAtomic (s : State) (e : Nat) (m : FabMsg) : Bool × State :=
  (s.readWindow (.stop (s.connStop e)) m.addr 8).2.fabScratchAtomicAs e m (s.readWindow (.stop (s.connStop e)) m.addr 8).1

/-- An ATOMIC in memory: its lines are asked for as by a write, and the operation is made when the last of them has answered. -/
def State.fabAtomic (s : State) (e : Nat) (m : FabMsg) (r : MemReq) : State :=
  let lens := lineLens r.addr r.len
  let (id, s) := s.openAsm (.fabric e m.seq m.tag 4) true r.addr m.atomicArgs lens
  lens.zipIdx.foldl (fun (s : State) (p : Nat × Nat) =>
    let lo := max r.addr ((r.addr / lineSize + p.2) * lineSize)
    let q : MemReq := { r with addr := lo, len := p.1, port := .part id p.2, data := some (List.replicate p.1 none) }
    if s.homeFree lo p.1 true then s.sourceRequest q else s.homeAsk (.mem q)) s

/-- A READ, WRITE or ATOMIC performed: whether it could begin. -/
def State.fabRequest (s : State) (e : Nat) (m : FabMsg) : Bool × State :=
  let n := m.span
  if !s.fabAdmits e m.op m.addr n then (true, s.fabRefuse e m)
  else if n = 0 then (true, (if m.op = 2 then s.respond e 3 m.tag [] false false else s).msgPerformed e m.seq)
  else
    let r : MemReq := { tag := m.tag, origin := .ctx (s.connRd e Reg.FAB_CONN_DATA_ctx), port := .fabric e, cls := 35, addr := m.addr, len := n,
                        data := if m.op = 1 then some (m.bytes.map some) else none, poison := m.poison, ecc := .clean }
    if scratchBase ≤ m.addr then
      if m.op = 4 then s.fabScratchAtomic e m else (true, s.fabScratch e m r)
    else if m.op = 4 then (true, s.fabAtomic e m r)
    else (true, s.askLines (.fabric e m.seq m.tag m.op) r true)

/-! ### Responses at the sender (R325, R326) -/

/-- The request that a response on a connection answers. -/
def State.reqOf (s : State) (e tag : Nat) : Option OutReq :=
  (s.connReqs e).find? (fun o => o.id % 65536 == tag && !o.write)

/-- READ_RSP or ATOMIC_RSP performed. -/
def State.fabResponse (s : State) (e : Nat) (m : FabMsg) : State :=
  let s := match s.reqOf e m.tag with
    | none => s
    | some o =>
      if m.err then s.answerReq o.id (.error stOwnerFault)
      else s.answerReq o.id (.data (((m.bytes ++ List.replicate o.len 0).take o.len).map (fun (b : Byte) => (b, m.poison))))
  (s.msgPerformed e m.seq).connSettle e

/-! ### Collective messages (R346, R348, R350–R352) -/

/-- The comm_id, cseq, step and offset of a subheader. -/
def subFields (bs : List Byte) : Nat × Nat × Nat × Nat :=
  (leValue (bs.take 4), leValue ((bs.drop 4).take 4), leValue ((bs.drop 8).take 2), leValue ((bs.drop 10).take 6))

/-- The live members of the own group but this package, by number. -/
def State.liveMembers (s : State) : List Nat :=
  (List.range 64).filter (fun m => bit (s.rd Reg.FAB_MEMBERS_live) m && m != s.deviceId % 64)

/-- Whether this package manages its group. -/
def State.isManager (s : State) : Bool := s.rd Reg.FAB_GROUP_role == 3

/-- A sequenced control message to a member of the group on the manager's connection to it. -/
def State.toMember (s : State) (m op : Nat) (body : List Byte) : State :=
  if s.connRd (64 + m) Reg.FAB_CONN_DATA_enable = 1 then s.sendMsg (64 + m) (FabMsg.make op 0 (collSub 0 0 0 0 ++ body) false 0 none) else s

/-- The body of EXTEND and of LOST. -/
def extendBody (device delay cairnSeq : Nat) : List Byte := leBytes 2 device ++ leBytes 4 delay ++ leBytes 3 cairnSeq
def lostBody (device : Nat) : List Byte := leBytes 2 device

/-- A message to every live member of the group. -/
def State.toMembers (s : State) (op : Nat) (body : List Byte) : State := s.liveMembers.foldl (fun (s : State) m => s.toMember m op body) s

/-- EXTEND applied here, and relayed by a group manager that had it from the top manager. [DEDUCED, log 110] -/
def State.extendMsg (s : State) (e device delay cairnSeq : Nat) : State :=
  let s := s.extendIn device delay cairnSeq
  if s.isManager && (e == 2 || e == 3) then s.toMembers 0x43 (extendBody device delay cairnSeq) else s

/-- LOST applied here, and relayed by a group manager that had it from the top manager. [DEDUCED, log 110] -/
def State.lostMsg (s : State) (e device : Nat) : State :=
  let s := s.lostIn device
  let s := if device / 64 = s.deviceId / 64 ∧ s.hier.lostKnown.contains (device % 64) = false
    then { s with hier := { s.hier with lostKnown := s.hier.lostKnown ++ [device % 64] } } else s
  if s.isManager && (e == 2 || e == 3) then s.toMembers 0x44 (lostBody device) else s

/-- A collective message performed. -/
def State.collMsg (s : State) (e : Nat) (m : FabMsg) : State :=
  let ctx := s.connRd e Reg.FAB_CONN_DATA_ctx
  let src := s.connRd e Reg.FAB_CONN_DATA_peer
  let (comm, cseq, step, offset) := subFields m.bytes
  let b := m.bytes.drop 16
  if m.op = 0x40 then
    s.readyIn { ctx := ctx, src := src, comm := comm, cseq := cseq, step := step, credit := offset, op := leValue (b.take 1), count := leValue ((b.drop 1).take 5),
                fmt := leValue ((b.drop 6).take 1) % 8, redop := leValue ((b.drop 6).take 1) / 8, xsExp := leValue ((b.drop 8).take 2), root := leValue ((b.drop 10).take 2) }
  else if m.op = 0x41 then s.dataIn ctx src comm cseq step offset (b.map (fun (x : Byte) => (x, m.poison)))
  else if m.op = 0x42 then s.abortIn ctx comm cseq (leValue (b.take 2)) (leValue ((b.drop 2).take 2))
  else if m.op = 0x43 then s.extendMsg e (leValue (b.take 2)) (leValue ((b.drop 2).take 4)) (leValue ((b.drop 6).take 3))
  else if m.op = 0x44 then s.lostMsg e (leValue (b.take 2))
  else if e ≤ 1 then s.releaseStep true (leValue (b.take 1)) (leValue ((b.drop 1).take 1))
  else s

/-! ### Delivery (R325) -/

/-- An accepted message performed, or begun: whether it could begin. [DEDUCED, log 108] -/
def State.performMsg (s : State) (e : Nat) (m : FabMsg) : Bool × State :=
  if m.op = 1 ∨ m.op = 2 ∨ m.op = 4 then s.fabRequest e m
  else if m.op = 3 ∨ m.op = 5 then (true, s.fabResponse e m)
  else (true, (s.collMsg e m).msgPerformed e m.seq)

/-- Accepted messages begun in order: the next one when nothing before it is still under way. [DEDUCED, log 108] -/
def State.connKick (s : State) (e : Nat) : Nat → State
  | 0 => s
  | n + 1 =>
    let c := s.connState e
    match c.held, c.undone with
    | m :: t, q :: _ =>
      if m.seq ≠ q then s
      else match (s.setConn e { c with held := t }).performMsg e m with
        | (true, s) => s.connKick e n
        | (false, s) => s.setConn e { s.connState e with held := m :: (s.connState e).held }
    | _, _ => s

/-- Every connection with messages that have not begun carried on. [DESIGN CHOICE, log 13] -/
def State.connKickAll (s : State) : State :=
  (s.connSt.filter (fun p => !p.2.held.isEmpty)).foldl (fun (s : State) (p : Nat × ConnSt) => s.connKick p.1 p.2.held.length) s

/-- Whether a READY may be accepted (R346): its collective is open or the table has room. -/
def State.acceptable (s : State) (e : Nat) (m : FabMsg) : Bool :=
  m.op != 0x40 ||
    (let (comm, cseq, _, _) := subFields m.bytes
     s.readyRoom (s.connRd e Reg.FAB_CONN_DATA_ctx) comm cseq)

/-- A sequenced message that arrives: accepted in its turn, acknowledged again when it is already covered, and otherwise discarded. -/
def State.arrive (s : State) (h : FabHdr) (m : FabMsg) : State :=
  let e := h.conn
  if !s.connLive h then s
  else if (s.connState e).v1 && !v1Op m.op then s.v1Discard h.src
  else
    let c := s.connState e
    let q := h.seq % 2 ^ 24
    if q ≠ c.recvSeq then (if seqUpTo q c.recvSeq then s.sendAck e else s)
    else if !s.acceptable e m then s.sat Reg.COLL_READY_STAT_held 1
    else
      let s := s.setConn e { c with recvSeq := (q + 1) % 2 ^ 24, undone := c.undone ++ [q], held := c.held ++ [{ m with seq := q }] }
      s.connKick e (c.held.length + 1)

/-- A message from its header. -/
def hdrMsg (h : FabHdr) (op len : Nat) (bytes : List Byte) : FabMsg :=
  { op := op, seq := h.seq % 2 ^ 24, tag := h.tag % 65536, addr := h.addr, len := len, bytes := bytes, poison := h.poison, err := h.err, first := 0, flow := 0,
    req := none }

/-- WRITE (R326). -/
def execWrite (h : FabHdr) (bytes : List Byte) (s : State) : Host.Outcome State Fault Refusal :=
  let bs := bytes.take 2048
  .next (s.arrive h (hdrMsg h 1 bs.length bs))

/-- READ (R326). -/
def execRead (h : FabHdr) (len : Nat) (s : State) : Host.Outcome State Fault Refusal := .next (s.arrive h (hdrMsg h 2 (min len 2048) []))

/-- ATOMIC (R326): FetchAdd (0), Swap (1) or CAS (2) of 64 bits. -/
def execAtomic (h : FabHdr) (kind a b : Nat) (s : State) : Host.Outcome State Fault Refusal :=
  .next (s.arrive h (hdrMsg h 4 8 (leBytes 1 kind ++ leBytes 8 a ++ leBytes 8 b)))

/-- READ_RSP (R325). -/
def execReadRsp (h : FabHdr) (bytes : List Byte) (s : State) : Host.Outcome State Fault Refusal := .next (s.arrive h (hdrMsg h 3 bytes.length bytes))

/-- ATOMIC_RSP (R325). -/
def execAtomicRsp (h : FabHdr) (old : Nat) (s : State) : Host.Outcome State Fault Refusal := .next (s.arrive h (hdrMsg h 5 8 (leBytes 8 old)))

/-- READY (R346). -/
def execReady (h : FabHdr) (comm cseq step credit op count fmt redop xsExp root : Nat) (s : State) : Host.Outcome State Fault Refusal :=
  .next (s.arrive h (hdrMsg h 0x40 32 (collSub comm cseq step credit ++ readyBody op count fmt redop xsExp root)))

/-- DATA (R346). -/
def execData (h : FabHdr) (comm cseq step offset : Nat) (data : List Byte) (s : State) : Host.Outcome State Fault Refusal :=
  let bs := data.take 2032
  .next (s.arrive h (hdrMsg h 0x41 (16 + bs.length) (collSub comm cseq step offset ++ bs)))

/-- ABORT (R351). -/
def execCollAbort (h : FabHdr) (comm cseq status device rank : Nat) (s : State) : Host.Outcome State Fault Refusal :=
  .next (s.arrive h (hdrMsg h 0x42 24 (collSub comm cseq 0 0 ++ leBytes 2 status ++ leBytes 2 device ++ leBytes 4 rank)))

/-- EXTEND (R350). -/
def execExtend (h : FabHdr) (device delay cairnSeq : Nat) (s : State) : Host.Outcome State Fault Refusal :=
  .next (s.arrive h (hdrMsg h 0x43 25 (collSub 0 0 0 0 ++ extendBody device delay cairnSeq)))

/-- LOST (R352). -/
def execLost (h : FabHdr) (device : Nat) (s : State) : Host.Outcome State Fault Refusal :=
  .next (s.arrive h (hdrMsg h 0x44 18 (collSub 0 0 0 0 ++ lostBody device)))

/-- STEP (R348): only from the manager. [DEDUCED, log 110] -/
def execStep (h : FabHdr) (comm cseq engine slot : Nat) (s : State) : Host.Outcome State Fault Refusal :=
  .next (s.arrive h (hdrMsg h 0x45 18 (collSub comm cseq 0 0 ++ leBytes 1 engine ++ leBytes 1 slot)))

/-! ### Acknowledgements and timers (R325, R327) -/

/-- ACK (R325): every message up to it has been performed; a WRITE then ends. -/
def execAck (h : FabHdr) (ack : Nat) (s : State) : Host.Outcome State Fault Refusal :=
  if !s.connLive h then .next s
  else
    let e := h.conn
    let c := s.connState e
    let gone := c.unacked.filter (fun (m : FabMsg) => seqUpTo m.seq ack)
    let s := s.setConn e { c with unacked := c.unacked.filter (fun (m : FabMsg) => !seqUpTo m.seq ack) }
    let s := gone.foldl (fun (s : State) (m : FabMsg) => match m.req with
      | some id => if m.op = 1 then s.answerReq id .done else s
      | none => s) s
    .next ((s.sendWaiting e).connSettle e)

/-- ACK_TIMER (R325): 1 µs after the first message performed and not acknowledged. -/
def execAckTimer (conn : Nat) (s : State) : Host.Outcome State Fault Refusal :=
  let s := s.connKick conn (s.connState conn).held.length
  if (s.connState conn).toAck = 0 then .next s else .next (s.sendAck conn)

/-- MSG_RESEND_TIMER (R325): the oldest unacknowledged message and all later ones go again, each on the next flow. [DESIGN CHOICE, log 10] -/
def execMsgResendTimer (conn : Nat) (s : State) : Host.Outcome State Fault Refusal :=
  let c := s.connState conn
  let ms := c.unacked.map (fun (m : FabMsg) => { m with flow := m.flow + 1 })
  .next (ms.foldl (fun (s : State) m => s.emit conn m) (s.setConn conn { c with unacked := ms }))

/-- Collectives that use a connection ended, and mirrors that write over it checked (R351, R356). -/
def State.breakUsers (s : State) (e : Nat) : State :=
  let dev := s.connRd e Reg.FAB_CONN_DATA_peer
  let slot := s.connRd e Reg.FAB_CONN_DATA_key_slot
  let keys := (s.coll.slots.filter (fun p => p.2.ready && p.2.slot == slot && p.2.members.contains dev)).map (·.1)
  let s := keys.foldl (fun (s : State) key => s.collFail key stPeerUnreachable dev) s
  (s.coll.mirrors.map (·.1)).foldl State.checkMirror s

/-- A connection made BROKEN: its transfers end, and it opens again with OPEN every 100 ms. [DEDUCED, log 106] -/
def State.breakConn (s : State) (e : Nat) : State :=
  let closing := s.connRd e Reg.FAB_CONN_DATA_state = 4
  let s := (s.endTransfers e).breakUsers e
  if closing then s.endConn e
  else
    let s := s.setConn e { ConnSt.closed with nonce := s.freeVal, openAt := s.now, v1 := s.peerV1 (s.connRd e Reg.FAB_CONN_DATA_peer) }
    (s.useFree.connTo e 3).sendOpen e

/-- Whether a connection's oldest unacknowledged message, or its reopening, has passed peer_limit_ms. -/
def State.peerLate (s : State) (e : Nat) : Bool :=
  let c := s.connState e
  let st := s.connRd e Reg.FAB_CONN_DATA_state
  let lim := msTime (s.rd Reg.FAB_CFG_peer_limit_ms)
  ((st == 2 || st == 4) && c.unacked.any (fun (m : FabMsg) => decide (m.first + lim ≤ s.now))) ||
  (st == 1 && c.reopening && decide (c.openAt + lim ≤ s.now))

/-- PEER_LIMIT_EXPIRY (R327, R337). [DESIGN CHOICE, log 10] -/
def execPeerLimitExpiry (conn : Nat) (s : State) : Host.Outcome State Fault Refusal :=
  if s.peerLate conn then .next (s.breakConn conn) else .next s

end Sys2Proof.Machine
end

