-- ==== Sys2Proof/Machine/TimeOps.lean ====
section
/-! DEFINITION. The time counter, its rate, edges queued on the TRIG_OUT outputs, and waking the host (R305, R375, R380, R385, R391). -/
namespace Sys2Proof.Machine

/-! ### The counter (R380, R385) -/

/-- Nominal rate, and the bounds of ±100 ppm as whole counts within them. -/
def rateNominal : Nat := 0x44B82FA0A
def rateMin : Nat := rateNominal - rateNominal / 10000
def rateMax : Nat := rateNominal + rateNominal / 10000

/-- Time units of a number of nanoseconds, rounded down. -/
def nsTime (n : Nat) : Nat := n * 2 ^ 32 / 10 ^ 9

/-- State code of the time base (R382). -/
def State.timeState (s : State) : Nat := s.rd Reg.TIME_STATUS_state
def State.toTime (s : State) (v : Nat) : State := s.wr Reg.TIME_STATUS_state v

/-- One advance: a tick of the time PLL, or in NOREF one of the always-on clock. [DEDUCED, log 129] -/
def State.advance (s : State) : State :=
  let step := if s.timeState = 0 then (2 ^ 64 + 500000) / 10 ^ 6 else s.reg Reg.TIME_RATE
  let v := s.now * 2 ^ 32 + s.time.frac + step
  { s with time := { s.time with frac := v % 2 ^ 32 } }.setReg Reg.TIME_NOW (v / 2 ^ 32 % 2 ^ 64)

/-- A rate held to ±100 ppm of nominal. [DEDUCED, log 126] -/
def clampRate (r : Int) : Nat := if r < (rateMin : Nat) then rateMin else if (rateMax : Nat) < r then rateMax else r.toNat

/-! ### TRIG_OUT (R375, R391) -/

/-- The edges queued on an output, by due time. -/
def State.edges (s : State) (o : Nat) : List Edge := s.time.tout.get [] o

/-- The state with an output's queue replaced. -/
def State.setEdges (s : State) (o : Nat) (l : List Edge) : State := { s with time := { s.time with tout := s.time.tout.put o l } }

/-- An edge put in its place by due time. -/
def insertEdge (e : Edge) : List Edge → List Edge
  | [] => [e]
  | x :: t => if e.due < x.due then e :: x :: t else x :: insertEdge e t

/-- Whether two due times lie less than 20 ns apart. -/
def tooClose (a b : Nat) : Bool := decide ((if a ≤ b then b - a else a - b) * 10 ^ 9 < 20 * 2 ^ 32)

/-- An edge counted late. -/
def State.edgeLate (s : State) (o : Nat) : State := s.sat ⟨Reg.TIME_TOUT_STAT, 8 * o + 7, 8 * o⟩ 1

/-- An edge of a stream or of the driver placed on an output (R375, R391): one whose time has passed is late; one too close to a queued edge or
that finds the queue full is lost, which counts in trig_lost for a stream edge and as late for the driver's. -/
def State.placeEdge (s : State) (o : Nat) (e : Edge) : State :=
  if e.due < s.now then s.edgeLate o
  else if 1024 ≤ (s.edges o).length ∨ (s.edges o).any (fun x => tooClose x.due e.due) = true then
    (if e.driver then s.edgeLate o else s.sat Reg.STRM_DEC_STAT_trig_lost 1)
  else s.setEdges o (insertEdge e (s.edges o))

/-- The configuration of an output (TIME_TOUT_CFG): its pulse in ns, whether it is active low, and whether the driver may schedule. -/
def State.toutCfg (s : State) (o : Nat) : Nat := bits (s.reg Reg.TIME_TOUT_CFG) (8 * o + 7) (8 * o)
def State.toutActive (s : State) (o : Nat) : Bool := !bit (s.toutCfg o) 5

/-- Whether the timing outputs move: not while VAON is absent, THERMTRIP_N or PERST_N is asserted, or the life cycle is LOST or END_OF_LIFE (R503). -/
def State.pinsLive (s : State) : Bool :=
  s.boot.vaon && !s.boot.trip && !s.boot.perst && s.boot.lc != .lost && s.boot.lc != .endOfLife

/-- A pulse on an output: active, then inactive again. [DESIGN CHOICE, log 128] -/
def State.pulseOut (s : State) (o : Nat) : State :=
  if s.pinsLive then (s.send (.pin (.trigOut o) (s.toutActive o))).send (.pin (.trigOut o) (!s.toutActive o)) else s

/-- The first edge of an output made. After a loss of the stream engine no edge of a flow is made (R378). -/
def State.makeEdge (s : State) (o : Nat) : State :=
  match s.edges o with
  | [] => s
  | e :: t =>
    let s := s.setEdges o t
    if !e.driver && s.on Reg.STRM_STATUS_engine_fenced then s else s.pulseOut o

/-! ### Waking the host (R305) -/

/-- A cause in D3hot: WAKE_N goes low when PME_En and the cause's enable are set. -/
def State.wakeHot (s : State) (f : Fld) : State :=
  if s.host.pmeEn && s.on f && s.rd Reg.HOST_STATUS_dstate == 3 then s.driveWake else s

/-- A cause in D3cold, in which PERST_N is asserted and VAON remains. [DEDUCED, log 161] -/
def State.wakeCold (s : State) (f : Fld) : State :=
  if s.host.pmeEn && s.on f && s.boot.perst then s.driveWake else s

end Sys2Proof.Machine
end

