-- ==== Sys2Proof/Machine/StreamOps.lean ====
section
/-! DEFINITION. Stream flows: their entries, spill rings, gap markers, decisions and release (R360, R361, R365–R375). -/
namespace Sys2Proof.Machine

/-! ### A flow's entry (R361) -/

/-- An entry's field replaced. -/
def FlowSt.put (f : FlowSt) (i hi lo v : Nat) : FlowSt := { f with words := f.words.set i (BitVec.ofNat 64 (putBits (f.word i) hi lo v)) }

def FlowSt.state (f : FlowSt) : Nat := bits (f.word 0) 10 8
def FlowSt.learned (f : FlowSt) : Bool := bit (f.word 0) 11
def FlowSt.wake (f : FlowSt) : Bool := bit (f.word 0) 12
def FlowSt.keep (f : FlowSt) : Bool := bit (f.word 0) 13
def FlowSt.route (f : FlowSt) : Nat := bits (f.word 0) 15 14
def FlowSt.port (f : FlowSt) : Nat := bits (f.word 0) 19 16
def FlowSt.template (f : FlowSt) : Nat := bits (f.word 0) 23 20
def FlowSt.ctx (f : FlowSt) : Nat := bits (f.word 0) 29 24
def FlowSt.flowId (f : FlowSt) : Nat := bits (f.word 0) 63 32
def FlowSt.source (f : FlowSt) : Nat := f.word 1 + f.word 2 * 2 ^ 64
def FlowSt.rate (f : FlowSt) : Nat := bits (f.word 4) 19 0
def FlowSt.burst (f : FlowSt) : Nat := bits (f.word 4) 31 20
def FlowSt.deadlineNs (f : FlowSt) : Nat := bits (f.word 4) 63 32
def FlowSt.firstTile (f : FlowSt) : Nat := bits (f.word 5) 10 0
def FlowSt.tileCount (f : FlowSt) : Nat := bits (f.word 5) 17 11
def FlowSt.inbox (f : FlowSt) : Nat := bits (f.word 5) 37 18
def FlowSt.inboxLog (f : FlowSt) : Nat := bits (f.word 5) 41 38
def FlowSt.dfltAccept (f : FlowSt) : Bool := bit (f.word 5) 42
def FlowSt.rejectEdge (f : FlowSt) : Bool := bit (f.word 5) 43
def FlowSt.trigAccept (f : FlowSt) : Nat := bits (f.word 5) 45 44
def FlowSt.trigReject (f : FlowSt) : Nat := bits (f.word 5) 47 46
def FlowSt.decUdp (f : FlowSt) : Nat := bits (f.word 5) 63 48
def FlowSt.tail (f : FlowSt) : Nat := bits (f.word 6) 31 0
def FlowSt.head (f : FlowSt) : Nat := bits (f.word 6) 63 32
def FlowSt.lost (f : FlowSt) : Nat := bits (f.word 7) 31 0
def FlowSt.defaulted (f : FlowSt) : Nat := bits (f.word 7) 63 32

/-- States of a flow. -/
def flowOpen : Nat := 1
def flowClosing : Nat := 2
def flowFaulted : Nat := 3

/-- Frames added to lost, saturating. -/
def FlowSt.lose (f : FlowSt) (k : Nat) : FlowSt := f.put 7 31 0 (satAdd 32 f.lost k)

/-- Depth of the token bucket, and the bucket filled up to a time (R367), in units of 2^-32 bytes. -/
def FlowSt.depth (f : FlowSt) : Nat := f.burst * 1024 * 2 ^ 32
def FlowSt.refill (f : FlowSt) (now : Nat) : FlowSt :=
  { f with tokens := min f.depth (f.tokens + (now - f.tokensAt) * f.rate * 10 ^ 6), tokensAt := now }

/-- The cost of a frame's record in bytes (R367). -/
def FlowSt.cost (f : FlowSt) (len : Nat) : Nat := min f.slotBytes ((32 + len + 63) / 64 * 64)

/-- The oldest record that still holds its slot, and the ring's free slots (R367, R371). -/
def FlowSt.oldest (f : FlowSt) : Nat := ((f.recs.find? (fun r => r.valid && !r.released)).map FlowRec.n).getD f.tail
def FlowSt.free (f : FlowSt) : Nat := f.slots - (f.tail + 2 ^ 32 - f.oldest) % 2 ^ 32

/-- A deadline and a cutoff of a record (R374). -/
def FlowSt.due (f : FlowSt) (arrival : Nat) : Nat := arrival + nsTime f.deadlineNs
def FlowSt.cutoff (f : FlowSt) (arrival : Nat) : Nat :=
  f.due arrival - (if f.route = 2 then nsTime 100 else if f.route = 0 then 0 else nsTime 250)

/-- Whether a record needs a decision. -/
def FlowSt.needs (f : FlowSt) (r : FlowRec) : Bool := !r.marker && r.decided.isNone && decide (f.tileCount ≠ 0)

/-- Whether a record has been released by its decision, or by needing none (R371). -/
def FlowSt.releases (f : FlowSt) (r : FlowRec) : Bool :=
  r.released || !r.valid ||
  (if r.marker then !f.keep
   else if f.keep then (match r.decided with | some (acc, _, _) => !acc | none => false)
   else r.decided.isSome || decide (f.tileCount = 0))

/-- Records marked released, and those forgotten whose slots have been used again. -/
def FlowSt.settle (f : FlowSt) : FlowSt :=
  let recs := f.recs.map (fun (r : FlowRec) => { r with released := f.releases r })
  { f with recs := recs.filter (fun r => if r.valid then !r.released || decide ((f.tail + 2 ^ 32 - r.n) % 2 ^ 32 ≤ f.slots) else f.needs r) }

/-- A flow of a stream context. -/
def State.flow (s : State) (k : Nat) : Option FlowSt := (s.strm.flows.find? (fun p => p.1 == k)).map (·.2)

/-- The state with a flow replaced. -/
def State.setFlow (s : State) (k : Nat) (f : FlowSt) : State := { s with strm := { s.strm with flows := s.strm.flows.put k f } }

/-! ### Writes to a spill ring (R368, R370) -/

/-- Bytes cut at a granule's end. -/
def granPieces (a : Nat) (bs : List Byte) : List (Nat × List Byte) :=
  let n := inGranule a bs.length
  if n < bs.length then [(a, bs.take n), (a + n, bs.drop n)] else [(a, bs)]

/-- What became of a spill write: performed, to be tried again, or failed with a status. -/
inductive Spill where
  | done | wait | fail (status : Nat)
  deriving DecidableEq, Repr

/-- Bytes written by a stream port under the flow's context. The port's own writes are not decision words. -/
def State.spill (s : State) (ctx a : Nat) (bs : List Byte) : Spill × State :=
  let fwd := s.strm.fwd
  let (r, t) := (granPieces a bs).foldl (fun (acc : Spill × State) p =>
    match acc.1 with
    | .done => match acc.2.agentWrite (.flow 0) (.ctx ctx) p.1 (p.2.map (fun b => (b, false))) with
      | (.data [], s) => (.done, s)
      | (.data _, s) => (.fail stPoison, s)
      | (.refused, s) => (.fail stOwnerFault, s)
      | (.wait, s) => (.wait, s)
    | _ => acc) (.done, s)
  (r, { t with strm := { t.strm with fwd := fwd } })

/-- The address of a record's slot, and of its decision word. -/
def FlowSt.slotAt (f : FlowSt) (n : Nat) : Nat := f.base + n % f.slots * f.slotBytes
def FlowSt.wordAt (f : FlowSt) (n : Nat) : Nat := f.array + n % f.slots * 8

/-- The 32-byte header of a frame record. -/
def FlowSt.recHeader (f : FlowSt) (k : Nat) (r : FlowRec) : List Byte :=
  leBytes 4 (1 + ofBool r.late * 2 ^ 8 + ofBool (decide (f.slotBytes < 32 + r.len)) * 2 ^ 9 + r.len * 2 ^ 16) ++ leBytes 4 r.seq ++
  leBytes 8 r.arrival ++ leBytes 6 r.event ++ leBytes 2 0 ++ leBytes 4 r.n ++ leBytes 2 k ++ leBytes 2 0

/-- The header of a gap marker. -/
def markerHeader (k n first count mask now : Nat) : List Byte :=
  leBytes 4 2 ++ leBytes 4 first ++ leBytes 8 now ++ leBytes 4 count ++ leBytes 4 mask ++ leBytes 4 n ++ leBytes 2 k ++ leBytes 2 0

/-- A flow FAULTED (R370): an event; from now on it writes nothing. -/
def State.faultFlow (s : State) (k status : Nat) : State :=
  match s.flow k with
  | none => s
  | some f => (s.setFlow k { (f.put 0 10 8 flowFaulted) with fault := status, marker := none }).eventOpen blkStrm 9 0 k

/-- A record of this number with nothing decided. -/
def FlowRec.make (n seq arrival event len mac : Nat) (bytes : List Byte) : FlowRec :=
  { n := n, marker := false, seq := seq, arrival := arrival, event := event, len := len, late := false, bytes := bytes, mac := mac, hdr := false, inbox := none,
    asked := false, decided := none, valid := true, released := false }

/-- The pending marker written once a slot is free (R369). [DEDUCED, log 121] -/
def State.flushMarker (s : State) (k : Nat) : State :=
  match s.flow k with
  | none => s
  | some f =>
    match f.marker with
    | none => s
    | some (first, count, mask) =>
      if f.free = 0 ∨ f.fault ≠ 0 then s
      else match s.spill f.ctx (f.slotAt f.tail) (markerHeader k f.tail first count mask s.now) with
        | (.wait, s) => s
        | (.fail st, s) => s.faultFlow k st
        | (.done, s) =>
          let r := { FlowRec.make f.tail first s.now 0 0 0 [] with marker := true, hdr := true, asked := true }
          s.setFlow k ({ f with recs := f.recs ++ [r], marker := none }.put 6 31 0 (f.tail + 1)).settle

/-! ### Watches and the end of a flow (R365, R377) -/

/-- Whether every frame record before a target has been written and decided. -/
def FlowSt.decidedTo (f : FlowSt) (target : Nat) : Bool :=
  laterEq f.tail target && f.recs.all (fun r => !(r.valid && later target r.n && f.needs r))

/-- The issued STRM_WATCH of a ring, with its flow, target and base. -/
def State.watchOf (s : State) (r : Nat) : Option (Nat × Nat × Nat × Nat) :=
  match (s.ring r).issued.find? (fun d => d.status.isNone) with
  | some d => if opOf d.cur = 0x61 then some (d.seq, descBits d.cur 8 15 0, descBits d.cur 0x10 31 0, descBits d.cur 0x10 63 32) else none
  | none => none

/-- A watch completed with what its flow shows. [DEDUCED, log 123] -/
def State.endWatch (s : State) (r seq k target base : Nat) (f : FlowSt) : State :=
  let st := if f.defaulted ≠ base then stDeadlineDefault else if f.fault ≠ 0 then f.fault else stSuccess
  s.finish r seq st (some (f.lost * 2 ^ 32 + f.defaulted)) (k * 2 ^ 40 + target)

/-- The rings that watch a flow completed: those whose target is decided, or all of them when it is freed. -/
def State.pollWatches (s : State) (k : Nat) (all : Bool) : State :=
  match s.flow k with
  | none => s
  | some f => (s.rings.map (·.1)).foldl (fun (s : State) r =>
    match s.watchOf r with
    | some (seq, w, target, base) => if w = k ∧ (all = true ∨ f.decidedTo target = true) then s.endWatch r seq k target base f else s
    | none => s) s

/-- An entry freed, with its inbox slots. -/
def State.freeFlow (s : State) (k : Nat) : State :=
  let s := s.pollWatches k true
  { s with strm := { s.strm with flows := s.strm.flows.del k, inboxBusy := s.strm.inboxBusy.filter (fun (b : Nat × Nat × Nat × Nat) => b.2.2.1 != k) } }.showAdmit

/-- What follows a record's decision or release: a marker that waited for a slot, watches, and the end of a closing flow. -/
def State.flowMoved (s : State) (k : Nat) : State :=
  let s := match s.flow k with | some f => s.setFlow k f.settle | none => s
  let s := (s.flushMarker k).pollWatches k false
  match s.flow k with
  | none => s
  | some f =>
    if f.state = flowClosing ∧ f.recs.any f.needs = false ∧ (f.keep = false ∨ f.drop = true ∨ f.head = f.tail) then s.freeFlow k else s

/-- A flow that takes no further frame (R365). A marker that still waits for a slot is written once one is free, as R369 has it, but not
under a blanket. -/
def State.closeFlow (s : State) (k : Nat) (drop : Bool) : State :=
  match s.flow k with
  | none => s
  | some f => ((s.setFlow k { (f.put 0 10 8 flowClosing) with drop := f.drop || drop, marker := if drop then none else f.marker }).showAdmit).flowMoved k

/-! ### Decisions (R373–R375) -/

/-- The decision packet's UDP payload. [DEDUCED, log 123] -/
def decisionPacket (f : FlowSt) (r : FlowRec) (acc dflt : Bool) (tags : Nat) : List Byte :=
  let b := leBytes 4 (1 + 2 * 2 ^ 8 + 16 * 2 ^ 16) ++ leBytes 4 f.flowId ++ leBytes 4 r.seq ++ leBytes 4 0 ++ leBytes 8 0 ++ leBytes 6 r.event ++ leBytes 2 0 ++
    leBytes 4 (ofBool acc + 2 * ofBool dflt + tags * 2 ^ 16) ++ leBytes 4 0 ++ leBytes 8 r.arrival
  b ++ leBytes 4 (crcOf 0 0 0 b)

/-- A decision that leaves by the flow's route. -/
def State.sendDecision (s : State) (f : FlowSt) (r : FlowRec) (acc dflt : Bool) (tags : Nat) : State :=
  let s := if f.route = 1 ∨ f.route = 3 then s.send (.packet f.port r.mac f.source f.decUdp (decisionPacket f r acc dflt tags)) else s
  if f.route = 2 ∨ f.route = 3 then
    if acc then s.placeEdge f.trigAccept { due := f.due r.arrival, driver := false, ctx := f.ctx }
    else if f.rejectEdge then s.placeEdge f.trigReject { due := f.due r.arrival, driver := false, ctx := f.ctx }
    else s
  else s

/-- A record's decision issued; its inbox slot may be used again. -/
def State.issueDecision (s : State) (k : Nat) (r : FlowRec) (acc dflt : Bool) (tags : Nat) : State :=
  match s.flow k with
  | none => s
  | some f =>
    let f := if dflt then f.put 7 63 32 (satAdd 32 f.defaulted 1) else f
    let recs := f.recs.map (fun (x : FlowRec) => if x = r then { x with decided := some (acc, dflt, tags) } else x)
    let s := s.setFlow k { f with recs := recs }
    let s := { s with strm := { s.strm with inboxBusy := s.strm.inboxBusy.filter (fun (b : Nat × Nat × Nat × Nat) => !(r.valid && b.2.2.1 == k && b.2.2.2 == r.n)) } }
    (s.sendDecision f r acc dflt tags).flowMoved k

/-- Defaults issued for every record of a flow whose cutoff has come (R374). [DEDUCED, log 123] -/
def State.cutoffs (s : State) (k : Nat) : State :=
  match s.flow k with
  | none => s
  | some f =>
    if s.on Reg.STRM_STATUS_engine_fenced then s
    else (f.recs.filter (fun r => f.needs r && decide (f.cutoff r.arrival ≤ s.now))).foldl
      (fun (s : State) r => s.issueDecision k r f.dfltAccept true 0) s

/-- A decision word taken from the decision array (R373). [DEDUCED, log 123] -/
def State.decisionWord (s : State) (k word : Nat) : State :=
  match s.flow k with
  | none => s.sat Reg.STRM_DEC_STAT_stale 1
  | some f =>
    match f.recs.find? (fun r => r.valid && !r.marker && r.n == bits word 31 0) with
    | none => s.sat Reg.STRM_DEC_STAT_stale 1
    | some r =>
      if f.tileCount ≠ 0 ∧ f.cutoff r.arrival < s.now then s.sat Reg.STRM_DEC_STAT_late 1
      else if f.needs r = false ∨ f.fault ≠ 0 then s.sat Reg.STRM_DEC_STAT_stale 1
      else s.issueDecision k r (bit word 32) false (bits word 63 48)

/-! ### Frames of an open flow (R366–R371) -/

/-- A frame joined to the pending marker with its cause, and counted lost (R369). -/
def FlowSt.mark (f : FlowSt) (first count cause : Nat) : FlowSt :=
  let m := match f.marker with
    | some (a, n, mask) => (a, n + count, mask ||| 2 ^ cause)
    | none => (first, count, 2 ^ cause)
  { f with marker := some m }.lose count

/-- A frame dropped whole: next moves past it unless it was a late one, which stays counted as it is. [DEDUCED, log 121] -/
def State.dropFrame (s : State) (k : Nat) (f : FlowSt) (q cause : Nat) (late : Bool) : State :=
  if late then s
  else (s.setFlow k { f.mark q 1 cause with next := some ((q + 1) % 2 ^ 32) }).flushMarker k

/-- A frame received while the flow is FAULTED (R370): lost, and its default decision at its deadline. -/
def State.faultedFrame (s : State) (k : Nat) (f : FlowSt) (r : FlowRec) : State :=
  s.setFlow k { f.lose 1 with recs := f.recs ++ (if f.tileCount = 0 then [] else [{ r with valid := false, asked := true }]) }

/-- The payload and the decision word of a record written, then its header by SPILL_WRITE_ACK (R368). -/
def State.spillBody (s : State) (f : FlowSt) (r : FlowRec) : Spill × State :=
  match (if r.bytes = [] then (Spill.done, s) else s.spill f.ctx (f.slotAt r.n + 32) r.bytes) with
  | (.done, s) => s.spill f.ctx (f.wordAt r.n) (List.replicate 8 0xFF)
  | x => x

/-- A frame written as the next record, or dropped for want of tokens or of a slot (R367). [DEDUCED, log 121] -/
def State.writeFrame (s : State) (k : Nat) (r : FlowRec) : State :=
  let s := s.flushMarker k
  match s.flow k with
  | none => s
  | some f =>
    let f := f.refill s.now
    let cost := f.cost r.len * 2 ^ 32
    if f.state ≠ flowOpen then s.faultedFrame k f r
    else if f.tokens < cost then s.dropFrame k f r.seq 2 r.late
    else if f.free < 2 then s.dropFrame k f r.seq 1 r.late
    else
      let r := { r with n := f.tail, asked := decide (f.tileCount = 0) }
      let f := if r.late then { f with missing := f.missing.filter (· != r.seq) }.put 7 31 0 (f.lost - 1) else { f with next := some ((r.seq + 1) % 2 ^ 32) }
      let f := { f with tokens := f.tokens - cost }
      match s.spillBody f r with
      | (.fail st, s) =>
        let s := (s.setFlow k f).faultFlow k st
        match s.flow k with | some f => s.faultedFrame k f r | none => s
      | (.done, s) => s.setFlow k ({ f with recs := f.recs ++ [{ r with bytes := [] }] }.put 6 31 0 (f.tail + 1)).settle
      | (.wait, s) => s.setFlow k ({ f with recs := f.recs ++ [r] }.put 6 31 0 (f.tail + 1)).settle

/-- The sequences from a number on that are counted as not received: those still within reach of a late frame. -/
def missed (next d : Nat) : List Nat := (List.range (min d 64)).map (fun i => (next + d - min d 64 + i) % 2 ^ 32)

/-- A frame's sequence handled under R369: the flow before its record, whether it is late, and whether it is a duplicate. -/
def FlowSt.sequence (f : FlowSt) (q : Nat) : FlowSt × Bool × Bool :=
  match f.next with
  | none => (f, false, false)
  | some next =>
    let d := (q + 2 ^ 32 - next) % 2 ^ 32
    if d = 0 then (f, false, false)
    else if d < 2 ^ 20 then
      ({ f.mark next d 0 with missing := (f.missing ++ missed next d).filter (fun m => decide ((q + 2 ^ 32 - m) % 2 ^ 32 ≤ 64)) }, false, false)
    else if 2 ^ 32 - 64 ≤ d then (f, true, !f.missing.contains q)
    else
      let m := match f.marker with | some (a, n, mask) => (a, n, mask ||| 16) | none => (next, 0, 16)
      ({ f with marker := some m, missing := [] }, false, false)

end Sys2Proof.Machine
end

