-- ==== Sys2Proof/Machine/StreamCmds.lean ====
section
/-! DEFINITION. Instrument streams: frames, delivery, decisions, installing and freeing entries, stream rings, commit, and the loss of the engine (R358–R365, R368, R372–R379). -/
namespace Sys2Proof.Machine

/-! ### Ports (R358, R359, R360) -/

/-- Whether a port is in a stream mode, and whether its link is up. -/
def State.streamPort (s : State) (p : Nat) : Bool := s.portState p == 7 && decide (p < 16)
def State.streamUp (s : State) (p : Nat) : Bool := s.streamPort p && bit (s.rd Reg.STRM_STATUS_ports) p

/-- A frame counted in other, or in check_fail. -/
def State.frameOther (s : State) (p : Nat) : State := s.sat (Reg.STRM_PORT_CNT1_other p) 1
def State.frameCheckFail (s : State) (p : Nat) : State := s.sat (Reg.STRM_PORT_CNT0_check_fail p) 1

/-- A field of the Systini header. -/
def frameField (f : StreamFrame) (off n : Nat) : Nat := leValue ((f.udp.drop off).take n)
def frameLen (f : StreamFrame) : Nat := frameField f 2 2
def frameKind (f : StreamFrame) : Nat := frameField f 1 1 % 16
def frameTemplate (f : StreamFrame) : Nat := frameField f 1 1 / 16

/-- What the checks of R359 and R360 make of a frame. -/
inductive FrameFate where
  | good | checkFail | other
  deriving DecidableEq, Repr

/-- The Systini header and its check (R360). -/
def systiniFate (f : StreamFrame) : FrameFate :=
  let n := frameLen f
  if frameField f 0 1 ≠ 1 ∨ 3 ≤ frameKind f ∨ f.udp.length ≠ 36 + n ∨ 9120 < n ∨ leValue (f.udp.drop (32 + n)) ≠ crcOf 0 0 0 (f.udp.take (32 + n)) then .checkFail
  else if frameKind f = 2 then .other
  else .good

/-- Whether an IP address is the port's own. -/
def State.ownAddress (s : State) (p : Nat) (v6 : Bool) (a : Nat) : Bool :=
  if v6 then a != 0 && a == s.reg (Reg.STRM_PORT_IP6_LO p) + s.reg (Reg.STRM_PORT_IP6_HI p) * 2 ^ 64
  else a != 0 && a == s.reg (Reg.STRM_PORT_IP4 p)

/-- The fate of a frame at a port (R359), its conditions in order. -/
def State.frameFate (s : State) (p : Nat) (f : StreamFrame) : FrameFate :=
  let vlan := s.rd (Reg.STRM_PORT_CFG_vlan p)
  let udp := s.rd (Reg.STRM_PORT_CFG_udp_port p)
  if !f.fcsOk then .checkFail
  else if !f.ownMac || !f.supported then .other
  else if !(match f.vlan with | some v => vlan != 0 && v == vlan | none => vlan == 0) then .other
  else if !s.ownAddress p f.v6 f.dst || udp == 0 || f.udpPort != udp then .other
  else systiniFate f

/-- The source of a frame as a flow's key has it. -/
def frameSource (f : StreamFrame) : Nat := if f.v6 then f.src else 0xFFFF * 2 ^ 32 + f.src % 2 ^ 32

/-- The flow that takes a frame of a key: one that is OPEN or FAULTED. -/
def State.flowFor (s : State) (p source id : Nat) : Option Nat :=
  (s.strm.flows.find? (fun q => q.2.state != flowClosing && q.2.port == p && q.2.source == source && q.2.flowId == id)).map (·.1)

/-! ### Learning a flow (R364) -/

/-- A word of a committed template. -/
def State.tmpl (s : State) (t i : Nat) : Nat := s.reg (Reg.STRM_TMPL t i)

/-- The distance between the rings of a template's pool. -/
def poolSpan (ring : Nat) : Nat :=
  let n := 2 ^ bits ring 52 48 * (2 ^ bits ring 56 53 + 8)
  (n + 2097151) / 2097152 * 2097152

/-- The lowest free ring of a template's pool. -/
def State.poolRing (s : State) (t : Nat) : Option Nat :=
  let used := (s.strm.flows.filter (fun p => p.2.learned && p.2.template == t)).map (fun p => p.2.pool)
  let i := ((List.range (used.length + 1)).find? (fun i => !used.contains i)).getD 0
  if i < bits (s.tmpl t 1) 15 0 then some i else none

/-- The highest-numbered free stream context. -/
def State.freeEntry (s : State) : Option Nat :=
  ((List.range (s.strm.flows.length + s.gens.length + 1)).map (fun i => 65535 - i)).find? (fun k =>
    !s.strm.flows.any (fun p => p.1 == k) && !s.gens.any (fun p => p.1 == k))

/-- A flow with its words, opened now. -/
def State.openFlow (s : State) (k : Nat) (words : List DWord) (pool idle : Nat) : State :=
  let f : FlowSt :=
    { words := words, next := none, marker := none, tokens := 0, tokensAt := s.now, missing := [], recs := [], rr := 0, pool := pool, idle := idle,
      lastAt := s.now, woke := false, fault := 0, drop := false }
  let s := (s.setFlow k { f with tokens := f.depth }).showAdmit
  (List.range f.tileCount).foldl (fun (s : State) i => s.wakeQuad (s.quadOf (f.firstTile + i))) s

/-- Whether R363 admits one more flow of a rate. -/
def State.rateOk (s : State) (rate : Nat) (filtered : Bool) : Bool :=
  decide (s.admitted false + rate ≤ 1000 * s.rd (Reg.REG_CLASS_FLOOR_wr_floor 44)) &&
  (!filtered || decide (s.admitted true + rate ≤ 1000 * s.rd (Reg.REG_CLASS_FLOOR_rd_floor 44)))

/-- A flow learned from a frame's template and key. -/
def State.learn (s : State) (p : Nat) (f : StreamFrame) : Option (Nat × State) :=
  let t := frameTemplate f
  let ports := bits (s.tmpl t 0) 47 32
  if s.duty 3 || bits (s.tmpl t 0) 7 0 != 1 || !bit ports p || !s.rateOk (bits (s.tmpl t 4) 19 0) (bits (s.tmpl t 5) 17 11 != 0) then none
  else match s.poolRing t, s.freeEntry with
    | some i, some k =>
      let w0 := 1 + flowOpen * 2 ^ 8 + 2 ^ 11 + bits (s.tmpl t 0) 15 12 * 2 ^ 12 + p * 2 ^ 16 + t * 2 ^ 20 + bits (s.tmpl t 0) 29 24 * 2 ^ 24 + frameField f 4 4 * 2 ^ 32
      let ring := s.tmpl t 3
      let words := [w0, frameSource f % 2 ^ 64, frameSource f / 2 ^ 64, putBits ring 47 0 (bits ring 47 0 + i * poolSpan ring), s.tmpl t 4, s.tmpl t 5, 0, 0]
      some (k, s.openFlow k (words.map (BitVec.ofNat 64)) i (bits (s.tmpl t 0) 63 48))
    | _, _ => none

/-! ### Frames (R359, R364, R365, R366, R369, R370) -/

/-- The event of frames dropped for a full ingress buffer: one of each port in each 1 ms. -/
def State.ingressDrop (s : State) (p : Nat) : State :=
  let s := s.sat (Reg.STRM_PORT_CNT1_ingress_drop p) 1
  let late := match s.strm.dropAt.find? (fun x => x.1 == p) with | some x => decide (msUnits ≤ s.now - x.2) | none => true
  if late then { s with strm := { s.strm with dropAt := s.strm.dropAt.put p s.now } }.eventOpen blkStrm 9 0 p else s

/-- An end-of-flow frame of an installed flow: its sequence is taken and it leaves no record. -/
def State.endSequence (s : State) (k q : Nat) (f : FlowSt) : State :=
  let (g, late, dup) := f.sequence q
  let g := if late then (if dup then g else { g with missing := g.missing.filter (· != q) }.put 7 31 0 (g.lost - 1))
    else { g with next := some ((q + 1) % 2 ^ 32) }
  (s.setFlow k g).flushMarker k

/-- A frame of an open flow. -/
def State.flowFrame (s : State) (p k : Nat) (fr : StreamFrame) : State :=
  match s.flow k with
  | none => s
  | some f =>
    let s := if f.wake && !f.woke then s.wakeHot Reg.HOST_WAKE_EN_stream else s
    let f := { f with lastAt := s.now, woke := true }
    let q := frameField fr 8 4
    let r := FlowRec.make 0 q s.now (frameField fr 0x18 6) (frameLen fr) fr.srcMac (((fr.udp.drop 32).take (frameLen fr)).take (f.slotBytes - 32))
    if frameKind fr = 1 then
      if f.learned then (s.setFlow k f).closeFlow k false else (s.endSequence k q f).frameOther p
    else if f.state = flowFaulted then
      let s := s.faultedFrame k f r
      if fr.full then s.ingressDrop p else s
    else
      let (g, late, dup) := f.sequence q
      if dup then (s.setFlow k f).frameOther p
      else if fr.full then ((s.setFlow k g).dropFrame k g q 3 late).ingressDrop p
      else (s.setFlow k g).writeFrame k { r with late := late }

/-- A frame that arrives on a port; after a lost heartbeat none is received (R464). [DESIGN CHOICE, log 30; DEDUCED, log 121] -/
def State.frameIn (s : State) (p : Nat) (fr : StreamFrame) : State :=
  if !s.streamUp p || s.glb.stop == 2 then s
  else match s.frameFate p fr with
    | .checkFail => s.frameCheckFail p
    | .other => s.frameOther p
    | .good =>
      match s.flowFor p (frameSource fr) (frameField fr 4 4) with
      | some k => s.flowFrame p k fr
      | none => match s.learn p fr with
        | some (k, s) => s.flowFrame p k fr
        | none => s.sat (Reg.STRM_PORT_CNT0_unadmitted p) 1

/-- STREAM_FRAME (R359, R364, R366–R370). -/
def execStreamFrame (port : Nat) (frame : StreamFrame) (s : State) : Host.Outcome State Fault Refusal := .next (s.frameIn port frame)

/-- END_OF_FLOW_FRAME (R365): a frame of type 1, checked and matched like every other. [DEDUCED, log 122] -/
def execEndOfFlowFrame (port : Nat) (frame : StreamFrame) (s : State) : Host.Outcome State Fault Refusal := .next (s.frameIn port frame)

/-- ARP_REQUEST (R358): answered for the port's own address. [DEDUCED, log 122] -/
def execArpRequest (port addr : Nat) (s : State) : Host.Outcome State Fault Refusal :=
  if s.streamUp port && s.ownAddress port false addr then .next (s.send (.neighbour port false)) else .next s

/-- NEIGHBOR_SOLICITATION (R358). -/
def execNeighborSolicitation (port addr : Nat) (s : State) : Host.Outcome State Fault Refusal :=
  if s.streamUp port && s.ownAddress port true addr then .next (s.send (.neighbour port true)) else .next s

/-- STREAM_PORT_LINK (R358). -/
def execStreamPortLink (port : Nat) (up : Bool) (s : State) : Host.Outcome State Fault Refusal :=
  if s.streamPort port then .next (s.wr ⟨Reg.STRM_STATUS, 16 + port, 16 + port⟩ (ofBool up)) else .next s

/-- SPILL_WRITE_ACK (R368): the earlier writes of a flow's oldest record without its header are acknowledged, and the header is written. A flow
that has faulted writes nothing more: the record is treated as a frame received then (R370). [DEDUCED, log 121] -/
def execSpillWriteAck (flow : Nat) (s : State) : Host.Outcome State Fault Refusal :=
  match s.flow flow with
  | none => .next s
  | some f =>
    match f.recs.find? (fun r => r.valid && !r.hdr) with
    | none => .next s
    | some r =>
      let upd (f : FlowSt) (y : FlowRec) : FlowSt := { f with recs := f.recs.map (fun (x : FlowRec) => if x = r then y else x) }
      let body := if f.fault ≠ 0 then (Spill.fail f.fault, s) else s.spillBody f r
      let whole := match body with
        | (.done, s) => s.spill f.ctx (f.slotAt r.n) (f.recHeader flow r)
        | x => x
      match whole with
      | (.wait, s) => .next s
      | (.done, s) => .next ((s.setFlow flow (upd f { r with hdr := true, bytes := [] })).flowMoved flow)
      | (.fail st, s) =>
        let s := s.setFlow flow ((upd f { r with valid := false, hdr := true, asked := true }).lose 1)
        .next ((if f.fault ≠ 0 then s else s.faultFlow flow st).flowMoved flow)

/-! ### The filter path (R372, R373, R374) -/

/-- The next inbox slot of a tile, if the decision of its previous record has been issued. -/
def State.inboxSlot (s : State) (f : FlowSt) (t : Nat) : Option Nat :=
  let i := s.strm.inboxNext.get 0 t % 2 ^ f.inboxLog
  if s.strm.inboxBusy.any (fun b => b.1 == t && b.2.1 == i) then none else some i

/-- The filter tile that a record goes to: the next in turn that is not fenced and has a slot. -/
def State.filterTile (s : State) (f : FlowSt) : Option (Nat × Nat × Nat) :=
  ((List.range f.tileCount).map (fun i => (f.rr + i) % f.tileCount)).findSome? (fun i =>
    let t := f.firstTile + i
    if s.tileFenced t then none else (s.inboxSlot f t).map (fun sl => (i, t, sl)))

/-- A record's bytes read from its ring for delivery. [DEDUCED, log 123] -/
def State.recordRead (s : State) (flow : Nat) (f : FlowSt) (r : FlowRec) : Option (List PByte) × State :=
  let n := min f.slotBytes (32 + r.len)
  (granPieces (f.slotAt r.n) (List.replicate n 0)).foldl (fun (acc : Option (List PByte) × State) p =>
    match acc.1 with
    | none => acc
    | some bs => match acc.2.agentRead (.flow flow) (.ctx f.ctx) p.1 p.2.length .clean with
      | (.data d, s) => (some (bs ++ d), s)
      | (.refused, s) => (some (bs ++ allPoison p.2.length), s)
      | (.wait, s) => (none, s)) (some [], s)

/-- INBOX_DELIVERY (R372): the oldest record of a flow that has its header and has not been offered to a tile. -/
def execInboxDelivery (flow : Nat) (s : State) : Host.Outcome State Fault Refusal :=
  match s.flow flow with
  | none => .next s
  | some f =>
    match f.recs.find? (fun r => r.valid && r.hdr && !r.asked) with
    | none => .next s
    | some r =>
      let upd (f : FlowSt) (y : FlowRec) : FlowSt := { f with recs := f.recs.map (fun (x : FlowRec) => if x = r then y else x) }
      match s.filterTile f with
      | none => .next ((s.setFlow flow (upd f { r with asked := true })).sat Reg.STRM_DEC_STAT_undelivered 1)
      | some (i, t, sl) =>
        if s.quadRuns (s.quadOf t) = false then .next (s.wakeQuad (s.quadOf t))
        else match s.recordRead flow f r with
          | (none, s) => .next s
          | (some bs, s) =>
            let at_ := f.inbox + sl * f.slotBytes
            let s := (s.scrStore t (at_ + 32) (bs.drop 32)).scrStore t at_ (bs.take 32)
            let f := { (upd f { r with asked := true, inbox := some (t, sl) }) with rr := (i + 1) % f.tileCount }
            let busy := if r.decided.isSome then s.strm.inboxBusy else s.strm.inboxBusy ++ [(t, sl, flow, r.n)]
            .next { (s.setFlow flow f) with strm := { (s.setFlow flow f).strm with inboxBusy := busy, inboxNext := s.strm.inboxNext.put t (sl + 1) } }

/-- DECISION_WORD (R373): the oldest word that a controller has forwarded. -/
def execDecisionWord (s : State) : Host.Outcome State Fault Refusal :=
  match s.strm.fwd with
  | [] => .next s
  | (k, w) :: t =>
    let s := { s with strm := { s.strm with fwd := t } }
    if s.on Reg.STRM_STATUS_engine_fenced then .next s else .next (s.decisionWord k w)

/-- DECISION_CUTOFF (R374): the cutoff of a flow's records. -/
def execDecisionCutoff (flow : Nat) (s : State) : Host.Outcome State Fault Refusal := .next (s.cutoffs flow)

/-- FLOW_IDLE_TIMEOUT (R365). -/
def execFlowIdleTimeout (flow : Nat) (s : State) : Host.Outcome State Fault Refusal :=
  match s.flow flow with
  | none => .next s
  | some f =>
    if f.learned = true ∧ f.idle ≠ 0 ∧ f.state ≠ flowClosing ∧ f.lastAt + msTime f.idle ≤ s.now then .next (s.closeFlow flow false) else .next s

/-! ### Entries (R128, R362, R379) -/

/-- A register access made by firmware. -/
def isFirmware : BusSrc → Bool
  | .firmware => true
  | .host _ => false

/-- The end of a STRM_CTX_CMD. -/
def State.ctxResult (s : State) (k result : Nat) : State :=
  ((s.wr Reg.STRM_CTX_STATUS_busy 0).wr Reg.STRM_CTX_STATUS_result result).wr Reg.STRM_CTX_STATUS_entry k

/-- The ranges of a flow's fields in R361, as a template and an entry share them. -/
def flowRanges (w : List Nat) : Bool :=
  let g (i : Nat) : Nat := (w[i]?).getD 0
  let slots := bits (g 3) 52 48
  let slot := bits (g 3) 56 53
  let inboxAt := bits (g 5) 37 18
  bits (g 0) 7 0 == 1 && bits (g 0) 31 30 == 0 && bits (g 3) 63 57 == 0 && bits (g 3) 11 0 == 0 &&
  decide (4 ≤ slots ∧ slots ≤ 20) && decide (8 ≤ slot ∧ slot ≤ 14) && decide (1 ≤ bits (g 4) 19 0) && decide (2 ^ slot ≤ bits (g 4) 31 20 * 1024) &&
  (bits (g 4) 63 32 == 0 || decide (2000 ≤ bits (g 4) 63 32)) && decide (bits (g 5) 17 11 ≤ 64) && decide (bits (g 5) 41 38 ≤ 8) &&
  inboxAt % 2 ^ slot == 0

/-- The filter tiles and inbox of an image, and its tile_count and deadline conditions (R362). -/
def State.filterOk (s : State) (f : FlowSt) : Bool :=
  decide (f.firstTile + f.tileCount ≤ s.glb.tileCount ∨ f.tileCount = 0) && decide (f.inbox + 2 ^ f.inboxLog * f.slotBytes ≤ 0xA0000 ∨ f.tileCount = 0) &&
  !(f.tileCount == 0 && f.route != 0) && !(f.tileCount != 0 && f.deadlineNs == 0)

/-- Whether another flow names one of an image's filter tiles with another inbox. -/
def State.inboxConflict (s : State) (f : FlowSt) : Bool :=
  s.strm.flows.any (fun p =>
    let g := p.2
    let meet := decide (f.firstTile < g.firstTile + g.tileCount) && decide (g.firstTile < f.firstTile + f.tileCount)
    meet && !(g.inbox == f.inbox && g.inboxLog == f.inboxLog && g.slotBytes == f.slotBytes))

/-- Whether a range lies in granules that a context may write. -/
def State.ownsRange (s : State) (ctx a n : Nat) : Bool :=
  s.inMemory a n && (List.range ((a + n - 1) / granuleBytes - a / granuleBytes + 1)).all (fun i => (s.own (a / granuleBytes + i)).admits (.ctx ctx) true)

/-- The result code that refuses an ingest flow's image, or 0 (R362). -/
def State.flowRefused (s : State) (src : BusSrc) (k : Nat) (w : List Nat) (f : FlowSt) : Nat :=
  if (s.flow k).isSome || s.gens.any (fun p => p.1 == k) then 1
  else if !flowRanges w || !s.streamPort f.port then 2
  else if !s.on (Reg.XLAT_CTX_enable f.ctx) || (f.ctx == 0 && !isFirmware src) then 3
  else if !s.ownsRange f.ctx f.base (f.slots * (f.slotBytes + 8)) || !s.filterOk f then 2
  else if (s.flowFor f.port f.source f.flowId).isSome then 5
  else if s.inboxConflict f then 6
  else if !s.rateOk f.rate (f.tileCount != 0) then 4
  else 0

/-- Whether a descriptor that names a generation entry is in flight (R128). -/
def State.genInFlight (s : State) (k : Nat) : Bool :=
  s.rings.any (fun p => s.ringCls p.1 == clsCompute && p.2.issued.any (fun d => d.status.isNone && opIsCompute d.bytes && genNamed (genWord d.bytes) &&
    genCtx (genWord d.bytes) == k))

/-- A generation entry's image (R128). -/
def genImage (w : List Nat) : GenEntry :=
  let g (i : Nat) : Nat := (w[i]?).getD 0
  { ctx := bits (g 1) 29 24, full := bit (g 0) 8, pos := bits (g 0) 55 32, shardCount := bits (g 0) 31 24, shardIndex := bits (g 0) 23 16,
    shardLen := bits (g 1) 23 0, advances := bits (g 1) 63 32, user := g 2 }

/-- The constraints of R128. -/
def genOk (w : List Nat) : Bool :=
  let g := genImage w
  let x (i : Nat) : Nat := (w[i]?).getD 0
  bits (x 0) 15 9 == 0 && bits (x 0) 63 56 == 0 && bits (x 1) 31 30 == 0 && (w.drop 3).all (· == 0) && decide (1 ≤ g.ctx) &&
  decide (1 ≤ g.shardCount ∧ g.shardCount ≤ 64) && decide (g.shardIndex < g.shardCount) && !(g.full && g.pos != 0) &&
  (if g.shardCount = 1 then g.shardLen == 0 else g.shardLen != 0 && g.shardLen % 256 == 0 && decide ((g.shardCount - 1) * g.shardLen < 2 ^ 24))

/-- The words of a generation entry. -/
def genWords (g : GenEntry) : List Nat :=
  [2 + ofBool g.full * 2 ^ 8 + g.shardIndex * 2 ^ 16 + g.shardCount * 2 ^ 24 + g.pos * 2 ^ 32, g.shardLen + g.ctx * 2 ^ 24 + g.advances * 2 ^ 32, g.user, 0, 0, 0, 0, 0]

/-- The image in STRM_CTX_DATA0–7. -/
def State.ctxImage (s : State) : List Nat := (List.range 8).map (fun i => s.reg (Reg.STRM_CTX_DATA i))

/-- INSTALL (R128, R362). -/
def execInstall (src : BusSrc) (s : State) : Host.Outcome State Fault Refusal :=
  let k := s.rd Reg.STRM_CTX_SEL_entry
  let w := s.ctxImage
  let kind := (w.headD 0) % 256
  if kind = 1 then
    let ws := [putBits (putBits (w.headD 0) 11 8 flowOpen) 23 20 0] ++ (w.drop 1).take 5 ++ [0, 0]
    let f : FlowSt := { words := ws.map (BitVec.ofNat 64), next := none, marker := none, tokens := 0, tokensAt := 0, missing := [], recs := [], rr := 0, pool := 0,
                        idle := 0, lastAt := 0, woke := false, fault := 0, drop := false }
    let bad := s.flowRefused src k w f
    if bad ≠ 0 then .next (s.ctxResult k bad) else .next ((s.openFlow k f.words 0 0).ctxResult k 0)
  else if kind = 2 then
    if (s.flow k).isSome then .next (s.ctxResult k 1)
    else if !genOk w then .next (s.ctxResult k 2)
    else if s.genInFlight k then .next (s.ctxResult k 7)
    else .next ({ s with gens := s.gens.put k (genImage w) }.ctxResult k 0)
  else .next (s.ctxResult k 2)

/-- FREE (R362, R365). -/
def execFree (src : BusSrc) (s : State) : Host.Outcome State Fault Refusal :=
  let k := s.rd Reg.STRM_CTX_SEL_entry
  match s.flow k with
  | some f =>
    if f.ctx = 0 ∧ isFirmware src = false then .next (s.ctxResult k 3) else .next ((s.closeFlow k false).ctxResult k 0)
  | none =>
    if !s.gens.any (fun p => p.1 == k) then .next (s.ctxResult k 8)
    else if s.genInFlight k then .next (s.ctxResult k 7)
    else .next ({ s with gens := s.gens.del k }.ctxResult k 0)

/-- READ (R379). -/
def execCtxRead (src : BusSrc) (s : State) : Host.Outcome State Fault Refusal :=
  let k := s.rd Reg.STRM_CTX_SEL_entry
  let show_ (w : List Nat) : State := ((List.range 8).foldl (fun (s : State) i => s.setReg (Reg.STRM_CTX_DATA i) ((w[i]?).getD 0)) s).ctxResult k 0
  match s.flow k with
  | some f => if f.ctx = 0 ∧ isFirmware src = false then .next (s.ctxResult k 3) else .next (show_ (f.words.map BitVec.toNat))
  | none => match s.gens.find? (fun p => p.1 == k) with
    | some p => .next (show_ (genWords p.2))
    | none => .next (show_ [])

/-! ### Stream rings (R377) -/

/-- The body check of the stream opcodes: the entry is a flow of the ring's context, and the rest is 0. -/
def State.streamBodyOk (s : State) (r : Nat) (b : List Byte) : Bool :=
  descBits b 8 63 16 == 0 && zeroFrom b 0x18 40 &&
  (match s.flow (descBits b 8 15 0) with
   | some f => f.ctx == s.ringCtx r &&
      (opOf b != 0x60 || (descBits b 0x10 63 32 == 0 &&
        decide ((descBits b 0x10 31 0 + 2 ^ 32 - f.head) % 2 ^ 32 ≤ (f.tail + 2 ^ 32 - f.head) % 2 ^ 32)))
   | none => false)

/-- Whether a stream ring still runs a descriptor. -/
def State.streamBusy (s : State) (r : Nat) : Bool := (s.ring r).issued.any (fun d => d.status.isNone)

/-- STRM_RELEASE carried out: records below the new head are released (R371). -/
def State.startRelease (s : State) (r seq : Nat) : State :=
  match s.runOf r seq with
  | none => s
  | some d =>
    let k := descBits d.cur 8 15 0
    let new := descBits d.cur 0x10 31 0
    match s.flow k with
    | none => s.finish r seq stMalformed none 0
    | some f =>
      let recs := if f.keep then f.recs.map (fun (x : FlowRec) => if x.valid && later new x.n then { x with released := true } else x) else f.recs
      let s := s.setFlow k ({ f with recs := recs }.put 6 63 32 new)
      (s.finish r seq stSuccess none (k * 2 ^ 40 + new)).flowMoved k

/-- STRM_WATCH begun: it completes at once when its target is decided. -/
def State.startWatch (s : State) (r seq : Nat) : State :=
  match s.runOf r seq with
  | none => s
  | some d => (s.updRun r seq (fun (d : Run) => { d with allIssued := true })).pollWatches (descBits d.cur 8 15 0) false

/-- STRM_RELEASE (R371, R377). -/
def execStrmRelease (ring : Nat) (s : State) : Host.Outcome State Fault Refusal :=
  .next (s.issueHead ring (s.isOp ring 0x60) (fun s q => s.streamBodyOk ring q.bytes) (fun s _ => s.streamBusy ring) (fun s seq => s.startRelease ring seq))

/-- STRM_WATCH (R377). -/
def execStrmWatch (ring : Nat) (s : State) : Host.Outcome State Fault Refusal :=
  .next (s.issueHead ring (s.isOp ring 0x61) (fun s q => s.streamBodyOk ring q.bytes) (fun s _ => s.streamBusy ring) (fun s seq => s.startWatch ring seq))

/-! ### Commit, and the loss of the engine (R378, R379) -/

/-- Whether an enabled template breaks a range or the layout of R364, or is the driver's with context 0. [DEDUCED, log 122] -/
def State.templateBad (s : State) (t : Nat) : Bool :=
  let w := (List.range 8).map (fun i => s.shd (Reg.STRM_TMPL t i))
  let g (i : Nat) : Nat := (w[i]?).getD 0
  bits (g 0) 7 0 != 0 &&
    (!flowRanges w || bits (g 0) 11 8 != 0 || bits (g 0) 23 16 != 0 || bits (g 1) 15 0 == 0 || bits (g 1) 63 16 != 0 || g 2 != 0 || g 6 != 0 || g 7 != 0 ||
      (decide (8 ≤ t) && bits (g 0) 29 24 == 0))

/-- STRM_COMMIT (R379): at once. -/
def execStrmCommit (v : Word) (s : State) : Host.Outcome State Fault Refusal :=
  if bits v.toNat 0 0 = 0 then .next s
  else if (List.range 16).any (fun p => s.shf (Reg.STRM_PORT_CFG_vlan p) == 0xFFF) then .next (s.commitRefused Reg.STRM_COMMIT_STATUS 1)
  else match (List.range 16).find? s.templateBad with
    | some t => .next (s.commitRefused Reg.STRM_COMMIT_STATUS (0x10 + t))
    | none =>
      let offs := (List.range 16).map Reg.STRM_PORT_CFG ++ (List.range 16).flatMap (fun t => (List.range 8).map (Reg.STRM_TMPL t))
      .next ((s.commitRegs offs).commitDone Reg.STRM_COMMIT_STATUS)

/-- The stream engine fenced (R378, R463), and what the stream rings run ends with ENGINE_LOST. -/
def State.fenceStream (s : State) : State :=
  if s.on Reg.STRM_STATUS_engine_fenced then s
  else
    let s := s.wr Reg.STRM_STATUS_engine_fenced 1
    let s := { s with glb := { s.glb with worn := true } }.fatalOpen 0x2011 0 false
    (s.rings.map (·.1)).foldl (fun (s : State) r =>
      if s.ringCls r = clsStream then
        ((s.ring r).issued.filter (fun d => d.status.isNone)).foldl (fun (s : State) (d : Run) => s.finish r d.seq stEngineLost none 0) s
      else s) s

/-- STREAM_ENGINE_PARITY (R378, R463). -/
def execStreamEngineParity (s : State) : Host.Outcome State Fault Refusal := .next s.fenceStream

end Sys2Proof.Machine
end

