-- ==== Sys2Proof/Machine/Time.lean ====
section
/-! DEFINITION. The time base: sources, the servo, steps, the exchange with the parent, host steering, triggers and PPS_OUT (R380–R394). -/
namespace Sys2Proof.Machine

/-! ### Steps and the servo (R383, R384) -/

/-- Time units of ±10 µs, and of a number of microseconds. -/
def ppsSlack : Nat := 42949

/-- step_limit_us in time units. -/
def State.stepLimit (s : State) : Nat := usTime (s.rd Reg.TIME_CFG_step_limit_us)

/-- What a forward step makes at once: the next edge of an output, or the default of a flow's record. -/
inductive DueWork where
  | edge (o : Nat)
  | cutoff (k : Nat) (r : FlowRec)
  deriving DecidableEq, Repr

/-- Work put in its place by the time at which it fell due. -/
def insertDue (t : Nat) (w : DueWork) : List (Nat × DueWork) → List (Nat × DueWork)
  | [] => [(t, w)]
  | x :: l => if t < x.1 then (t, w) :: x :: l else x :: insertDue t w l

/-- The edges and cutoffs that fell due, in due order. [DEDUCED, log 126] -/
def State.dueWork (s : State) : List (Nat × DueWork) :=
  let edges := (List.range 4).flatMap (fun o => ((s.edges o).filter (fun e => decide (e.due ≤ s.now))).map (fun e => (e.due, DueWork.edge o)))
  let cuts := s.strm.flows.flatMap (fun p => (p.2.recs.filter (fun r => p.2.needs r && decide (p.2.cutoff r.arrival ≤ s.now))).map (fun r =>
    (p.2.cutoff r.arrival, DueWork.cutoff p.1 r)))
  (edges ++ cuts).foldl (fun l x => insertDue x.1 x.2 l) []

/-- One of them made: an edge counts as late, a cutoff issues its default. -/
def State.makeDue (s : State) : DueWork → State
  | .edge o => (s.makeEdge o).edgeLate o
  | .cutoff k r =>
    if s.on Reg.STRM_STATUS_engine_fenced then s
    else match s.flow k with
      | some f => s.issueDecision k r f.dfltAccept true 0
      | none => s

/-- The counter stepped forward to a time: an event, and in due order every edge that fell due and every cutoff passed (R384). [DEDUCED, log 126] -/
def State.stepTime (s : State) (t : Nat) : State :=
  let s := ({ s with time := { s.time with frac := 0, behind := 0, exch := [] } }.setReg Reg.TIME_NOW (t % 2 ^ 64)).eventOpen blkTime 9 0 0
  s.dueWork.foldl (fun (s : State) x => s.makeDue x.2) s

/-- TIME_ERR of an update: own counter less the source's. -/
def State.timeErr (s : State) (e : Int) : State := s.setReg Reg.TIME_ERR (unsigned 64 e)

/-- A rate in force. -/
def State.setRate (s : State) (r : Nat) : State := s.setReg Reg.TIME_RATE r

/-- The servo's correction (R383): `per` is the number of updates in one second. [DEDUCED, log 126] -/
def State.servo (s : State) (e : Int) (per : Nat) : State :=
  let f := s.time.freq - Int.fdiv e 32
  let adj := f - Int.fdiv e 4
  -- adj × 2^32 × per ÷ 10^9, rounded to nearest
  let corr := Int.fdiv (2 * adj * (2 ^ 32 * per : Nat) + (10 ^ 9 : Nat)) (2 * 10 ^ 9 : Nat)
  ({ s with time := { s.time with freq := f } }).setRate (clampRate ((rateNominal : Nat) + corr))

/-- The counter in LOCKED to a source. -/
def State.locked (s : State) : State := ({ s with time := { s.time with slew := false, behind := 0, had := true } }).toTime 3

/-- A source taken: the next update steps the counter to it. -/
def State.acquire (s : State) (source : Nat) : State :=
  (({ s with time := { s.time with slew := false, had := true, stamps := [], ignored := 0 } }).toTime 2).wr Reg.TIME_STATUS_source source

/-- No source, which leaves the top manager the master of its own counter: HOLDOVER if there has been one since reset, else FREE; the rate stays (R382). -/
def State.noSource (s : State) : State :=
  let s := ((s.wr Reg.TIME_STATUS_source 0).wr Reg.TIME_STATUS_hops (if s.on Reg.FAB_GROUP_top then 0 else 0xFF)).wr Reg.TIME_STATUS_parent_port 0xF
  let s := { s with time := { s.time with stamps := [], ignored := 0, exch := [], req := none, slew := false, behind := 0 } }
  if s.timeState = 0 then s else s.toTime (if s.time.had then 4 else 1)

/-- The counter ahead of its source in ACQUIRE: slewed back at the full 100 ppm. [DEDUCED, log 126] -/
def State.slewBack (s : State) : State := ({ s with time := { s.time with slew := true } }).setRate rateMin

/-! ### PPS_IN (R383) -/

/-- An armed TIME_SEC_NEXT used or dropped. -/
def State.disarm (s : State) : State := s.wr Reg.TIME_STATUS_sec_armed 0

/-- The step of ACQUIRE at a PPS edge of an age (R384). [DEDUCED, log 125] -/
def State.ppsAcquire (s : State) (age : Nat) : State :=
  let sec := s.now / 2 ^ 32
  let next := ((s.now - age) / 2 ^ 32 + 1) * 2 ^ 32 + age
  let armed := s.on Reg.TIME_STATUS_sec_armed
  let want := s.rd Reg.TIME_SEC_NEXT_seconds
  if armed ∧ want < sec then (((s.disarm).eventOpen blkTime 9 0 0).stepTime next).locked
  else
    let t := if armed then want * 2 ^ 32 + age else next
    if s.now ≤ t then ((s.disarm).stepTime t).locked
    else (s.timeErr ((s.now : Int) - (t : Int))).slewBack

/-- An edge in FREE, HOLDOVER or ACQUIRE: the third of three that lie 1 s ± 10 µs apart makes PPS_IN the source. [DEDUCED, log 125] -/
def State.ppsSearch (s : State) (stamp : Nat) : State :=
  let good := match s.time.stamps.getLast? with
    | some p => decide (p + 2 ^ 32 ≤ stamp + ppsSlack ∧ stamp ≤ p + 2 ^ 32 + ppsSlack)
    | none => false
  let l := if good then s.time.stamps ++ [stamp] else [stamp]
  if l.length < 3 then { s with time := { s.time with stamps := l } }
  else ((({ s with time := { s.time with ppsAt := s.now, offset := 0 } }).acquire 1).wr Reg.TIME_STATUS_hops 0).wr Reg.TIME_STATUS_parent_port 0xF

/-- An update in LOCKED: a step when the counter has been behind by more than the limit three times in a row, else the servo (R383, R384).
In host-assisted mode there is neither (R388). [DEDUCED, log 126] -/
def State.lockedUpdate (s : State) (off e : Int) (per : Nat) : State :=
  if s.duty 9 then s
  else
    let n := if (s.stepLimit : Int) < off then s.time.behind + 1 else 0
    if 3 ≤ n then (s.stepTime ((s.now : Int) + off).toNat).locked
    else ({ s with time := { s.time with behind := n } }).servo e per

/-- An accepted edge in LOCKED, or while the counter is slewed back. [DEDUCED, log 125] -/
def State.ppsAccept (s : State) (e : Int) : State :=
  let s := (({ s with time := { s.time with ignored := 0, ppsAt := s.now } }).timeErr e).wr Reg.TIME_DELAY_delay_ns 0
  s.lockedUpdate (-e) e 1

/-- PPS_IN_EDGE (R383, R384): an edge of PPS_IN, `age` time units before this command. [DESIGN CHOICE, log 12] -/
def execPpsInEdge (falling : Bool) (age : Nat) (s : State) : Host.Outcome State Fault Refusal :=
  let stamp := s.now - age
  let e := signed 32 (stamp % 2 ^ 32)
  let st := s.timeState
  let mine := decide (s.rd Reg.TIME_STATUS_source = 1)
  if falling ≠ s.on Reg.TIME_CFG_pps_falling ∨ s.isManager = false ∨ st = 0 then .next s
  else if st = 3 ∧ mine = true then
    if e.natAbs ≤ ppsSlack then .next (s.ppsAccept e)
    else if s.time.ignored + 1 < 3 then .next { s with time := { s.time with ignored := s.time.ignored + 1 } }
    else .next ((s.noSource).toTime 2)
  else if st = 3 then .next s
  else if st = 2 ∧ mine = true then
    let s := { s with time := { s.time with ppsAt := s.now } }
    if s.time.slew = false then .next (s.ppsAcquire age)
    else if e.natAbs ≤ s.stepLimit then .next ((s.locked).ppsAccept e)
    else .next (s.timeErr e)
  else .next (s.ppsSearch stamp)

/-- PPS_LOSS_TIMEOUT (R383): 1.5 s without an accepted edge. -/
def execPpsLossTimeout (s : State) : Host.Outcome State Fault Refusal :=
  if s.rd Reg.TIME_STATUS_source = 1 ∧ s.time.ppsAt + 3 * 2 ^ 31 ≤ s.now then .next s.noSource else .next s

/-! ### The parent (R383, R386, R387) -/

/-- The key slot that time messages to a device use. -/
def State.timeSlot (s : State) (dev : Nat) : Nat := if dev / 64 = s.deviceId / 64 then 9 else 10

/-- A link-local message on a port: class 2, hop 0, connection 0xFFFF. -/
def State.linkLocal (s : State) (p op : Nat) (args : List Nat) : State :=
  let dev := s.rd (Reg.FAB_PORT_STATUS_neighbour p)
  (s.putBlock p { block := LinkBlock.make 32 dev 0 (.own op 0 0xFFFF 0), from_ := none }).send (.fabricCtl dev 0xFFFF op args)

/-- TIME_EXCHANGE_TIMER (R386): TIME_REQ to the parent every 10 ms. -/
def execTimeExchangeTimer (s : State) : Host.Outcome State Fault Refusal :=
  let p := s.rd Reg.TIME_STATUS_parent_port
  if s.rd Reg.TIME_STATUS_source ≠ 2 ∨ s.glb.stop = 2 ∨ s.portUp p = false ∨ s.slotLoaded (s.timeSlot (s.rd (Reg.FAB_PORT_STATUS_neighbour p))) = false then .next s
  else .next (({ s with time := { s.time with req := some s.now } }).linkLocal p 0x28 [s.now])

/-- TIME_REQ (R386): answered on its port by a package that holds the key. -/
def execTimeReq (port t1 : Nat) (authentic : Bool) (s : State) : Host.Outcome State Fault Refusal :=
  if !s.portUp port || !authentic || s.glb.stop == 2 || s.rd (Reg.FAB_PORT_STATUS_version port) == 1 || !s.slotLoaded (s.timeSlot (s.rd (Reg.FAB_PORT_STATUS_neighbour port))) then .next s
  else .next (s.linkLocal port 0x29 [t1, s.now, s.now, unsigned 64 s.time.offset, s.timeState, s.rd Reg.TIME_STATUS_hops])

/-- TIME_RSP (R386, R387): the offset and the delay of one exchange, and the own offset from the master. -/
def execTimeRsp (port t1 t2 t3 : Nat) (offset : DWord) (state hops : Nat) (authentic : Bool) (s : State) : Host.Outcome State Fault Refusal :=
  if port ≠ s.rd Reg.TIME_STATUS_parent_port ∨ s.rd Reg.TIME_STATUS_source ≠ 2 ∨ s.time.req ≠ some t1 ∨ authentic = false ∨ s.portUp port = false ∨
      s.rd (Reg.FAB_PORT_STATUS_version port) = 1 then .next s
  else
    let t4 := s.now
    let asym := Int.fdiv (signed 32 (s.reg (Reg.TIME_PORT_ASYM port)) * (2 ^ 32 : Nat)) (10 ^ 12 : Nat)
    let off := Int.fdiv (((t2 : Int) - t1) - ((t4 : Int) - t3) - asym) 2
    let delay := Int.fdiv (((t4 : Int) - t1) - ((t3 : Int) - t2)) 2
    let ex := ((s.time.exch ++ [(off, delay)]).reverse.take 10).reverse
    let _ := state
    let s := { s with time := { s.time with req := none, exch := ex, offset := signed 64 offset.toNat - off } }
    .next ((s.wr Reg.TIME_DELAY_delay_ns (delay.toNat * 10 ^ 9 / 2 ^ 32)).wr Reg.TIME_STATUS_hops (min 0xFF (hops + 1)))

/-- The exchange with the least path delay among the last ten. -/
def bestExchange : List (Int × Int) → Option (Int × Int)
  | [] => none
  | x :: t => match bestExchange t with
    | none => some x
    | some y => if x.2 ≤ y.2 then some x else some y

/-- An update of a parent source in LOCKED: ten in each second. -/
def State.parentLocked (s : State) (off e : Int) : State := s.lockedUpdate off e 10

/-- PARENT_SERVO_UPDATE (R383, R384): every 100 ms. -/
def execParentServoUpdate (s : State) : Host.Outcome State Fault Refusal :=
  match bestExchange s.time.exch with
  | none => .next s
  | some (off, _) =>
    let e := -off
    let s := s.timeErr e
    let st := s.timeState
    if s.rd Reg.TIME_STATUS_source ≠ 2 ∨ st = 0 then .next s
    else if st = 1 ∨ st = 4 then .next (s.acquire 2)
    else if st = 3 then .next (s.parentLocked off e)
    else if s.time.slew then (if e.natAbs ≤ s.stepLimit then .next s.locked else .next s)
    else if 0 ≤ off then .next (s.stepTime ((s.now : Int) + off).toNat).locked
    else .next s.slewBack

/-! ### SYSREF (R385, R396) -/

/-- The clock of a site whose forwarded clock has stopped: its trained modules go down (R39, R268, R396). -/
def State.siteClockLost (s : State) (n : Nat) : State :=
  if (s.site n).sclk then
    (List.range (siteModules n)).foldl (fun (s : State) m => s.moduleDown n m) (s.setSite n { s.site n with sclk := false })
  else s

/-- A site's clock again (R39): a site whose power is good and that waited for the clock begins its sideband; the modules that went down
train on. -/
def State.siteClockBack (s : State) (n : Nat) : State :=
  let x := s.site n
  if x.pgood && x.pwren then
    if s.siteState n = 1 then s.startSideband n else s.setSite n { x with sclk := true }
  else s

/-- SYSREF_LOSS (R385, R396): NOREF, the site clocks stop, and the other PLLs hold. -/
def execSysrefLoss (s : State) : Host.Outcome State Fault Refusal :=
  if !s.boot.sysref then .next s
  else
    let s := { s with boot := { s.boot with sysref := false } }
    let s := (s.noSource.toTime 0).eventOpen blkTime 9 0 0
    .next ((List.range 8).foldl State.siteClockLost s)

/-- SYSREF_RETURN (R385, R396): HOLDOVER without a step, and the site clocks again. [DEDUCED, log 127] -/
def execSysrefReturn (s : State) : Host.Outcome State Fault Refusal :=
  if s.boot.sysref then .next s
  else
    let s := { s with boot := { s.boot with sysref := true } }
    let s := if s.timeState = 0 then s.toTime 4 else s
    .next ((List.range 8).foldl State.siteClockBack s)

/-! ### Host-assisted discipline (R388) -/

/-- TIME_STEER (R388): the rate is nominal plus the correction. [DEDUCED, log 127] -/
def execTimeSteer (v : DWord) (s : State) : Host.Outcome State Fault Refusal :=
  if !s.duty 9 then .next (s.regEvent 1 Reg.TIME_STEER v.toNat)
  else
    let s := (s.setReg Reg.TIME_STEER v.toNat).setRate (clampRate ((rateNominal : Nat) + signed 64 v.toNat))
    let s := { s with time := { s.time with steerAt := s.now } }
    .next (if s.timeState = 4 ∧ s.rd Reg.TIME_STATUS_source ≠ 0 then s.toTime 3 else s)

/-- STEER_TIMEOUT (R388): 1 s without a steering write. [DEDUCED, log 127] -/
def execSteerTimeout (s : State) : Host.Outcome State Fault Refusal :=
  if s.duty 9 = true ∧ s.timeState = 3 ∧ s.time.steerAt + 2 ^ 32 ≤ s.now then .next ((s.toTime 4).fallback 9) else .next s

/-- TIME_SEC_NEXT (R384, R394): a firmware write; a BAR0 write is discarded with an event (R481). -/
def execTimeSecNext (src : BusSrc) (v : Word) (s : State) : Host.Outcome State Fault Refusal :=
  if isFirmware src then .next ((s.setReg Reg.TIME_SEC_NEXT v.toNat).wr Reg.TIME_STATUS_sec_armed 1)
  else .next (if v.toNat = s.reg Reg.TIME_SEC_NEXT then s else s.regEvent 1 Reg.TIME_SEC_NEXT v.toNat)

/-- TIME_COMMIT (R394): at once. [DEDUCED, log 184] -/
def execTimeCommit (src : BusSrc) (v : Word) (s : State) : Host.Outcome State Fault Refusal :=
  let pps := s.shf Reg.TIME_CFG_pps_out_ms
  if isFirmware src = false then .next (if bits v.toNat 0 0 = 0 then s else s.regEvent 1 Reg.TIME_COMMIT v.toNat)
  else if bits v.toNat 0 0 = 0 then .next s
  else if pps = 0 ∨ 200 < pps ∨ s.shf Reg.TIME_CFG_step_limit_us = 0 then .next (s.commitRefused Reg.TIME_COMMIT_STATUS 1)
  else if (List.range 4).any (fun o => let n := bits (s.shd Reg.TIME_TOUT_CFG) (8 * o + 4) (8 * o); decide (n < 4 ∨ 16 < n)) then
    .next (s.commitRefused Reg.TIME_COMMIT_STATUS 2)
  else .next ((s.commitRegs [Reg.TIME_CFG, Reg.TIME_TOUT_CFG]).commitDone Reg.TIME_COMMIT_STATUS)

/-! ### Triggers and PPS_OUT (R390, R391, R392) -/

/-- The stamps of an input, and the count that TIME_TIN_STAT shows. -/
def State.stamps (s : State) (i : Nat) : List Nat := s.time.tin.get [] i
def State.setStamps (s : State) (i : Nat) (l : List Nat) : State :=
  let s := { s with time := { s.time with tin := s.time.tin.put i l } }
  (s.wr ⟨Reg.TIME_TIN_STAT, 8 * i + 7, 8 * i⟩ l.length).setReg (Reg.TIME_TIN_TS i) (l.headD 0)

/-- TRIG_IN_EDGE (R390, R305). -/
def execTrigInEdge (k : Nat) (falling : Bool) (s : State) : Host.Outcome State Fault Refusal :=
  let c := bits (s.rd Reg.TIME_TIN_CFG_input) (4 * k + 2) (4 * k)
  if 4 ≤ k ∨ bit c 0 = false ∨ falling ≠ bit c 1 then .next s
  else
    let last := s.time.tinLast.find? (fun p => p.1 == k)
    let near := match last with | some p => tooClose p.2 s.now | none => false
    let s := { s with time := { s.time with tinLast := s.time.tinLast.put k s.now } }
    let s := if bit c 2 then s.wakeCold Reg.HOST_WAKE_EN_trig else s
    if near || decide (64 ≤ (s.stamps k).length) then .next (s.wr ⟨Reg.TIME_TIN_OVF, k, k⟩ 1)
    else .next (s.setStamps k (s.stamps k ++ [s.now]))

/-- The oldest stamp of an input popped: what a read of TIME_TIN_TS gives. -/
def State.popStamp (s : State) (i : Nat) : Nat × State := ((s.stamps i).headD 0, s.setStamps i ((s.stamps i).drop 1))

/-- TIN_POP (R390): a read of the low half, here of the whole register. -/
def execTinPop (k : Nat) (s : State) : Host.Outcome State Fault Refusal :=
  if 4 ≤ k then .next s
  else
    let (v, s) := s.popStamp k
    .next (s.send (.regRead (Reg.TIME_TIN_TS k) 8 (BitVec.ofNat 64 v)))

/-- A driver's edge placed (R391). -/
def State.schedule (s : State) (o due : Nat) : State :=
  if !bit (s.toutCfg o) 6 then s.regEvent 1 (Reg.TIME_TOUT_SCHED o) due
  else if due * 10 ^ 9 < s.now * 10 ^ 9 + 100 * 2 ^ 32 then s.edgeLate o
  else s.placeEdge o { due := due, driver := true, ctx := 0 }

/-- TOUT_SCHEDULE (R391): due times have [1:0] at 0. -/
def execToutSchedule (o : Nat) (v : DWord) (s : State) : Host.Outcome State Fault Refusal :=
  if 4 ≤ o then .next s else .next (s.schedule o (v.toNat / 4 * 4))

/-- TRIG_OUT_EDGE (R391): the first edge of an output is due. -/
def execTrigOutEdge (o : Nat) (s : State) : Host.Outcome State Fault Refusal :=
  match s.edges o with
  | e :: _ => if e.due ≤ s.now then .next (s.makeEdge o) else .next s
  | [] => .next s

/-- PPS_OUT_PULSE (R392): a second boundary of the counter. -/
def execPpsOutPulse (s : State) : Host.Outcome State Fault Refusal :=
  let sec := s.now / 2 ^ 32
  if sec = s.time.pulse then .next s
  else
    let s := { s with time := { s.time with pulse := sec } }
    .next (if s.pinsLive then (s.send (.pin .ppsOut true)).send (.pin .ppsOut false) else s)

end Sys2Proof.Machine
end

