-- ==== Sys2Proof/Machine/Stacks.lean ====
section
/-! DEFINITION. Stacks as they heat, owner map commands with the home's recall, and bedrock's loading and repair (R173, R174, R176, R178–R180, R287, R454). -/
namespace Sys2Proof.Machine

/-! ### Temperature (R173, R174) -/

/-- The thermal step of a stack after a reading, with the clear points of R173: 0 normal to 3 throttled at 100 °C. [DEDUCED, log 60] -/
def thermalStep (old t : Nat) : Nat :=
  if 100 ≤ t ∨ (old = 3 ∧ 97 ≤ t) then 3
  else if 95 ≤ t ∨ (2 ≤ old ∧ 92 ≤ t) then 2
  else if 85 ≤ t ∨ (1 ≤ old ∧ 83 ≤ t) then 1
  else 0

/-- Requests that wait anywhere for a stack completed with POISON, and its buffered writes discarded (R174). -/
def State.emptyStack (s : State) (k : Nat) : State :=
  let here (r : MemReq) : Bool := (s.place r.addr).1 / 2 == k
  let h := s.hbm
  let queued := (h.srcWait ++ h.credWait ++ h.copyWait ++ h.parked).filter here
  let t := { s with hbm := { h with
    srcWait := h.srcWait.filter (fun r => !here r)
    credWait := h.credWait.filter (fun r => !here r)
    copyWait := h.copyWait.filter (fun r => !here r)
    parked := h.parked.filter (fun r => !here r)
    wcb := h.wcb.filter (fun (e : WcbEntry) => e.ctl / 2 != k)
    wq := h.wq.filter (fun (w : WrEntry) => (s.place (32 * w.sector)).1 / 2 != k) } }
  queued.foldl State.answerPoison t

/-- A stack halted at 105 °C (R174): it serves nothing more, every collective this package takes part in fails with MEMBER_LOST, and
the fatal event is posted. [DEDUCED, log 60] -/
def State.haltStack (s : State) (k : Nat) : State :=
  let s := s.wr (Reg.HBM_STACK_STATUS_state k) 4
  let s := s.wr Reg.HBM_STATUS_halted (s.rd Reg.HBM_STATUS_halted ||| 2 ^ k)
  let s := s.wr Reg.HBM_STATUS_present (s.rd Reg.HBM_STATUS_present - (s.rd Reg.HBM_STATUS_present &&& 2 ^ k))
  let s := s.emptyStack k
  let s := (s.coll.slots.map (·.1)).foldl (fun (s : State) key => s.collFail key stMemberLost s.deviceId) s
  s.fatalOpen 0x0811 k false

/-- The hottest temperature shown by any stack (R410's PWR_TEMP). -/
def State.hottest (s : State) : Nat := ((List.range 8).map (fun k => s.rd (Reg.HBM_STACK_STATUS_temp_c k))).foldl max 0

/-- STACK_TEMP_READ (R173, R174): one 1 ms reading of a stack's hottest sensor. What registers show moves at 10 Hz, each hundredth
reading. [DESIGN CHOICE, log 12] -/
def execStackTempRead (stack tempC : Nat) (s : State) : Host.Outcome State Fault Refusal :=
  let st := s.rd (Reg.HBM_STACK_STATUS_state stack)
  if 8 ≤ stack ∨ 5 ≤ st ∨ (s.fuse.part = Part.x672 ∧ stack = 7) then .next s
  else
    let n := s.hbm.tempReads.get 0 stack + 1
    let s := { s with hbm := { s.hbm with tempReads := s.hbm.tempReads.put stack (n % 100) } }
    let s := if n = 100 then
        let s := s.wr (Reg.HBM_STACK_STATUS_temp_c stack) (min tempC 255)
        s.wr Reg.PWR_TEMP_stack_max_c s.hottest
      else s
    if st = 4 then .next s
    else if 105 ≤ tempC then .next (s.haltStack stack)
    else .next (s.wr (Reg.HBM_STACK_STATUS_state stack) (thermalStep st tempC))

/-! ### Owner map commands (R176, R287) -/

/-- The recall that step 2 of R176 includes, for the granule that a command has reached. -/
def State.granRecall (s : State) : State :=
  match s.hbm.gran with
  | some op => s.recallRange (op.next * granuleBytes) granuleBytes
  | none => s

/-- GRAN_SET (R176, R287). -/
def execGranSet (s : State) : Host.Outcome State Fault Refusal := .next (s.granStart false).granRecall

/-- GRAN_SET_ZERO (R176, R287). -/
def execGranSetZero (s : State) : Host.Outcome State Fault Refusal := .next (s.granStart true).granRecall

/-- GRAN_DRAIN_DONE (R176, R287): the granule has drained. While a line of it is still held the recall goes on and nothing else
happens. [DEDUCED, log 66] -/
def execGranDrainDone (s : State) : Host.Outcome State Fault Refusal :=
  match s.hbm.gran with
  | none => .next s
  | some op =>
    if s.rangeHeld (op.next * granuleBytes) granuleBytes then .next s.granRecall
    else .next s.granDrained.granRecall.homeRetry.homeKick

/-! ### Bedrock (R179, R180, R454) -/

/-- The device ID of the group's manager and of its deputy. -/
def State.managerDev (s : State) : Nat := s.deviceId / 64 * 64 + s.rd Reg.FAB_GROUP_manager
def State.deputyDev (s : State) : Nat := s.deviceId / 64 * 64 + s.rd Reg.FAB_GROUP_deputy

/-- Whether a granule's plaintext is what the manifest names (R179): its CRC-64 with the granule's number folded in. -/
def State.bedrockOk (s : State) (g : Nat) (data : List Byte) : Bool :=
  match s.mram.manifest with
  | none => false
  | some m =>
    let i := g - s.rd Reg.HBM_BEDROCK_base
    decide (data.length = granuleBytes ∧ s.rd Reg.HBM_BEDROCK_base ≤ g) && m.crcs[i]? == some (crcOf 2 1 i data)

/-- A granule's plaintext written over all of its cells. -/
def State.bedrockPut (s : State) (g : Nat) (data : List Byte) : State :=
  let s := (s.flushRange (g * granuleBytes) granuleBytes).memStore (g * granuleBytes) data
  s.setOwn g { s.own g with fresh := false }

/-- The lowest bedrock granule not yet loaded. -/
def State.brNext (s : State) : Option Nat :=
  ((List.range (s.rd Reg.HBM_BEDROCK_count)).map (· + s.rd Reg.HBM_BEDROCK_base)).find? (fun g => !s.hbm.brPassed.contains g)

/-- The next granule of a load asked for (R454): by a member from the manager over connection 0; by the manager from the host range that
the operator named, else from a deputy whose bedrock is open, else not until a range is named. -/
def State.brAsk (s : State) : State :=
  match s.brNext with
  | none => s
  | some g =>
    if !s.isManager then s.send (.brFetch g false)
    else match s.hbm.brHost with
      | some a => s.send (.hostRead 0 g (a + (g - s.rd Reg.HBM_BEDROCK_base) * granuleBytes) granuleBytes)
      | none =>
        if bit (s.hier.members.get PeerSeen.never (s.rd Reg.FAB_GROUP_deputy)).flags 2 then s.send (.brFetch g true) else s

/-- Bedrock gone: its granules fresh, its key and its manifest discarded (R454, R455). -/
def State.bedrockGone (s : State) : State :=
  let s := s.hbm.own.foldl (fun (s : State) (p : Nat × OwnEntry) =>
    if p.2.bedrock then (s.zeroGranule p.1).setOwn p.1 OwnEntry.reset else s) s
  let s := { s with hbm := { s.hbm with bedrockKey := 0, brPassed := [], brRetry := [], brHost := none, brHeld := [], repairs := [] } }
  let s := { s with mram := { s.mram with manifest := none } }
  (s.setReg Reg.HBM_BEDROCK 0).showBrPend

/-- A block of a load (R179, R454): written when it passes; a granule that fails is fetched once more, and a second failure ends the
install. [DESIGN CHOICE, log 64] -/
def State.brLoad (s : State) (g : Nat) (data : List Byte) (same : Bool) : State :=
  if s.brNext ≠ some g then s
  else if same && s.bedrockOk g data then
    let s := s.bedrockPut g data
    let s := { s with hbm := { s.hbm with brPassed := s.hbm.brPassed ++ [g] } }
    if s.brNext = none then s.wr Reg.HBM_BEDROCK_state 2 else s.brAsk
  else if s.hbm.brRetry.contains g then s.bedrockGone.eventOpen blkHbm 9 0 0
  else ({ s with hbm := { s.hbm with brRetry := s.hbm.brRetry ++ [g] } }).brAsk

/-- A repair's record changed. -/
def State.brStage (s : State) (g : Nat) (st : BrStage) : State :=
  { s with hbm := { s.hbm with repairs := s.hbm.repairs.map (fun (r : BrRepair) => if r.granule = g then { r with stage := st } else r) } }

/-- HBM_BEDROCK's state while bedrock is open: 3 with a repair running, else 2. -/
def State.showBedrock (s : State) : State :=
  if s.rd Reg.HBM_BEDROCK_state < 2 then s
  else s.wr Reg.HBM_BEDROCK_state (if s.hbm.repairs.any (fun r => r.stage != .failed) then 3 else 2)

/-- The parked reads of a granule completed with POISON. -/
def State.poisonParked (s : State) (g : Nat) : State :=
  let mine (r : MemReq) : Bool := r.addr / granuleBytes == g
  let rs := s.hbm.parked.filter mine
  rs.foldl State.answerPoison { s with hbm := { s.hbm with
    parked := s.hbm.parked.filter (fun r => !mine r)
    engPark := s.hbm.engPark.filter (fun (p : Who × Nat) => p.2 / granuleBytes != g) } }

/-- A repair that has failed (R180 step 6). -/
def State.brFail (s : State) (g : Nat) : State := ((s.brStage g .failed).poisonParked g).showBedrock.homeRetry.homeKick

/-- A source that failed or was refused: the deputy is tried after the manager, and then the repair fails (R180 steps 5 and 6). [DEDUCED, log 63] -/
def State.brOnward (s : State) (rep : BrRepair) : State :=
  match rep.stage with
  | .manager => (s.brStage rep.granule .deputy).send (.brFetch rep.granule true)
  | .deputy => s.brFail rep.granule
  | _ => s

/-- A repair ended (R180 step 4): the cells rewritten, the poisoned bit clear, the parked reads released and the count shown. [DESIGN CHOICE, log 64] -/
def State.brDone (s : State) (g : Nat) (data : List Byte) : State :=
  let ctl := ((s.repairOf g).map BrRepair.ctl).getD 0
  let s := s.bedrockPut g data
  let s := s.setOwn g { s.own g with poisoned := false }
  let s := { s with hbm := { s.hbm with repairs := s.hbm.repairs.filter (fun (r : BrRepair) => r.granule != g),
                                        brHeld := s.hbm.brHeld.filter (fun b => b.1 != g) } }
  let s := ((s.sat Reg.HBM_BEDROCK_repairs 1).showBedrock).showBrPend
  let s := s.eventOpen blkHbm 8 1 ctl
  let mine (r : MemReq) : Bool := r.addr / granuleBytes == g
  let rs := s.hbm.parked.filter mine
  (({ s with hbm := { s.hbm with
    parked := s.hbm.parked.filter (fun r => !mine r)
    engPark := s.hbm.engPark.filter (fun (p : Who × Nat) => p.2 / granuleBytes != g) } }).resume rs).homeRetry.homeKick

/-- Blocks that passed and whose granule no site holds a line of any more, written (R180 step 4, R287). [DESIGN CHOICE, log 13] -/
def State.brSettle (s : State) : State :=
  s.hbm.brHeld.foldl (fun (s : State) b => if s.rangeHeld (b.1 * granuleBytes) granuleBytes then s else s.brDone b.1 b.2) s

/-- A block that passed its check: the lines of the granule are recalled before it is written. [DEDUCED, log 63] -/
def State.brAccept (s : State) (g : Nat) (data : List Byte) : State :=
  let s := s.recallRange (g * granuleBytes) granuleBytes
  ({ s with hbm := { s.hbm with brHeld := s.hbm.brHeld.filter (fun (b : Nat × List Byte) => b.1 != g) ++ [(g, data)] } }).brSettle

/-- BEDROCK_BLOCK (R179, R180, R454): a granule's plaintext with the sender's manifest digest; a block from the host range has no sender,
and its digest is not looked at. [DEDUCED, log 63; DESIGN CHOICE, log 65] -/
def execBedrockBlock (granule : Nat) (data : List Byte) (digest : Nat) (s : State) : Host.Outcome State Fault Refusal :=
  let same := (s.mram.manifest.map Manifest.digest) == some digest
  if s.rd Reg.HBM_BEDROCK_state = 1 then .next (s.brLoad granule data (same || s.hbm.brHost.isSome))
  else match s.repairOf granule with
    | none => .next s
    | some rep =>
      if rep.stage ≠ .manager ∧ rep.stage ≠ .deputy then .next s
      else if same && s.bedrockOk granule data then .next (s.brAccept granule data)
      else .next (s.brOnward rep)

/-- BEDROCK_FETCH_TIMEOUT (R180): 20 ms without a block. [DESIGN CHOICE, log 64] -/
def execBedrockFetchTimeout (granule : Nat) (s : State) : Host.Outcome State Fault Refusal :=
  match s.repairOf granule with
  | none => .next s
  | some rep =>
    if rep.stage ≠ .manager ∧ rep.stage ≠ .deputy then .next s
    else
      let peer := if rep.stage = .manager then s.managerDev else s.deputyDev
      .next ((s.event blkHbm 0x0A 0 rep.ctl (20000 + peer * 2 ^ 32)).brOnward rep)

/-- Whether an address names a staging granule that HBM_BR_SUPPLY may name (R182). -/
def State.brStaging (s : State) (a : Nat) : Bool :=
  let e := s.own (a / granuleBytes)
  decide (a % granuleBytes = 0 ∧ a < s.memTop) && s.serves a && e.owner == 0 && !e.bedrock && !e.withdrawn &&
  !s.hbm.poison.any (fun p => p / 65536 == a / granuleBytes)

/-- BEDROCK_SUPPLY (R180, R182): a block from the driver for the granule in HBM_BR_PEND. One that fails its check, or comes while none is
awaited, is discarded with an event. -/
def execBedrockSupply (v : DWord) (s : State) : Host.Outcome State Fault Refusal :=
  let a := bits v.toNat 47 0
  let g := s.rd Reg.HBM_BR_PEND_granule
  let data := s.memBytes a granuleBytes
  if s.on Reg.HBM_BR_PEND_pending && s.brStaging a && s.bedrockOk g data then .next (s.brAccept g data)
  else .next (s.regEvent 1 Reg.HBM_BR_SUPPLY v.toNat)

/-- BEDROCK_SUPPLY_TIMEOUT (R26, R180): 1 s after the poisoning no block of the driver has passed. -/
def execBedrockSupplyTimeout (granule : Nat) (s : State) : Host.Outcome State Fault Refusal :=
  match s.repairOf granule with
  | none => .next s
  | some rep =>
    if rep.stage ≠ .driver then .next s
    else
      let s := (s.poisonParked granule).fallback 6
      let own := s.isManager
      .next ((s.brStage granule (if own then .deputy else .manager)).send (.brFetch granule own))

end Sys2Proof.Machine
end

