-- ==== Sys2Proof/Machine/Power.lean ====
section
/-! DEFINITION. Quads asleep and awake, rail telemetry, the capping loop, the brake, die temperature and supply sag (R22, R398–R414, R497, R500, R504). -/
namespace Sys2Proof.Machine

/-! ### The variant (R21, R22) -/

/-- The fused maximum of the tile clock in MHz. -/
def partMhz : Part → Nat
  | .x768 => 1400
  | .x672 => 1400
  | .e768 => 1000
  | .l768 => 750

/-- The fused package cap in W. -/
def partCapW : Part → Nat
  | .x768 => 3500
  | .x672 => 3300
  | .e768 => 2200
  | .l768 => 1500

/-! ### Quads (R398–R400) -/

/-- Whether a dispatch is queued, running or paused on a tile of a quad. -/
def State.quadBusy (s : State) (q : Nat) : Bool :=
  s.tiles.any (fun p => s.clusterOf p.1 |>.any (fun c => c / 4 == q && (p.2.run.isSome || !p.2.queue.isEmpty)))

/-- Whether a compute ring holds a quad of its mask awake: it has work, or its hold runs (R224). -/
def State.quadHeld (s : State) (q : Nat) : Bool :=
  s.rings.any (fun p => s.ringCls p.1 == clsCompute && (p.2.holdEnd.isSome || !s.ringEmpty p.1) &&
    (List.range 32).any (fun l => bit (s.reg (Reg.QM_RING_QUADS p.1)) l && (s.quadsOf l).contains q))

/-- Whether a tile of a quad is a filter tile of an open flow (R372). -/
def State.quadFilters (s : State) (q : Nat) : Bool :=
  s.strm.flows.any (fun p => bits (p.2.word 0) 10 8 != 2 && (List.range p.2.tileCount).any (fun i => s.clusterOf (p.2.firstTile + i) |>.any (fun c => c / 4 == q)))

/-- Whether either brake is asserted. -/
def State.braking (s : State) : Bool := s.on Reg.PWR_STATUS_brake || s.on Reg.PWR_STATUS_int_brake

/-- A quad's clock stopped or running, shown in PWR_QUADS. -/
def State.quadClock (s : State) (q : Nat) (on : Bool) : State := s.wr ⟨Reg.PWR_QUADS, q, q⟩ (ofBool on)

/-- QUAD_SLEEP (R398): a running physical quad, idle for sleep_idle_us, sleeps. -/
def execQuadSleep (quad : Nat) (s : State) : Host.Outcome State Fault Refusal :=
  let q := quad % 32
  let idle := !(s.quadBusy q || s.quadHeld q || s.quadFilters q || s.noc.eject.any (fun p => p.quad == q) ||
    s.pwr.stalled.any (fun a => a.quad == q) || s.braking)
  if s.quadRuns q && idle && s.on Reg.HUB_READY_ready && s.rd Reg.PWR_SLEEP_sleep_idle_us != 0 then .next (s.quadClock q false)
  else .next s

/-- QUAD_WAKE_REQUEST (R399). -/
def execQuadWakeRequest (quad : Nat) (s : State) : Host.Outcome State Fault Refusal := .next (s.wakeQuad (quad % 32))

/-- A quad's PLL has locked (R399): the quad runs and its ejection buffers empty. -/
def State.quadLocked (s : State) (q : Nat) : State :=
  if !s.pwr.waking.contains q then s
  else
    let s := { s with pwr := { s.pwr with waking := s.pwr.waking.filter (· != q), restarted := s.pwr.restarted.filter (· != q) } }
    (s.quadClock q true).deliverEjected q

/-- The spares of a physical cluster fenced. -/
def State.fenceSpares (s : State) (c : Nat) : State :=
  (List.range 18).foldl (fun (s : State) k =>
    if (s.tileOfSlot (c * 18 + k)).isNone then s.setSlot (c * 18 + k) { s.slot (c * 18 + k) with fenced := true } else s) s

/-- The tiles of the logical cluster that a physical one holds, if any, fenced without a rebind. -/
def State.fenceMapped (s : State) (l : Option Nat) : State :=
  match l with
  | some l => ((List.range 16).foldl (fun (s : State) i => s.fenceTile (16 * l + i)) s).wr (Reg.CL_STATUS_spares l) 0
  | none => s

/-- The tiles of a physical cluster fenced without a rebind: its spares first (R152, R400). [DEDUCED, log 132] -/
def State.fenceCluster (s : State) (c : Nat) : State := (s.fenceSpares c).fenceMapped (s.logicalCluster c)

/-- A quad's domain fenced (R400, R515). [DEDUCED, log 132] -/
def State.fenceQuad (s : State) (q : Nat) : State :=
  let s := { s with pwr := { s.pwr with
    waking := s.pwr.waking.filter (· != q)
    restarted := s.pwr.restarted.filter (· != q)
    quadFenced := s.pwr.quadFenced ++ [q] } }
  let s := s.wr Reg.PWR_STATUS_quad_fenced s.pwr.quadFenced.length
  let s := { s with glb := { s.glb with worn := true } }
  let s := ([4 * q, 4 * q + 1, 4 * q + 2, 4 * q + 3]).foldl State.fenceCluster s
  (s.deliverEjected q).event blkPwr 6 3 q 3

/-- QUAD_PLL_LOCK_TIMEOUT (R400): restarted once; the second failure fences the quad's domain. -/
def execQuadPllLockTimeout (quad : Nat) (s : State) : Host.Outcome State Fault Refusal :=
  let q := quad % 32
  if !s.pwr.waking.contains q then .next s
  else if !s.pwr.restarted.contains q then .next { s with pwr := { s.pwr with restarted := s.pwr.restarted ++ [q] } }
  else .next (s.fenceQuad q)

/-! ### Telemetry (R404, R405, R497, R500) -/

/-- The tile clock changed, and VCORE's set point with it where its regulator answers: the voltage that the unit's fuses give for the clock
lies in VCORE's range (R404, R494, R499, R500). [DEDUCED, log 171] -/
def State.toMhz (s : State) (f : Nat) : State :=
  let t := s.wr Reg.PWR_STATUS_tile_mhz f
  if s.pwr.noVcore || s.rd Reg.PWR_STATUS_tile_mhz == f then t
  else
    let mv := 600 + Config.vcoreMv f % 351
    ({ t with pwr := { t.pwr with vcore := mv } }).send (.vset mv)

/-- A power in steps of 5 W. -/
def coarseW (w : Nat) : Nat := w / 5 * 5

/-- RAIL_TELEMETRY (R404, R405, R500): one 1 ms reading of the rails whose regulators answer: hub die W, package W and the package's energy in µJ. Registers, and the operator's view of error counts
(R456), move at each hundredth. [DESIGN CHOICE, log 12; DESIGN CHOICE, log 62] -/
def execRailTelemetry (hubW pkgW uj : Nat) (s : State) : Host.Outcome State Fault Refusal :=
  let l := s.pwr.readings ++ [(hubW, pkgW, uj)]
  if l.length < 100 then .next { s with pwr := { s.pwr with readings := l } }
  else
    let sum (f : Nat × Nat × Nat → Nat) : Nat := l.foldl (fun n x => n + f x) 0
    let s := { s with pwr := { s.pwr with readings := [] } }
    let s := s.wr Reg.PWR_PKG_hub_w (coarseW (sum (fun x => x.1) / l.length))
    let s := s.wr Reg.PWR_PKG_package_w (coarseW (sum (fun x => x.2.1) / l.length))
    .next (s.wrap Reg.PWR_ENERGY_energy_uj (sum (fun x => x.2.2))).renewCounts

/-- RAIL_OUT_OF_RANGE (R497): a main rail (0 VCORE, 1 VSRAM, 2 VPHY, 3 VHBM, 4 VHBMQ) out of range for 10 µs; at most one event per rail in
each 1 s. [DESIGN CHOICE, log 133] -/
def execRailOutOfRange (rail : Nat) (s : State) : Host.Outcome State Fault Refusal :=
  let recent := match s.pwr.railAt.find? (fun p => p.1 == rail) with
    | some (_, t) => decide (s.now - t < 2 ^ 32)
    | none => false
  if 5 ≤ rail ∨ s.boot.perst = true ∨ recent = true then .next s
  else .next ({ s with pwr := { s.pwr with railAt := s.pwr.railAt.put rail s.now } }.eventAny blkPwr 0x0D 0)

/-- PALERT_ASSERT (R500): firmware reads STATUS at every address that answers; each fault bit posts an event. [DESIGN CHOICE, log 133; DEDUCED, log 135] -/
def execPalertAssert (status : List Nat) (s : State) : Host.Outcome State Fault Refusal :=
  .next ((status.filter (fun v => bit v 1)).foldl (fun (s : State) _ => s.eventAny blkPwr 0x0D 0) s)

/-! ### The capping loop (R406–R408, R410, R414) -/

/-- The ceiling of R407. [DESIGN CHOICE, log 130] -/
def State.mhzCeiling (s : State) : Nat :=
  min (min (partMhz s.fuse.part) (s.rd Reg.PWR_CTL_tile_mhz)) (min s.pwr.cool (if s.pwr.noVcore then 800 else 4095))

/-- The clock after the power steps of R407. -/
def powerStep (p share f : Nat) : Nat := max 250 (f - 25 * (((p - share) * f + p * 25 - 1) / (p * 25)))

/-- The clock after one period of the loop in hardware mode (R407). [DESIGN CHOICE, log 130] -/
def capStep (p share f ceiling : Nat) (hot : Bool) : Nat :=
  if share < p then powerStep p share f
  else if hot then max 250 (f - 25)
  else if 100 * p < 97 * share ∧ f < ceiling then min ceiling (f + 25)
  else f

/-- A pending PWR_COMMIT put in force at its safe point. -/
def State.applyPwr (s : State) : State :=
  match s.pwr.pend with
  | none => s
  | some set =>
    let s := { s with pwr := { s.pwr with pend := none } }
    (set.foldl (fun (s : State) (p : Nat × DWord) => s.setReg p.1 (takeRwc p.1 (s.reg p.1) p.2.toNat)) s).showShare

/-- The period's end at the floor (R407): counted, with an event at most once in each 1 s. -/
def State.atFloor (s : State) (p : Nat) (above : Bool) : State :=
  let s := s.wr Reg.PWR_STATUS_at_floor (ofBool above)
  if !above then s
  else
    let s := s.sat Reg.PWR_EVENTS_floor_periods 1
    let recent := match s.pwr.floorAt with | some t => decide (s.now - t < 2 ^ 32) | none => false
    if recent then s else { s with pwr := { s.pwr with floorAt := some s.now } }.event blkPwr 0x0D 0 0 (coarseW p)

/-- CAPPING_PERIOD (R407, R408, R410, R414): the end of a period whose mean hub die power was p W. While a brake holds, the clock stays
where the loop left it (R409). Who caps the period was settled when it began, so a committed change takes effect in the next one (R25). -/
def execCappingPeriod (p : Nat) (s : State) : Host.Outcome State Fault Refusal :=
  if !s.on Reg.HUB_READY_ready || s.boot.trip then .next s
  else
    let share := s.rd Reg.PWR_SHARE_share_w
    let f := s.rd Reg.PWR_STATUS_tile_mhz
    let top := s.mhzCeiling
    let hot := decide (s.rd Reg.PWR_CTL_tj_target_c ≤ s.pwr.hubC)
    let host := s.pwr.hostNow
    let asked := if host && s.pwr.wrote then max 250 (min top (s.rd Reg.PWR_SETPOINT_set_mhz)) else f
    let g := if s.braking then f
      else if host then
        (if share < p then powerStep p share f else if hot then min asked (max 250 (f - 25)) else asked)
      else capStep p share f top hot
    let s := if host && decide (share < p) && !s.braking then s.sat Reg.PWR_EVENTS_cap_clamps 1 else s
    let s := if hot && decide (p ≤ share) && !s.braking then { s with pwr := { s.pwr with cool := g } } else s
    let missed := if host && !s.pwr.wrote then s.pwr.missed + 1 else 0
    let s := { s with pwr := { s.pwr with wrote := false, hostNow := s.duty 7, missed := missed } }
    let s := s.applyPwr
    let s := s.toMhz (min g (max 250 s.mhzCeiling))
    .next (s.atFloor p (decide (share < p) && s.rd Reg.PWR_STATUS_tile_mhz == 250))

/-- PWR_SETPOINT (R408, R414): a new set point; discarded with an event while firmware caps, and as a reserved encoding when it is no
multiple of 25 from 250, and clamped with an event above the fused clock (R22). [DESIGN CHOICE, log 131] -/
def execPwrSetpoint (v : Word) (s : State) : Host.Outcome State Fault Refusal :=
  let mhz := bits v.toNat 11 0
  if !s.duty 7 then .next (s.regEvent 1 Reg.PWR_SETPOINT v.toNat)
  else if mhz < 250 ∨ mhz % 25 ≠ 0 then .next (s.regEvent 2 Reg.PWR_SETPOINT v.toNat)
  else
    let top := partMhz s.fuse.part
    let s := if top < mhz then s.eventOpen blkPwr 0x0D 0 0 else s
    .next ({ s with pwr := { s.pwr with wrote := true } }.wr Reg.PWR_SETPOINT_set_mhz (min mhz top))

/-- CAPPING_FALLBACK (R26, R408): two periods have ended without a set point. -/
def execCappingFallback (s : State) : Host.Outcome State Fault Refusal :=
  if !s.duty 7 || s.pwr.missed < 2 then .next s
  else .next (({ s with pwr := { s.pwr with hostNow := false } }.fallback 7).wr ⟨Reg.DUTY_ACTIVE, 7, 7⟩ 0)

/-- The share of a commit with every populated site at its record's power limit (R406), before the cap of 1,450 W; negative values read
as 0. -/
def State.worstShare (s : State) (env : Nat) : Nat :=
  let sites := match s.boot.pop with
    | some r => (r.sites.filter (fun (x : PopSite) => x.populated)).foldl (fun n (x : PopSite) => n + x.powerLimitW) 0
    | none => 0
  env - (sites + 40 * s.enabledStacks + 100)

/-- PWR_COMMIT (R22, R406, R414, R485, R488): checked, clamped, captured, and in force at the end of the period. [DESIGN CHOICE, log 131] -/
def execPwrCommit (v : Word) (s : State) : Host.Outcome State Fault Refusal :=
  if bits v.toNat 0 0 = 0 then .next s
  else
    let env := s.shf Reg.PWR_ENVELOPE_envelope_w
    let cap := partCapW s.fuse.part
    let tj := s.shf Reg.PWR_CTL_tj_target_c
    let ms := s.shf Reg.PWR_CTL_period_ms
    let mhz := s.shf Reg.PWR_CTL_tile_mhz
    let top := partMhz s.fuse.part
    if s.worstShare (min env cap) < 400 then .next (s.commitRefused Reg.PWR_COMMIT_STATUS 0x01)
    else if tj < 70 ∨ 95 < tj then .next (s.commitRefused Reg.PWR_COMMIT_STATUS 0x02)
    else if ms = 0 ∨ 100 < ms then .next (s.commitRefused Reg.PWR_COMMIT_STATUS 0x03)
    else if mhz < 250 ∨ mhz % 25 ≠ 0 then .next (s.commitRefused Reg.PWR_COMMIT_STATUS 0x04)
    else
      let s := if cap < env then s.eventOpen blkPwr 0x0D 0 0 else s
      let s := if top < mhz then s.eventOpen blkPwr 0x0D 0 0 else s
      let set : List (Nat × DWord) :=
        [(Reg.PWR_ENVELOPE, BitVec.ofNat 64 (putBits (s.shd Reg.PWR_ENVELOPE) 12 0 (min env cap))),
         (Reg.PWR_CTL, BitVec.ofNat 64 (putBits (s.shd Reg.PWR_CTL) 11 0 (min mhz top))),
         (Reg.PWR_SLEEP, BitVec.ofNat 64 (s.shd Reg.PWR_SLEEP))]
      .next ({ s with pwr := { s.pwr with pend := some set } }.commitDone Reg.PWR_COMMIT_STATUS)

/-- The reset values of PWR_CTL, with the fused maximum as its ceiling. -/
def State.pwrCtlReset (s : State) : Nat := putBits (regReset Reg.PWR_CTL) 11 0 (partMhz s.fuse.part)

/-- What a blanket does to the PWR block (R414): PWR_CTL, PWR_SLEEP and PWR_SETPOINT at their reset values, in a pending commit too. -/
def State.pwrBlanket (s : State) : State :=
  let ctl := s.pwrCtlReset
  let s := (s.setShd Reg.PWR_CTL ctl).setReg Reg.PWR_CTL ctl
  let s := (s.resetRwc Reg.PWR_SLEEP).wr Reg.PWR_SETPOINT_set_mhz 0
  let s := s.setReg Reg.PWR_EVENTS 0
  { s with pwr := { s.pwr with
    pend := s.pwr.pend.map (fun set => set.map (fun (p : Nat × DWord) =>
      if p.1 = Reg.PWR_CTL then (p.1, BitVec.ofNat 64 ctl)
      else if p.1 = Reg.PWR_SLEEP then (p.1, BitVec.ofNat 64 (regReset Reg.PWR_SLEEP)) else p))
    wrote := false } }

/-! ### The brake and the die (R409–R411, R504) -/

/-- A brake asserted: counted, with its event. [DESIGN CHOICE, log 133] -/
def State.brakeTaken (s : State) : State := (s.sat Reg.PWR_EVENTS_brakes 1).eventOpen blkPwr 0x0D 0 0

/-- PWRBRAKE_ASSERT (R409, R504): before HUB_READY only the level is kept; it is ignored while PERST_N or THERMTRIP_N is asserted. [DEDUCED, log 134] -/
def execPwrbrakeAssert (s : State) : Host.Outcome State Fault Refusal :=
  let was := s.on Reg.PWR_STATUS_brake
  let s := { s with pwr := { s.pwr with pinLow := true } }
  if s.boot.trip || s.boot.perst || !s.on Reg.HUB_READY_ready || was then .next s
  else .next (s.wr Reg.PWR_STATUS_brake 1).brakeTaken

/-- PWRBRAKE_RELEASE (R409): PWRBRAKE_N has been high for 100 µs. [DEDUCED, log 134] -/
def execPwrbrakeRelease (s : State) : Host.Outcome State Fault Refusal :=
  .next ({ s with pwr := { s.pwr with pinLow := false } }.wr Reg.PWR_STATUS_brake 0)

/-- THERMTRIP_N asserted (R411, R503): the fatal entry, every site's enable low, and every clock but the always-on one stopped. -/
def State.thermtrip (s : State) : State :=
  let s := s.fatalOpen 0x0111 0 false
  let s := ({ s with boot := { s.boot with trip := true } }).send (.pin .thermtripN false)
  let s := (List.range 8).foldl (fun (s : State) n => s.pwren n false) s
  { s.setReg Reg.PWR_QUADS 0 with pwr := { s.pwr with waking := [], restarted := [] }, glb := { s.glb with stop := max s.glb.stop 1 } }

/-- DIE_TEMP_READ (R405, R410): one 1 ms reading of the hottest hub die sensor. [DESIGN CHOICE, log 12; DESIGN CHOICE, log 62; DESIGN CHOICE, log 130] -/
def execDieTempRead (hubC : Nat) (s : State) : Host.Outcome State Fault Refusal :=
  let n := s.pwr.dieReads + 1
  let s := { s with pwr := { s.pwr with hubC := hubC, dieReads := n % 100 } }
  let s := if n = 100 then s.wr Reg.PWR_TEMP_hub_c (min hubC 255) else s
  if s.boot.trip then .next s
  else if 115 ≤ hubC then .next s.thermtrip
  else if 105 ≤ hubC ∧ s.on Reg.PWR_STATUS_int_brake = false then
    .next (((s.wr Reg.PWR_STATUS_int_brake 1).sat Reg.PWR_EVENTS_brakes 1).event blkPwr 0x0D 0 0 hubC)
  else if hubC < 100 then .next (s.wr Reg.PWR_STATUS_int_brake 0)
  else .next s

/-! ### Supply sag (R412, R413) -/

/-- SAG_DETECT (R412): VAON, V1P8 or both below their sag thresholds. [DEDUCED, log 135] -/
def execSagDetect (vaon v1p8 : Bool) (s : State) : Host.Outcome State Fault Refusal :=
  if !vaon && !v1p8 then .next s
  else
    let s := if vaon then (s.wr Reg.PWR_SAG_vaon_low 1).wr Reg.PWR_SAG_vaon_seen 1 else s
    let s := if v1p8 then (s.wr Reg.PWR_SAG_v1p8_low 1).wr Reg.PWR_SAG_v1p8_seen 1 else s
    .next ({ s with sag := some (s.sag.getD []) }.wr Reg.PWR_STATUS_sag 1)

/-- SAG_END (R412, R413): both rails above their clear levels for 10 ms; the buffered records are written in order. -/
def execSagEnd (s : State) : Host.Outcome State Fault Refusal :=
  let l := s.sag.getD []
  let s := ((({ s with sag := none }.wr Reg.PWR_SAG_vaon_low 0).wr Reg.PWR_SAG_v1p8_low 0).wr Reg.PWR_STATUS_sag 0).wr Reg.PWR_SAG_deferred 0
  .next (l.foldl State.mramApply s)

end Sys2Proof.Machine
end

