-- ==== Sys2Proof/Machine/Hier.lean ====
section
/-! DEFINITION. The manager hierarchy: firmware's connections, cairns, takeover, joining, the roster, the fabric map and forwarding, and the time parent (R321, R322, R329–R336, R349, R350, R352, R382, R446, R513). -/
namespace Sys2Proof.Machine

/-! ### Who is who -/

/-- This package's group and member number. -/
def State.group (s : State) : Nat := s.deviceId / 64
def State.me (s : State) : Nat := s.deviceId % 64

/-- The device ID of a member of the own group. -/
def State.memberDev (s : State) (m : Nat) : Nat := s.group * 64 + m

def State.role (s : State) : Nat := s.rd Reg.FAB_GROUP_role
def State.epoch (s : State) : Nat := s.rd Reg.FAB_GROUP_epoch
def State.manager (s : State) : Nat := s.rd Reg.FAB_GROUP_manager
def State.deputy (s : State) : Nat := s.rd Reg.FAB_GROUP_deputy

/-- What is known of a member, and of the manager of a group. -/
def State.seen (s : State) (m : Nat) : PeerSeen := s.hier.members.get PeerSeen.never m
def State.groupSeen (s : State) (g : Nat) : PeerSeen := s.hier.groups.get PeerSeen.never g

def State.setSeen (s : State) (m : Nat) (x : PeerSeen) : State := { s with hier := { s.hier with members := s.hier.members.put m x } }
def State.setGroup (s : State) (g : Nat) (x : PeerSeen) : State := { s with hier := { s.hier with groups := s.hier.groups.put g x } }

/-- The device ID of a group's manager as last heard; member 0 until then. -/
def State.groupDev (s : State) (g : Nat) : Nat := if g = s.group then s.memberDev s.manager else g * 64 + (s.groupSeen g).manager

/-- An entry of the roster copy. -/
def State.rosterOf (s : State) (m : Nat) : RosterEntry := s.hier.roster.get { digest := 0, serial := 0, enrolled := false } m

def State.enrolled (s : State) (m : Nat) : Bool := (s.rosterOf m).enrolled

/-- The SHA-384 of 64 roster entries (R331). -/
def rosterDigest (r : Sparse RosterEntry) : Nat :=
  Config.crypto 4 ((List.range 64).flatMap (fun m =>
    let e := r.get { digest := 0, serial := 0, enrolled := false } m
    [e.digest, e.serial, ofBool e.enrolled]))

/-- The first 16 bytes of a digest. -/
def digestHead (d : Nat) : Nat := d % 2 ^ 128

/-- FAB_MEMBERS: on the manager and the deputy, the members joined and not silent; elsewhere 0. -/
def State.showLive (s : State) : State :=
  let live := (s.hier.members.filter (fun p => p.2.joined && !p.2.lost)).foldl (fun v p => v ||| 2 ^ p.1) (2 ^ s.me)
  s.wr Reg.FAB_MEMBERS_live (if s.role = 2 ∨ s.role = 3 then live else 0)

/-- A key put in a slot at once. -/
def State.putKey (s : State) (slot key : Nat) : State :=
  ({ s with sec := { s.sec with keys := s.sec.keys.put slot key } }.wr (Reg.SEC_SLOT_loaded slot) 1).wrap (Reg.SEC_SLOT_loads slot) 1

/-! ### Firmware's connection entries (R322, R333, R335) -/

/-- A firmware entry pointed at a device under a management slot, or disabled. An entry that names the same peer is left as it is. -/
def State.pointConn (s : State) (e : Nat) (dev : Option Nat) (slot : Nat) : State :=
  let on := s.connRd e Reg.FAB_CONN_DATA_enable = 1
  match dev with
  | none =>
    if !on then s else (s.connWr e Reg.FAB_CONN_DATA_enable 0).closeConn e
  | some d =>
    if on ∧ s.connRd e Reg.FAB_CONN_DATA_peer = d ∧ s.connRd e Reg.FAB_CONN_DATA_key_slot = slot then s
    else
      let s := if on then ((((s.connWr e Reg.FAB_CONN_DATA_enable 0).endTransfers e).setConn e ConnSt.closed).connTo e 0) else s
      (((s.connWr e Reg.FAB_CONN_DATA_peer d).connWr e Reg.FAB_CONN_DATA_key_slot slot).connWr e Reg.FAB_CONN_DATA_enable 1).startOpen e

/-- Whether this package, as manager or deputy, keeps an entry for a member. -/
def State.wantsMember (s : State) (m : Nat) : Bool :=
  m != s.me && (s.enrolled m || (s.seen m).joined) && (s.role == 3 || (s.role == 2 && m != s.manager))

/-- Whether this package, as top manager or top deputy, keeps an entry for a group. -/
def State.wantsGroup (s : State) (g : Nat) : Bool :=
  g != s.group && s.role == 3 &&
  (s.on Reg.FAB_GROUP_top || (s.on Reg.FAB_GROUP_top_deputy && g != s.rd Reg.FAB_TOP_top_group)) &&
  (s.hier.groupRosters.any (fun p => p.1 == g) || (s.groupSeen g).joined)

/-- Firmware's entries pointed as the roles now in force give. A peer that another of them names under the same slot is left out. -/
def State.arrange (s : State) : State :=
  let mine := s.role
  let s := (s.wr Reg.FAB_GROUP_top (ofBool (mine == 3 && s.rd Reg.FAB_TOP_top_group == s.group))).wr Reg.FAB_GROUP_top_deputy
    (ofBool (mine == 3 && s.rd Reg.FAB_TOP_top_deputy_group == s.group && s.rd Reg.FAB_TOP_top_group != s.group))
  let top := s.on Reg.FAB_GROUP_top
  let second := s.on Reg.FAB_GROUP_top_deputy
  let follows := mine == 1 || mine == 2 || mine == 4
  let s := (List.range 64).foldl (fun (s : State) m => if s.wantsMember m then s else s.pointConn (64 + m) none 9) s
  let s := s.pointConn 0 (if follows then some (s.memberDev s.manager) else none) 9
  let s := s.pointConn 1 (if (mine == 1 || mine == 4) && s.deputy != s.manager && s.deputy != s.me then some (s.memberDev s.deputy) else none) 9
  let s := (List.range 64).foldl (fun (s : State) m => if s.wantsMember m then s.pointConn (64 + m) (some (s.memberDev m)) 9 else s) s
  let gs := (s.hier.groupRosters.map (·.1) ++ s.hier.groups.map (·.1)).eraseDups
  let s := gs.foldl (fun (s : State) g => if s.wantsGroup g then s else s.pointConn (1024 + g) none 10) s
  let tg := s.rd Reg.FAB_TOP_top_group
  let dg := s.rd Reg.FAB_TOP_top_deputy_group
  let s := s.pointConn 2 (if mine == 3 && !top then some (s.groupDev tg) else none) 10
  let s := s.pointConn 3 (if mine == 3 && !top && !second && dg != tg then some (s.groupDev dg) else none) 10
  let s := gs.foldl (fun (s : State) g => if s.wantsGroup g then s.pointConn (1024 + g) (some (s.groupDev g)) 10 else s) s
  s.showLive

/-- Connections reviewed after a change of quarantine (R333): those that must be held close under R328, and those held no longer open. -/
def State.reviewHeld (s : State) : State :=
  (s.conns.map (·.1)).foldl (fun (s : State) e =>
    let st := s.connRd e Reg.FAB_CONN_DATA_state
    if s.connRd e Reg.FAB_CONN_DATA_enable = 0 then s
    else if s.connHeld e then (if st = 1 ∨ st = 2 ∨ st = 3 then s.closeConn e else s)
    else if st = 5 then s.startOpen e else s) s

/-! ### The cairn (R330, R349, R513) -/

/-- The delay of R349: 20,000 µs with a stack at the 100 °C step, 10,000 with one at 95 °C, else 0. -/
def State.slowDelay (s : State) : Nat :=
  let st (k : Nat) : Nat := s.rd (Reg.HBM_STACK_STATUS_state k)
  if (List.range 8).any (fun k => st k == 3) then 20000 else if (List.range 8).any (fun k => st k == 2) then 10000 else 0

/-- The health code of R513. -/
def State.healthCode (s : State) : Nat :=
  if s.role = 4 then 3
  else if s.glb.failing || (List.range 8).any (fun k => s.rd (Reg.HBM_STACK_STATUS_state k) == 4) then 2
  else if s.rd Reg.HUB_READY_outcome = 1 || s.glb.worn || s.slowDelay != 0 || s.braking || s.on Reg.PWR_STATUS_at_floor then 1
  else 0

/-- The members' largest delay: its delay, the cairn's sequence and the device, if any member is slow. -/
def State.slowest (s : State) : Option (Nat × Nat × Nat) :=
  let own : List (Nat × Nat × Nat) := if s.slowDelay = 0 then [] else [(s.slowDelay, s.hier.cairnSeq, s.deviceId)]
  (own ++ s.hier.members.filterMap (fun p => if p.2.joined && !p.2.lost then p.2.slow else none)).foldl (fun b x =>
    match b with
    | none => some x
    | some y => if y.1 < x.1 then some x else some y) none

/-- A set of member numbers as a mask. -/
def maskOf (p : Nat → Bool) : Nat := ((List.range 64).filter p).foldl (fun v m => v + 2 ^ m) 0

/-- A cairn of a kind as this package sends it now. [DESIGN CHOICE, log 113] -/
def State.makeCairn (s : State) (kind : Nat) : Cairn :=
  let sys := kind == 3 || kind == 4
  let slow := if kind == 3 then s.slowest.map (fun x => x.1) else if s.slowDelay = 0 then none else some s.slowDelay
  let mgr := if kind == 3 then s.rd Reg.FAB_TOP_top_group else if kind == 4 then s.group else s.manager
  let dep := if sys then s.rd Reg.FAB_TOP_top_deputy_group else s.deputy
  let flags := ofBool slow.isSome + 2 * ofBool (s.timeState == 4) + 4 * ofBool (decide (2 ≤ s.rd Reg.HBM_BEDROCK_state)) +
    8 * ofBool (s.hbm.own.any (fun p => p.2.bedrock && p.2.poisoned)) + 16 * ofBool (s.on Reg.HBM_STATUS_layout7) +
    (if sys then bits mgr 9 8 * 64 + bits dep 9 8 * 256 else 0)
  { kind := kind, device := s.deviceId, seq := s.hier.cairnSeq, health := s.healthCode,
    epoch := if kind = 4 then s.hier.topEpoch else s.epoch, manager := mgr % 256, deputy := dep % 256, flags := flags,
    slowDelay := slow.getD 0, timeTx := s.now / 2 ^ 13 * 2 ^ 13, timeOffset := unsigned 64 s.time.offset, tiles := s.glb.tileCount,
    stackCount := s.rd Reg.HBM_STATUS_present, sites := ((List.range 8).filter (fun n => s.siteState n == 5)).foldl (fun v n => v + 2 ^ n) 0,
    ports := ((List.range 16).filter s.portUp).foldl (fun v p => v + 2 ^ p) 0,
    fatal := min 65535 (s.rd Reg.RAS_CNT_FATAL_count - s.hier.fatals),
    neighbours := (List.range 16).map (fun p => if s.portUp p then s.rd (Reg.FAB_PORT_STATUS_neighbour p) else 0xFFFF),
    maskA := if kind = 2 then s.rd Reg.FAB_QUARANTINE_quarantined else if kind = 3 then s.rd Reg.FAB_MEMBERS_live else 0,
    maskB := if kind = 3 then maskOf s.enrolled else 0,
    roster := if kind = 2 ∨ kind = 3 then digestHead (rosterDigest s.hier.roster) else 0,
    slowDevice := if kind = 3 then (s.slowest.map (fun x => x.2.2)).getD 0 else 0,
    slowSeq := if kind = 3 then (s.slowest.map (fun x => x.2.1)).getD 0 else 0 }

/-- A cairn sent on an entry that is open. -/
def State.cairnTo (s : State) (e : Nat) (c : Cairn) : State :=
  if s.connRd e Reg.FAB_CONN_DATA_enable = 1 ∧ s.connRd e Reg.FAB_CONN_DATA_state = 2 then
    let dev := s.connRd e Reg.FAB_CONN_DATA_peer
    s.launch dev 2 (Config.flowHash e) 0x20 0 e 128 (.cairn dev c)
  else s

/-- A cairn of a kind sent on a list of entries, under the next sequence number. -/
def State.cairnOut (s : State) (kind : Nat) (es : List Nat) : State :=
  let c := s.makeCairn kind
  let s := es.foldl (fun (s : State) e => s.cairnTo e c) s
  { s with hier := { s.hier with cairnSeq := (s.hier.cairnSeq + 1) % 2 ^ 24 } }

/-- Every cairn that the role sends. -/
def State.cairns (s : State) : State :=
  let r := s.role
  let s := if r = 1 ∨ r = 2 ∨ r = 4 then s.cairnOut 1 [0, 1] else s
  if r ≠ 3 then s
  else
    let s := s.cairnOut 2 ((List.range 64).map (· + 64))
    let s := s.cairnOut 3 [2, 3]
    if s.on Reg.FAB_GROUP_top then s.cairnOut 4 ((s.hier.groups.map (·.1)).map (· + 1024)) else s

/-- CAIRN_SEND (R330, R513): every 10 ms; after a watchdog's package stop none is sent (R463). -/
def execCairnSend (s : State) : Host.Outcome State Fault Refusal :=
  let s := s.wr Reg.RAS_STATUS_health s.healthCode
  if s.on Reg.FAB_IDENT_configured = false ∨ s.glb.stop = 2 then .next s
  else
    let s := s.cairns
    .next { s with hier := { s.hier with fatals := s.rd Reg.RAS_CNT_FATAL_count } }

/-! ### Joining (R332, R446) -/

/-- A join message outside any connection (R332). [DEDUCED, log 112] -/
def State.joinMsg (s : State) (dev op : Nat) (args : List Nat) : State :=
  s.launch dev 2 0 op 0 0xFFFF (4 * args.length) (.fabricCtl dev 0xFFFF op args)

/-- JOIN sent to the manager and the deputy last named, with a fresh nonce; by a group manager without the system key also to the top manager
and the top deputy. -/
def State.sendJoin (s : State) : State :=
  let named := s.hier.heard || s.role != 0
  let m := if named then s.manager else s.rd Reg.FAB_IDENT_manager_member
  let d := if named then s.deputy else s.rd Reg.FAB_IDENT_deputy_member
  let n := s.freeVal
  let s := { s.useFree with hier := { s.hier with joining := true } }
  let to_ := ([m, d].eraseDups.filter (fun x => x != s.me)).map s.memberDev
  to_.foldl (fun (s : State) dev => s.joinMsg dev 0x21 [n]) s

/-- JOIN of a group manager to the top level. -/
def State.sendTopJoin (s : State) : State :=
  let n := s.freeVal
  let gs := ([s.rd Reg.FAB_TOP_top_group, s.rd Reg.FAB_TOP_top_deputy_group].eraseDups).filter (fun g => g != s.group)
  gs.foldl (fun (s : State) g => s.joinMsg (s.groupDev g) 0x21 [n, rosterDigest s.hier.roster]) s.useFree

/-- JOIN_RETRY (R332): every 100 ms while a JOIN has no answer. -/
def execJoinRetry (s : State) : Host.Outcome State Fault Refusal :=
  if !s.on Reg.FAB_IDENT_configured || !s.on Reg.HUB_READY_ready then .next s
  else if s.hier.joining then .next s.sendJoin
  else if s.role = 3 ∧ s.on Reg.FAB_GROUP_top = false ∧ s.slotLoaded 10 = false then .next s.sendTopJoin
  else .next s

/-- JOIN_ACK sent: epoch, roles, whether quarantined, the roster digest and the keys under the exchange's key (R446). -/
def State.ackJoin (s : State) (dev nonce : Nat) (quarantined : Bool) : State :=
  let sys := if s.slotLoaded 10 ∧ quarantined = false then [Config.crypto 5 [s.key 10, nonce]] else []
  s.joinMsg dev 0x22 ([s.epoch, s.manager, s.deputy, ofBool quarantined, rosterDigest s.hier.roster, Config.crypto 5 [s.key 9, nonce]] ++ sys)

/-- A joiner of the own group (R331, R332): admitted in its role when its identity is the one enrolled under its member number, else as
quarantined, with an event for the operator whose detail cannot hold both serials and is left free. -/
def State.joinGroup (s : State) (dev nonce : Nat) (id : Identity) : State :=
  let m := dev % 64
  let e := s.rosterOf m
  let ok := e.enrolled && e.digest == id.digest && !id.cm2
  let x : PeerSeen := { s.seen m with joined := true, at_ := s.now, lost := false, slow := none, digest := id.digest, serial := id.serial, cm2 := id.cm2 }
  let s := (s.setSeen m x).foundAgain dev
  let s := if s.role = 3 then
      let s := s.wr ⟨Reg.FAB_QUARANTINE, m, m⟩ (ofBool !ok)
      if ok then s else (s.eventOp blkFab 0x0F 0 m s.freeVal).useFree
    else s
  (s.reviewHeld.arrange).ackJoin dev nonce (!ok)

/-- A joining group manager at the top level (R446): its roster must be the one enrolled for its group, and its identity enrolled in it. -/
def State.joinSystem (s : State) (dev nonce : Nat) (id : Identity) (roster : List RosterEntry) : State :=
  let g := dev / 64
  let r : Sparse RosterEntry := roster.zipIdx.map (fun p => (p.2, p.1))
  let e := r.get { digest := 0, serial := 0, enrolled := false } (dev % 64)
  if s.hier.groupRosters.any (fun p => p.1 == g && p.2 == rosterDigest r) && e.enrolled && e.digest == id.digest then
    let s := s.setGroup g { s.groupSeen g with joined := true, at_ := s.now, lost := false, manager := dev % 64 }
    s.arrange.joinMsg dev 0x22 [s.hier.topEpoch, s.rd Reg.FAB_TOP_top_group, s.rd Reg.FAB_TOP_top_deputy_group, 0, 0, Config.crypto 5 [s.key 10, nonce]]
  else s

/-- JOIN (R332, R446): one whose chain does not end in Burusk's device root, or whose signature fails, is not answered. [DEDUCED, log 112] -/
def execJoin (src nonce : Nat) (id : Identity) (roster : List RosterEntry) (s : State) : Host.Outcome State Fault Refusal :=
  if !id.genuine || src == s.deviceId then .next s
  else if src / 64 = s.group then (if s.role = 2 ∨ s.role = 3 then .next (s.joinGroup (src % 65536) nonce id) else .next s)
  else if s.on Reg.FAB_GROUP_top || s.on Reg.FAB_GROUP_top_deputy then .next (s.joinSystem (src % 65536) nonce id roster)
  else .next s

/-- JOIN_ACK (R332, R446): from the group's manager or deputy to a joiner, or again from the manager with new keys; and from the top level to a
group manager, which then passes the system key to every member that has joined. -/
def execJoinAck (src : Nat) (top : Bool) (epoch manager deputy : Nat) (quarantined : Bool) (roster groupKey : Nat) (sysKey : Option Nat) (s : State) :
    Host.Outcome State Fault Refusal :=
  let keyed (s : State) : State := match sysKey with | some k => if quarantined then s else s.putKey 10 k | none => s
  if top then
    if s.role ≠ 3 ∨ s.on Reg.FAB_GROUP_top = true then .next s
    else
      let had := s.slotLoaded 10
      let s := { keyed s with hier := { s.hier with topEpoch := epoch, topAt := s.now } }
      let s := ((s.wr Reg.FAB_TOP_top_group manager).wr Reg.FAB_TOP_top_deputy_group deputy).arrange
      .next (if had then s else s.liveMembers.foldl (fun (s : State) m => s.ackJoin (s.memberDev m) 0 (bit (s.rd Reg.FAB_QUARANTINE_quarantined) m)) s)
  else if src / 64 ≠ s.group ∨ s.role = 3 then .next s
  else if s.hier.joining then
    let s := { (keyed (s.putKey 9 groupKey)) with hier := { s.hier with joining := false, heardAt := s.now, rosterSeen := digestHead roster } }
    let s := ((s.wr Reg.FAB_GROUP_epoch epoch).wr Reg.FAB_GROUP_manager manager).wr Reg.FAB_GROUP_deputy deputy
    let r := if quarantined then 4 else if deputy % 64 = s.me then 2 else 1
    .next ((s.wr Reg.FAB_GROUP_role r).reviewHeld.arrange)
  else if s.role ≠ 0 ∧ src = s.memberDev s.manager then .next (keyed s)
  else .next s

/-! ### Following and claiming (R329, R334–R336) -/

/-- A system-level message to every group manager that this package keeps an entry for. -/
def State.toGroups (s : State) (op : Nat) (body : List Byte) : State :=
  (s.hier.groups.map (·.1)).foldl (fun (s : State) g =>
    if s.connRd (1024 + g) Reg.FAB_CONN_DATA_enable = 1 then s.sendMsg (1024 + g) (FabMsg.make op 0 (collSub 0 0 0 0 ++ body) false 0 none) else s) s

/-- A member of the group lost (R352): LOST to every live member, and applied here. -/
def State.memberLost (s : State) (m : Nat) : State :=
  let dev := s.memberDev m
  (s.lostMsg 0 dev).toMembers 0x44 (lostBody dev)

/-- Collectives that this package roots, or that its firmware steps, failed when it steps down (R335, R351). [DEDUCED, log 114] -/
def State.rootsFail (s : State) : State :=
  ((s.coll.slots.filter (fun p => p.2.ready && (p.2.rank == 0 || p.2.byFirmware))).map (·.1)).foldl (fun (s : State) k => s.collFail k stMemberLost s.deviceId) s

/-- Failed repairs of bedrock tried again with a new manager (R180 step 6). -/
def State.brRetryAll (s : State) : State :=
  (s.hbm.repairs.filter (fun r => r.stage == .failed)).foldl (fun (s : State) (r : BrRepair) =>
    ((s.brStage r.granule (if s.isManager then .deputy else .manager)).showBedrock).send (.brFetch r.granule s.isManager)) s

/-- Whether a manager of an epoch and a number wins over the one followed (R335). -/
def wins (epoch member epoch0 member0 : Nat) : Bool := decide (epoch0 < epoch) || (epoch == epoch0 && decide (member ≤ member0))

/-- A manager of the group followed (R335): connections 0 and 1 pointed at it and its deputy; a manager that loses steps down and joins. -/
def State.follow (s : State) (epoch m d : Nat) : State :=
  let was := s.role
  let changed := s.manager != m || s.epoch != epoch
  let s := ((s.wr Reg.FAB_GROUP_epoch epoch).wr Reg.FAB_GROUP_manager m).wr Reg.FAB_GROUP_deputy d
  let s := { s with hier := { s.hier with heard := true, heardAt := s.now } }
  if was = 0 then s
  else
    let r := if was = 4 then 4 else if d = s.me then 2 else 1
    let s := s.wr Reg.FAB_GROUP_role r
    let s := if was = 3 then s.rootsFail else s
    let s := if changed || was != r then s.arrange else s
    let s := if changed then s.brRetryAll else s
    if was = 3 then s.sendJoin else s

/-- The deputy that a claimant names (R334): the lowest-numbered enrolled member other than itself and the silent manager that is not
quarantined, not lost and last showed health OK; itself when there is none. [DEDUCED, log 114] -/
def State.chooseDeputy (s : State) : Nat :=
  ((List.range 64).find? (fun m => m != s.me && m != s.manager && s.enrolled m && !bit (s.rd Reg.FAB_QUARANTINE_quarantined) m &&
    (s.seen m).joined && !(s.seen m).lost && (s.seen m).health == 0)).getD s.me

/-- The manager's role claimed at an epoch: CLAIM and a kind-2 cairn to every member. [DESIGN CHOICE, log 113; DEDUCED, log 114] -/
def State.claimGroup (s : State) (epoch d : Nat) : State :=
  let s := (((s.wr Reg.FAB_GROUP_role 3).wr Reg.FAB_GROUP_epoch epoch).wr Reg.FAB_GROUP_manager s.me).wr Reg.FAB_GROUP_deputy d
  let s := { s with hier := { s.hier with joining := false, heardAt := s.now, topAt := s.now } }
  let s := s.arrange
  let to_ := (List.range 64).filter s.wantsMember
  let s := to_.foldl (fun (s : State) m => s.joinMsg (s.memberDev m) 0x23 [0, epoch, d]) s
  (s.cairnOut 2 ((List.range 64).map (· + 64))).brRetryAll

/-- A takeover (R334, R352): the role claimed at the next epoch, and LOST for the old manager. -/
def State.takeover (s : State) : State :=
  let old := s.manager
  let d := s.chooseDeputy
  let s := s.setSeen old { s.seen old with lost := true }
  let s := s.claimGroup (s.epoch + 1) d
  if old = s.me then s else s.memberLost old

/-- Whether this package may claim: enrolled, and not FAILING. [DEDUCED, log 114] -/
def State.mayClaim (s : State) : Bool := s.enrolled s.me && s.healthCode != 2

/-- Milliseconds of silence passed since a time. -/
def State.silentFor (s : State) (t ms : Nat) : Bool := decide (t + msTime ms ≤ s.now)

/-- DEPUTY_CLAIM (R334): the manager has been silent to the deputy for 31 ms. -/
def execDeputyClaim (s : State) : Host.Outcome State Fault Refusal :=
  if s.role = 2 ∧ s.silentFor s.hier.heardAt 31 = true ∧ s.mayClaim = true then .next s.takeover else .next s

/-- WORKER_CLAIM_TIMER (R334): worker m has accepted no kind-2 cairn for 60 + 10 m ms. -/
def execWorkerClaimTimer (s : State) : Host.Outcome State Fault Refusal :=
  if s.role = 1 ∧ s.silentFor s.hier.heardAt (60 + 10 * s.me) = true ∧ s.mayClaim = true then .next s.takeover else .next s

/-- TOP_CLAIM_TIMER (R336): the top manager has been silent, to the top deputy for 31 ms and to group manager g for 60 + 10 (g % 64) ms. -/
def execTopClaimTimer (s : State) : Host.Outcome State Fault Refusal :=
  let ms := if s.on Reg.FAB_GROUP_top_deputy then 31 else 60 + 10 * (s.group % 64)
  if s.role = 3 ∧ s.on Reg.FAB_GROUP_top = false ∧ s.silentFor s.hier.topAt ms = true ∧ s.mayClaim = true then
    let old := s.rd Reg.FAB_TOP_top_group
    let d := ((s.hier.groups.filter (fun p => p.1 != old && p.1 != s.group && p.2.joined && !p.2.lost && p.2.health == 0)).map (·.1)).head?.getD s.group
    let s := (s.wr Reg.FAB_TOP_top_group s.group).wr Reg.FAB_TOP_top_deputy_group d
    let s := { s with hier := { s.hier with topEpoch := s.hier.topEpoch + 1, topAt := s.now } }
    let s := s.arrange
    let s := (s.hier.groups.map (·.1)).foldl (fun (s : State) g => s.joinMsg (s.groupDev g) 0x23 [1, s.hier.topEpoch, d]) s
    .next (s.cairnOut 4 ((s.hier.groups.map (·.1)).map (· + 1024)))
  else .next s

/-- MANAGER_LISTEN_EXPIRY (R329, R446): 31 ms after bring-up. manager_member claims at epoch 1 with a new group key when it has heard no manager,
and joins as any other member when it has. -/
def execManagerListenExpiry (s : State) : Host.Outcome State Fault Refusal :=
  if !s.on Reg.FAB_IDENT_configured || !s.on Reg.HUB_READY_ready || s.role != 0 || s.rd Reg.FAB_IDENT_manager_member != s.me then .next s
  else if s.hier.heard then .next s.sendJoin
  else
    let s := (s.putKey 9 s.freeVal).useFree
    let s := if s.rd Reg.FAB_TOP_top_group = s.group ∧ s.slotLoaded 10 = false then (s.putKey 10 s.freeVal).useFree else s
    let s := { s with hier := { s.hier with topEpoch := 1 } }
    .next (s.claimGroup 1 (s.rd Reg.FAB_IDENT_deputy_member))

/-- The top manager followed (R336). -/
def State.followTop (s : State) (epoch g d : Nat) : State :=
  let s := (s.wr Reg.FAB_TOP_top_group g).wr Reg.FAB_TOP_top_deputy_group d
  ({ s with hier := { s.hier with topEpoch := epoch, topAt := s.now } }).arrange

/-- CLAIM (R335, R336): followed when its epoch wins and the claimant is enrolled. -/
def execClaim (h : FabHdr) (top : Bool) (epoch deputy : Nat) (s : State) : Host.Outcome State Fault Refusal :=
  if !h.authentic || s.role == 0 then .next s
  else if top then
    let g := h.src / 64
    if s.role = 3 ∧ wins epoch g s.hier.topEpoch (s.rd Reg.FAB_TOP_top_group) = true ∧ g ≠ s.group then .next (s.followTop epoch g deputy) else .next s
  else
    let m := h.src % 64
    if h.src / 64 = s.group ∧ m ≠ s.me ∧ wins epoch m s.epoch s.manager = true ∧ s.enrolled m = true then .next (s.follow epoch m (deputy % 64)) else .next s

/-! ### Cairns that arrive (R330, R331, R333, R335, R350) -/

/-- A kind-1 cairn at the manager or the deputy. -/
def State.workerCairn (s : State) (c : Cairn) : State :=
  let m := c.device % 64
  let x := s.seen m
  if !x.joined || x.lost || (s.role != 2 && s.role != 3) then s
  else
    let slow := if bit c.flags 0 then some (c.slowDelay, c.seq, c.device) else none
    let s := (s.setSeen m { x with at_ := s.now, health := c.health, flags := c.flags, slow := slow }).showLive
    if slow.isSome && s.isManager then
      (s.extendIn c.device c.slowDelay c.seq).toMembers 0x43 (extendBody c.device c.slowDelay c.seq)
    else s

/-- A kind-2 cairn accepted: roles, quarantine, the roster check and the wake flag. [DESIGN CHOICE, log 113] -/
def State.managerCairn (s : State) (c : Cairn) : State :=
  let m := c.device % 64
  if !wins c.epoch m s.epoch s.manager && s.role != 0 || m == s.me then s
  else if s.role != 0 && s.manager != m && !s.enrolled m then s
  else
    let s := s.follow c.epoch m (c.deputy % 64)
    if s.role = 0 then s
    else
      let s := s.wr Reg.FAB_QUARANTINE_quarantined c.maskA
      let q := bit c.maskA s.me
      let s := if q ∧ s.role ≠ 4 then (s.wr Reg.FAB_GROUP_role 4).arrange
        else if q = false ∧ s.role = 4 then (s.wr Reg.FAB_GROUP_role (if s.deputy = s.me then 2 else 1)).arrange else s
      let s := s.reviewHeld
      let s := s.setSeen m { s.seen m with flags := c.flags }
      let s := { s with hier := { s.hier with rosterSeen := c.roster } }
      let s := if s.role ≠ 4 ∧ digestHead (rosterDigest s.hier.roster) ≠ c.roster then s.ctl 0 0x24 [] else s
      if bit c.flags 5 && bit c.maskB s.me then s.wakeHot Reg.HOST_WAKE_EN_cairn else s

/-- A kind-3 cairn at the top manager or the top deputy: its group's manager by epoch, its slow member, and the members it has lost since. -/
def State.groupCairn (s : State) (c : Cairn) : State :=
  let g := c.device / 64
  let x := s.groupSeen g
  if !(s.on Reg.FAB_GROUP_top || s.on Reg.FAB_GROUP_top_deputy) || decide (c.epoch < x.epoch) then s
  else
    let gone := (List.range 64).filter (fun m => bit x.live m && !bit c.maskA m)
    let moved := x.manager != c.device % 64
    let s := s.setGroup g { x with joined := true, at_ := s.now, health := c.health, lost := false, live := c.maskA, epoch := c.epoch,
                                   manager := c.device % 64, flags := c.flags }
    let s := if moved then s.arrange else s
    if !s.on Reg.FAB_GROUP_top then s
    else
      let s := if bit c.flags 0 then
          let b := extendBody c.slowDevice c.slowDelay c.slowSeq
          ((s.extendIn c.slowDevice c.slowDelay c.slowSeq).toGroups 0x43 b).toMembers 0x43 b
        else s
      gone.foldl (fun (s : State) m =>
        let b := lostBody (g * 64 + m)
        ((s.lostIn (g * 64 + m)).toGroups 0x44 b).toMembers 0x44 b) s

/-- A kind-4 cairn at a group manager. -/
def State.topCairn (s : State) (c : Cairn) : State :=
  let g := c.device / 64
  let d := c.deputy + bits c.flags 9 8 * 256
  if s.role ≠ 3 ∨ g = s.group ∨ wins c.epoch g s.hier.topEpoch (s.rd Reg.FAB_TOP_top_group) = false then s
  else (s.setGroup g { s.groupSeen g with manager := c.device % 64, at_ := s.now }).followTop c.epoch g d

/-- CAIRN (R330): from the peer of an open connection. A package that has not joined hears a manager without one (R329, R332). [DEDUCED, log 112] -/
def execCairn (h : FabHdr) (c : Cairn) (s : State) : Host.Outcome State Fault Refusal :=
  let own := c.device / 64 == s.group
  let heard := s.role == 0 && s.on Reg.FAB_IDENT_configured && c.kind == 2 && own
  if c.device ≠ h.src ∨ (heard = false ∧ (s.connLive h = false ∨ 2048 ≤ h.conn)) then .next s
  else if (s.connState h.conn).v1 && !heard then .next (s.v1Discard h.src)
  else
    let s := { s with fab := { s.fab with map := s.fab.map.put c.device c.neighbours } }
    if c.kind = 1 ∧ own = true then .next (s.workerCairn c)
    else if c.kind = 2 ∧ own = true then .next (s.managerCairn c)
    else if c.kind = 3 ∧ own = false then .next (s.groupCairn c)
    else if c.kind = 4 then .next (s.topCairn c)
    else .next s

/-- MEMBER_SILENT (R330, R352): no cairn of a joined member for 31 ms. The manager marks it lost and sends LOST; its kind-3 cairn reports it. -/
def execMemberSilent (member : Nat) (s : State) : Host.Outcome State Fault Refusal :=
  let m := member % 64
  let x := s.seen m
  if (s.role ≠ 2 ∧ s.role ≠ 3) ∨ x.joined = false ∨ x.lost = true ∨ m = s.me ∨ s.silentFor x.at_ 31 = false then .next s
  else
    let s := (s.setSeen m { x with lost := true, joined := false, slow := none }).showLive
    .next (if s.isManager then s.memberLost m else s)

/-! ### The roster (R331, R446) -/

/-- ROSTER (R331): a request answered by the holder of the roster, or a reply whose digest is the one the manager's cairn named. A copy that
loses an enrolled member makes the JOIN exchange repeat for the new group key (R446). -/
def execRoster (h : FabHdr) (reply : Option (List RosterEntry)) (s : State) : Host.Outcome State Fault Refusal :=
  .next (s.control h (fun s =>
    match reply with
    | none =>
      if (s.role = 2 ∨ s.role = 3) ∧ s.quarantined h.src = false then
        s.ctl h.conn 0x24 ((List.range 64).flatMap (fun m => [(s.rosterOf m).digest, (s.rosterOf m).serial, ofBool (s.rosterOf m).enrolled]))
      else s
    | some l =>
      let r : Sparse RosterEntry := (l.take 64).zipIdx.map (fun p => (p.2, p.1))
      if h.conn ≤ 1 ∧ (s.role = 1 ∨ s.role = 2) ∧ digestHead (rosterDigest r) = s.hier.rosterSeen then
        let removed := (List.range 64).any (fun m => s.enrolled m && !(r.get { digest := 0, serial := 0, enrolled := false } m).enrolled)
        let s := ({ s with hier := { s.hier with roster := r } }).arrange
        if removed then s.sendJoin else s
      else s))

/-! ### The fabric map and forwarding (R320, R321) -/

/-- The node of a group in the map. [DEDUCED, log 111] -/
def groupNode (g : Nat) : Nat := 65536 + g

/-- The nodes that a node of the map reaches over one link: devices of the own group by number, others by their group. -/
def State.mapNext (s : State) (node : Nat) : List Nat :=
  ((s.fab.map.get [] node).filter (fun d => d != 0xFFFF)).map (fun d =>
    if 65536 ≤ d ∨ d / 64 = s.group then d else groupNode (d / 64))

/-- The links from a set of nodes to one, at most `n`: found by widening the set. -/
def State.mapDist (s : State) (target : Nat) : Nat → List Nat → List Nat → Option Nat
  | 0, _, front => if front.contains target then some 0 else none
  | n + 1, seen, front =>
    if front.contains target then some 0
    else
      let next := ((front.flatMap s.mapNext).eraseDups).filter (fun x => !seen.contains x)
      if next = [] then none else (s.mapDist target n (seen ++ next) next).map (· + 1)

/-- The links from a neighbour to a destination node, at most 15 so that a path has at most 16. -/
def State.linksFrom (s : State) (dev target : Nat) : Option Nat :=
  let start := if dev / 64 = s.group then dev else groupNode (dev / 64)
  s.mapDist target 15 [start] [start]

/-- The port's neighbour as firmware may use it for a destination: a version-1 neighbour serves its own group alone (R24, R337). -/
def State.portLinks (s : State) (p target : Nat) : Option Nat :=
  let dev := s.rd (Reg.FAB_PORT_STATUS_neighbour p)
  if !s.portUp p || dev == 0xFFFF then none
  else if s.rd (Reg.FAB_PORT_STATUS_version p) = 1 then (if target = groupNode (dev / 64) ∨ target = dev then some 0 else none)
  else s.linksFrom dev target

/-- The forwarding entry for a destination node: up to four ports of the fewest links, lower ports first; not valid without a path. [DEDUCED, log 111] -/
def State.fwdFor (s : State) (target : Nat) : Nat :=
  let ps := (List.range 16).filterMap (fun p => (s.portLinks p target).map (fun d => (p, d)))
  match ps.map (·.2) with
  | [] => 0
  | d :: t =>
    let best := (ps.filter (fun x => x.2 == t.foldl min d)).map (·.1) |>.take 4
    best.zipIdx.foldl (fun v x => v + x.1 * 2 ^ (4 * x.2)) 0 + (best.length - 1) * 2 ^ 16 + 2 ^ 18

/-- The map of the own group, and the group-level map, as lists of numbers. -/
def State.groupMap (s : State) : List Nat := (s.fab.map.filter (fun p => p.1 / 64 == s.group)).flatMap (fun p => p.1 :: p.2)
def State.levelMap (s : State) : List Nat :=
  s.group :: (((s.fab.map.filter (fun p => p.1 / 64 == s.group)).flatMap (fun p => p.2)).filter (fun d => d != 0xFFFF && d / 64 != s.group)).map (· / 64) |>.eraseDups

/-- FWD_RECOMPUTE (R319–R321): firmware writes the forwarding entries; a manager sends its maps on. -/
def execFwdRecompute (s : State) : Host.Outcome State Fault Refusal :=
  if !s.on Reg.FAB_IDENT_configured then .next s
  else
    let own := (List.range 16).map (fun p => if s.portUp p then s.rd (Reg.FAB_PORT_STATUS_neighbour p) else 0xFFFF)
    let s := { s with fab := { s.fab with map := s.fab.map.put s.deviceId own } }
    let members := (List.range 64).filter (fun m => m != s.me)
    let groups := (List.range 1024).filter (fun g => g != s.group)
    let f1 := members.foldl (fun (t : Sparse Nat) m => t.put (1024 + m) (s.fwdFor (s.memberDev m))) s.fab.fwd
    let f2 := groups.foldl (fun (t : Sparse Nat) g => t.put g (s.fwdFor (groupNode g))) f1
    let s := { s with fab := { s.fab with fwd := f2 } }
    if !s.isManager then .next s
    else
      let s := s.liveMembers.foldl (fun (s : State) m => s.ctl (64 + m) 0x25 (0 :: s.groupMap)) s
      let s := if s.on Reg.FAB_GROUP_top then s else s.ctl 2 0x25 (1 :: s.levelMap)
      .next (if s.on Reg.FAB_GROUP_top then (s.hier.groups.map (·.1)).foldl (fun (s : State) g => s.ctl (1024 + g) 0x25 (1 :: s.levelMap)) s else s)

/-- MAP (R321): neighbour lists of devices, or of groups. A group manager passes the system's map on to its members. [DEDUCED, log 111] -/
def execMap (h : FabHdr) (groupLevel : Bool) (lists : List (Nat × List Nat)) (s : State) : Host.Outcome State Fault Refusal :=
  .next (s.control h (fun s =>
    let s := lists.foldl (fun (s : State) p =>
      let (k, l) := if groupLevel then (groupNode p.1, p.2.map groupNode) else p
      { s with fab := { s.fab with map := s.fab.map.put k l } }) s
    if groupLevel && s.isManager && (h.conn == 2 || h.conn == 3) then
      s.liveMembers.foldl (fun (s : State) m => s.ctl (64 + m) 0x25 (1 :: lists.flatMap (fun p => p.1 :: p.2))) s
    else s))

/-! ### The time parent (R382) -/

/-- The node of the time master: a member's group manager, and a group manager's top manager. -/
def State.timeMaster (s : State) : Nat :=
  if s.role = 3 then groupNode (s.rd Reg.FAB_TOP_top_group) else s.memberDev s.manager

/-- The ports whose neighbour may be the parent, with the links from it to the time master. -/
def State.parents (s : State) : List (Nat × Nat) :=
  (List.range 16).filterMap (fun p =>
    let dev := s.rd (Reg.FAB_PORT_STATUS_neighbour p)
    if !s.portUp p || dev == 0xFFFF || s.rd (Reg.FAB_PORT_STATUS_version p) == 1 || s.quarantined dev || !s.slotLoaded (s.timeSlot dev) then none
    else (s.linksFrom dev s.timeMaster).map (fun d => (p, d)))

/-- PARENT_RESELECT (R382): the neighbour with the fewest links to the master, then the lower member number, then the lower port. A manager
whose PPS_IN is in lock keeps it, and the top manager has no parent. -/
def execParentReselect (s : State) : Host.Outcome State Fault Refusal :=
  let src := s.rd Reg.TIME_STATUS_source
  let key (x : Nat × Nat) : Nat := x.2 * 1024 + s.rd (Reg.FAB_PORT_STATUS_neighbour x.1) % 64 * 16 + x.1
  let best := if s.role = 0 ∨ s.on Reg.FAB_GROUP_top = true then none
    else s.parents.foldl (fun (b : Option (Nat × Nat)) x => match b with
      | none => some x
      | some y => if key x < key y then some x else some y) none
  if src = 1 then .next s
  else match best with
    | none => if src = 2 then .next s.noSource else .next (if s.on Reg.FAB_GROUP_top then s.wr Reg.TIME_STATUS_hops 0 else s)
    | some (p, _) =>
      if src = 2 ∧ s.rd Reg.TIME_STATUS_parent_port = p then .next s
      else
        let s := { s with time := { s.time with exch := [], req := none } }.wr Reg.TIME_STATUS_parent_port p
        if s.timeState = 0 then .next (s.wr Reg.TIME_STATUS_source 2) else .next (s.acquire 2)

end Sys2Proof.Machine
end

