-- ==== Sys2Proof/Machine/Bringup.lean ====
section
/-! DEFINITION. Resets, bring-up and its steps, binding and numbering, and the readiness record (R415–R432, R433, R437, R438). -/
namespace Sys2Proof.Machine

/-! ### Fuses (R21, R293, R429, R433) -/

/-- The Subsystem ID of a part (R293). -/
def partCode : Part → Nat
  | .x768 => 1
  | .x672 => 2
  | .e768 => 3
  | .l768 => 4

/-- The life-cycle code (R433). -/
def lcCode : LifeCycle → Nat
  | .blank => 0
  | .test => 1
  | .production => 2
  | .endOfLife => 3
  | .lost => 7

/-- Whether a port is fused (R21). -/
def State.portFused (s : State) (p : Nat) : Bool := s.fuse.part == .x672 && decide (14 ≤ p)

/-- Whether a stack is fused (R21). -/
def State.stackFused (s : State) (k : Nat) : Bool := s.fuse.part == .x672 && decide (k = 7)

/-- The firmware copy that runs (R438). [DEDUCED, log 138] -/
def State.fwRunning (s : State) : Option FwCopy := if s.boot.runB then s.mram.fwB else s.mram.fwA

/-! ### VAON (R415, R416, R437, R438, R503) -/

/-- The whole MRAM store erased (R437). [DEDUCED, log 138] -/
def MramSt.erased : MramSt := { MramSt.bare with fwA := none, powerOns := 0 }

/-- Whether the boot ROM may run a copy: its signature verified, and its svn not below the fused counter (R438). -/
def State.fwFit (s : State) (c : Option FwCopy) : Bool :=
  match c with
  | some f => f.valid && decide (s.fuse.svn ≤ f.svn)
  | none => false

/-- The version of a copy as one number. -/
def fwVersion (c : Option FwCopy) : Nat := match c with | some f => f.major * 2 ^ 32 + f.minor | none => 0

/-- Outputs that float or are released show nothing; those driven low show it (R503). [DEDUCED, log 136] -/
def State.quietPins (s : State) : State :=
  let s := (List.range 8).foldl (fun (s : State) n => s.pwren n false) s
  (List.range 4).foldl (fun (s : State) o =>
    if bit (s.reg Reg.TIME_TOUT_CFG) (8 * o + 5) then s.send (.pin (.trigOut o) false) else s) s

/-- VAON_POWER_ON (R416, R433, R437, R438, R502): everything resets; the boot ROM checks the life cycle, wipes a unit at END_OF_LIFE, and else
runs the best valid firmware copy or enters recovery. `maddr` is the strap. [DEDUCED, log 137; DEDUCED, log 138] -/
def execVaonPowerOn (maddr : Nat) (s : State) : Host.Outcome State Fault Refusal :=
  if s.boot.vaon then .next s
  else
    let t := { State.reset with pending := s.pending, free := s.free, out := s.out, fuse := s.fuse }
    let t := { t with mram := { s.mram with powerOns := s.mram.powerOns + 1 } }
    let t := { t with mgmt := { MgmtSt.reset with maddr := maddr % 4 }, pwr := { t.pwr with pinLow := s.pwr.pinLow } }
    let t := { t with boot := { t.boot with lc := s.fuse.lc } }
    if s.fuse.lc = .endOfLife then .next { t with mram := MramSt.erased, fuse := { s.fuse with uds := false } }
    else if s.fuse.lc = .lost ∨ s.fuse.lc = .blank then .next t
    else
      let a := t.fwFit t.mram.fwA
      let b := t.fwFit t.mram.fwB
      let runB := b && (!a || decide (fwVersion t.mram.fwA < fwVersion t.mram.fwB))
      .next { t with boot := { t.boot with recovery := !a && !b, runB := runB } }

/-- The fuses when power is lost: a transition whose 400 µs have not passed leaves a word that the table of R433 does not list (R434). [DEDUCED, log 170] -/
def State.fusesOff (s : State) : FuseSt :=
  match s.fuse.burnAt with
  | some t => { s.fuse with lc := if s.now < t + usTime 400 then .lost else s.fuse.lc, burnAt := none }
  | none => s.fuse

/-- VAON_POWER_OFF (R413, R434, R441, R503): the always-on domain with its sag buffer is lost and the outputs float or are released. -/
def execVaonPowerOff (s : State) : Host.Outcome State Fault Refusal :=
  if !s.boot.vaon then .next s
  else
    let s := if s.boot.trip then s.send (.pin .thermtripN true) else s
    let s := if s.alertLevel then s else s.send (.pin .alertN true)
    let s := if s.host.wakeLow then s.send (.pin .wakeN true) else s
    let t := { State.reset with pending := s.pending, free := s.free, out := s.out, fuse := s.fusesOff }
    .next { t with mram := s.mram, boot := { t.boot with vaon := false }, pwr := { t.pwr with pinLow := s.pwr.pinLow } }

/-! ### PERST_N (R304, R415, R417, R418) -/

/-- The registers that the always-on domain keeps while PERST_N is asserted: energy, the RAS block with the event log's numbers, and what
D3cold's wake causes read (R305, R390); a sag that holds still shows. [DEDUCED, log 136] -/
def keptReg (off : Nat) : Bool :=
  off == Reg.PWR_ENERGY || off == Reg.HOST_WAKE_EN || off == Reg.TIME_TIN_CFG || decide (Reg.RAS_STATUS ≤ off)

/-- The sag shown again after a reset (R412). -/
def State.showSag (s t : State) : State :=
  match s.sag with
  | none => t
  | some l =>
    let t := ((t.wr Reg.PWR_SAG_vaon_low (s.rd Reg.PWR_SAG_vaon_low)).wr Reg.PWR_SAG_v1p8_low (s.rd Reg.PWR_SAG_v1p8_low)).wr Reg.PWR_STATUS_sag 1
    ((t.wr Reg.PWR_SAG_vaon_seen (s.rd Reg.PWR_SAG_vaon_low)).wr Reg.PWR_SAG_v1p8_seen (s.rd Reg.PWR_SAG_v1p8_low)).wr
      Reg.PWR_SAG_deferred (min 255 l.length)

/-- A running command of the management bus ends refused when PERST_N stops its work. [DEDUCED, log 157] -/
def MgmtSt.cut (g : MgmtSt) : MgmtSt :=
  match g.running with
  | some (c, t) => { g with running := none, last := (c, t, 2, []) }
  | none => g

/-- Everything outside the always-on domain reset (R415). [DESIGN CHOICE, log 14; DEDUCED, log 136] -/
def State.mainReset (s : State) (keep : Nat → Bool) : State :=
  let s := s.keepCounts (fun o => !keep o)
  let t := { State.reset with pending := s.pending, free := s.free, out := s.out, fuse := { s.fuse with burnAt := none }, mram := s.mram }
  let t := { t with evt := { s.evt with inject := none, unsent := [] }, sag := s.sag, mgmt := s.mgmt.cut }
  let t := { t with regs := s.regs.filter (fun p => keep p.1), boot := { s.boot with trip := false, stage := 0, plan := 0, record := [] } }
  let t := { t with host := { t.host with pmeEn := s.host.pmeEn } }
  let t := { t with pwr := { t.pwr with readings := s.pwr.readings, hubC := s.pwr.hubC, dieReads := s.pwr.dieReads, pinLow := s.pwr.pinLow } }
  State.showSag s t

/-- PERST_N_ASSERT (R415, R417, R503, R305): every step of bring-up and every domain but the always-on one stops. [DEDUCED, log 136] -/
def execPerstNAssert (s : State) : Host.Outcome State Fault Refusal :=
  if !s.boot.vaon || s.boot.perst then .next s
  else
    .next (s.withAlert (fun s =>
      let s := s.quietPins
      let s := if s.boot.trip then s.send (.pin .thermtripN true) else s
      let s := if s.host.wakeLow then s.send (.pin .wakeN true) else s
      let t := s.mainReset keptReg
      { t with boot := { t.boot with perst := true } }))

/-- The fields that the fuses and the MRAM store set (R13, R293, R406, R433, R438, R442). [DEDUCED, log 163] -/
def State.loadFuses (s : State) : State :=
  let s := (s.wr Reg.GLB_ID_part (partCode s.fuse.part)).wr Reg.GLB_ID_stepping 0xB1
  let svn := match s.fwRunning with | some f => f.svn | none => 0
  let s := ((s.wr Reg.SEC_STATUS_lc (lcCode s.boot.lc)).wr Reg.SEC_STATUS_svn_behind (ofBool (decide (s.fuse.svn < svn)))).wr Reg.SEC_SERIAL_serial s.fuse.serial
  let s := ((s.wr Reg.SEC_FW_svn_fused s.fuse.svn).wr Reg.SEC_FW_svn_image svn).wr Reg.SEC_FW_copy (ofBool s.boot.runB)
  let s := (List.range 16).foldl (fun (s : State) k =>
    s.wr (Reg.SEC_SLOT_kind k) (if k = 0 then 0 else if k ≤ 8 then 1 else if k = 9 then 2 else if k = 10 then 3 else 4)) s
  (List.range 8).foldl (fun (s : State) k => if s.stackFused k then s.wr (Reg.HBM_STACK_STATUS_state k) 6 else s) s

/-- The fatal log's registers loaded from the store (R471, R473). -/
def State.loadFatal (s : State) : State :=
  let n := s.mram.fatal.length
  let s := ((s.wr Reg.RAS_STATUS_fatal_held n).wr Reg.RAS_FATAL_INFO_dropped s.mram.dropped).wr Reg.RAS_FATAL_INFO_oldest
    ((s.mram.fatal.head?.map FatalEntry.seq).getD 0)
  (s.wr Reg.RAS_ALERT_fatal (ofBool (n != 0))).wr Reg.RAS_ALERT_fatal_full (ofBool (s.mram.dropped != 0))

/-- A register given its value in force and its shadow alike. -/
def State.setBoth (s : State) (off v : Nat) : State := (s.setReg off v).setShd off v

/-- The population record read from the store and shown, with each site's limit and protocol (R37, R49, R273). -/
def State.loadPop (s : State) : State :=
  let s := { s with boot := { s.boot with pop := s.mram.pop } }
  (List.range 8).foldl (fun (s : State) n =>
    let s := (List.range (siteModules n)).foldl (fun (s : State) m => s.wr (Reg.SITE_MOD_STATUS_logical n m) 15) s
    match s.popSite n with
    | none => s
    | some p =>
      let s := ((s.wr (Reg.SITE_POP_populated n) (ofBool p.populated)).wr (Reg.SITE_POP_coherent n) (ofBool p.coherent)).wr (Reg.SITE_POP_protocol n) p.protocol
      let s := (s.wr (Reg.SITE_POP_temp_limit_c n) (min 255 p.tempLimitC)).wr (Reg.SITE_POP_power_limit_w n) p.powerLimitW
      (s.setBoth (Reg.SITE_PWR_LIMIT n) p.powerLimitW).wr (Reg.SITE_LINK_STATUS_cxl n) (ofBool (p.protocol == 2))) s

/-- Where a configuration item is kept in the MRAM store. -/
def configKey (item sub : Nat) : Nat := item * 2 ^ 26 + sub

/-- The first value of a configuration item. -/
def State.config (s : State) (item sub : Nat) : Option Nat := (s.mram.config.get [] (configKey item sub))[0]?

/-- The envelope of a bring-up (R406, R515): the configured one, clamped to the fused cap, or the cap. -/
def State.loadEnvelope (s : State) : State :=
  let cap := partCapW s.fuse.part
  let env : Nat × Bool := match s.config 1 0 with
    | none => (cap, false)
    | some w => if s.worstShare (min w cap) < 400 then (cap, true) else (min w cap, decide (cap < w))
  let s := s.setBoth Reg.PWR_ENVELOPE env.1
  let s := s.setBoth Reg.PWR_CTL s.pwrCtlReset
  if env.2 then s.event blkPwr 0x0D 0 0 ((s.config 1 0).getD 0) else s

/-- Device ID, manager and top groups from CONFIG item 4 (R319, R329, R506). -/
def State.loadIdent (s : State) : State :=
  match s.mram.config.get [] (configKey 4 0) with
  | [dev, man, dep, top, topDep] =>
    let s := ((s.wr Reg.FAB_IDENT_configured 1).wr Reg.FAB_IDENT_device_id dev).wr Reg.FAB_IDENT_manager_member man
    ((s.wr Reg.FAB_IDENT_deputy_member dep).wr Reg.FAB_TOP_top_group top).wr Reg.FAB_TOP_top_deputy_group topDep
  | _ => s

/-- The rosters that the store keeps (R331, R446). [DEDUCED, log 142] -/
def State.loadRoster (s : State) : State :=
  { s with hier := { s.hier with roster := s.mram.roster, groupRosters := s.mram.groupRosters } }

/-- Registers from CONFIG items 3, 5 and 6: STREAM floors, time and trigger configuration, stream ports (R506). -/
def State.loadRegs (s : State) : State :=
  s.mram.config.foldl (fun (s : State) (p : Nat × List Nat) =>
    let item := p.1 / 2 ^ 26
    if item = 3 ∨ item = 5 ∨ item = 6 then s.setBoth (p.1 % 2 ^ 26) ((p.2[0]?).getD 0) else s) s

/-- Port modes from CONFIG item 2, and the ports' training begun (R313, R314). -/
def State.loadPorts (s : State) : State :=
  (List.range 16).foldl (fun (s : State) p =>
    if s.portFused p then s.setPortState p 8
    else
      let m := (s.config 2 p).getD 0
      let s := (s.setBoth (Reg.FAB_PORT_CFG p) m).setPort p { PortSt.off with mode := m }
      if m = 0 ∨ 3 ≤ s.boot.plan then s
      else s.setPortState p (if m ≤ 2 then 1 else 7)) s

/-- Whether firmware runs: the life cycle is TEST or PRODUCTION and a copy passed (R433, R438). [DEDUCED, log 138] -/
def State.firmwareRuns (s : State) : Bool := (s.boot.lc == .test || s.boot.lc == .production) && !s.boot.recovery

/-- The regulators that do not answer at bring-up, by address (R36, R500): a populated site's leaves it unmonitored, VCORE's holds 0.80 V and caps
the tile clock, and another main rail's leaves its power out of what is measured; each posts an event. [DEDUCED, log 171] -/
def State.regulators (s : State) (absent : List Nat) : State :=
  let s := ((List.range 8).filter (fun n => absent.contains (0x30 + n) && s.on (Reg.SITE_POP_populated n))).foldl
    (fun (s : State) n => (s.wr (Reg.SITE_PWR_STATUS_unmonitored n) 1).eventOpen blkSite 0x0D 0 n) s
  let s := { s with pwr := { s.pwr with noVcore := absent.contains 0x20 } }
  ([0x20, 0x21, 0x22, 0x23, 0x24].filter (fun a => absent.contains a)).foldl (fun (s : State) _ => s.eventAny blkPwr 0x0D 0) s

/-- The main domain started at the release of PERST_N: everything but what the always-on domain keeps takes its reset value, then firmware
loads the fuses, the fatal log, its configuration and the roster (R418, R419). -/
def State.startMain (s : State) (rails : RailReport) (sysref late : Bool) : State :=
  let t := s.mainReset (fun off => off == Reg.PWR_ENERGY)
  let t := { t with evt := { t.evt with boot := (t.evt.boot + 1) % 65536, windows := [], opAck := 0 } }
  let plan := if !rails.inRange then 4 else if !sysref then 3 else 0
  let t := { t with boot := { t.boot with perst := false, sysref := sysref, late := late } }
  let t := t.loadFuses.loadFatal.showWear
  if !t.firmwareRuns then t
  else
    let t := { t with boot := { t.boot with stage := 1, plan := plan, ctlFailed := [], ctlIdle := [], reapplied := [], shrink := false } }
    let t := ({ t with hbm := { t.hbm with tenantKey := t.freeVal } }).useFree
    (t.loadPop.loadEnvelope.loadIdent.loadRoster.loadRegs.loadPorts.regulators rails.absent).showShare

/-- PERST_N_RELEASE (R416–R419, R465, R500): the timeline starts. `sysref` says that SYSREF runs, `late` that
PERST_N was released before the firmware check had ended. Where no firmware runs, the endpoint stays in reset. [DEDUCED, log 137] -/
def execPerstNRelease (rails : RailReport) (sysref late : Bool) (s : State) : Host.Outcome State Fault Refusal :=
  if !s.boot.vaon || !s.boot.perst then .next s
  else .next (s.withAlert (fun s => s.startMain rails sysref late))

/-! ### Flint and training (R420–R422, R425, R160) -/

/-- Whether a step of the timeline may run: it follows the one before, and no outcome has ended bring-up early (R418, R419). [DEDUCED, log 137] -/
def State.bringUp (s : State) (stage : Nat) : Bool :=
  !s.boot.perst && !s.boot.trip && s.boot.vaon && s.boot.stage == stage && decide (s.boot.plan < 3)

/-- Bring-up moved on to a step. [DEDUCED, log 137] -/
def State.toStage (s : State) (n : Nat) : State := { s with boot := { s.boot with stage := n } }

/-- An outcome that narrows bring-up (R419). -/
def State.narrow (s : State) (plan : Nat) : State := { s with boot := { s.boot with plan := plan } }

/-- ROUTE_FLINT_END (R147, R151, R152, R418): routers and torus links lost to flint, segments of the express spine with one link lost, and with
both lost (`dead`); firmware computes and commits the route tables. `nocPll` says that the NoC PLL locked. [DESIGN CHOICE, log 55] -/
def execRouteFlintEnd (nocPll : Bool) (routers links segments dead : List Nat) (s : State) : Host.Outcome State Fault Refusal :=
  if !s.bringUp 1 then .next s
  else if !nocPll then .next (s.narrow 5)
  else
    let s := ((links.filter (fun k => decide (k < 256))).foldl State.retireLink s)
    let s := (routers.filter (fun c => decide (c < 128))).foldl State.loseCluster s
    let s := (({ s with noc := { s.noc with routed := true } }).loseUnreachable 128).routesTaken.switchover
    let s := (segments.filter (fun k => decide (k < 20))).foldl (fun (s : State) k =>
      ({ s with noc := { s.noc with segLost := s.noc.segLost.put k 1 }, glb := { s.glb with worn := true } }).eventOpen blkNoc 7 3 k) s
    .next (if dead.isEmpty then s.toStage 2 else s.narrow 5)

/-- A slot that flint or the fence list of R422 takes out. -/
def State.failSlot (s : State) (p : Nat) : State :=
  { s.setSlot p { s.slot p with failed := true } with glb := { s.glb with worn := true } }

/-- TILE_FLINT_END (R420–R422): `failed` are the slots (cluster * 18 + slot) without a passing verdict, `corrected` the words that a slot's
scratch march corrected, `plls` the quads whose PLL failed twice; the engines that failed follow, and `core` says that the queue manager,
the XLAT block or the management controller failed. [DESIGN CHOICE, log 139] -/
def execTileFlintEnd (failed : List Nat) (corrected : List (Nat × Nat)) (plls movers crcs colls : List Nat) (strm core : Bool) (s : State) :
    Host.Outcome State Fault Refusal :=
  if !s.bringUp 2 then .next s
  else if core then .next (s.narrow 5)
  else
    let tested (p : Nat) : Bool := decide (p < 2304) && !s.fuse.fusedQuads.contains (p / 72) && !plls.contains (p / 72)
    let s := ((plls.filter (fun q => decide (q < 32) && !s.fuse.fusedQuads.contains q)).eraseDups).foldl State.fenceQuad s
    let s := (corrected.filter (fun c => tested c.1)).foldl (fun (s : State) c =>
      (s.setSlot c.1 { s.slot c.1 with corrected := c.2 }).sat Reg.RAS_CNT_CORR_count c.2) s
    let s := (((failed ++ (corrected.filter (fun c => decide (3 < c.2))).map (·.1)).filter tested) ++ s.mram.fences).eraseDups.foldl State.failSlot s
    let s := { s with scr := { s.scr with mem := [], poison := [] } }
    let s := (movers.filter (fun m => decide (m < 64))).foldl (fun (s : State) m => s.fenceMover m 2) s
    let s := (crcs.filter (fun u => decide (u < 32))).foldl (fun (s : State) u => s.fenceCrc u 2) s
    let s := colls.foldl (fun (s : State) e => s.fenceColl e 2) s
    let s := if strm then s.fenceStream else s
    let s := (List.range 32).foldl (fun (s : State) q =>
      s.quadClock q (!s.fuse.fusedQuads.contains q && !s.pwr.quadFenced.contains q)) s
    .next ((s.toMhz 750).toStage 3)

/-- A granule withdrawn (R172). -/
def State.withdraw (s : State) (g : Nat) : State :=
  { s.setOwn g { s.own g with withdrawn := true } with glb := { s.glb with worn := true } }

/-- A marked cell replaced without a copy, or its granule withdrawn when no quarry cell is left (R172, R425). [DEDUCED, log 142] -/
def State.replaceCell (s : State) (cell : Nat) : State :=
  match s.quarryRow (cell / 2 ^ 19) with
  | some row => (s.startCopy 0 cell).endCopy { cell := cell, row := row, ctx := 0 }
  | none =>
    let s := { s with hbm := { s.hbm with marked := s.hbm.marked.filter (· != cell) } }.showCells
    match s.granuleOfCell cell with
    | some g => s.withdraw g
    | none => s

/-- The remap pairs and the repair list of the store reapplied (R169, R171). -/
def State.reapply (s : State) : State :=
  let used (c : Nat) : Nat := (s.mram.remap.filter (fun p => p.1 / 2 ^ 19 == c)).length
  let s := { s with hbm := { s.hbm with
    remap := s.mram.remap.map (fun (p : Nat × Nat) => (p.1, cellKey (p.1 / 2 ^ 19) p.2))
    ppr := s.mram.ppr
    quarryUsed := ((List.range 16).filter (fun c => used c != 0)).map (fun c => (c, used c)) } }
  let s := { s with boot := { s.boot with reapplied := (List.range 16).map (fun c => (s.mram.ppr.filter (fun r => r / 2 ^ 27 == c)).length) } }
  (List.range 16).foldl (fun (s : State) c =>
    if s.stackFused (c / 2) then s
    else (s.wr (Reg.HBM_CTL_STATUS_retired c) (used c)).wr (Reg.HBM_CTL_STATUS_quarry_left c) (8192 - used c)) s

/-- STACK_TRAINING_END (R160, R169, R171, R418, R425): `absent` are the stacks that failed training, `failed` the controllers that failed flint. [DESIGN CHOICE, log 139] -/
def execStackTrainingEnd (absent failed : List Nat) (s : State) : Host.Outcome State Fault Refusal :=
  if !s.bringUp 3 then .next s
  else
    let gone (k : Nat) : Bool := !s.stackFused k && (absent.contains k || failed.any (fun c => c / 2 == k))
    let idle (c : Nat) : Bool := s.stackFused (c / 2) || absent.contains (c / 2)
    let bad := (List.range 8).filter gone
    let s := bad.foldl (fun (s : State) k => s.wr (Reg.HBM_STACK_STATUS_state k) 5) s
    let s := { s with boot := { s.boot with ctlFailed := (List.range 16).filter (fun c => failed.contains c && !idle c), ctlIdle := (List.range 16).filter idle } }
    let live := (List.range 8).filter (fun k => !gone k && !s.stackFused k)
    let s := s.wr Reg.HBM_STATUS_halted (bad.foldl (fun v k => v + 2 ^ k) 0)
    let none_ := decide (live.length < 7)
    let s := s.wr Reg.HBM_STATUS_present (if none_ then 0 else live.foldl (fun v k => v + 2 ^ k) 0)
    let s := (s.wr Reg.HBM_STATUS_layout7 (ofBool (s.fuse.part == .x672 || live.length == 7))).wr Reg.HBM_STATUS_no_memory (ofBool none_)
    let s := { s with glb := { s.glb with worn := s.glb.worn || !bad.isEmpty } }
    let s := s.reapply
    let s := s.mram.marked.foldl State.replaceCell s
    .next ((if none_ then s.narrow 2 else s).toStage 4)

/-! ### Binding and numbering (R423, R424, R431) -/

/-- Whether a slot cannot be bound: it failed flint, stands on the fence list, or was fenced in service. -/
def State.slotBad (s : State) (p : Nat) : Bool := (s.slot p).failed || (s.slot p).fenced

/-- The healthy slots of a physical cluster. -/
def State.healthy (s : State) (c : Nat) : List Nat := (List.range 18).filter (fun k => !s.slotBad (c * 18 + k))

/-- Why a physical cluster is not enabled (R428): 0 for no reason. [DEDUCED, log 140] -/
def State.clusterReason (s : State) (c : Nat) : Nat :=
  if s.fuse.fusedQuads.contains (c / 4) then 3
  else if s.pwr.quadFenced.contains (c / 4) then 4
  else if s.nocLost.1.contains c then 2
  else if (s.healthy c).length < 16 then 1 else 0

/-- Clusters enabled and tiles bound in ascending physical order (R423). -/
def State.bindTiles (s : State) : State :=
  let cs := (List.range 128).filter (fun c => s.clusterReason c == 0)
  let slots := cs.zipIdx.flatMap (fun (p : Nat × Nat) =>
    ((s.healthy p.1).take 16).zipIdx.filterMap (fun (q : Nat × Nat) => if q.1 = q.2 then none else some (16 * p.2 + q.2, q.1)))
  let s := { s with noc := { s.noc with clusterMap := cs, slotMap := slots }
                    glb := { s.glb with tileCount := 16 * cs.length, rebindPending := [] } }
  let s := cs.zipIdx.foldl (fun (s : State) (p : Nat × Nat) =>
    let s := (s.setReg (Reg.CL_STATUS p.2) 0).wr (Reg.CL_STATUS_phys_cluster p.2) p.1
    let s := (s.wr (Reg.CL_STATUS_quad p.2) (p.1 / 4)).wr (Reg.CL_STATUS_spares p.2) ((s.healthy p.1).length - 16)
    let s := s.wr (Reg.CL_SLOTS_failed p.2) (((List.range 18).filter (fun k => s.slotBad (p.1 * 18 + k))).foldl (fun v k => v + 2 ^ k) 0)
    ((s.healthy p.1).take 16).zipIdx.foldl (fun (s : State) (q : Nat × Nat) =>
      (s.setReg (Reg.TILE_STATUS p.2 q.2) 0).wr (Reg.TILE_STATUS_phys_slot p.2 q.2) q.1) s) s
  s.showTiles

/-- CLUSTER_BINDING (R423, R150): the map reaches every interface. -/
def execClusterBinding (s : State) : Host.Outcome State Fault Refusal :=
  if !s.bringUp 4 then .next s
  else
    let s := s.bindTiles
    let all := decide (s.glb.tileCount = 16 * (128 - 4 * s.fuse.fusedQuads.length))
    .next ({ s with glb := { s.glb with worn := s.glb.worn || !all } }.toStage 5)

/-! ### The readiness record (R427, R428) -/

/-- The logical tiles bound to fenced slots. -/
def State.pendingTiles (s : State) : Nat := ((List.range s.glb.tileCount).filter s.tileFenced).length

/-- The number of logical quads (R424): physical quads that carry an enabled cluster. -/
def State.quadCount (s : State) : Nat := ((List.range 32).filter (fun q => s.noc.clusterMap.any (fun c => c / 4 == q))).length

/-- Bytes laid at ascending offsets, with zeros between. -/
def layOut : Nat → List (Nat × List Byte) → List Byte
  | _, [] => []
  | at_, (off, bs) :: t => List.replicate (off - at_) 0 ++ bs ++ layOut (max at_ off + bs.length) t

/-- A set of unit numbers as a mask. -/
def maskUpTo (n : Nat) (p : Nat → Bool) : Nat := ((List.range n).filter p).foldl (fun v i => v + 2 ^ i) 0

/-- The record's head, offsets 0x000 to 0x07F. -/
def State.recordHead (s : State) (count outcome : Nat) : List (Nat × Nat × Nat) :=
  let pend := s.pendingTiles
  let flags := ofBool s.boot.late + 2 * s.rd Reg.HBM_STATUS_layout7 + 4 * ofBool s.boot.shrink + 8 * ofBool (pend != 0)
  let up := s.on Reg.HOST_STATUS_link_up
  [(0x000, 4, 0x534E4452), (0x004, 2, 1), (0x006, 2, 0x1000), (0x008, 4, count), (0x00C, 1, outcome), (0x00D, 1, flags),
    (0x00E, 2, s.boot.readyMs), (0x010, 2, partCode s.fuse.part), (0x012, 1, 0xB1), (0x014, 2, s.glb.tileCount), (0x016, 1, s.glb.tileCount / 16),
    (0x017, 1, s.quadCount), (0x018, 4, maskUpTo 32 (fun q => s.fuse.fusedQuads.contains q)), (0x01C, 1, maskUpTo 8 s.stackFused),
    (0x01D, 1, s.rd Reg.HBM_STATUS_present), (0x01E, 2, maskUpTo 16 s.portFused), (0x020, 2, partMhz s.fuse.part), (0x022, 2, partCapW s.fuse.part),
    (0x028, 16, maskUpTo 128 (fun c => s.nocLost.1.contains c)), (0x038, 32, maskUpTo 256 (fun k => s.nocLost.2.contains k)),
    (0x058, 8, maskUpTo 64 (fun m => s.eng.moverFenced.contains m)), (0x060, 4, s.rd Reg.CRC_FENCED_fenced), (0x064, 2, s.rd Reg.COLL_STATUS_fenced),
    (0x066, 1, s.rd Reg.STRM_STATUS_engine_fenced + 2 * ofBool (s.noc.segLost.any (fun p => p.2 != 0)))] ++
  (List.range 16).map (fun p => (0x068 + p, 1, s.portState p)) ++
  [(0x078, 1, if up then s.rd Reg.HOST_LINK_STATUS_speed else 0), (0x079, 1, if up then s.rd Reg.HOST_LINK_STATUS_width else 0),
    (0x07A, 1, s.rd Reg.TIME_STATUS_state), (0x07C, 4, pend)]

/-- The entry of a physical cluster. [DEDUCED, log 140] -/
def State.clusterInfo (s : State) (c : Nat) : Nat :=
  let on := s.noc.clusterMap.contains c
  maskUpTo 18 (fun k => s.slotBad (c * 18 + k)) + (if on then min 2 (s.spareCount c) else 0) * 2 ^ 18 + ofBool on * 2 ^ 20 +
    (if on then 0 else s.clusterReason c) * 2 ^ 21

/-- The entry of a controller. [DESIGN CHOICE, log 139] -/
def State.controllerEntry (s : State) (c : Nat) : List (Nat × Nat × Nat) :=
  let o := 0x300 + 8 * c
  [(o, 2, s.rd (Reg.HBM_CTL_STATUS_quarry_left c)), (o + 2, 2, s.rd (Reg.HBM_CTL_STATUS_retired c)),
    (o + 4, 2, min 65535 ((s.boot.reapplied[c]?).getD 0)), (o + 6, 1, if s.boot.ctlIdle.contains c then 2 else if s.boot.ctlFailed.contains c then 1 else 0)]

/-- The entry of a site. -/
def State.siteEntry (s : State) (n : Nat) : List (Nat × Nat × Nat) :=
  let o := 0x400 + 64 * n
  let ms := List.range (siteModules n)
  [(o, 1, s.siteState n), (o + 1, 1, s.rd (Reg.SITE_STATE_cause n)), (o + 2, 2, maskUpTo 9 (fun m => ms.contains m && s.modState n m == 12)),
    (o + 4, 2, maskUpTo 9 (fun m => ms.contains m && s.on (Reg.SITE_MOD_STATUS_half n m))), (o + 6, 1, s.rd (Reg.SITE_LINK_STATUS_in_service n)),
    (o + 7, 1, s.rd (Reg.SITE_LINK_STATUS_spare_free n) + 2 * s.rd (Reg.SITE_LINK_STATUS_cxl n) + 4 * s.rd (Reg.SITE_POP_coherent n)),
    (o + 8, 8, s.reg (Reg.SITE_ID_LO n)), (o + 16, 8, s.reg (Reg.SITE_ID_HI n)),
    (o + 24, 1, ((ms.filter (s.inService n)).map (fun m => s.rd (Reg.SITE_MOD_STATUS_rate n m))).foldl max 0)]

/-- The granules withdrawn, in ascending order. -/
def State.withdrawn (s : State) : List Nat := (s.hbm.own.filter (fun p => p.2.withdrawn)).map (·.1)

/-- The readiness record (R428). -/
def State.makeRecord (s : State) (count outcome : Nat) : List Byte :=
  let w := s.withdrawn
  let codes : List (Nat × Nat × Nat) := match s.boot.pop with
    | some p => p.partnerCode.zipIdx.map (fun (q : Nat × Nat) => (0x600 + q.2, 1, q.1)) ++ p.populationCode.zipIdx.map (fun (q : Nat × Nat) => (0x603 + q.2, 1, q.1))
    | none => []
  let fields := s.recordHead count outcome ++
    (List.range 128).map (fun l => (0x080 + l, 1, (s.noc.clusterMap[l]?).getD 0xFF)) ++
    (List.range 128).map (fun c => (0x100 + 4 * c, 4, s.clusterInfo c)) ++
    (List.range 16).flatMap s.controllerEntry ++
    (List.range 8).map (fun k => (0x380 + k, 1, s.rd (Reg.HBM_STACK_STATUS_state k))) ++ [(0x388, 4, w.length)] ++
    (List.range 8).flatMap s.siteEntry ++ codes ++
    (w.take 256).zipIdx.map (fun (q : Nat × Nat) => (0x700 + 4 * q.2, 4, q.1)) ++ [(0xFFF, 1, 0)]
  layOut 0 (fields.map (fun f => (f.1, leBytes f.2.1 f.2.2)))

/-- The record rewritten at a blanket (R427): the count rises, the outcome stays. -/
def State.rewriteRecord (s : State) : State :=
  let count := leValue ((s.boot.record.drop 8).take 4)
  { s with boot := { s.boot with record := s.makeRecord ((count + 1) % 2 ^ 32) (s.rd Reg.HUB_READY_outcome) } }

/-- The outcome of a bring-up that no step of R419 has narrowed (R426): FULL unless a unit failed, a granule is withdrawn or a populated site
is not ACTIVE. [DEDUCED, log 141] -/
def State.outcome (s : State) : Nat :=
  if s.boot.plan ≠ 0 then s.boot.plan
  else if s.glb.worn || !s.withdrawn.isEmpty || (List.range 8).any (fun n => s.on (Reg.SITE_POP_populated n) && s.siteState n != 5) then 1 else 0

end Sys2Proof.Machine
end

