-- ==== Sys2Proof/Machine/Keys.lean ====
section
/-! DEFINITION. Key slots and their changes, and the frame of the management bus: one command at a time, availability and responses (R442–R444, R457, R505–R507). -/
namespace Sys2Proof.Machine

/-! ### Key slots (R442–R444, R457) -/

/-- Whether transfers or connections still hold a slot: an unanswered request that carries it, or a connection that is opening, open or
closing under it. -/
def State.slotBusy (s : State) (k : Nat) : Bool :=
  s.conns.any (fun p =>
    let st := s.connRd p.1 Reg.FAB_CONN_DATA_state
    s.connRd p.1 Reg.FAB_CONN_DATA_key_slot == k && (st == 1 || st == 2 || st == 4)) ||
  s.acc.outq.any (fun o => o.ans.isNone && (match o.tgt with | .host _ j => j == k | .peer _ _ j => j == k | _ => false))

/-- The connections under a slot, by entry. -/
def State.slotConns (s : State) (k : Nat) : List Nat :=
  (s.conns.filter (fun p => s.connRd p.1 Reg.FAB_CONN_DATA_key_slot == k)).map (·.1)

/-- The generation of every segment that names a slot bumped (R204, R214). -/
def State.bumpSlot (s : State) (k : Nat) : State :=
  (List.range 1024).foldl (fun (s : State) i =>
    let c := i / 16
    let g := i % 16
    let kind := s.rd (Reg.SEG_ATTR_kind c g)
    if (kind = 1 ∨ kind = 3) ∧ s.rd (Reg.SEG_ATTR_key_slot c g) = k then s.bumpGen c g else s) s

/-- The IDE stream of a slot of the host IDE kind keyed and secure, or not (R309, R442). -/
def State.ideSecure (s : State) (k v : Nat) : State :=
  if 1 ≤ k ∧ k ≤ 8 then s.wr ⟨Reg.HOST_STATUS, 8 + (k - 1), 8 + (k - 1)⟩ v else s

/-- A slot emptied; its stream is insecure from then. -/
def State.emptySlot (s : State) (k : Nat) : State :=
  ({ s with sec := { s.sec with keys := s.sec.keys.del k } }.wr (Reg.SEC_SLOT_loaded k) 0).ideSecure k 0

/-- A slot loaded: an IDE stream is secure from then, and messages that waited for it are sent (R302, R309). -/
def State.loadSlot (s : State) (k key : Nat) : State :=
  if 1 ≤ k ∧ k ≤ 8 then ((s.putKey k key).ideSecure k 1).msixFlush else s.putKey k key

/-- The response to KEY_SET or KEY_CLEAR (R443). [DESIGN CHOICE, log 93] -/
def State.keyStatus (s : State) (status : Nat) : State := s.send (.doe 0x301 [status])

/-- One change performed, and its request answered: done, or still draining after 1 s. -/
def State.applyChange (s : State) (c : SlotChange) : State :=
  let s := match c.key with
    | some v => (s.emptySlot c.slot).loadSlot c.slot v
    | none => s.emptySlot c.slot
  match c.asked with
  | some t => s.keyStatus (if t + 2 ^ 32 < s.now then 4 else 0)
  | none => s

/-- A drained slot changed (R444): its key, the generations of its segments, and its connections opened again under the new key. -/
def State.settleSlot (s : State) (k : Nat) : State :=
  if !s.on (Reg.SEC_SLOT_draining k) || s.slotBusy k then s
  else
    let mine := s.sec.changes.filter (fun c => c.slot == k)
    let s := { s with sec := { s.sec with changes := s.sec.changes.filter (fun c => c.slot != k) } }
    let s := (mine.foldl State.applyChange s).wr (Reg.SEC_SLOT_draining k) 0
    let s := s.bumpSlot k
    (s.slotConns k).foldl (fun (s : State) e =>
      if s.connRd e Reg.FAB_CONN_DATA_enable = 1 ∧ s.connRd e Reg.FAB_CONN_DATA_state = 0 then s.startOpen e else s) s

/-- A change asked for: at once in a slot that holds no key and drains none, else after the drain, for which its connections close. -/
def State.changeSlot (s : State) (c : SlotChange) : State :=
  if !s.slotLoaded c.slot && !s.on (Reg.SEC_SLOT_draining c.slot) then
    let s := (s.applyChange c).bumpSlot c.slot
    (s.slotConns c.slot).foldl (fun (s : State) e =>
      if s.connRd e Reg.FAB_CONN_DATA_enable = 1 ∧ s.connRd e Reg.FAB_CONN_DATA_state = 0 then s.startOpen e else s) s
  else
    let s := { s with sec := { s.sec with changes := s.sec.changes ++ [c] } }.wr (Reg.SEC_SLOT_draining c.slot) 1
    (s.slotConns c.slot).foldl State.closeConn s

/-- Requests whose slot is still draining after 1 s answered so (R443); the change goes on. [DESIGN CHOICE, log 13; DEDUCED, log 147] -/
def State.lateChanges (s : State) : State :=
  let late (c : SlotChange) : Bool := match c.asked with | some t => decide (t + 2 ^ 32 < s.now) | none => false
  let n := (s.sec.changes.filter late).length
  let s := { s with sec := { s.sec with changes := s.sec.changes.map (fun (c : SlotChange) => if late c then { c with asked := none } else c) } }
  (List.range n).foldl (fun (s : State) _ => s.keyStatus 4) s

/-- SLOT_DRAIN_DONE (R444): nothing happens while transfers or connections still hold the slot. -/
def execSlotDrainDone (slot : Nat) (s : State) : Host.Outcome State Fault Refusal := .next (s.settleSlot (slot % 16))

/-- Whether an access may change the trusted domain while the interface is in RUN: it carries the T bit, or firmware makes it (R310, R457). -/
def teeOk (src : BusSrc) : Bool := match src with | .firmware => true | .host t => t.isSome

/-- SEC_SLOT_CMD (R457, R443). -/
def execSecSlotCmd (src : BusSrc) (v : Word) (s : State) : Host.Outcome State Fault Refusal :=
  let k := bits v.toNat 3 0
  if k < 11 then .next (s.regEvent 1 Reg.SEC_SLOT_CMD v.toNat)
  else if s.rd Reg.HOST_STATUS_tdisp = 2 ∧ teeOk src = false then .next s
  else if bit v.toNat 8 then .next (s.changeSlot { slot := k, key := none, asked := none })
  else .next s

/-- KEY_SET (R443): inside a secured session, with the statuses of R443. -/
def execKeySet (slot key : Nat) (s : State) : Host.Outcome State Fault Refusal :=
  if !s.host.session then .next (s.send (.doe 0x7F [4]))
  else if slot < 11 ∨ 15 < slot then .next (s.keyStatus 1)
  else if s.role = 0 ∨ s.role = 4 then .next (s.keyStatus 2)
  else if s.rd Reg.HOST_STATUS_tdisp = 3 then .next (s.keyStatus 3)
  else .next (s.changeSlot { slot := slot, key := some key, asked := some s.now })

/-- KEY_CLEAR (R443). -/
def execKeyClear (slot : Nat) (s : State) : Host.Outcome State Fault Refusal :=
  if !s.host.session then .next (s.send (.doe 0x7F [4]))
  else if slot < 11 ∨ 15 < slot then .next (s.keyStatus 1)
  else if s.role = 0 ∨ s.role = 4 then .next (s.keyStatus 2)
  else if s.rd Reg.HOST_STATUS_tdisp = 3 then .next (s.keyStatus 3)
  else .next (s.changeSlot { slot := slot, key := none, asked := some s.now })

/-- GROUP_KEY_GRACE_END (R446). -/
def execGroupKeyGraceEnd (s : State) : Host.Outcome State Fault Refusal :=
  .next { s with sec := { s.sec with oldGroupKey := none } }

/-! ### The management bus (R505–R507) -/

/-- Status codes of R506. -/
def mgDone : Nat := 0
def mgBusy : Nat := 1
def mgRefused : Nat := 2
def mgMalformed : Nat := 3
def mgNotAvailable : Nat := 4
def mgInProgress : Nat := 5

/-- How a command is answered: at once, or after it has run longer than 1 ms. -/
inductive MgAnswer where
  | now (status : Nat) (payload : List Byte)
  | later
  deriving DecidableEq, Repr

/-- The response that the next read finds. -/
def State.mgLast (s : State) (code tag status : Nat) (payload : List Byte) : State :=
  { s with mgmt := { s.mgmt with last := (code, tag, status, payload) } }

/-- The running command ended. -/
def State.mgEnd (s : State) (status : Nat) (payload : List Byte) : State :=
  match s.mgmt.running with
  | none => s
  | some (code, tag) => { s with mgmt := { s.mgmt with running := none } }.mgLast code tag status payload

/-- The commands that write only the MRAM store, and those always served, while PERST_N is asserted (R507). -/
def mgAtReset (code : Nat) : Bool := [0x01, 0x02, 0x03, 0x11, 0x12, 0x20, 0x21, 0x22, 0x40, 0x42].contains code

/-- Commands that write MRAM or fuses, or make a life-cycle transition (R507). [DEDUCED, log 146] -/
def mgWrites (code : Nat) : Bool := [0x12, 0x20, 0x21, 0x22, 0x23, 0x30, 0x31, 0x40, 0x41, 0x42, 0x44].contains code

/-- Whether a command is available (R507). `status` says that it is a READ of SEC_STATUS; BLANK has no firmware, as LOST has none. [DEDUCED, log 146] -/
def State.mgAvailable (s : State) (code : Nat) (status : Bool) : Bool :=
  if s.boot.lc = .lost ∨ s.boot.lc = .blank then status
  else if s.boot.lc = .endOfLife then status || (code == 0x50 && !s.boot.perst)
  else if s.boot.recovery then status || code == 0x40
  else if s.boot.perst then mgAtReset code
  else true

/-- A command whose effect is one record of the MRAM store: refused, with the event of R477, when the store takes no more of its kind. [DESIGN CHOICE, log 160] -/
def State.mgStore (s : State) (kind : Nat) (f : State → State) : State × MgAnswer :=
  (s.storeWrite kind f, .now (if s.storeOk kind then mgDone else mgRefused) [])

/-- A management command taken (R506): busy while another runs, not available, busy in sag, or performed. [DEDUCED, log 157] -/
def State.mgmtTake (s : State) (code tag : Nat) (status : Bool) (f : State → State × MgAnswer) : State :=
  if !s.boot.vaon then s
  else if s.mgmt.running.isSome then { s with mgmt := { s.mgmt with bounced := some code } }
  else if !s.mgAvailable code status then s.mgLast code tag mgNotAvailable []
  else if s.sag.isSome && mgWrites code then s.mgLast code tag mgBusy []
  else match f s with
    | (t, .now st payload) => t.mgLast code tag st payload
    | (t, .later) => { t with mgmt := { t.mgmt with running := some (code, tag) } }

end Sys2Proof.Machine
end

