-- ==== Sys2Proof/Machine/Blanket.lean ====
section
/-! DEFINITION. The blanket and what waits for its end: HUB_READY, bedrock installs and END_OF_LIFE (R215, R243, R254, R393, R426, R431, R434, R436, R450–R455, R469). -/
namespace Sys2Proof.Machine

/-! ### Row 1: the tenant's work ends (R128, R215, R243, R254, R351, R356, R365) -/

/-- The rings of contexts 1–63: those whose set in force names one (R11, R243). -/
def State.tenantRings (s : State) : List Nat :=
  let at_ (p : Nat × DWord) : Option Nat := if Reg.QM_RING_BASE 0 ≤ p.1 ∧ p.1 < 0x600000 then some ((p.1 - Reg.QM_RING_BASE 0) / 0x40) else none
  ((s.regs.filterMap at_).eraseDups).filter (fun r => s.ringCtx r != 0)

/-- Registers of a range back at their reset values, shadows and all. -/
def State.forgetRegs (s : State) (lo hi : Nat) : State :=
  let out (p : Nat × DWord) : Bool := !(decide (lo ≤ p.1) && decide (p.1 < hi))
  { s with regs := s.regs.filter out, shadow := s.shadow.filter out }

/-- The RWC fields of the registers that a condition picks, back at their reset values and committed. -/
def State.resetWhere (s : State) (p : Nat → Bool) : State :=
  (((s.regs.map (·.1) ++ s.shadow.map (·.1)).eraseDups).filter p).foldl State.resetRwc s

/-- A tenant's ring disabled, with its work dropped and its set, tail and sequences reset. -/
def State.dropRing (s : State) (r : Nat) : State :=
  ((s.clearRing r).unhalt r ringDisabled).forgetRegs (Reg.QM_RING_BASE r) (Reg.QM_RING_BASE r + 0x40)

/-- Every unit that context 0 does not own made unowned with R, code and owner 0, and released by rings that are dropped (R254). -/
def State.dropCrc (s : State) (rings : List Nat) : State :=
  (List.range 32).foldl (fun (s : State) u =>
    let c := s.crc u
    let s := match c.holder with | some (r, _) => if rings.contains r then s.crcRelease u else s | none => s
    let s := s.setCrc u { s.crc u with waiting := c.waiting.filter (fun w => !rings.contains w.1) }
    if s.on (Reg.CRC_CTL_owned u) && s.rd (Reg.CRC_CTL_owner u) == 0 then s
    else (((s.wr (Reg.CRC_CTL_owned u) 0).wr (Reg.CRC_CTL_owner u) 0).wr (Reg.CRC_CTL_poly u) 0).setReg (Reg.CRC_VAL u) 0) s

/-- Kernels of contexts 1–63 stopped and their waiting dispatches dropped. -/
def State.dropKernels (s : State) : State :=
  (s.tiles.map (·.1)).foldl (fun (s : State) t =>
    let x := s.tile t
    let s := s.setTile t { x with queue := x.queue.filter (fun q => q.ctx == 0) }
    match x.run with
    | some d => if d.ctx = 0 then s else s.stopTile t
    | none => s) s

/-- Every open fault record aborted and freed (R215). -/
def State.dropRecords (s : State) : State :=
  (List.range 64).foldl (fun (s : State) r => if s.rd (Reg.XLAT_FAULT_INFO_state r) = 0 then s else s.abortRecord r) s

/-- Contexts 1–63, the site bindings and context 0's fault notification at their reset values, and every generation bumped (R204, R215). -/
def State.dropContexts (s : State) : State :=
  let s := s.resetWhere (fun o => (decide (Reg.XLAT_CTX 0 < o) && decide (o < Reg.XLAT_CTX 64)) ||
    (decide (Reg.XLAT_SITE_CTX 0 ≤ o) && decide (o < Reg.XLAT_SITE_CTX 4)) || (decide (Reg.SEG_BASE 1 0 ≤ o) && decide (o < 0x610000)))
  let s := (s.setReg (Reg.XLAT_CTX 0) (s.reg (Reg.XLAT_CTX 0) % 2 ^ 16)).setShd (Reg.XLAT_CTX 0) (s.shd (Reg.XLAT_CTX 0) % 2 ^ 16)
  (List.range 1024).foldl (fun (s : State) i => s.bumpGen (i / 16) (i % 16)) s

/-- Connections 2,048–65,535 start closing (R328, R338); an entry that is not enabled is reset at once. [DEDUCED, log 143] -/
def State.dropConns (s : State) : State :=
  let es := (s.conns.map (·.1)).filter (fun e => decide (2048 ≤ e))
  let s := { s with connShadow := s.connShadow.filter (fun p => decide (p.1 < 2048)) }
  let s := es.foldl (fun (s : State) e =>
    if s.connRd e Reg.FAB_CONN_DATA_enable = 1 then (s.connWr e Reg.FAB_CONN_DATA_enable 0).closeConn e else s) s
  { s with blanket := { s.blanket with closing := (s.blanket.closing ++ es).eraseDups } }

/-- Entries of a blanket that have closed, reset. [DESIGN CHOICE, log 13] -/
def State.settleConns (s : State) : State :=
  let done := s.blanket.closing.filter (fun e => s.connRd e Reg.FAB_CONN_DATA_enable == 0 && (s.connRd e Reg.FAB_CONN_DATA_state == 0 || s.connRd e Reg.FAB_CONN_DATA_state == 5))
  let s := { s with conns := s.conns.filter (fun p => !done.contains p.1), connSt := s.connSt.filter (fun p => !done.contains p.1) }
  { s with blanket := { s.blanket with closing := s.blanket.closing.filter (fun e => !done.contains e) } }.showConns

/-- The interface from CONFIG_LOCKED or RUN to ERROR (R310, R311); what wiped the package before counts no more (R447). No rule names the
event's kind: it is the one for security. [DEDUCED, log 95] -/
def State.tdispError (s : State) : State :=
  let t := s.rd Reg.HOST_STATUS_tdisp
  if t = 1 ∨ t = 2 then
    ({ s with blanket := { s.blanket with wiped := false } }.wr Reg.HOST_STATUS_tdisp 3).eventOpen blkHost 0x10 0 0
  else s

/-- Rows 1 and 2 of phase 1 (R451). [DEDUCED, log 143] -/
def State.blanketBegin (s : State) (cause : Nat) : State :=
  let s := { s with blanket := { s.blanket with row := 1, start := s.now, cause := cause, reset := [] } }
  let s := s.wr Reg.SEC_STATUS_blanket_phase 1
  let s := s.tdispError
  let s := { s with host := { s.host with lockPend := false } }
  let rings := s.tenantRings
  let s := (s.dropCrc rings).dropKernels
  let s := rings.foldl State.dropRing s
  let s := (s.wr Reg.QM_EVT_CFG_enable 0).setReg Reg.QM_IRQ_CAUSE 0
  let s := ((s.coll.slots.filter (fun p => p.2.ctx != 0)).map (·.1)).foldl (fun (s : State) k => s.collFail k stAborted s.deviceId) s
  let s := ((s.coll.mirrors.filter (fun p => p.2.ctx != 0)).map (·.1)).foldl (fun (s : State) n =>
    (s.freeMirror n).setReg (Reg.COLL_MIRROR_EPOCH n) 0) s
  let s := s.dropRecords
  let s := ((s.strm.flows.filter (fun p => p.2.ctx != 0)).map (·.1)).foldl (fun (s : State) k => s.closeFlow k true) s
  let drain : XlatPend := { tag := 0, ids := (s.acc.outq.filter (fun o => o.ans.isNone && o.seg.isSome)).map OutReq.id,
                            reqs := s.xlat.siteReqs.map SiteReq.id, ranges := [] }
  let s := ({ s with gens := [], blanket := { s.blanket with drain := drain } }).dropContexts
  let s := s.dropConns
  [11, 12, 13, 14, 15].foldl (fun (s : State) k => if s.slotLoaded k then s.changeSlot { slot := k, key := none, asked := none } else s) s

/-- A blanket requested with a cause (R450): before HUB_READY it waits, and during phase 1 it merges with the running one. -/
def State.startBlanket (s : State) (cause : Nat) : State :=
  if !s.on Reg.HUB_READY_ready then { s with blanket := { s.blanket with queued := some (s.blanket.queued.getD cause) } }
  else if s.blanket.row ≠ 0 then s
  else s.blanketBegin cause

/-- SEC_BLANKET (R450, R457). -/
def execSecBlanket (src : BusSrc) (v : Word) (s : State) : Host.Outcome State Fault Refusal :=
  if bit v.toNat 0 = false ∨ (s.rd Reg.HOST_STATUS_tdisp = 2 ∧ teeOk src = false) then .next s
  else .next (s.startBlanket 2)

/-- BLANKET (R450, R506): in progress until the blanket's phase 1 has ended. [DESIGN CHOICE, log 145] -/
def execBlanket (tag : Nat) (s : State) : Host.Outcome State Fault Refusal :=
  .next (s.mgmtTake 0x10 tag false (fun s => (s.startBlanket 1, .later)))

/-! ### Rows 3 and 4: keys, memory, sites and SRAM (R177, R179–R181, R288, R48) -/

/-- Every granule without the bedrock flag fresh, and nothing of the tenant's left in memory or on its way into it (R177). [DEDUCED, log 143] -/
def State.freshen (s : State) : State :=
  let bed (a : Nat) : Bool := (s.own (a / granuleBytes)).bedrock
  let repairing (g : Nat) : Bool := s.hbm.repairs.any (fun (r : BrRepair) => r.granule == g)
  let t := ({ s with hbm := { s.hbm with
    tenantKey := s.freeVal
    wcb := []
    wq := s.hbm.wq.filter (fun (w : WrEntry) => bed (32 * w.sector))
    mem := s.hbm.mem.filter (fun c => bed c.1)
    poison := s.hbm.poison.filter (fun k => bed (32 * k))
    gran := none
    own := s.hbm.own.filterMap (fun (p : Nat × OwnEntry) =>
      if p.2.bedrock then some (p.1, { p.2 with poisoned := p.2.poisoned && repairing p.1 })
      else if p.2.withdrawn then some (p.1, { OwnEntry.reset with withdrawn := true }) else none) } }).useFree
  t.wr Reg.HBM_GRAN_STATUS_busy 0

/-- A tile's SRAM zeroed: accumulators, combine banks, vector registers and stationary buffers; with no kernel left on it, its core's too. -/
def TileSt.wiped (x : TileSt) : TileSt :=
  if x.run.isSome then { x with k0 := Bank.empty, k1 := Bank.empty, comb := [], b0 := none, b1 := none, v := [] }
  else { TileSt.idle with queue := x.queue }

/-- Every SRAM zeroed, and every quad woken for it. The READY messages of context 0 stay with its collectives. [DEDUCED, log 143] -/
def State.zeroSram (s : State) : State :=
  let s := (List.range 32).foldl (fun (s : State) q => if s.fuse.fusedQuads.contains q then s else s.wakeQuad q) s
  let parked := s.hbm.parked
  let s := { s with
    scr := { s.scr with mem := [], poison := [] }
    tiles := s.tiles.map (fun (p : Nat × TileSt) => (p.1, p.2.wiped))
    coll := { s.coll with ready := s.coll.ready.filter (fun (r : ReadyMsg) => r.ctx == 0) }
    hbm := { s.hbm with parked := [], engPark := [] } }
  parked.foldl State.answerPoison s

/-- Every bedrock granule checked, and failed repairs tried again (R179, R180). -/
def State.checkBedrock (s : State) : State :=
  if s.rd Reg.HBM_BEDROCK_state < 2 then s
  else
    let bad := s.hbm.brPassed.filter (fun g => (s.repairOf g).isNone && !s.bedrockOk g (s.memBytes (g * granuleBytes) granuleBytes))
    (bad.foldl (fun (s : State) g => s.startRepair g (g * granuleBytes)) s).brRetryAll

/-- Whether everything that row 2 waits for has drained: the transfers and site requests that were under way when every generation was bumped, and the
commits accepted before (R207, R215, R451). -/
def State.blanketIdle (s : State) : Bool := s.xlatDrained s.blanket.drain && s.xlat.pend.all s.xlatDrained

/-- BLANKET_DRAINED (R451, R474): row 2 has ended, and rows 3 and 4 run. A package stop leaves the blanket at its row. -/
def execBlanketDrained (s : State) : Host.Outcome State Fault Refusal :=
  if s.blanket.row ≠ 1 ∨ s.glb.stop ≠ 0 ∨ s.blanketIdle = false then .next s
  else
    let s := (List.range 8).foldl (fun (s : State) i => s.emptySlot (i + 1)) s
    let s := (s.wr Reg.HOST_STATUS_ide_secure 0).settleConns
    let s := [11, 12, 13, 14, 15].foldl State.settleSlot s
    let s := if s.blanket.remove then s.bedrockGone else s
    let s := { s with blanket := { s.blanket with remove := false } }.freshen
    let s := { s with home := { s.home with filter := [] } }
    let active := (List.range 8).filter (fun n => s.siteState n == 5)
    let s := (List.range 8).foldl (fun (s : State) n => (s.endMailbox n 3).resetSite n) s
    let s := (List.range 8).foldl State.showEntries s
    let s := s.zeroSram.checkBedrock
    .next { s with blanket := { s.blanket with row := 2, reset := active } }

/-! ### Row 5: substitutions and fields (R28, R76, R171, R172, R431, R469) -/

/-- Every pending substitution made (R76, R171); a marked cell without a quarry cell has its granule withdrawn (R172). -/
def State.substituteAll (s : State) : State :=
  let s := s.glb.rebindPending.foldl State.rebindTile s
  let s := s.hbm.copying.foldl State.endCopy s
  let s := s.hbm.marked.foldl State.replaceCell s
  let waiting := s.hbm.copyWait
  let s := { s with hbm := { s.hbm with copyWait := [] }, glb := { s.glb with armed := [] } }.resume waiting
  s.setReg Reg.GLB_SUBST_ARMED 0

/-- Whether a shrink would change work that survives the blanket (R431): a dispatch placed or running, or an open flow that names tiles. [DEDUCED, log 144] -/
def State.shrinkDeferred (s : State) : Bool :=
  s.tiles.any (fun p => p.2.run.isSome || !p.2.queue.isEmpty) ||
  s.strm.flows.any (fun p => p.2.ctx == 0 && p.2.tileCount != 0 && p.2.state != flowClosing)

/-- R423 applied again, or put off to the next blanket (R431). [DEDUCED, log 144] -/
def State.shrink (s : State) : State :=
  if s.shrinkDeferred then
    { s with boot := { s.boot with shrink := s.noc.clusterMap.any (fun c => s.clusterReason c != 0) } }
  else { s.bindTiles with tiles := [], boot := { s.boot with shrink := false } }

/-- Whether an offset lies in a range. -/
def within (o lo hi : Nat) : Bool := decide (lo ≤ o) && decide (o < hi)

/-- Registers whose RWC fields a blanket resets and commits (R485): the GLB, HOST, HBM, COH, FAB and COLL sets, link sets of sites, the classes
but STREAM, templates 8–15 and TILE_CFG. -/
def blanketSet (o : Nat) : Bool :=
  o == Reg.DUTY_MODE || o == Reg.GLB_DRV_INFO || o == Reg.HOST_CFG || within o (Reg.HOST_WIN 0) (Reg.HOST_OB 1024) || o == Reg.HBM_CFG ||
  o == Reg.COH_CFG || o == Reg.FAB_CFG || o == Reg.COLL_CFG || (List.range 8).any (fun n => o == Reg.SITE_LINK_CFG n) ||
  within o (Reg.REG_CLASS_FLOOR 0) (Reg.REG_CLASS_FLOOR 44) || within o (Reg.REG_CLASS_CTL 0) (Reg.REG_CLASS_CTL 44) ||
  within o (Reg.STRM_TMPL 8 0) (Reg.STRM_TMPL 16 0) || (within o 0x3000000 0x3800000 && o % 0x10000 / 0x1000 != 0 && o % 0x800 == 0x14)

/-- Counters and statuses that a blanket clears whole. -/
def blanketClears (o : Nat) : Bool :=
  o == Reg.DUTY_ACTIVE || o == Reg.NOC_ERR_CORR || o == Reg.NOC_ERR_REPLAY || o == Reg.NOC_TIMEOUTS || (List.range 16).any (fun c => o == Reg.HBM_CTL_ERR c) ||
  (List.range 8).any (fun n => o == Reg.SITE_MISROUTE n || o == Reg.COH_SITE_RECALLS n || o == Reg.COH_SITE_ERR n || o == Reg.COH_SITE_ENTRIES n ||
    (List.range 9).any (fun m => o == Reg.SITE_MOD_ERR n m)) ||
  o == Reg.FAB_DROPS || (List.range 16).any (fun p => o == Reg.FAB_PORT_ERR p || o == Reg.COLL_ENG_COUNT p) || o == Reg.COLL_READY_STAT || o == Reg.STRM_DEC_STAT ||
  o == Reg.HOST_ERR || o == Reg.TIME_STEER || o == Reg.TIME_TIN_STAT || o == Reg.TIME_TIN_OVF || o == Reg.TIME_TOUT_STAT ||
  (List.range 4).any (fun i => o == Reg.TIME_TIN_TS i) || o == Reg.XLAT_CFG || o == Reg.RAS_EVT_LOST || o == Reg.RAS_CNT_CORR || o == Reg.RAS_CNT_DEFER ||
  o == Reg.RAS_CNT_UC || o == Reg.RAS_INJECT_STATUS ||
  (within o 0x3000000 0x3800000 && o % 0x10000 / 0x1000 != 0 && (o % 0x800 == 0x20 || o % 0x800 == 0x28 || o % 0x800 == 0x30))

/-- A site's power limit back at its record's, and its counts cleared (R37, R50, R273). -/
def State.siteBlanket (s : State) (n : Nat) : State :=
  let s := s.setBoth (Reg.SITE_PWR_LIMIT n) (s.rd (Reg.SITE_POP_power_limit_w n))
  let s := (s.setSite n { s.site n with pendLimit := none }).wr (Reg.SITE_PWR_STATUS_cap_events n) 0
  (List.range (siteModules n)).foldl (fun (s : State) m => s.wr (Reg.SITE_MOD_STATUS_retrains n m) 0) s

/-- Every field marked "reset also by a blanket" reset and committed, and every counter marked so cleared (R451 row 5). -/
def State.blanketFields (s : State) : State :=
  let s := s.keepCounts blanketClears
  let s := s.resetWhere blanketSet
  let s := { s with regs := s.regs.filter (fun p => !blanketClears p.1) }
  let s := (List.range 8).foldl State.siteBlanket s
  let s := (List.range 16).foldl (fun (s : State) p => s.wr (Reg.FAB_PORT_STATUS_retrains p) 0) s
  let s := (((s.wr Reg.XLAT_STATUS_table_full 0).wr Reg.REG_STATUS_oversub_events 0).wr Reg.HBM_BEDROCK_repairs 0).wr Reg.HOST_LINK_STATUS_retrains 0
  let s := { s with
    regul := { s.regul with pend := s.regul.pend.map (fun (set : List (Nat × DWord)) => set.filter (fun (p : Nat × DWord) =>
      !(within p.1 (Reg.REG_CLASS_FLOOR 0) (Reg.REG_CLASS_FLOOR 44) || within p.1 (Reg.REG_CLASS_CTL 0) (Reg.REG_CLASS_CTL 44)))) }
    scr := { s.scr with slots := s.scr.slots.map (fun (p : Nat × SlotSt) => (p.1, { p.2 with corrected := 0, uncorrected := 0, fault := p.2.fault / 256 * 256 })) }
    time := { s.time with tin := [], tout := s.time.tout.map (fun (p : Nat × List Edge) => (p.1, p.2.filter (fun e => !e.driver && e.ctx == 0))) }
    evt := { s.evt with inject := none, unsent := [] }
    host := { s.host with winBad := [] } }
  (s.pwrBlanket.showShare).showAdmit.showReady

/-- The held counts of R468 posted, and the boundary set (R468, R469). -/
def State.blanketEvents (s : State) : State :=
  let s := s.evt.windows.foldl (fun (s : State) (w : EvtWindow) => s.closeWindow w.code w.unit) s
  let n := s.rd Reg.RAS_EVT_NEXT_next
  (s.wr Reg.RAS_EVT_BOUNDARY_boundary n).wr Reg.RAS_EVT_ACK_ack n

/-! ### Bedrock installs (R178, R179, R454) -/

/-- Whether a manifest passes the checks of R179. -/
def State.manifestOk (s : State) (m : Manifest) : Bool :=
  Config.verifies 2 [m.granuleCount, m.imageVersion, m.contentId, m.ownerKeyDigest, m.digest, m.signature] &&
  decide (1 ≤ m.granuleCount ∧ m.granuleCount ≤ 131072 ∧ m.granuleCount ≤ s.granules) && m.crcs.length == m.granuleCount &&
  decide (s.mram.bedrockVersions.get 0 m.contentId ≤ m.imageVersion) && m.ownerKeyDigest == s.mram.ownerKey

/-- The load of the manifest's granules begun: the top granules flagged, under a new key (R178, R454). [DEDUCED, log 180] -/
def State.beginBedrock (s : State) (m : Manifest) (host : Option Nat) : State :=
  let base := s.granules - m.granuleCount
  let s := (List.range m.granuleCount).foldl (fun (s : State) i =>
    (s.zeroGranule (base + i)).setOwn (base + i) { OwnEntry.reset with bedrock := true, withdrawn := (s.own (base + i)).withdrawn }) s
  let s := ({ s with hbm := { s.hbm with bedrockKey := s.freeVal, brPassed := [], brRetry := [], brHost := host, brHeld := [] } }).useFree
  (((s.setReg Reg.HBM_BEDROCK 0).wr Reg.HBM_BEDROCK_state 1).wr Reg.HBM_BEDROCK_count m.granuleCount).wr Reg.HBM_BEDROCK_base base |>.brAsk

/-- Whether a ring of contexts 1–63 is enabled. -/
def State.tenantActive (s : State) : Bool := s.tenantRings.any (fun r => s.on (Reg.QM_RING_CFG_enable r))

/-- BEDROCK_INSTALL's checks and effect (R454): the status of R506. A manager that waits for a host range takes the one named. -/
def State.installBedrock (s : State) (m : Manifest) (host : Option Nat) : State × Nat :=
  if s.rd Reg.HBM_BEDROCK_state = 1 ∧ s.isManager = true ∧ s.hbm.brHost = none ∧ host.isSome = true ∧ s.mram.manifest = some m then
    ({ s with hbm := { s.hbm with brHost := host } }.brAsk, mgDone)
  else if s.mram.manifest.isSome ∨ s.rd Reg.HOST_STATUS_tdisp ≠ 0 ∨ s.tenantActive = true ∨ s.manifestOk m = false then (s, mgRefused)
  else
    let put (s : State) : State :=
      { s with mram := { s.mram with manifest := some m, bedrockVersions := s.mram.bedrockVersions.put m.contentId m.imageVersion } }
    if s.storeOk 5 then ((s.storeWrite 5 put).beginBedrock m host, mgDone) else (s.storeWrite 5 put, mgRefused)

/-! ### END_OF_LIFE (R434, R436) -/

/-- A fresh nonce for END_OF_LIFE. [DESIGN CHOICE, log 100] -/
def State.giveNonce (s : State) : State × Nat :=
  let n := Config.crypto 6 [s.freeVal] % 2 ^ 256
  ({ s.useFree with sec := { s.sec with lcNonce := some n } }, n)

/-- The token and the state let the move to END_OF_LIFE go on (R436). [DEDUCED, log 151] -/
def State.eolOk (s : State) (nonce : Nat) (genuine : Bool) : Bool :=
  genuine && s.sec.lcNonce == some nonce && s.boot.lc == .production && s.rd Reg.HOST_STATUS_tdisp != 1 && s.rd Reg.HOST_STATUS_tdisp != 2 &&
  s.mram.fatal.isEmpty && s.sag.isNone

/-- The move requested: the nonce is used up, and a blanket runs first. [DEDUCED, log 151] -/
def State.beginEol (s : State) (nonce : Nat) (genuine : Bool) : State × Bool :=
  let ok := s.eolOk nonce genuine
  let s := { s with sec := { s.sec with lcNonce := none } }
  if ok then ({ s with blanket := { s.blanket with eol := true } }.startBlanket 5, true) else (s, false)

/-- The state bits programmed once phase 1 has ended, outside a sag (R412, R434). [DESIGN CHOICE, log 13; DEDUCED, log 151] -/
def State.settleEol (s : State) : State :=
  if s.blanket.eol && s.blanket.row == 0 && s.sag.isNone && s.on Reg.HUB_READY_ready then
    { s with blanket := { s.blanket with eol := false }, fuse := { s.fuse with lc := .endOfLife, burnAt := some s.now } }.mgEnd mgDone []
  else s

/-! ### The end of phase 1 (R451 row 6) -/

/-- What waited for phase 1 to end (R450). [DESIGN CHOICE, log 145] -/
def State.runDeferred (s : State) : State :=
  match s.blanket.waits with
  | none => s
  | some w =>
    let s := { s with blanket := { s.blanket with waits := none } }
    match w with
    | .install m host => let (t, st) := s.installBedrock m host; t.mgEnd st []
    | .remove => { s with blanket := { s.blanket with remove := s.mram.manifest.isSome } }.mgEnd mgDone []
    | .nonce => let (t, n) := s.giveNonce; t.mgEnd mgDone (leBytes 32 n)
    | .eol nonce genuine => let (t, ok) := s.beginEol nonce genuine; if ok then t else t.mgEnd mgRefused []

/-- SEC_BLANKET_STATUS and SEC_BLANKET_TIME of a phase 1 that has ended (R451, R452, R48). [DESIGN CHOICE, log 145] -/
def State.blanketStatus (s : State) : State :=
  let late := s.blanket.reset.filter (fun n => s.siteState n != 5 && s.siteState n != 6)
  let s := ((s.wrap Reg.SEC_BLANKET_STATUS_count 1).wr Reg.SEC_BLANKET_STATUS_cause s.blanket.cause).wr Reg.SEC_BLANKET_STATUS_zero_pct 0
  let s := (s.wr Reg.SEC_BLANKET_TIME_pending_sites (late.foldl (fun v n => v + 2 ^ n) 0)).wr Reg.SEC_BLANKET_TIME_phase1_ms
    (min 65535 ((s.now - s.blanket.start) * 1000 / 2 ^ 32))
  (s.wr Reg.SEC_STATUS_blanket_phase 2).showZero

/-- Repairs that the blanket has not seen finish fail, and every bedrock granule that stays poisoned is reported to the operator (R180, R181). [DEDUCED, log 167] -/
def State.bedrockReport (s : State) : State :=
  let s := (s.hbm.repairs.filter (fun r => r.stage != .failed)).foldl (fun (s : State) (r : BrRepair) => s.brFail r.granule) s
  (s.hbm.own.filter (fun p => p.2.bedrock && p.2.poisoned)).foldl (fun (s : State) (p : Nat × OwnEntry) =>
    s.post { Event.make blkHbm 5 2 (s.place (p.1 * granuleBytes)).1 (p.1 * granuleBytes) with opOnly := true }) s

/-- Rows 5 and 6 of the blanket, and then what waited for the end of phase 1 (R450, R451). A site that still attests is reported as pending. -/
def State.blanketEnd (s : State) : State :=
  let s := s.settleConns.substituteAll.shrink.blanketFields.bedrockReport.blanketEvents.rewriteRecord
  let stop := s.host.stopPend
  let s := s.wr Reg.HOST_STATUS_tdisp 0
  let s := { s with blanket := { s.blanket with row := 0, wiped := true }, host := { s.host with retryStatus := false, stopPend := false } }
  let s := s.blanketStatus.event blkSec 0x10 0 0 s.blanket.cause
  let s := if stop then s.send (.doe 0x107 []) else s
  let s := match s.mgmt.running with | some (0x10, _) => s.mgEnd mgDone [] | _ => s
  s.settleEol.runDeferred

/-- BLANKET_ATTESTED (R450, R451): rows 5 and 6. -/
def execBlanketAttested (s : State) : Host.Outcome State Fault Refusal :=
  if s.blanket.row ≠ 2 ∨ s.glb.stop ≠ 0 then .next s else .next s.blanketEnd

/-! ### HUB_READY (R426) -/

/-- The package is ready (R426, R504, R200, R332, R450, R454): the readiness record is written with the outcome, context 0 is enabled, and what
waited for HUB_READY begins. [DEDUCED, log 141] -/
def State.becomeReady (s : State) (readyMs : Nat) : State :=
  let s := if 3 ≤ s.boot.plan then s.wr Reg.HBM_STATUS_no_memory 1 else s
  let s := (s.wr (Reg.XLAT_CTX_enable 0) 1).setShd (Reg.XLAT_CTX 0) (s.shd (Reg.XLAT_CTX 0) / 2 * 2 + 1)
  let o := s.outcome
  let s := (s.wr Reg.HUB_READY_outcome o).wr Reg.HUB_READY_ready 1
  let s := { s with boot := { s.boot with stage := 6, readyMs := readyMs }, glb := { s.glb with worn := false } }
  let s := { s with boot := { s.boot with record := s.makeRecord 1 o } }
  let s := if s.pwr.pinLow then (s.wr Reg.PWR_STATUS_brake 1).brakeTaken else s
  let s := if s.boot.plan < 3 ∧ s.on Reg.FAB_IDENT_configured = true ∧ s.rd Reg.FAB_IDENT_manager_member ≠ s.me then s.sendJoin else s
  let s := match s.mram.manifest with
    | some m => if s.boot.plan < 2 then s.beginBedrock m none else s
    | none => s
  match s.blanket.queued with
  | some c => { s with blanket := { s.blanket with queued := none } }.startBlanket c
  | none => s

/-- HUB_READY_SET (R426): after the last stage of bring-up that the plan runs. -/
def execHubReadySet (readyMs : Nat) (s : State) : Host.Outcome State Fault Refusal :=
  if s.boot.perst || s.boot.trip || s.boot.stage == 0 || s.boot.stage == 6 || (s.boot.stage != 5 && decide (s.boot.plan < 3)) then .next s
  else .next (s.becomeReady readyMs)

end Sys2Proof.Machine
end

