-- ==== Sys2Proof/Machine/Security.lean ====
section
/-! DEFINITION. Life cycle, firmware images and bedrock over the management bus (R433–R439, R450, R454, R455). -/
namespace Sys2Proof.Machine

/-- A command of the life cycle or an install that meets phase 1 of a blanket waits for its end (R450). [DESIGN CHOICE, log 145] -/
def State.deferTo (s : State) (w : Deferred) : State × MgAnswer :=
  ({ s with blanket := { s.blanket with waits := some w } }, .later)

/-- BEDROCK_INSTALL (R454, R450): the manifest, with the host range that the operator names. [DEDUCED, log 159] -/
def execBedrockInstall (tag : Nat) (m : Manifest) (host : Option Nat) (s : State) : Host.Outcome State Fault Refusal :=
  .next (s.mgmtTake 0x30 tag false (fun s =>
    if s.blanket.row ≠ 0 then s.deferTo (.install m host)
    else let (t, st) := s.installBedrock m host; (t, .now st [])))

/-- BEDROCK_REMOVE (R455): bedrock goes at the next blanket. -/
def execBedrockRemove (tag : Nat) (s : State) : Host.Outcome State Fault Refusal :=
  .next (s.mgmtTake 0x31 tag false (fun s =>
    if s.blanket.row ≠ 0 then s.deferTo .remove
    else ({ s with blanket := { s.blanket with remove := s.mram.manifest.isSome } }, .now mgDone [])))

/-- FW_WRITE (R438, R439): an image into the copy that is not running, or in recovery into copy A. `genuine` says whether its signature
verifies, which the boot ROM finds at the next VAON power-on. [DESIGN CHOICE, log 11; DEDUCED, log 159] -/
def execFwWrite (tag svn major minor digest : Nat) (genuine : Bool) (s : State) : Host.Outcome State Fault Refusal :=
  .next (s.mgmtTake 0x40 tag false (fun s =>
    let c : FwCopy := { valid := genuine, svn := svn % 256, major := major % 2 ^ 32, minor := minor % 2 ^ 32, digest := digest }
    let a := s.boot.recovery || s.boot.runB
    s.mgStore 6 (fun s => { s with mram := if a then { s.mram with fwA := some c } else { s.mram with fwB := some c } })))

/-- SVN_COMMIT (R439): refused when the running svn does not exceed the fused counter, or exceeds its 64 fuses. [DEDUCED, log 149] -/
def execSvnCommit (tag : Nat) (s : State) : Host.Outcome State Fault Refusal :=
  .next (s.mgmtTake 0x41 tag false (fun s =>
    let svn := match s.fwRunning with | some f => f.svn | none => 0
    if svn ≤ s.fuse.svn ∨ 64 < svn then (s, .now mgRefused [])
    else
      let s := { s with fuse := { s.fuse with svn := svn } }
      ((s.wr Reg.SEC_FW_svn_fused svn).wr Reg.SEC_STATUS_svn_behind 0, .now mgDone [])))

/-- LC_NONCE (R436). -/
def execLcNonce (tag : Nat) (s : State) : Host.Outcome State Fault Refusal :=
  .next (s.mgmtTake 0x43 tag false (fun s =>
    if s.blanket.row ≠ 0 then s.deferTo .nonce
    else let (t, n) := s.giveNonce; (t, .now mgDone (leBytes 32 n))))

/-- LC_EOL (R434, R436): the nonce signed, and whether the signature over the serial, the code 0x03 and the nonce verifies. [DESIGN CHOICE, log 11] -/
def execLcEol (tag nonce : Nat) (genuine : Bool) (s : State) : Host.Outcome State Fault Refusal :=
  .next (s.mgmtTake 0x44 tag false (fun s =>
    if s.blanket.row ≠ 0 then s.deferTo (.eol nonce genuine)
    else
      let (t, ok) := s.beginEol nonce genuine
      (t, if ok then .later else .now mgRefused [])))

/-- The units that a variant fuses (R21, R429): two quads of a CM3-X672. -/
def variantQuads (p : Part) (quads : List Nat) : List Nat :=
  if p = .x672 then ((quads.filter (fun q => decide (q < 32))).eraseDups).take 2 else []

/-- When a test transition's bits begin to program, while the counter runs (R434). [DEDUCED, log 170] -/
def State.burnStart (s : State) : Option Nat := if s.boot.perst then none else some s.now

/-- LC_TEST_TRANSITION (R434, R435, R429): BLANK to TEST fuses the UDS and the serial, TEST to PRODUCTION the variant, the counter and the
debug-disable fuse. The state reported follows at the next VAON power-on (R433). -/
def execLcTestTransition (serial : Nat) (part : Part) (quads : List Nat) (s : State) : Host.Outcome State Fault Refusal :=
  if s.sag.isSome || !s.boot.vaon || s.boot.lc != s.fuse.lc then .next s
  else if s.fuse.lc = .blank then .next { s with fuse := { s.fuse with lc := .test, uds := true, serial := serial % 2 ^ 64, burnAt := s.burnStart } }
  else if s.fuse.lc = .test then
    let svn := match s.fwRunning with | some f => min 64 f.svn | none => 0
    .next { s with fuse := { s.fuse with lc := .production, part := part, fusedQuads := variantQuads part quads, svn := svn, debugOff := true, burnAt := s.burnStart } }
  else .next s

end Sys2Proof.Machine
end

