-- ==== Sys2Proof/Machine/Admission.lean ====
section
/-! DEFINITION. The configuration space, the resets of the function, the SPDM responder, IDE keys and the TDISP interface (R291, R293, R294, R304–R311, R435, R440, R447, R448). -/
namespace Sys2Proof.Machine

/-! ### The configuration space (R293, R294) -/

/-- A reset time as Readiness Time Reporting codes it: a value of 9 bits and a scale of 32^k ns. PRESUMED: the standard's coding. [PRESUMED, log 91] -/
def rtrTime (value scale : Nat) : Nat := value + scale * 2 ^ 9

/-- What a dword of the configuration space reads as outside its writable bits: the values of R293, and the standard's defaults and capability
headers (PRESUMED) for what R293 does not name. [PRESUMED, log 91] -/
def State.cfgConst (s : State) (off : Nat) : Nat :=
  let ext (id ver next : Nat) := id + ver * 2 ^ 16 + next * 2 ^ 20
  match off with
  | 0x000 => 0x0C031F3C
  | 0x004 => 0x00100000
  | 0x008 => 0x120000B1
  | 0x010 => 0x4
  | 0x018 => 0x4
  | 0x020 => 0xC
  | 0x02C => partCode s.fuse.part * 2 ^ 16 + 0x1F3C
  | 0x034 => 0x40
  | 0x040 => 0xC0035001
  | 0x044 => 0x8
  | 0x050 => 0x07FF6011
  | 0x054 => 0x00440000
  | 0x058 => 0x00448000
  | 0x060 => 0x80020010
  | 0x064 => 0x10008022
  | 0x06C => 0x00000906
  | 0x070 => s.rd Reg.HOST_LINK_STATUS_speed * 2 ^ 16 + s.rd Reg.HOST_LINK_STATUS_width * 2 ^ 20
  | 0x084 => 0x00030803
  | 0x08C => 0x0000007E
  | 0x090 => s.rd Reg.HOST_LINK_STATUS_flit * 2 ^ 26
  | 0x100 => ext 0x01 2 0x148
  | 0x148 => ext 0x03 1 0x158
  | 0x14C => bits s.fuse.serial 31 0
  | 0x150 => bits s.fuse.serial 63 32
  | 0x158 => ext 0x19 1 0x180
  | 0x180 => ext 0x25 1 0x190
  | 0x190 => ext 0x26 1 0x1C0
  | 0x1C0 => ext 0x2A 1 0x1E0
  | 0x1E0 => ext 0x31 1 0x200
  | 0x200 => ext 0x27 1 0x240
  | 0x240 => ext 0x1E 1 0x250
  | 0x244 => 0x15
  | 0x250 => ext 0x18 1 0x260
  | 0x260 => ext 0x22 1 0x280
  | 0x264 => rtrTime 382 4 + 2 ^ 31
  | 0x268 => rtrTime 239 4 + rtrTime 306 3 * 2 ^ 12
  | 0x280 => ext 0x2E 1 0x2C0
  | 0x2C0 => ext 0x30 1 0
  | 0x2C4 => 0x00070042
  | _ => 0

/-- The writable bits of a dword that the configuration space keeps (PRESUMED: the standard's). [PRESUMED, log 91] -/
def cfgMask (off : Nat) : Nat :=
  match off with
  | 0x00C => 0xFF
  | 0x010 => 0xFC000000
  | 0x014 => 0xFFFFFFFF
  | 0x018 => 0xFE000000
  | 0x01C => 0xFFFFFFFF
  | 0x024 => 0xFFFFFFF0
  | 0x03C => 0xFF
  | 0x050 => 0x80000000
  | 0x068 => 0x71EF
  | 0x070 => 0x1D3
  | 0x088 => 0x145F
  | 0x090 => 0xF
  | 0x248 => 0xE3FF0005
  | 0x254 => 0x1FFF1FFF
  | _ => 0

/-- The standard's default of a kept dword (PRESUMED): a read request of 512 bytes, the target speed of 64 GT/s. [PRESUMED, log 91] -/
def cfgReset (off : Nat) : Nat :=
  match off with
  | 0x068 => 0x2000
  | 0x090 => 6
  | _ => 0

/-- The kept bits of a dword. -/
def State.cfgKept (s : State) (off : Nat) : Nat := (s.host.cfgSpace.get (BitVec.ofNat 32 (cfgReset off)) off).toNat &&& cfgMask off

/-- A dword of the configuration space. -/
def State.cfgRead (s : State) (off : Nat) : Nat :=
  let v := s.cfgConst off ||| s.cfgKept off
  match off with
  | 0x004 => v + 2 * ofBool s.host.memEnable + 4 * ofBool s.host.busMaster
  | 0x044 => v + s.rd Reg.HOST_STATUS_dstate + 2 ^ 8 * ofBool s.host.pmeEn + 2 ^ 15 * ofBool s.host.wakeLow
  | 0x050 => v + 2 ^ 30 * ofBool s.host.fnMask
  | _ => v

/-- Whether configuration requests get Request Retry Status (R294, R306). -/
def State.cfgRetry (s : State) : Bool := !s.on Reg.HUB_READY_ready || s.host.retryStatus

/-- Whether the host reaches the function: the endpoint is out of reset and the data link is up. [DEDUCED, log 97] -/
def State.reached (s : State) : Bool := s.endpointUp && s.on Reg.HOST_STATUS_link_up

/-! ### Resets of the function (R306, R311) -/

/-- Every outbound request without a completion ended with HOST_ERROR. -/
def State.endOutbound (s : State) : State :=
  (s.acc.outq.filter (fun o => o.ans.isNone && (match o.tgt with | .host _ _ => true | _ => false))).foldl
    (fun (s : State) (o : OutReq) => s.countHost.answerReq o.id (.error stHostError)) s

/-- Every inbound request of the host discarded: what is left of BAR4 accesses, and register accesses that wait. -/
def State.dropInbound (s : State) : State :=
  let ids := (s.acc.asms.filter (fun (x : Asm) => match x.who with | .bar4 _ => true | _ => false)).map Asm.id
  let s := s.forgetRequests (fun r => match r.port with | .part id _ => ids.contains id | _ => false)
  let s := s.orphan (fun w => match w with | .part id _ => ids.contains id | _ => false) none
  { s with
    acc := { s.acc with asms := s.acc.asms.filter (fun (x : Asm) => match x.who with | .bar4 _ => false | _ => true) }
    pwr := { s.pwr with stalled := s.pwr.stalled.filter (fun (a : RegWait) => isFirmware a.src) } }

/-- The function reset (R306): the configuration space apart from PME_En, the MSI-X table, IDE keys and the session; then a blanket. [DEDUCED, log 96] -/
def State.functionReset (s : State) : State :=
  let s := s.tdispError
  let s := { s with host := { s.host with msix := [], msixPend := [], fnMask := false, memEnable := false, busMaster := false, cfgSpace := [], ltr := 0, session := false, handshake := false, retryStatus := true } }
  let s := (List.range 8).foldl (fun (s : State) i => s.emptySlot (i + 1)) s
  let s := { s with evt := { s.evt with unsent := [] } }.dropInbound.endOutbound.enterD0
  (s.wr Reg.HOST_STATUS_host_lost 1).startBlanket 3

/-- The data link down. -/
def State.linkDown (s : State) : State := (s.wr Reg.HOST_STATUS_link_up 0).pstate 0

/-- FLR (R306): the link stays up. -/
def execFlr (s : State) : Host.Outcome State Fault Refusal := .next (if s.reached then s.functionReset else s)

/-- HOT_RESET (R306): the link retrains. -/
def execHotReset (s : State) : Host.Outcome State Fault Refusal := .next (if s.reached then s.linkDown.functionReset else s)

/-- LINK_DISABLE (R306): the link stays down until the host enables it again. -/
def execLinkDisable (s : State) : Host.Outcome State Fault Refusal :=
  .next (if s.reached then { s.linkDown with host := { s.host with linkEnabled := false } }.functionReset else s)

/-- LINK_LOSS (R306). -/
def execLinkLoss (s : State) : Host.Outcome State Fault Refusal := .next (if s.reached then s.linkDown.functionReset else s)

/-! ### Configuration writes (R293, R303, R304, R311) -/

/-- Whether a write would change a configuration field that CONFIG_LOCKED locks: the BARs or Memory Space Enable (R310, R311). [DEDUCED, log 95] -/
def State.cfgLocked (s : State) (off v : Nat) : Bool :=
  let t := s.rd Reg.HOST_STATUS_tdisp
  (t == 1 || t == 2) &&
  (if off = 4 then bit v 1 != s.host.memEnable
   else decide (0x10 ≤ off ∧ off < 0x28) && ((v &&& cfgMask off) != s.cfgKept off))

/-- A dword of the configuration space written. -/
def State.cfgWrite (s : State) (off v : Nat) : State :=
  if s.cfgLocked off v then s.tdispError
  else
    let s := { s with host := { s.host with cfgSpace := s.host.cfgSpace.put off (BitVec.ofNat 32 (v &&& cfgMask off)) } }
    match off with
    | 0x004 => { s with host := { s.host with memEnable := bit v 1, busMaster := bit v 2 } }
    | 0x044 =>
      let s := { s with host := { s.host with pmeEn := bit v 8 } }
      if bits v 1 0 = 3 then s.enterD3 else if bits v 1 0 = 0 then s.enterD0 else s
    | 0x050 =>
      let s := { s with host := { s.host with fnMask := bit v 30 } }
      if s.host.fnMask then s else s.msixFlush
    | 0x068 => if bit v 15 then s.functionReset else s
    | 0x088 => (if bit v 10 then s else { s with host := { s.host with ltr := 0 } }).ltrCheck
    | _ => s

/-- CONFIG_REQUEST (R294, R293): a read or a write of one dword. -/
def execConfigRequest (write : Bool) (off : Nat) (v : Word) (s : State) : Host.Outcome State Fault Refusal :=
  let o := off % 4096 / 4 * 4
  if !s.reached then .next s
  else if s.cfgRetry then .next (s.send (.config o true 0))
  else if write then .next ((s.cfgWrite o v.toNat).send (.config o false 0))
  else .next (s.send (.config o false (BitVec.ofNat 32 (s.cfgRead o))))

/-! ### The SPDM responder (R308, R440) -/

/-- The response codes are the standard's (PRESUMED); an error carries 1 for an invalid request and 4 for one that comes out of order. [PRESUMED, log 92] -/
def State.doe (s : State) (code : Nat) (words : List Nat) : State := s.send (.doe code words)

/-- Whether the DOE mailbox is reached: configuration requests are served. [DEDUCED, log 97] -/
def State.doeUp (s : State) : Bool := s.reached && !s.cfgRetry

/-- The device identity key: derived from the UDS with the life-cycle code as context (R440). [DESIGN CHOICE, log 148] -/
def State.identityKey (s : State) : Nat := Config.crypto 7 [ofBool s.fuse.uds, lcCode s.boot.lc, s.fuse.serial]

/-- Words of the population record that a digest covers. -/
def popWords (p : PopRecord) : List Nat :=
  [p.format, p.reworkCount] ++ p.partnerCode ++ p.populationCode ++ p.sites.flatMap (fun (x : PopSite) =>
    [ofBool x.populated, ofBool x.coherent, x.protocol, x.modules, x.powerLimitW, x.makerId, x.partId, x.revisionMajor, x.tempLimitC,
      x.coherentCacheKib, x.rootDigest]) ++ [p.certDigest, p.signature]

/-- A measurement block of R308. [PRESUMED, log 92] -/
def State.measurement (s : State) (k : Nat) : List Nat :=
  match k with
  | 1 => [match s.fwRunning with | some f => f.digest | none => 0]
  | 2 => [lcCode s.boot.lc, partCode s.fuse.part] ++ s.fuse.fusedQuads
  | 3 => [Config.crypto 8 (match s.mram.pop with | some p => popWords p | none => [])]
  | 4 => (List.range 8).flatMap (fun n => [s.siteState n, s.rd (Reg.SITE_STATE_cause n), ((s.site n).digest).getD 0])
  | 5 => [match s.mram.manifest with | some m => m.digest | none => 0]
  | 6 => [Config.crypto 9 (s.reg Reg.DUTY_MODE :: ((List.range 256).map (fun e => s.reg (Reg.HOST_WIN e)) ++
      (List.range 1024).map (fun o => s.reg (Reg.HOST_OB o))))]
  | _ => []

/-- A signed answer: its words and a signature of the device identity key over them and the nonces. [DESIGN CHOICE, log 11] -/
def State.signed (s : State) (code nonce : Nat) (words : List Nat) : State :=
  let own := s.freeVal
  (s.doe code (words ++ [own, Config.crypto 10 (s.identityKey :: nonce :: own :: words)])).useFree

/-- GET_VERSION: SPDM 1.3. [PRESUMED, log 92] -/
def execGetVersion (s : State) : Host.Outcome State Fault Refusal := .next (if s.doeUp then s.doe 0x04 [0x13] else s)

/-- GET_CAPABILITIES: the requests that R308 lists. -/
def execGetCapabilities (s : State) : Host.Outcome State Fault Refusal :=
  .next (if s.doeUp then s.doe 0x61 [0x84, 0xE1, 0xE3, 0x81, 0x82, 0x83, 0xE0, 0xE4, 0xE5, 0xE9, 0xE8, 0xEC] else s)

/-- NEGOTIATE_ALGORITHMS: ECDSA over P-384, SHA-384, ECDHE over P-384 and AES-256-GCM, as the standard codes them. [PRESUMED, log 92] -/
def execNegotiateAlgorithms (s : State) : Host.Outcome State Fault Refusal :=
  .next (if s.doeUp then s.doe 0x63 [0x80, 0x2, 0x10, 0x2] else s)

/-- The certificate chain of R440. [DESIGN CHOICE, log 148] -/
def State.certChain (s : State) : Nat := Config.crypto 11 [s.identityKey, s.fuse.serial]

/-- GET_DIGESTS: the digest of the chain. -/
def execGetDigests (s : State) : Host.Outcome State Fault Refusal := .next (if s.doeUp then s.doe 0x01 [Config.crypto 8 [s.certChain]] else s)

/-- GET_CERTIFICATE: the chain. -/
def execGetCertificate (s : State) : Host.Outcome State Fault Refusal := .next (if s.doeUp then s.doe 0x02 [s.certChain] else s)

/-- CHALLENGE: a signature over the requester's nonce. -/
def execChallenge (nonce : Nat) (s : State) : Host.Outcome State Fault Refusal :=
  .next (if s.doeUp then s.signed 0x03 nonce [Config.crypto 8 [s.certChain]] else s)

/-- GET_MEASUREMENTS: one block, or all with index 0xFF, and the number of blocks with index 0. -/
def execGetMeasurements (index nonce : Nat) (s : State) : Host.Outcome State Fault Refusal :=
  .next (if !s.doeUp then s
    else if index = 0 then s.signed 0x60 nonce [6]
    else if index = 0xFF then s.signed 0x60 nonce ([1, 2, 3, 4, 5, 6].flatMap s.measurement)
    else if index ≤ 6 then s.signed 0x60 nonce (s.measurement index)
    else s.doe 0x7F [1])

/-- KEY_EXCHANGE: the responder's share; the session opens with FINISH. -/
def execKeyExchange (share : Nat) (s : State) : Host.Outcome State Fault Refusal :=
  .next (if !s.doeUp then s
    else if s.host.session then s.doe 0x7F [4]
    else { s with host := { s.host with handshake := true } }.signed 0x64 share [])

/-- FINISH: `genuine` says whether its check verifies. [DESIGN CHOICE, log 11] -/
def execFinish (genuine : Bool) (s : State) : Host.Outcome State Fault Refusal :=
  .next (if !s.doeUp then s
    else if !s.host.handshake then s.doe 0x7F [4]
    else
      let t := { s with host := { s.host with handshake := false } }
      if genuine then { t with host := { t.host with session := true } }.doe 0x65 [] else t.doe 0x7F [6])

/-- KEY_UPDATE: the session's keys, which no register shows. -/
def execKeyUpdate (s : State) : Host.Outcome State Fault Refusal :=
  .next (if !s.doeUp then s else if s.host.session then s.doe 0x69 [] else s.doe 0x7F [4])

/-- HEARTBEAT. -/
def execHeartbeat (s : State) : Host.Outcome State Fault Refusal :=
  .next (if !s.doeUp then s else if s.host.session then s.doe 0x68 [] else s.doe 0x7F [4])

/-- END_SESSION. -/
def execEndSession (s : State) : Host.Outcome State Fault Refusal :=
  .next (if !s.doeUp then s
    else if s.host.session then { s with host := { s.host with session := false } }.doe 0x6C [] else s.doe 0x7F [4])

/-! ### IDE streams (R309, R442, R444) -/

/-- IDE_KM_PROGRAM (R309): the keys of a stream, inside a secured session; a slot that holds a key drains first (R444). -/
def execIdeKmProgram (stream key : Nat) (s : State) : Host.Outcome State Fault Refusal :=
  .next (if !s.doeUp then s
    else if !s.host.session then s.doe 0x7F [4]
    else if 8 ≤ stream then s.doe 0x7F [1]
    else (s.changeSlot { slot := stream + 1, key := some key, asked := none }).doe 0x200 [stream])

/-- IDE_TLP_FAILURE (R309, R311): the stream is insecure until its keys are programmed again. -/
def execIdeTlpFailure (stream : Nat) (s : State) : Host.Outcome State Fault Refusal :=
  if 8 ≤ stream ∨ !s.reached then .next s
  else .next ((s.sat Reg.HOST_ERR_ide_fail 1).ideSecure (stream + 1) 0).tdispError

/-! ### The TDISP interface (R310, R311, R447, R448) -/

/-- Whether every IDE stream that holds keys is secure, and one at least does (R310). [DEDUCED, log 94] -/
def State.streamsKeyed (s : State) : Bool :=
  let held := [1, 2, 3, 4, 5, 6, 7, 8].filter s.slotLoaded
  !held.isEmpty && held.all s.hostSlotReady

/-- LOCK_INTERFACE (R310, R447, R448): every ACTIVE site is attested again before the answer. No commit of HOST or GLB is ever pending in
this model. [DESIGN CHOICE, log 93; DEDUCED, log 94] -/
def execLockInterface (s : State) : Host.Outcome State Fault Refusal :=
  .next (if !s.doeUp then s
    else if s.rd Reg.HOST_STATUS_tdisp ≠ 0 || s.blanket.row ≠ 0 || s.host.lockPend || !s.blanket.wiped || !s.streamsKeyed then s.doe 0x103 [0]
    else
      let s := { s with host := { s.host with lockPend := true } }
      (((List.range 8).filter (fun n => s.siteState n == 5)).foldl (fun (s : State) n => s.spdmSend n 6) s).lockCheck)

/-- START_INTERFACE (R310). [DESIGN CHOICE, log 93; DESIGN CHOICE, log 164] -/
def execStartInterface (s : State) : Host.Outcome State Fault Refusal :=
  .next (if !s.doeUp then s
    else if s.rd Reg.HOST_STATUS_tdisp = 1 then (s.wr Reg.HOST_STATUS_tdisp 2).doe 0x105 [1] else s.doe 0x105 [0])

/-- STOP_INTERFACE (R311): a blanket, and the answer when its phase 1 has ended; from CONFIG_UNLOCKED it changes nothing. [DESIGN CHOICE, log 93] -/
def execStopInterface (s : State) : Host.Outcome State Fault Refusal :=
  .next (if !s.doeUp then s
    else if s.rd Reg.HOST_STATUS_tdisp = 0 then s.doe 0x107 []
    else { s with host := { s.host with stopPend := true } }.startBlanket 4)

end Sys2Proof.Machine
end

