-- ==== Sys2Proof/Machine/Hamper.lean ====
section
/-! DEFINITION. Hampers: a HAMPER issued, its sub-descriptors run in turn, and its record decided (R129, R203, R205, R232, R233). -/
namespace Sys2Proof.Machine

/-- The number of sub-descriptors that a HAMPER names. -/
def hamperCount (b : List Byte) : Nat := descBits b 0 21 16

/-- The body check of a HAMPER itself (R232): its array, its reserved bytes and its stream word. -/
def hamperBodyOk (cls : Nat) (b : List Byte) : Bool :=
  hamperCount b != 0 && descBits b 8 63 56 == 0 && descBits b 8 5 0 == 0 && zeroFrom b 0x10 16 && zeroFrom b 0x28 24 &&
  (if cls = clsCompute then genWordOk (genWord b) else genWord b == 0)

/-- The rules of R232 for a sub-descriptor: a format-2 descriptor of the ring's class, no HAMPER, no irq and no fence, and on a compute ring
gen 0. [DEDUCED, log 75] -/
def subRulesOk (cls : Nat) (b : List Byte) : Bool :=
  headerOk b false && opInClass cls (opOf b) && opOf b != 1 && !bit (descBits b 0 63 0) 9 && !bit (descBits b 0 63 0) 10 &&
  (opOf b != 0x20 || !genNamed (genWord b))

/-- The body check of a sub-descriptor's opcode (R226), made when it issues. -/
def State.subBodyOk (s : State) (r : Nat) (b : List Byte) : Bool :=
  match opOf b with
  | 0x00 => nopOk b
  | 0x10 => copyOk b
  | 0x11 => fillOk b
  | 0x12 => writeImmOk b
  | 0x20 => dispatchOk s b
  | 0x30 => crcDataOk b
  | 0x31 => crcBlocksOk b
  | 0x32 => crcSaveOk b
  | 0x33 => crcLoadOk b
  | 0x50 => mirrorOk b
  | 0x51 => mirrorOk b
  | 0x52 => mirrorOk b
  | 0x60 => s.streamBodyOk r b
  | 0x61 => s.streamBodyOk r b
  | _ => collOk b

/-- Whether a sub-descriptor must wait at its issue for what its opcode waits for: the ring's earlier descriptors, a collective slot, or its
mirror entry. -/
def State.subWaits (s : State) (r seq : Nat) (b : List Byte) : Bool :=
  match opOf b with
  | 0x12 => (s.ring r).issued.any (fun d => d.seq != seq && (d.status.isNone || s.acc.outq.any (fun o => o.who == .run r d.seq)))
  | 0x51 => match s.mirror (mirEntry b) with | some m => m.sync.isSome | none => false
  | 0x52 => s.mirrorBusy (mirEntry b)
  | op => decide (0x40 ≤ op ∧ op ≤ 0x44) && (s.freeSlot (s.ringEngine r)).isNone

/-- The current sub-descriptor started as its opcode starts. -/
def State.startSub (s : State) (r seq op : Nat) : State :=
  match op with
  | 0x00 => s.startNop r seq
  | 0x10 => s.startMove r seq
  | 0x11 => s.startMove r seq
  | 0x12 => s.startMove r seq
  | 0x20 => s.startTiles r seq
  | 0x30 => s.startCrc r seq
  | 0x31 => s.startCrc r seq
  | 0x32 => s.startCrc r seq
  | 0x33 => s.startCrc r seq
  | 0x50 => s.startMirrorSet r seq
  | 0x51 => s.startMirrorSync r seq
  | 0x52 => s.startMirrorClear r seq
  | 0x60 => s.startRelease r seq
  | 0x61 => s.startWatch r seq
  | _ => s.startColl r seq

/-- A run made ready for its sub-descriptor `i`. A hamper of dispatches keeps the captured position in `aux`. -/
def Run.toSub (d : Run) (i : Nat) (held : Held) (compute : Bool) : Run :=
  { d with sub := i, subHeld := d.subHeld.set i held, pos := 0, allIssued := false, first := none, oversub := false,
           aux := if compute then d.aux else 0, crcUnit := none, buf := none, placed := false }

/-- Sub-descriptor `i` of a hamper issued (R205, R226, R233): it starts, ends at once, or waits. [DEDUCED, log 76] -/
def State.issueSub (s : State) (r : Nat) (d : Run) (i : Nat) : State :=
  let b := (d.subs[i]?).getD []
  let ready (s : State) (held : Held) : State := s.updRun r d.seq (fun (d : Run) => d.toSub i held (s.ringCls r == clsCompute))
  let was := (d.subHeld[i]?).getD []
  if !s.subBodyOk r b then (ready s was).finish r d.seq stMalformed none 0
  else if s.subWaits r d.seq b then s
  else match s.checkFields r d.phys (s.strictOf r b) (s.addrFields r b) was with
    | .stale => (ready s was).finish r d.seq stStaleGen none 0
    | .fault va kind seg a =>
      let (paused, s) := s.ringFault r d.seq va kind seg a
      if paused then s else (ready s was).finish r d.seq stSegFault none 0
    | .ok held => if s.engineGone r then (ready s held).finish r d.seq stEngineLost none 0 else (ready s held).startSub r d.seq (opOf b)

/-- Whether a sub-descriptor's opcode computes a check value (R233). -/
def subChecks (b : List Byte) : Bool :=
  (opOf b == 0x10 && bit (descBits b 0x18 63 0) 45) || opOf b == 0x30 || opOf b == 0x31 || opOf b == 0x61

/-- The check field of a hamper's record (R233). -/
def Run.hamperCheck (d : Run) : Nat :=
  match ((d.ends.zip d.subs).filter (fun (p : SubEnd × List Byte) => subChecks p.2)).getLast? with
  | some p => p.1.check.getD 0
  | none => 0

/-- The deciding sub-descriptor of a hamper that has ended, with its number (R233). -/
def Run.decider (d : Run) : SubEnd × Nat :=
  let l := d.ends.zipIdx
  let with_ (p : SubEnd × Nat → Bool) : Option (SubEnd × Nat) := l.find? p
  match with_ (fun p => decide (0x0100 ≤ p.1.status)) with
  | some x => x
  | none => match with_ (fun p => p.1.status == stDeadlineDefault) with
    | some x => x
    | none => match with_ (fun p => p.1.status == stOversub) with
      | some x => x
      | none => l.getLast?.getD ({ status := stSuccess, check := none, info := 0 }, 0)

/-- A hamper ended: its status decided, and its generation entry moved on (R129, R233). -/
def State.endHamper (s : State) (r : Nat) (d : Run) : State :=
  let x := d.decider
  let st := x.1.status
  let s := s.updRun r d.seq (fun (d : Run) =>
    { d with status := some st, check := d.hamperCheck, info := hamperInfo x.2 x.1.info, time := s.now, allIssued := true })
  s.advanceGen r st d.bytes

/-- The hamper of a ring whose next sub-descriptor may issue or whose end may be decided: none of its sub-descriptors runs. -/
def State.restingHamper (s : State) (r : Nat) : Option Run :=
  (s.ring r).issued.find? (fun d => !d.subs.isEmpty && d.status.isNone && d.sub != d.ends.length)

/-- The error of a write that came after its sub-descriptor's status was decided becomes that status, as R236 has it for a descriptor. [DEDUCED, log 76] -/
def Run.settleEnd (d : Run) : Run :=
  match d.ends.getLast?, d.first with
  | some e, some st => if e.status < 0x0100 then { d with ends := d.ends.dropLast ++ [{ e with status := st }], first := none } else d
  | _, _ => d

/-- A resting hamper moved on (R233): once the last sub-descriptor has drained, the hamper ends or the next one issues. [DEDUCED, log 76] -/
def State.hamperOn (s : State) (r : Nat) (d : Run) : State :=
  if s.writing r d.seq then s
  else
    let d := d.settleEnd
    let s := s.updRun r d.seq (fun (x : Run) => x.settleEnd)
    if d.ends.any (fun e => decide (0x0100 ≤ e.status)) || d.subs.length ≤ d.ends.length then s.endHamper r d
    else s.issueSub r d d.ends.length

/-- The HAMPER at the head of a ring issued (R203, R226, R232): once its array is read whole, or with what its reading met. [DEDUCED, log 75] -/
def State.issueHamper (s : State) (r : Nat) (q : QDesc) : State :=
  let cls := s.ringCls r
  if !hamperBodyOk cls q.bytes then s.endHead r q stMalformed
  else match s.checkFields r q.phys (s.strictOf r q.bytes) (s.addrFields r q.bytes) q.held with
    | .stale => s.endHead r q stStaleGen
    | .fault va kind seg a =>
      let (paused, s) := s.ringFault r q.seq va kind seg a
      if paused then s else s.endHead r q stSegFault
    | .ok _ =>
      match q.fail with
      | some st =>
        if st = stSegFault then
          -- the array can be translated now: it is read again, and what was fetched after it too
          ((s.orphan (· == .fetch r) none).setRing r { s.ring r with fetched := [{ q with fail := none, subs := [], subHeld := [] }] }).wr (Reg.QM_RING_FETCH_next_fetch r) (q.seq + 1)
        else s.endHead r q st
      | none =>
        if q.subs.length < hamperCount q.bytes ∨ s.genBusy q.bytes = true then s
        else if q.subs.any (fun b => !subRulesOk cls b) then s.endHead r q stMalformed
        else if cls = clsCompute then
          match s.genIssue r q.bytes with
          | .inr st => s.endHead r q st
          | .inl g =>
            let s := (s.takeHead r q).updRun r q.seq (fun (d : Run) => { d with aux := g, sub := 64 })
            match s.runOf r q.seq with | some d => s.hamperOn r d | none => s
        else
          let s := (s.takeHead r q).updRun r q.seq (fun (d : Run) => { d with sub := 64 })
          match s.runOf r q.seq with | some d => s.hamperOn r d | none => s

/-- HAMPER (R232): issued at the head of its ring, alone where the class runs one descriptor at a time. -/
def execHamper (ring : Nat) (s : State) : Host.Outcome State Fault Refusal :=
  match (s.ring ring).fetched.head? with
  | none => .next s
  | some q =>
    if s.glb.stop ≠ 0 ∨ s.rd (Reg.QM_RING_STATE_state ring) ≠ ringActive ∨ s.mayIssue ring (s.fenceOf ring q.bytes) = false then .next s
    else if !s.knownOp ring q.bytes then .next (s.endHead ring q stMalformed)
    else if !s.isOp ring 1 q.bytes then .next s
    else if (s.ringCls ring = clsCrc ∨ s.ringCls ring = clsStream) ∧ s.streamBusy ring = true then .next s
    else .next (s.issueHamper ring q)

/-- HAMPER_NEXT_SUB (R233): the hamper that a ring runs moves on once its current sub-descriptor has completed. -/
def execHamperNextSub (ring : Nat) (s : State) : Host.Outcome State Fault Refusal :=
  let st := s.rd (Reg.QM_RING_STATE_state ring)
  if s.glb.stop ≠ 0 ∨ s.ringWaits ring = true ∨ st = ringDisabled then .next s
  else match s.restingHamper ring with
    | none => .next s
    | some d => .next (s.hamperOn ring d)

end Sys2Proof.Machine
end

