-- ==== Sys2Proof/Machine/Ras.lean ====
section
/-! DEFINITION. The watchdog, parity fatals, the windows of R468, error injection and FATAL_CLEAR (R462–R464, R468, R471, R472, R478). -/
namespace Sys2Proof.Machine

/-- Whether the hub runs: VAON present, PERST_N released and no thermal trip. [DESIGN CHOICE, log 14] -/
def State.running (s : State) : Bool := s.boot.vaon && !s.boot.perst && !s.boot.trip

/-- HEARTBEAT_LOSS (R462, R463, R464): the watchdog's own path, and a package stop in which firmware's cairns stop too. R463 gives no details. [DESIGN CHOICE, log 30] -/
def execHeartbeatLoss (s : State) : Host.Outcome State Fault Refusal :=
  if !s.running || s.glb.stop = 2 then .next s
  else
    let s := s.fatalOpen 0x3811 0 true
    .next { s with glb := { s.glb with stop := 2 } }

/-- FATAL_PARITY (R463, R464): a parity or state error in the queue manager, or in the XLAT block. [DESIGN CHOICE, log 30] -/
def execFatalParity (xlat : Bool) (s : State) : Host.Outcome State Fault Refusal :=
  if !s.running then .next s
  else
    let s := s.fatalOpen (if xlat then 0x0611 else 0x0511) 0 false
    .next { s with glb := { s.glb with stop := max s.glb.stop 1 } }

/-- EVENT_COALESCE_TIMER (R468): the 1 ms of a pair of code and unit has passed. -/
def execEventCoalesceTimer (code unit : Nat) (s : State) : Host.Outcome State Fault Refusal :=
  if s.boot.vaon then .next (s.closeWindow code unit) else .next s

/-- Whether RAS_INJECT's target may take an error of a kind (R478). -/
def State.injectable (s : State) (kind ctx a : Nat) : Bool :=
  if kind = 1 ∨ kind = 2 then s.inScratch (a / 8 * 8) 8 && decide ((a - scratchBase) % 2 ^ 20 < scratchBytes)
  else if kind = 3 ∨ kind = 4 then
    s.inMemory (a / 32 * 32) 32 && (s.own (a / granuleBytes)).owner == ctx && !(s.own (a / granuleBytes)).bedrock
  else false

/-- RAS_INJECT (R478): armed, or refused with result 3; a reserved kind posts the event of R9 too. [DESIGN CHOICE, log 31] -/
def execRasInject (v : DWord) (s : State) : Host.Outcome State Fault Refusal :=
  let n := v.toNat
  if !bit n 63 then .next s
  else
    let kind := bits n 51 48
    let a := bits n 47 0
    let s := if kind = 0 ∨ 4 < kind then s.regEvent 2 Reg.RAS_INJECT n else s
    if s.evt.inject.isSome || !s.injectable kind (bits n 57 52) a then .next (s.wr Reg.RAS_INJECT_STATUS_result 3)
    else .next ({ s with evt := { s.evt with inject := some (kind, a) } }.wr Reg.RAS_INJECT_STATUS_result 1)

/-- The entries up to a sequence number erased, with dropped, fatal_full and, once none is held, fatal (R472). -/
def State.clearFatal (s : State) (seq : Nat) : State :=
  let held := s.mram.fatal.filter (fun e => later e.seq seq)
  let s := { s with mram := { s.mram with fatal := held, dropped := 0 } }
  let s := ((s.wr Reg.RAS_STATUS_fatal_held held.length).wr Reg.RAS_FATAL_INFO_dropped 0).wr Reg.RAS_FATAL_INFO_oldest
    ((held.head?.map FatalEntry.seq).getD 0)
  s.withAlert (fun s =>
    let s := s.wr Reg.RAS_ALERT_fatal_full 0
    if held.isEmpty then s.wr Reg.RAS_ALERT_fatal 0 else s)

/-- FATAL_CLEAR (R472, R506). -/
def execFatalClear (tag seq : Nat) (s : State) : Host.Outcome State Fault Refusal :=
  .next (s.mgmtTake 0x42 tag false (fun s => s.mgStore 0 (fun s => s.clearFatal seq)))

end Sys2Proof.Machine
end

