-- ==== Sys2Proof/Machine/RegFile.lean ====
section
/-! DEFINITION. The register file on BAR0 and on the internal image: what each reader sees, halves of 64-bit registers, writes field by field, and accesses that wait for a quad (R9, R10, R14, R402, R403, R424, R456, R464, R469, R479–R482). -/
namespace Sys2Proof.Machine

/-! ### What a reader sees (R10, R424, R456, R469, R471, R479) -/

/-- Who reads: the driver over BAR0, firmware over the internal image, or the operator over the management bus. -/
inductive Viewer where
  | driver | firmware | operator
  deriving DecidableEq, Repr

/-- A time rounded down to 2^13 units (R456). [DEDUCED, log 19] -/
def coarse (t : Nat) : Nat := t / 2 ^ 13 * 2 ^ 13

/-- The 64 bytes of an entry of the fatal log as every reader sees them (R471). -/
def FatalEntry.bytes (e : FatalEntry) : List Byte :=
  leBytes 4 e.seq ++ leBytes 2 e.code ++ leBytes 2 e.boot ++ leBytes 8 (coarse e.time) ++ leBytes 4 (e.unit % 2 ^ 16 + e.block % 64 * 2 ^ 16) ++
  leBytes 4 e.powerOns ++ leBytes 8 e.status ++ leBytes 8 e.detail0 ++ leBytes 8 e.detail1 ++ leBytes 16 0

/-- The 32 bytes of a slot of the event log; a slot that was never written reads 0. -/
def State.eventBytes (s : State) (v : Viewer) (slot : Nat) : List Byte :=
  match s.evt.slots.find? (fun p => p.1 == slot) with
  | none => leBytes 32 0
  | some (_, e) => match v with
    | .driver => (s.driverView e).bytes
    | .firmware => e.bytes
    | .operator => { e with time := coarse e.time }.bytes

/-- The word of a byte table at an offset. -/
def wordOf (b : List Byte) (off : Nat) : Nat := leValue ((b.drop off).take 4)

/-- The word of a window at an offset: the readiness record, the MSI-X table and PBA, the event window and the fatal window. -/
def State.windowWord (s : State) (v : Viewer) (o : Nat) : Option Nat :=
  if 0x1000 ≤ o ∧ o < 0x2000 then some (if s.on Reg.HUB_READY_ready then wordOf s.boot.record (o - 0x1000) else 0)
  else if 0x440000 ≤ o ∧ o < 0x448000 then some (s.msixWord ((o - 0x440000) / 4))
  else if 0x448000 ≤ o ∧ o < 0x448100 then
    let base := (o - 0x448000) * 8
    some ((s.host.msixPend.filter (fun k => decide (base ≤ k ∧ k < base + 32))).foldl (fun w k => w + 2 ^ (k - base)) 0)
  else if 0x3810000 ≤ o ∧ o < 0x3830000 then some (wordOf (s.eventBytes v ((o - 0x3810000) / 32)) (o % 32))
  else if 0x3840000 ≤ o ∧ o < 0x3844000 then
    some (match s.mram.fatal[(o - 0x3840000) / 64]? with | some e => wordOf e.bytes (o % 64) | none => 0)
  else none

/-- The register that holds a word: its offset and its table. -/
def regAt (o : Nat) : Option (Nat × RegDesc) :=
  match findReg o with
  | some d => some (o, d)
  | none =>
    if o % 8 = 4 then
      match findReg (o - 4) with
      | some d => if d.width = 64 then some (o - 4, d) else none
      | none => none
    else none

/-- The logical cluster and tile page that an offset of the TILE block names. -/
def tileCluster (o : Nat) : Nat := (o - 0x3000000) / 0x10000
def tilePage (o : Nat) : Nat := (o % 0x10000 - 0x1000) / 0x800

/-- Whether an offset lies in the TILE block. -/
def inTileBlock (o : Nat) : Bool := decide (0x3000000 ≤ o ∧ o < 0x3800000)

/-- Whether a register's unit is fused or does not exist (R2, R182, R183, R482). -/
def State.unitAbsent (s : State) (o : Nat) : Bool :=
  (inTileBlock o && decide (s.glb.tileCount / 16 ≤ tileCluster o)) ||
  (List.range 8).any (fun k => s.stackFused k && (o == Reg.HBM_STACK_STATUS k ||
    [2 * k, 2 * k + 1].any (fun c => o == Reg.HBM_CTL_STATUS c || o == Reg.HBM_CTL_ERR c || o == Reg.REG_CTL_STAT c))) ||
  s.fuse.fusedQuads.any (fun q => o == Reg.REG_CLASS_FLOOR q || o == Reg.REG_CLASS_CTL q || o == Reg.REG_CLASS_STAT q) ||
  (List.range 16).any (fun p => s.portFused p && (decide (Reg.FAB_PORT_CFG p ≤ o ∧ o < Reg.FAB_PORT_CFG p + 0x20) ||
    decide (Reg.STRM_PORT_CFG p ≤ o ∧ o < Reg.STRM_PORT_CFG p + 0x40) || o == Reg.TIME_PORT_ASYM p)) ||
  [4, 5, 6, 7].any (fun n => o == Reg.SITE_MOD_STATUS n 8 || o == Reg.SITE_MOD_ERR n 8)

/-- PWR_QUADS as it reads: one bit for each logical quad (R424). -/
def State.quadsShown (s : State) : Nat :=
  maskUpTo 32 (fun l => (s.quadsOf l).any s.quadRuns)

/-- The values that registers show of tables held elsewhere, by offset. [DEDUCED, log 18] -/
def State.viewOf (s : State) (o : Nat) : Option Nat :=
  if o = Reg.QM_EVT_SEQ then some (s.rd Reg.RAS_EVT_NEXT_next)
  else if o = Reg.PWR_QUADS then some s.quadsShown
  else if o = Reg.RAS_STATUS then some (putBits (s.reg o) 17 16 s.healthCode)
  else if o = Reg.TIME_STATUS then some (putBits (s.reg o) Reg.TIME_STATUS_host_steer.hi Reg.TIME_STATUS_host_steer.lo (ofBool (s.duty 9)))
  else if o = Reg.NOC_RT_DATA then
    let ni := s.rd Reg.NOC_RT_SEL_ni
    some (if ni < 160 then s.routeShadow ni (s.rd Reg.NOC_RT_SEL_entry) else 0)
  else if o = Reg.FAB_CONN_DATA then
    let e := s.rd Reg.FAB_CONN_SEL_entry
    some (putBits (s.connShd e) 50 32 (bits (s.conn e) 50 32))
  else if o = Reg.FAB_FWD_DATA then some (if s.rd Reg.FAB_FWD_SEL_index ≤ 1087 then s.fab.fwd.get 0 (s.rd Reg.FAB_FWD_SEL_index) else 0)
  else if o = Reg.REG_CLASS_FLOOR 45 ∨ o = Reg.REG_CLASS_CTL 44 ∨ o = Reg.REG_CLASS_CTL 45 then some 0
  else if inTileBlock o then
    let l := tileCluster o
    let slotOf (i : Nat) : Nat := s.rd (Reg.TILE_STATUS_phys_slot l i)
    if o % 0x10000 = 8 then some ((List.range 12).foldl (fun v i => v + slotOf i * 2 ^ (5 * i)) 0)
    else if o % 0x10000 = 0x10 then some ((List.range 4).foldl (fun v i => v + slotOf (12 + i) * 2 ^ (5 * i)) 0)
    else if 0x1000 ≤ o % 0x10000 then
      match s.slotOf (16 * l + tilePage o) with
      | none => none
      | some p =>
        if o % 0x800 = 4 then some (s.slot p).fault
        else if o % 0x800 = 8 then some (s.slot p).faultPc
        else if o % 0x800 = 0xC then some (s.slot p).corrected
        else if o % 0x800 = 0x10 then some (s.slot p).uncorrected
        else none
    else none
  else none

/-- Whether the driver reads the value in force of an RWC register: STREAM's floors (R194). [DEDUCED, log 18] -/
def readsCommitted (v : Viewer) (o : Nat) : Bool := o == Reg.REG_CLASS_FLOOR 44 && v != .firmware

/-- A register as software reads it: shadows for RWC fields, 0 for WO fields (R10). -/
def State.plainRead (s : State) (v : Viewer) (o : Nat) (d : RegDesc) : Nat :=
  d.fields.foldl (fun (x : Nat) (f : FieldDesc) =>
    let w := match f.acc with
      | .wo => 0
      | .rwc => if readsCommitted v o then s.reg o else s.shd o
      | _ => s.reg o
    x + bits w f.hi f.lo * 2 ^ f.lo) 0

/-- Whether a register shows a reading of the time counter: the counter, a trigger stamp or the time of a fault record. [DEDUCED, log 19] -/
def showsTime (o : Nat) : Bool :=
  o == Reg.TIME_NOW || (List.range 4).any (fun i => o == Reg.TIME_TIN_TS i) || (List.range 64).any (fun r => o == Reg.XLAT_FAULT_TIME r)

/-- What the operator does not see in full: performance counters, latency and bandwidth statistics are not readable, readings of the time
counter are rounded, and error counts are the totals renewed each 100 ms (R456). [DEDUCED, log 19] -/
def State.operatorView (s : State) (o x : Nat) : Nat :=
  if showsTime o then coarse x
  else if (decide (Reg.REG_CLASS_STAT 0 ≤ o ∧ o < Reg.REG_CLASS_STAT 46) || decide (Reg.REG_CTL_STAT 0 ≤ o ∧ o < Reg.REG_CTL_STAT 16)) = true then 0
  else if inTileBlock o && decide (0x1000 ≤ o % 0x10000) then
    let slot := (s.slotOf (16 * tileCluster o + tilePage o)).getD 0
    if o % 0x800 = 0x20 ∨ o % 0x800 = 0x28 then 0
    else if o % 0x800 = 0xC then (s.evt.shown.get 0 (2 ^ 26 + 2 * slot)).toNat
    else if o % 0x800 = 0x10 then (s.evt.shown.get 0 (2 ^ 26 + 2 * slot + 1)).toNat
    else x
  else if errorReg o then (s.evt.shown.get 0 o).toNat
  else x

/-- A register whole, as a reader sees it, without the side effects of reading. -/
def State.look (s : State) (v : Viewer) (o : Nat) (d : RegDesc) : Nat :=
  if s.unitAbsent o then 0
  else
    let x := (s.viewOf o).getD (s.plainRead v o d)
    if v = .operator then s.operatorView o x else x

/-! ### Reads (R14, R390) -/

/-- The side effect of reading a register's lower half: the pop of R390. -/
def State.readEffect (s : State) (o : Nat) : State :=
  match [0, 1, 2, 3].find? (fun i => o == Reg.TIME_TIN_TS i) with
  | some i => (s.popStamp i).2
  | none => s

/-- A read of one word. -/
def State.readWord (s : State) (v : Viewer) (o : Nat) : Nat × State :=
  match s.windowWord v o with
  | some w => (w, s)
  | none => match regAt o with
    | none => (0, s)
    | some (b, d) =>
      if d.width = 32 then (s.look v b d, s)
      else if o = b then
        let x := s.look v b d
        (x % 2 ^ 32, { s.readEffect b with captured := s.captured.put b (BitVec.ofNat 32 (x / 2 ^ 32)) })
      else match s.captured.find? (fun p => p.1 == b) with
        | some p => (p.2.toNat, { s with captured := s.captured.del b })
        | none => (s.look v b d / 2 ^ 32, s)

/-- A read of 8 bytes: a 64-bit register whole, or two words, the lower first. -/
def State.readDouble (s : State) (v : Viewer) (o : Nat) : Nat × State :=
  match findReg o with
  | some d =>
    if d.width = 64 then
      (s.look v o d, { s.readEffect o with captured := s.captured.del o, held := s.held.del o })
    else
      let (a, s) := s.readWord v o
      let (b, s) := s.readWord v (o + 4)
      (a + b * 2 ^ 32, s)
  | none =>
    let (a, s) := s.readWord v o
    let (b, s) := s.readWord v (o + 4)
    (a + b * 2 ^ 32, s)

/-- Whose view an access takes. -/
def viewerOf (src : BusSrc) : Viewer := if isFirmware src then .firmware else .driver

/-- A read carried out and answered. -/
def State.doRead (s : State) (src : BusSrc) (o size : Nat) : State :=
  let (x, s) := if size = 8 then s.readDouble (viewerOf src) o else s.readWord (viewerOf src) o
  s.send (.regRead o size (BitVec.ofNat 64 x))

/-! ### Writes field by field (R8–R12, R481) -/

/-- Whether a register's writable fields are firmware's alone (R146, R155, R194, R200, R314, R338, R379, R394, R414). -/
def State.firmwareOnly (s : State) (o : Nat) : Bool :=
  (decide (Reg.NOC_STATUS ≤ o ∧ o < Reg.SITE_POP 0) && o != Reg.NOC_RT_SEL) || o == Reg.PWR_ENVELOPE ||
  [Reg.TIME_SEC_NEXT, Reg.TIME_CFG, Reg.TIME_COMMIT, Reg.TIME_TIN_CFG, Reg.TIME_TOUT_CFG].contains o ||
  decide (Reg.TIME_PORT_ASYM 0 ≤ o ∧ o < Reg.TIME_PORT_ASYM 16) || o == Reg.XLAT_CTX 0 || decide (Reg.SEG_BASE 0 0 ≤ o ∧ o < Reg.SEG_BASE 1 0) ||
  o == Reg.REG_CLASS_FLOOR 44 || o == Reg.FAB_FWD_DATA || (o == Reg.FAB_CONN_DATA && decide (s.rd Reg.FAB_CONN_SEL_entry < 2048)) ||
  (List.range 16).any (fun p => o == Reg.FAB_PORT_CFG p) || decide (Reg.STRM_TMPL 0 0 ≤ o ∧ o < Reg.STRM_TMPL 8 0) ||
  decide (Reg.STRM_PORT_CFG 0 ≤ o ∧ o < Reg.STRM_PORT_CFG 16)

/-- Whether a write differs from what the writable fields read (R481). -/
def State.differs (s : State) (o : Nat) (d : RegDesc) (v : Nat) : Bool :=
  let x := s.look .driver o d
  d.fields.any (fun (f : FieldDesc) => f.acc != .ro && bits v f.hi f.lo != bits x f.hi f.lo)

/-- The fields of a register written under their access codes (R10). -/
def State.writeFields (s : State) (o : Nat) (d : RegDesc) (v : Nat) : State :=
  d.fields.foldl (fun (s : State) (f : FieldDesc) =>
    let x := bits v f.hi f.lo
    match f.acc with
    | .rw => s.wr ⟨o, f.hi, f.lo⟩ x
    | .w1c => let old := s.rd ⟨o, f.hi, f.lo⟩
      s.wr ⟨o, f.hi, f.lo⟩ (old - (old &&& x))
    | .rwc => s.setShd o (putBits (s.shd o) f.hi f.lo x)
    | _ => s) s

/-- The state of an outcome. -/
def State.took (s : State) : Host.Outcome State Fault Refusal → State
  | .next t => t
  | _ => s

/-- TILE_COMMIT (R485): TILE_CFG of one tile, refused for a reserved event code. [DESIGN CHOICE, log 23] -/
def State.tileCommit (s : State) (l i v : Nat) : State :=
  if !bit v 0 then s
  else if 7 < s.shf (Reg.TILE_CFG_perf0_sel l i) ∨ 7 < s.shf (Reg.TILE_CFG_perf1_sel l i) then s.commitRefused (Reg.TILE_COMMIT_STATUS l i) 1
  else (s.commitReg (Reg.TILE_CFG l i)).commitDone (Reg.TILE_COMMIT_STATUS l i)

/-- QM_EVT_CFG (R216, R241): the size is fixed while the ring is enabled, and a base that breaks R216 leaves enable 0. [DESIGN CHOICE, log 22] -/
def State.writeEvtCfg (s : State) (v : Nat) : State :=
  let was := s.on Reg.QM_EVT_CFG_enable
  let size := bits v 3 0
  let s := s.wr Reg.QM_EVT_CFG_key_slot (bits v 23 20)
  let s := if size = s.rd Reg.QM_EVT_CFG_size_log2 then s
    else if was then s.regEvent 1 Reg.QM_EVT_CFG v
    else if size < 6 ∨ 12 < size then s.regEvent 2 Reg.QM_EVT_CFG v
    else s.wr Reg.QM_EVT_CFG_size_log2 size
  if !bit v 31 then s.wr Reg.QM_EVT_CFG_enable 0
  else if was then s
  else if s.baseOk (s.rd Reg.QM_EVT_BASE_base) (32 * 2 ^ s.rd Reg.QM_EVT_CFG_size_log2) then s.wr Reg.QM_EVT_CFG_enable 1
  else s.regEvent 1 Reg.QM_EVT_CFG v

/-- The selected connection entry's shadow written (R338). -/
def State.writeConn (s : State) (v : Nat) : State :=
  let e := s.rd Reg.FAB_CONN_SEL_entry
  let x := putBits (putBits (s.connShd e) 29 0 (bits v 29 0)) 31 31 (bits v 31 31)
  { s with connShadow := s.connShadow.put e (BitVec.ofNat 64 x) }

/-- The selected route entry's shadow written (R146): entries 0xA0–0xFF and bits [63:41] are not there and read 0 (R145). -/
def State.writeRoute (s : State) (v : Nat) : State :=
  let ni := s.rd Reg.NOC_RT_SEL_ni
  let e := s.rd Reg.NOC_RT_SEL_entry
  if 160 ≤ ni ∨ 160 ≤ e then s
  else { s with noc := { s.noc with routesShadow := s.noc.routesShadow.put (ni * 256 + e) (BitVec.ofNat 64 (v % 2 ^ 41)) } }

/-- The selected forwarding entry written, at once (R321), without its reserved bits [31:19] (R8, R320). -/
def State.writeFwd (s : State) (v : Nat) : State :=
  let i := s.rd Reg.FAB_FWD_SEL_index
  if 1087 < i then s else { s with fab := { s.fab with fwd := s.fab.fwd.put i (v % 2 ^ 19) } }

/-- A window entry written: its events may come again (R298). -/
def State.writeWin (s : State) (o : Nat) (d : RegDesc) (v : Nat) : State :=
  let e := (o - Reg.HOST_WIN 0) / 8
  { s.writeFields o d v with host := { s.host with winBad := s.host.winBad.filter (· != e) } }

/-- SITE_REC_CMD (R269). -/
def State.writeRecCmd (s : State) (n v : Nat) : State :=
  let m := bits v 11 8
  match bits v 3 0 with
  | 1 => s.took (execSiteRecRetry n m s)
  | 2 => s.took (execSiteRecSpare n m s)
  | 3 => s.took (execSiteRecHalf n m s)
  | 4 => s.took (execSiteRecRetire n m s)
  | 5 => s.took (execSiteRecRetrain n m s)
  | _ => s.regEvent 2 (Reg.SITE_REC_CMD n) v

/-- FAB_PORT_REC (R315). -/
def State.writePortRec (s : State) (p v : Nat) : State :=
  match bits v 3 0 with
  | 1 => s.took (execPortRecRetry p s)
  | 2 => s.took (execPortRecHalf p s)
  | 3 => s.took (execPortRecDown p s)
  | _ => s.regEvent 2 (Reg.FAB_PORT_REC p) v

/-- HBM_GRAN_CMD (R176). -/
def State.writeGran (s : State) (v : Nat) : State :=
  match bits v 3 0 with
  | 1 => s.took (execGranSet s)
  | 2 => s.took (execGranSetZero s)
  | 3 => s.took (execGranRead s)
  | _ => s.regEvent 2 Reg.HBM_GRAN_CMD v

/-- STRM_CTX_CMD (R362). -/
def State.writeCtxCmd (s : State) (src : BusSrc) (v : Nat) : State :=
  match bits v 1 0 with
  | 1 => s.took (execInstall src s)
  | 2 => s.took (execFree src s)
  | 3 => s.took (execCtxRead src s)
  | _ => s.regEvent 2 Reg.STRM_CTX_CMD v

/-- QM_RING_CMD (R221). -/
def State.writeRingCmd (s : State) (r v : Nat) : State :=
  match bits v 1 0 with
  | 0 => s
  | 1 => s.took (execRestart r s)
  | 2 => s.took (execAbort r s)
  | _ => s.regEvent 2 (Reg.QM_RING_CMD r) v

/-- A write of a register that acts on more than its own fields: the commit, command and data registers, by the first copy of their table. -/
def State.writeActs (s : State) (src : BusSrc) (b o v : Nat) (d : RegDesc) : Option State :=
  let w : Word := BitVec.ofNat 32 v
  let q : DWord := BitVec.ofNat 64 v
  let site := (o - b) / 0x80000
  if b = Reg.GLB_COMMIT then some (s.took (execGlbCommit w s))
  else if b = Reg.GLB_SUBST_CMD then some (s.took (execGlbSubstCmd w s))
  else if b = Reg.PWR_COMMIT then some (s.took (execPwrCommit w s))
  else if b = Reg.PWR_SETPOINT then some (s.took (execPwrSetpoint w s))
  else if b = Reg.TIME_COMMIT then some (s.took (execTimeCommit src w s))
  else if b = Reg.TIME_SEC_NEXT then some (s.took (execTimeSecNext src w s))
  else if b = Reg.TIME_STEER then some (s.took (execTimeSteer q s))
  else if b = Reg.TIME_TOUT_SCHED 0 then some (s.took (execToutSchedule ((o - b) / 8) q s))
  else if b = Reg.SEC_BLANKET then some (s.took (execSecBlanket src w s))
  else if b = Reg.SEC_SLOT_CMD then some (s.took (execSecSlotCmd src w s))
  else if b = Reg.HOST_COMMIT then some (s.took (execHostCommit w s))
  else if b = Reg.HOST_WIN 0 then some (s.writeWin o d v)
  else if b = Reg.QM_COMMIT then some (s.took (execQmCommit w s))
  else if b = Reg.QM_EVT_CFG then some (s.writeEvtCfg v)
  else if b = Reg.QM_EVT_BASE then some (if s.on Reg.QM_EVT_CFG_enable then s.regEvent 1 o v else s.writeFields o d v)
  else if b = Reg.QM_RING_CMD 0 then some (s.writeRingCmd ((o - b) / 0x40) v)
  else if b = Reg.XLAT_INV then some (s.took (execXlatInv w (isFirmware src) s))
  else if b = Reg.XLAT_RESUME then some (if bit v 8 then s.took (execFaultAbort (v % 64) s) else s.took (execFaultResume (v % 64) s))
  else if b = Reg.REG_COMMIT then some (s.took (execRegCommit w s))
  else if b = Reg.HBM_COMMIT then some (s.took (execHbmCommit w s))
  else if b = Reg.HBM_GRAN_CMD then some (s.writeGran v)
  else if b = Reg.HBM_PPR_CMD then some (if bit v 0 then s.took (execPprRepair s) else if bit v 1 then s.took (execPprDismiss s) else s)
  else if b = Reg.HBM_BR_SUPPLY then some (s.took (execBedrockSupply q s))
  else if b = Reg.NOC_COMMIT then some (s.took (execNocCommit w s))
  else if b = Reg.NOC_RT_DATA then some (s.writeRoute v)
  else if b = Reg.SITE_COMMIT 0 then some (s.took (execSiteCommit site w s))
  else if b = Reg.SITE_REC_CMD 0 then some (s.writeRecCmd site v)
  else if b = Reg.SITE_SB_CTL 0 then some (if bit v 0 then s.startMailbox site (bit v 2) (bit v 1) else s)
  else if b = Reg.COH_COMMIT then some (s.took (execCohCommit w s))
  else if b = Reg.FAB_COMMIT then some (s.took (execFabCommit w s))
  else if b = Reg.FAB_CONN_DATA then some (s.writeConn v)
  else if b = Reg.FAB_FWD_DATA then some (s.writeFwd v)
  else if b = Reg.FAB_PORT_REC 0 then some (s.writePortRec ((o - b) / 0x20) v)
  else if b = Reg.STRM_COMMIT then some (s.took (execStrmCommit w s))
  else if b = Reg.STRM_CTX_CMD then some (s.writeCtxCmd src v)
  else if b = Reg.COLL_COMMIT then some (s.took (execCollCommit w s))
  else if b = Reg.COLL_STEP then some (s.releaseStep (isFirmware src) (bits v 3 0) (bits v 5 4))
  else if b = Reg.CRC_CTL 0 then some (s.writeCrcCtl src ((o - b) / 0x10) w)
  else if b = Reg.CRC_VAL 0 then some (s.writeCrcVal src ((o - b) / 0x10) q)
  else if b = Reg.TILE_COMMIT 0 0 then some (s.tileCommit (tileCluster o) (tilePage o) v)
  else if b = Reg.RAS_INJECT then some (s.took (execRasInject q s))
  else if b = Reg.REG_CLASS_FLOOR 0 ∨ b = Reg.REG_CLASS_CTL 0 then
    some (if o = Reg.REG_CLASS_FLOOR 45 ∨ o = Reg.REG_CLASS_CTL 44 ∨ o = Reg.REG_CLASS_CTL 45 then s else s.writeFields o d v)
  else none

/-- A whole register written (R481, R482): a firmware-only one keeps its value on BAR0, with one event when the write differs. -/
def State.writeReg (s : State) (src : BusSrc) (o : Nat) (d : RegDesc) (v : Nat) : State :=
  if s.unitAbsent o then s
  else if !isFirmware src && s.firmwareOnly o then (if s.differs o d v then s.regEvent 1 o v else s)
  else (s.writeActs src d.base o v d).getD (s.writeFields o d v)

/-- A BAR0 write of half of a 64-bit register that firmware alone writes: nothing is held, and one event tells of a difference
(R155, R481). -/
def State.halfRefused (s : State) (b o : Nat) (d : RegDesc) (v : Nat) : State :=
  let x := s.look .driver b d
  if s.differs b d (if o = b then x / 2 ^ 32 * 2 ^ 32 + v else v * 2 ^ 32 + x % 2 ^ 32) then s.regEvent 1 o v else s

/-- A write of one word (R14). -/
def State.writeWord (s : State) (src : BusSrc) (o v : Nat) : State :=
  if 0x440000 ≤ o ∧ o < 0x448000 then s.setMsixWord ((o - 0x440000) / 4) (BitVec.ofNat 32 v)
  else match regAt o with
    | none => s
    | some (b, d) =>
      if d.width = 32 then s.writeReg src b d v
      else if (!isFirmware src && s.firmwareOnly b) = true then s.halfRefused b o d v
      else if o = b then { s with held := s.held.put b (BitVec.ofNat 32 v) }
      else
        let lo := match s.held.find? (fun p => p.1 == b) with
          | some p => p.2.toNat
          | none => s.look (viewerOf src) b d % 2 ^ 32
        { s with held := s.held.del b }.writeReg src b d (v * 2 ^ 32 + lo)

/-- A write of 8 bytes. -/
def State.writeDouble (s : State) (src : BusSrc) (o v : Nat) : State :=
  let two (s : State) : State := (s.writeWord src o (v % 2 ^ 32)).writeWord src (o + 4) (v / 2 ^ 32)
  match findReg o with
  | some d =>
    if d.width ≠ 64 then two s
    else if (!isFirmware src && s.firmwareOnly o) = true then s.writeReg src o d v
    else { s with held := s.held.del o, captured := s.captured.del o }.writeReg src o d v
  | none => two s

/-- A write carried out. -/
def State.doWrite (s : State) (src : BusSrc) (o size v : Nat) : State :=
  if size = 8 then s.writeDouble src o v else s.writeWord src o v

/-! ### The host register path (R397, R402, R403, R419, R464) -/

/-- What the register path finds at an offset. -/
inductive RegPath where
  | ready
  | asleep (quad : Nat)
  | waiting (quad : Nat)
  | stopped
  deriving DecidableEq, Repr

/-- Whether a register lies in the always-on domain (R397, R419, R464). [DEDUCED, log 20] -/
def alwaysOn (o : Nat) : Bool :=
  decide (o < 0x200000) || decide (0x400000 ≤ o ∧ o < 0x500000) || decide (0x1000000 ≤ o ∧ o < 0x1400000) || decide (0x3800000 ≤ o)

/-- The register path to an offset. `stopped` quads are 32. [DEDUCED, log 20] -/
def State.regPath (s : State) (o : Nat) : RegPath :=
  if alwaysOn o then .ready
  else if s.boot.trip || (decide (3 ≤ s.boot.plan) && s.on Reg.HUB_READY_ready) then .stopped
  else if inTileBlock o then
    match s.noc.clusterMap[tileCluster o]? with
    | none => .ready
    | some c =>
      let q := c / 4
      if s.pwr.quadFenced.contains q then .stopped
      else if s.pwr.stalled.any (fun (a : RegWait) => a.quad == q) then .waiting q
      else if s.quadRuns q then .ready
      else if s.glb.stop ≠ 0 then .stopped
      else .asleep q
  else .ready

/-- An access carried out. -/
def State.doAccess (s : State) (a : RegWait) : State :=
  match a.write with
  | some v => s.doWrite a.src a.off a.size v.toNat
  | none => s.doRead a.src a.off a.size

/-- An access taken: carried out, or kept until its quad runs or its 50 µs end. -/
def State.takeAccess (s : State) (src : BusSrc) (o size : Nat) (w : Option DWord) : State :=
  let a : RegWait := { quad := 32, src := src, off := o, size := size, write := w }
  let park (s : State) (a : RegWait) : State := { s with pwr := { s.pwr with stalled := s.pwr.stalled ++ [a] } }
  match s.regPath o with
  | .ready => s.doAccess a
  | .waiting q => park s { a with quad := q }
  | .asleep q => (park s { a with quad := q }).wakeQuad q
  | .stopped => park s a

/-- Whether R14 permits an access. [DEDUCED, log 17] -/
def accessOk (o size : Nat) : Bool := (size == 4 || size == 8) && o % size == 0 && decide (o + size ≤ 2 ^ 26)

/-- REGISTER_WRITE (R8–R12, R14, R481). [DEDUCED, log 17] -/
def execRegisterWrite (src : BusSrc) (off size : Nat) (v : DWord) (s : State) : Host.Outcome State Fault Refusal :=
  .next (s.gated src off size (fun s =>
    if accessOk off size then s.takeAccess src off size (some v)
    else ((s.sat Reg.HOST_ERR_inbound_ur 1).regEvent 2 off v.toNat).send (.unsupported off size)))

/-- REGISTER_READ (R14). [DEDUCED, log 17] -/
def execRegisterRead (src : BusSrc) (off size : Nat) (s : State) : Host.Outcome State Fault Refusal :=
  .next (s.gated src off size (fun s =>
    if accessOk off size then s.takeAccess src off size none
    else ((s.sat Reg.HOST_ERR_inbound_ur 1).regEvent 2 off 0).send (.unsupported off size)))

/-- REGISTER_PATH_TIMEOUT (R403, R514): the oldest access that still waits ends at 50 µs: ones, or the write discarded, with an event. [DEDUCED, log 20] -/
def execRegisterPathTimeout (s : State) : Host.Outcome State Fault Refusal :=
  match s.pwr.stalled with
  | [] => .next s
  | a :: t =>
    let s := ({ s with pwr := { s.pwr with stalled := t } }).refusal (blockOf a.off) 0 0x0B a.off
    .next (if a.write.isSome then s else s.send (.regRead a.off a.size (BitVec.ofNat 64 (2 ^ (8 * a.size) - 1))))

/-- QUAD_PLL_LOCK (R399, R402): the quad runs, and the accesses that waited for it are carried out in order. -/
def execQuadPllLock (quad : Nat) (s : State) : Host.Outcome State Fault Refusal :=
  let q := quad % 32
  if !s.pwr.waking.contains q then .next s
  else
    let s := s.quadLocked q
    let mine := s.pwr.stalled.filter (fun (a : RegWait) => a.quad == q)
    .next (mine.foldl State.doAccess { s with pwr := { s.pwr with stalled := s.pwr.stalled.filter (fun (a : RegWait) => a.quad != q) } })

end Sys2Proof.Machine
end

