-- ==== Sys2Proof/Machine/Mgmt.lean ====
section
/-! DEFINITION. The management segment: reads and writes of the operator, configuration, the population record, the fence list, the roster, flint at END_OF_LIFE, responses and I3C addresses (R49, R305, R331, R422, R437, R446, R456, R470, R473, R505–R507). -/
namespace Sys2Proof.Machine

/-! ### READ, WRITE, EVT_ACK and WAKE (R305, R456, R469, R470, R473) -/

/-- A word as the operator reads it. -/
def State.operatorWord (s : State) (o : Nat) : Nat :=
  match s.windowWord .operator o with
  | some w => w
  | none => match regAt o with
    | none => 0
    | some (b, d) => s.look .operator b d / 2 ^ (8 * (o - b)) % 2 ^ 32

/-- MGMT_READ (R506, R456, R469): up to 240 bytes of BAR0 in whole words; a word that is the low half of a trigger FIFO pops it (R390). [DEDUCED, log 152] -/
def execMgmtRead (tag off len : Nat) (s : State) : Host.Outcome State Fault Refusal :=
  .next (s.mgmtTake 0x01 tag (off == Reg.SEC_STATUS && len == 4) (fun s =>
    if len = 0 ∨ 240 < len ∨ len % 4 ≠ 0 ∨ off % 4 ≠ 0 ∨ 2 ^ 26 < off + len then (s, .now mgMalformed [])
    else
      let offs := (List.range (len / 4)).map (fun i => off + 4 * i)
      (offs.foldl (fun (s : State) o => s.readEffect o) s, .now mgDone (offs.flatMap (fun o => leBytes 4 (s.operatorWord o))))))

/-- MGMT_WRITE (R473, R506): RAS_ALERT, whose bits fatal and fatal_full stay, and RAS_ALERT_EN, whose enables of those two stay set. -/
def execMgmtWrite (tag off : Nat) (v : Word) (s : State) : Host.Outcome State Fault Refusal :=
  .next (s.mgmtTake 0x02 tag false (fun s =>
    if off = Reg.RAS_ALERT then
      (s.withAlert (fun s => [Reg.RAS_ALERT_op_lost, Reg.RAS_ALERT_wear, Reg.RAS_ALERT_uncorrected].foldl (fun (s : State) (f : Fld) =>
        if bit v.toNat f.lo then s.wr f 0 else s) s), .now mgDone [])
    else if off = Reg.RAS_ALERT_EN then (s.withAlert (fun s => s.wr Reg.RAS_ALERT_EN_enable (v.toNat % 32 ||| 3)), .now mgDone [])
    else (s, .now mgRefused [])))

/-- EVT_ACK (R470): the operator's own acknowledgement. -/
def execEvtAck (tag seq : Nat) (s : State) : Host.Outcome State Fault Refusal :=
  .next (s.mgmtTake 0x03 tag false (fun s => ({ s with evt := { s.evt with opAck := seq % 2 ^ 32 } }, .now mgDone [])))

/-- WAKE (R305): a cause in D3cold. -/
def execWake (tag : Nat) (s : State) : Host.Outcome State Fault Refusal :=
  .next (s.mgmtTake 0x11 tag false (fun s => (s.wakeCold Reg.HOST_WAKE_EN_mgmt, .now mgDone [])))

/-! ### CONFIG (R313, R319, R329, R379, R394, R406, R414, R506) -/

/-- The registers that an item of CONFIG names by offset: time and trigger configuration, and stream ports. -/
def configRegs : Nat → List Nat
  | 5 => [Reg.TIME_CFG, Reg.TIME_TIN_CFG, Reg.TIME_TOUT_CFG] ++ (List.range 16).map Reg.TIME_PORT_ASYM
  | 6 => (List.range 16).flatMap (fun p => [Reg.STRM_PORT_CFG p, Reg.STRM_PORT_IP4 p, Reg.STRM_PORT_IP6_LO p, Reg.STRM_PORT_IP6_HI p])
  | _ => []

/-- Whether an item and its value have the form that R506 gives it. [DEDUCED, log 153] -/
def configForm (item sub : Nat) (vals : List Nat) : Bool :=
  match item, vals with
  | 1, [w] => decide (w < 2 ^ 13)
  | 2, [m] => decide (sub < 16) && decide (m ≤ 5)
  | 3, [f] => decide (f < 2 ^ 32)
  | 4, [dev, man, dep, top, topDep] =>
    decide (dev < 65536) && decide (man < 64) && decide (dep < 64) && decide (top < 1024) && decide (topDep < 1024)
  | 5, [v] => (configRegs 5).contains sub && decide (v < 2 ^ 32)
  | 6, [v] => (configRegs 6).contains sub && decide (v < 2 ^ 64)
  | _, _ => false

/-- The place of an item in the store, and the register it configures: items 1 and 3 have one. -/
def configSub (item sub : Nat) : Nat :=
  match item with
  | 1 => 0
  | 3 => Reg.REG_CLASS_FLOOR 44
  | 4 => 0
  | _ => sub

/-- Whether firmware can put an item in force now: it runs, outside PERST_N and a thermal trip. -/
def State.configNow (s : State) : Bool := s.running && s.firmwareRuns && s.glb.stop != 2

/-- An item written by firmware through the internal image and committed where its register is an RWC one, and the commit's status register. [DEDUCED, log 153] -/
def State.configWrite (s : State) (item sub v : Nat) : State × Option Nat :=
  let o := if item = 1 then Reg.PWR_ENVELOPE else if item = 2 then Reg.FAB_PORT_CFG sub else configSub item sub
  let s := match findReg o with | some d => s.writeReg .firmware o d v | none => s
  if item = 1 then (s.took (execPwrCommit 1 s), some Reg.PWR_COMMIT_STATUS)
  else if item = 2 then (s.took (execFabCommit 1 s), some Reg.FAB_COMMIT_STATUS)
  else if item = 3 then (s.took (execRegCommit 1 s), some Reg.REG_COMMIT_STATUS)
  else if o = Reg.TIME_CFG ∨ o = Reg.TIME_TOUT_CFG then (s.took (execTimeCommit .firmware 1 s), some Reg.TIME_COMMIT_STATUS)
  else if (List.range 16).any (fun p => o == Reg.STRM_PORT_CFG p) then (s.took (execStrmCommit 1 s), some Reg.STRM_COMMIT_STATUS)
  else (s, none)

/-- Whether a value is one that the block's own commit would refuse at a bring-up, for the items whose value alone decides it. [DEDUCED, log 153] -/
def configRefused (item sub v : Nat) : Bool :=
  let o := configSub item sub
  if item = 5 then
    (o == Reg.TIME_CFG && (bits v 31 24 == 0 || decide (200 < bits v 31 24) || bits v 15 0 == 0)) ||
    (o == Reg.TIME_TOUT_CFG && (List.range 4).any (fun i => decide (bits v (8 * i + 4) (8 * i) < 4) || decide (16 < bits v (8 * i + 4) (8 * i))))
  else item == 6 && (List.range 16).any (fun p => o == Reg.STRM_PORT_CFG p) && bits v 27 16 == 0xFFF

/-- CONFIG (R506): an item held in the MRAM store, and but for item 4 put in force at once. An item of a fused port, and one that its block's
commit refuses, is refused and not held. [DEDUCED, log 153] -/
def execConfig (tag item sub : Nat) (vals : List Nat) (s : State) : Host.Outcome State Fault Refusal :=
  .next (s.mgmtTake 0x12 tag false (fun s =>
    let v := vals.headD 0
    if !configForm item sub vals then (s, .now mgMalformed [])
    else if (item = 2 ∧ s.portFused sub = true) ∨ configRefused item sub v = true then (s, .now mgRefused [])
    else
      let keep (s : State) : State := { s with mram := { s.mram with config := s.mram.config.put (configKey item (configSub item sub)) vals } }
      if item = 4 ∨ s.configNow = false then s.mgStore 7 keep
      else
        let (t, st) := s.configWrite item sub v
        if (match st with | some o => t.rd ⟨o, 0, 0⟩ | none => 0) = 1 then (t, .now mgRefused []) else t.mgStore 7 keep))

/-! ### The population record (R38, R41, R49) -/

/-- A site entry's fields within their limits (R35, R41 and the layout of R49); an unpopulated site may leave its own at 0. -/
def popSiteOk (n : Nat) (p : PopSite) : Bool :=
  decide (p.powerLimitW ≤ if n < 4 then 300 else 100) && decide (p.coherentCacheKib ≤ 16384) &&
  (if p.populated then (p.protocol == 1 || p.protocol == 2) && p.modules == siteModules n && decide (1 ≤ p.powerLimitW)
   else decide (p.protocol ≤ 2) && (p.modules == 0 || p.modules == siteModules n))

/-- The largest sum of declared site limits of a part (R38). -/
def siteSumMax : Part → Nat
  | .x768 => 1600
  | .x672 => 1600
  | .e768 => 1380
  | .l768 => 680

/-- The sum of the limits that a record declares. -/
def popSum (r : PopRecord) : Nat :=
  (r.sites.filter (fun (p : PopSite) => p.populated)).foldl (fun n (p : PopSite) => n + p.powerLimitW) 0

/-- An ASCII upper-case letter, and one or a digit (R23). -/
def isUpper (c : Nat) : Bool := decide (65 ≤ c ∧ c ≤ 90)
def isUpperOrDigit (c : Nat) : Bool := isUpper c || decide (48 ≤ c ∧ c ≤ 57)

/-- Every field of a record within the limits of its layout, R38 and R41. [DEDUCED, log 154] -/
def popOk (part : Part) (r : PopRecord) : Bool :=
  r.format == 1 && r.sites.length == 8 && r.partnerCode.length == 3 && r.partnerCode.all isUpper &&
  r.populationCode.length == 2 && r.populationCode.all isUpperOrDigit &&
  (r.sites.zipIdx.all (fun (q : PopSite × Nat) => popSiteOk q.2 q.1)) && decide (popSum r ≤ siteSumMax part)

/-- POP_WRITE (R49): once, while the record reads as empty. `genuine` says that the signature verifies against a partner certificate that
chains to Burusk's partner root. [DESIGN CHOICE, log 11; DEDUCED, log 154] -/
def execPopWrite (tag : Nat) (record : PopRecord) (genuine : Bool) (s : State) : Host.Outcome State Fault Refusal :=
  .next (s.mgmtTake 0x20 tag false (fun s =>
    if s.mram.pop.isSome || !genuine || record.reworkCount != 0 || !popOk s.fuse.part record then (s, .now mgRefused [])
    else s.mgStore 8 (fun s => { s with mram := { s.mram with pop := some record } })))

/-- REWORK (R49): a record that Burusk signed replaces the one written, whole, and the count of reworks rises; a third is refused. [DEDUCED, log 154] -/
def execRework (tag : Nat) (record : PopRecord) (genuine : Bool) (s : State) : Host.Outcome State Fault Refusal :=
  .next (s.mgmtTake 0x21 tag false (fun s =>
    match s.mram.pop with
    | none => (s, .now mgRefused [])
    | some old =>
      if !genuine || decide (2 ≤ old.reworkCount) || !popOk s.fuse.part record then (s, .now mgRefused [])
      else s.mgStore 8 (fun s => { s with mram := { s.mram with pop := some { record with reworkCount := old.reworkCount + 1 } } })))

/-! ### Fences, the roster and flint (R331, R422, R437, R446) -/

/-- FENCE_CLEAR (R422): entries leave the list; their slots take part again from the next bring-up. -/
def execFenceClear (tag : Nat) (slots : List Nat) (s : State) : Host.Outcome State Fault Refusal :=
  .next (s.mgmtTake 0x22 tag false (fun s =>
    s.mgStore 4 (fun s => { s with mram := { s.mram with fences := s.mram.fences.filter (fun p => !slots.contains p) } })))

/-- The roster of the manager written, in the store and in force. -/
def State.putRoster (s : State) (r : Sparse RosterEntry) : State :=
  ({ s with mram := { s.mram with roster := r }, hier := { s.hier with roster := r } }).arrange

/-- A new group management key after a removal (R446): the old one stays in its grace. [DEDUCED, log 150] -/
def State.newGroupKey (s : State) : State :=
  ({ s.useFree with sec := { s.sec with oldGroupKey := some (s.key 9) } }).putKey 9 s.freeVal

/-- Whether an identity may be enrolled under a member's number: not a CM2's, and no other entry holds it. [DEDUCED, log 150] -/
def State.mayEnrol (s : State) (m : Nat) (e : RosterEntry) (cm2 : Bool) : Bool :=
  !cm2 && !s.hier.roster.any (fun (p : Nat × RosterEntry) => p.1 != m && p.2.enrolled && p.2.digest == e.digest)

/-- ROSTER_CMD (R331, R446): on the manager, `op` 0 enrols an identity under member `m`, 1 removes that member's; on the top manager, 2 enrols
the roster digest of group `m`, 3 removes it. `cm2` says that the identity is a CM2's. [DEDUCED, log 150; DESIGN CHOICE, log 155] -/
def execRosterCmd (tag op m : Nat) (e : RosterEntry) (cm2 : Bool) (s : State) : Host.Outcome State Fault Refusal :=
  .next (s.mgmtTake 0x23 tag false (fun s =>
    if 3 < op ∨ (op ≤ 1 ∧ 64 ≤ m) ∨ (2 ≤ op ∧ 1024 ≤ m) then (s, .now mgMalformed [])
    else if !s.isManager then (s, .now mgRefused [])
    else if op = 0 then
      if !s.mayEnrol m e cm2 then (s, .now mgRefused [])
      else
        let lost := s.enrolled m && (s.rosterOf m).digest != e.digest
        s.mgStore 9 (fun s =>
          let s := s.putRoster (s.hier.roster.put m { e with enrolled := true })
          if lost then s.newGroupKey else s)
    else if op = 1 then
      let lost := s.enrolled m
      s.mgStore 9 (fun s =>
        let s := s.putRoster (s.hier.roster.del m)
        if lost then s.newGroupKey else s)
    else if !s.on Reg.FAB_GROUP_top then (s, .now mgRefused [])
    else
      let gs := if op = 2 then s.hier.groupRosters.put m e.digest else s.hier.groupRosters.del m
      s.mgStore 9 (fun s => ({ s with mram := { s.mram with groupRosters := gs }, hier := { s.hier with groupRosters := gs } }).arrange)))

/-- FLINT (R437, R507): at END_OF_LIFE the boot ROM runs flint and marks the slots that fail; it clears every scratch (R420). Elsewhere no
rule gives the command an effect, and it is refused. [DEDUCED, log 156] -/
def execFlint (tag : Nat) (failed : List Nat) (s : State) : Host.Outcome State Fault Refusal :=
  .next (s.mgmtTake 0x50 tag false (fun s =>
    if s.boot.lc ≠ .endOfLife then (s, .now mgRefused [])
    else
      let s := ((failed.filter (fun p => decide (p < 2304) && !s.fuse.fusedQuads.contains (p / 72))).eraseDups).foldl State.failSlot s
      ({ s with scr := { s.scr with mem := [], poison := [] } }, .now mgDone [])))

/-! ### Responses and addresses (R505, R506) -/

/-- MGMT_RESPONSE_READ (R506): busy with the running command's tag to a request that was turned away, in progress while a command runs, and
else the response of the last command. [DEDUCED, log 157] -/
def execMgmtResponseRead (s : State) : Host.Outcome State Fault Refusal :=
  if !s.boot.vaon then .next s
  else match s.mgmt.bounced, s.mgmt.running with
    | some c, some (_, t) => .next ({ s with mgmt := { s.mgmt with bounced := none } }.send (.mgmt c t mgBusy []))
    | _, some (c, t) => .next (s.send (.mgmt c t mgInProgress []))
    | _, none =>
      let r := s.mgmt.last
      .next ({ s with mgmt := { s.mgmt with bounced := none } }.send (.mgmt r.1 r.2.1 r.2.2.1 r.2.2.2))

/-- I3C_ENTDAA (R505): a dynamic address for a target that has none. [DEDUCED, log 158] -/
def execI3cEntdaa (addr : Nat) (s : State) : Host.Outcome State Fault Refusal :=
  if !s.boot.vaon || s.mgmt.i3c.isSome then .next s else .next { s with mgmt := { s.mgmt with i3c := some (addr % 128) } }

/-- I3C_SETDASA (R505): a dynamic address given at the static address 0x58 + MADDR. [DEDUCED, log 158] -/
def execI3cSetdasa (target addr : Nat) (s : State) : Host.Outcome State Fault Refusal :=
  if !s.boot.vaon || s.mgmt.i3c.isSome || target != 0x58 + s.mgmt.maddr then .next s
  else .next { s with mgmt := { s.mgmt with i3c := some (addr % 128) } }

/-- I3C_RSTDAA (R505). -/
def execI3cRstdaa (s : State) : Host.Outcome State Fault Refusal :=
  if !s.boot.vaon then .next s else .next { s with mgmt := { s.mgmt with i3c := none } }

end Sys2Proof.Machine
end

