-- ==== Sys2Proof/Machine/Dispatch.lean ====
section
/-! DEFINITION. The dispatch: one arm per command, each one direct call of the command's meaning. -/
namespace Sys2Proof.Machine

/-- The effect of a command on everything but the queue. -/
def exec (i : Instr) (s : State) : Host.Outcome State Fault Refusal :=
  match i with
  | .glbCommit v => Sys2Proof.Machine.execGlbCommit v s
  | .glbSubstCmd v => Sys2Proof.Machine.execGlbSubstCmd v s
  | .quiescentPoint ctx => Sys2Proof.Machine.execQuiescentPoint ctx s
  | .popWrite tag record genuine => Sys2Proof.Machine.execPopWrite tag record genuine s
  | .rework tag record genuine => Sys2Proof.Machine.execRework tag record genuine s
  | .sitePowerTelemetry n watts => Sys2Proof.Machine.execSitePowerTelemetry n watts s
  | .powerOverrunTimeout n => Sys2Proof.Machine.execPowerOverrunTimeout n s
  | .powerCapDeadline n => Sys2Proof.Machine.execPowerCapDeadline n s
  | .temperatureRequest => Sys2Proof.Machine.execTemperatureRequest s
  | .temperatureReport n tempC => Sys2Proof.Machine.execTemperatureReport n tempC s
  | .temperatureSilence n => Sys2Proof.Machine.execTemperatureSilence n s
  | .thermalTripMessage n => Sys2Proof.Machine.execThermalTripMessage n s
  | .sitePgoodRise n => Sys2Proof.Machine.execSitePgoodRise n s
  | .sitePgoodTimeout n => Sys2Proof.Machine.execSitePgoodTimeout n s
  | .sidebandUp n m => Sys2Proof.Machine.execSidebandUp n m s
  | .sidebandTimeout n => Sys2Proof.Machine.execSidebandTimeout n s
  | .identityBlockRead n block => Sys2Proof.Machine.execIdentityBlockRead n block s
  | .identityTimeout n => Sys2Proof.Machine.execIdentityTimeout n s
  | .spdmResponse n answer => Sys2Proof.Machine.execSpdmResponse n answer s
  | .spdmTimeout n => Sys2Proof.Machine.execSpdmTimeout n s
  | .sitePgoodFall n => Sys2Proof.Machine.execSitePgoodFall n s
  | .siteResetTimeout n => Sys2Proof.Machine.execSiteResetTimeout n s
  | .sitePowerCycleEnd n => Sys2Proof.Machine.execSitePowerCycleEnd n s
  | .siteCommit n v => Sys2Proof.Machine.execSiteCommit n v s
  | .dispatchStart tile => Sys2Proof.Machine.execDispatchStart tile s
  | .mcfg tile => Sys2Proof.Machine.execMcfg tile s
  | .mloadb tile => Sys2Proof.Machine.execMloadb tile s
  | .mstream tile => Sys2Proof.Machine.execMstream tile s
  | .mdrain tile => Sys2Proof.Machine.execMdrain tile s
  | .mzero tile => Sys2Proof.Machine.execMzero tile s
  | .mfence tile => Sys2Proof.Machine.execMfence tile s
  | .mfenceRelease tile => Sys2Proof.Machine.execMfenceRelease tile s
  | .tdma tile => Sys2Proof.Machine.execTdma tile s
  | .tdmaf tile => Sys2Proof.Machine.execTdmaf tile s
  | .tdmaComplete tile tag => Sys2Proof.Machine.execTdmaComplete tile tag s
  | .twait tile => Sys2Proof.Machine.execTwait tile s
  | .twaitRelease tile => Sys2Proof.Machine.execTwaitRelease tile s
  | .tpoll tile => Sys2Proof.Machine.execTpoll tile s
  | .tpollRelease tile => Sys2Proof.Machine.execTpollRelease tile s
  | .tend tile => Sys2Proof.Machine.execTend tile s
  | .fenceI tile => Sys2Proof.Machine.execFenceI tile s
  | .kernelTrap tile => Sys2Proof.Machine.execKernelTrap tile s
  | .kernelTimeout tile => Sys2Proof.Machine.execKernelTimeout tile s
  | .scratchWindowAccess req => Sys2Proof.Machine.execScratchWindowAccess req s
  | .tileFailure tile cause => Sys2Proof.Machine.execTileFailure tile cause s
  | .vld tile => Sys2Proof.Machine.execVld tile s
  | .vst tile => Sys2Proof.Machine.execVst tile s
  | .vadd tile => Sys2Proof.Machine.execVadd tile s
  | .vsub tile => Sys2Proof.Machine.execVsub tile s
  | .vmul tile => Sys2Proof.Machine.execVmul tile s
  | .vfma tile => Sys2Proof.Machine.execVfma tile s
  | .vmax tile => Sys2Proof.Machine.execVmax tile s
  | .vmin tile => Sys2Proof.Machine.execVmin tile s
  | .vcvt tile => Sys2Proof.Machine.execVcvt tile s
  | .vredsum tile => Sys2Proof.Machine.execVredsum tile s
  | .vbcast tile => Sys2Proof.Machine.execVbcast tile s
  | .vmvx tile => Sys2Proof.Machine.execVmvx tile s
  | .vexp2 tile => Sys2Proof.Machine.execVexp2 tile s
  | .vrecip tile => Sys2Proof.Machine.execVrecip tile s
  | .vside tile => Sys2Proof.Machine.execVside tile s
  | .perfCounterWrap tile which => Sys2Proof.Machine.execPerfCounterWrap tile which s
  | .packetEject req => Sys2Proof.Machine.execPacketEject req s
  | .flitReplay link corrected third => Sys2Proof.Machine.execFlitReplay link corrected third s
  | .routeSwitchover => Sys2Proof.Machine.execRouteSwitchover s
  | .routerLoss cluster => Sys2Proof.Machine.execRouterLoss cluster s
  | .nocRequestTimeout who => Sys2Proof.Machine.execNocRequestTimeout who s
  | .nocLateResponse => Sys2Proof.Machine.execNocLateResponse s
  | .nocCommit v => Sys2Proof.Machine.execNocCommit v s
  | .nocPllUnlock => Sys2Proof.Machine.execNocPllUnlock s
  | .memoryRead req => Sys2Proof.Machine.execMemoryRead req s
  | .memoryWrite req => Sys2Proof.Machine.execMemoryWrite req s
  | .wcbAgeExpiry line => Sys2Proof.Machine.execWcbAgeExpiry line s
  | .writeBurstRelease ctl ch pc => Sys2Proof.Machine.execWriteBurstRelease ctl ch pc s
  | .requestAgePromotion sector => Sys2Proof.Machine.execRequestAgePromotion sector s
  | .scrubVisit addr ecc => Sys2Proof.Machine.execScrubVisit addr ecc s
  | .pprRepair => Sys2Proof.Machine.execPprRepair s
  | .pprDismiss => Sys2Proof.Machine.execPprDismiss s
  | .stackTempRead stack tempC => Sys2Proof.Machine.execStackTempRead stack tempC s
  | .granSet => Sys2Proof.Machine.execGranSet s
  | .granSetZero => Sys2Proof.Machine.execGranSetZero s
  | .granRead => Sys2Proof.Machine.execGranRead s
  | .granDrainDone => Sys2Proof.Machine.execGranDrainDone s
  | .zeroingPass granule => Sys2Proof.Machine.execZeroingPass granule s
  | .bedrockBlock granule data digest => Sys2Proof.Machine.execBedrockBlock granule data digest s
  | .bedrockFetchTimeout granule => Sys2Proof.Machine.execBedrockFetchTimeout granule s
  | .bedrockSupply v => Sys2Proof.Machine.execBedrockSupply v s
  | .bedrockSupplyTimeout granule => Sys2Proof.Machine.execBedrockSupplyTimeout granule s
  | .hbmCommit v => Sys2Proof.Machine.execHbmCommit v s
  | .regEpoch samples => Sys2Proof.Machine.execRegEpoch samples s
  | .regCommit v => Sys2Proof.Machine.execRegCommit v s
  | .creditSend cls ctl => Sys2Proof.Machine.execCreditSend cls ctl s
  | .xlatInv v internal => Sys2Proof.Machine.execXlatInv v internal s
  | .invalidationDone => Sys2Proof.Machine.execInvalidationDone s
  | .faultResume index => Sys2Proof.Machine.execFaultResume index s
  | .faultAbort index => Sys2Proof.Machine.execFaultAbort index s
  | .siteRequest site tag va len write data poison => Sys2Proof.Machine.execSiteRequest site tag va len write data poison s
  | .doorbell src write off size v => Sys2Proof.Machine.execDoorbell src write off size v s
  | .descriptorFetch ring => Sys2Proof.Machine.execDescriptorFetch ring s
  | .nop ring => Sys2Proof.Machine.execNop ring s
  | .hamper ring => Sys2Proof.Machine.execHamper ring s
  | .hamperNextSub ring => Sys2Proof.Machine.execHamperNextSub ring s
  | .copy ring => Sys2Proof.Machine.execCopy ring s
  | .fill ring => Sys2Proof.Machine.execFill ring s
  | .writeImm ring => Sys2Proof.Machine.execWriteImm ring s
  | .legacyNop ring => Sys2Proof.Machine.execLegacyNop ring s
  | .legacyCopy ring => Sys2Proof.Machine.execLegacyCopy ring s
  | .legacyFill ring => Sys2Proof.Machine.execLegacyFill ring s
  | .moverTransfer ring => Sys2Proof.Machine.execMoverTransfer ring s
  | .dispatch ring => Sys2Proof.Machine.execDispatch ring s
  | .dispatchPlacement ring => Sys2Proof.Machine.execDispatchPlacement ring s
  | .completionWrite ring => Sys2Proof.Machine.execCompletionWrite ring s
  | .moderationTimeout ring => Sys2Proof.Machine.execModerationTimeout ring s
  | .wakeHoldExpiry ring => Sys2Proof.Machine.execWakeHoldExpiry ring s
  | .qmCommit v => Sys2Proof.Machine.execQmCommit v s
  | .restart ring => Sys2Proof.Machine.execRestart ring s
  | .abort ring => Sys2Proof.Machine.execAbort ring s
  | .crcData ring => Sys2Proof.Machine.execCrcData ring s
  | .crcBlocks ring => Sys2Proof.Machine.execCrcBlocks ring s
  | .crcSave ring => Sys2Proof.Machine.execCrcSave ring s
  | .crcLoad ring => Sys2Proof.Machine.execCrcLoad ring s
  | .crcUnitClaim unit => Sys2Proof.Machine.execCrcUnitClaim unit s
  | .crcParityError unit => Sys2Proof.Machine.execCrcParityError unit s
  | .crcCtlWrite src unit v => Sys2Proof.Machine.execCrcCtlWrite src unit v s
  | .crcValWrite src unit v => Sys2Proof.Machine.execCrcValWrite src unit v s
  | .moduleTrained n m rate repaired version => Sys2Proof.Machine.execModuleTrained n m rate repaired version s
  | .rateAttemptTimeout n m spent => Sys2Proof.Machine.execRateAttemptTimeout n m spent s
  | .widthCheckAnswer n m half rate version lanesMatch => Sys2Proof.Machine.execWidthCheckAnswer n m half rate version lanesMatch s
  | .widthCheckTimeout n m => Sys2Proof.Machine.execWidthCheckTimeout n m s
  | .moduleRetrain n m replays crcErrors third => Sys2Proof.Machine.execModuleRetrain n m replays crcErrors third s
  | .moduleLinkDown n m => Sys2Proof.Machine.execModuleLinkDown n m s
  | .spreadAnswer n epoch => Sys2Proof.Machine.execSpreadAnswer n epoch s
  | .spreadTimeout n => Sys2Proof.Machine.execSpreadTimeout n s
  | .entryLend n m => Sys2Proof.Machine.execEntryLend n m s
  | .moduleL1Entry n m => Sys2Proof.Machine.execModuleL1Entry n m s
  | .siteRecRetry n m => Sys2Proof.Machine.execSiteRecRetry n m s
  | .siteRecSpare n m => Sys2Proof.Machine.execSiteRecSpare n m s
  | .siteRecHalf n m => Sys2Proof.Machine.execSiteRecHalf n m s
  | .siteRecRetire n m => Sys2Proof.Machine.execSiteRecRetire n m s
  | .siteRecRetrain n m => Sys2Proof.Machine.execSiteRecRetrain n m s
  | .siteAwaitTimeout n m => Sys2Proof.Machine.execSiteAwaitTimeout n m s
  | .sbRead n size8 => Sys2Proof.Machine.execSbRead n size8 s
  | .sbWrite n size8 => Sys2Proof.Machine.execSbWrite n size8 s
  | .sbResponse n refused data => Sys2Proof.Machine.execSbResponse n refused data s
  | .rdshared site m => Sys2Proof.Machine.execRdshared site m s
  | .rdown site m => Sys2Proof.Machine.execRdown site m s
  | .upgrade site m => Sys2Proof.Machine.execUpgrade site m s
  | .rdcurr site m => Sys2Proof.Machine.execRdcurr site m s
  | .wrline site m bytes poison => Sys2Proof.Machine.execWrline site m bytes poison s
  | .wrpartial site m bytes poison => Sys2Proof.Machine.execWrpartial site m bytes poison s
  | .wbdirty site m bytes poison => Sys2Proof.Machine.execWbdirty site m bytes poison s
  | .evictclean site m => Sys2Proof.Machine.execEvictclean site m s
  | .systiniAck site m => Sys2Proof.Machine.execSystiniAck site m s
  | .snprsp site m state data poison => Sys2Proof.Machine.execSnprsp site m state data poison s
  | .aprsp site m data poison => Sys2Proof.Machine.execAprsp site m data poison s
  | .cxlRdshared site m => Sys2Proof.Machine.execCxlRdshared site m s
  | .cxlRdany site m => Sys2Proof.Machine.execCxlRdany site m s
  | .cxlRdown site m => Sys2Proof.Machine.execCxlRdown site m s
  | .cxlRdownnodata site m => Sys2Proof.Machine.execCxlRdownnodata site m s
  | .cxlRdcurr site m => Sys2Proof.Machine.execCxlRdcurr site m s
  | .cxlWrinv site m bytes poison => Sys2Proof.Machine.execCxlWrinv site m bytes poison s
  | .cxlCleanevict site m => Sys2Proof.Machine.execCxlCleanevict site m s
  | .cxlDirtyevict site m bytes poison => Sys2Proof.Machine.execCxlDirtyevict site m bytes poison s
  | .cxlClflush site m => Sys2Proof.Machine.execCxlClflush site m s
  | .snoopLimitExpiry site tag => Sys2Proof.Machine.execSnoopLimitExpiry site tag s
  | .ackLimitExpiry site tag => Sys2Proof.Machine.execAckLimitExpiry site tag s
  | .cohCommit v => Sys2Proof.Machine.execCohCommit v s
  | .configRequest write off v => Sys2Proof.Machine.execConfigRequest write off v s
  | .bar4Access tag b len write data tee => Sys2Proof.Machine.execBar4Access tag b len write data tee s
  | .unsupportedRequest off => Sys2Proof.Machine.execUnsupportedRequest off s
  | .outboundCompletion tag ok poison data => Sys2Proof.Machine.execOutboundCompletion tag ok poison data s
  | .outboundTimeout tag => Sys2Proof.Machine.execOutboundTimeout tag s
  | .keepaliveTimer => Sys2Proof.Machine.execKeepaliveTimer s
  | .msixUnmask vector => Sys2Proof.Machine.execMsixUnmask vector s
  | .l0pEntry => Sys2Proof.Machine.execL0pEntry s
  | .l0pExit => Sys2Proof.Machine.execL0pExit s
  | .linkL1Entry => Sys2Proof.Machine.execLinkL1Entry s
  | .l12Entry => Sys2Proof.Machine.execL12Entry s
  | .linkStateExit => Sys2Proof.Machine.execLinkStateExit s
  | .d3hotEntry => Sys2Proof.Machine.execD3hotEntry s
  | .d0Return => Sys2Proof.Machine.execD0Return s
  | .flr => Sys2Proof.Machine.execFlr s
  | .hotReset => Sys2Proof.Machine.execHotReset s
  | .linkDisable => Sys2Proof.Machine.execLinkDisable s
  | .linkLoss => Sys2Proof.Machine.execLinkLoss s
  | .linkRetrained speed width flit => Sys2Proof.Machine.execLinkRetrained speed width flit s
  | .getVersion => Sys2Proof.Machine.execGetVersion s
  | .getCapabilities => Sys2Proof.Machine.execGetCapabilities s
  | .negotiateAlgorithms => Sys2Proof.Machine.execNegotiateAlgorithms s
  | .getDigests => Sys2Proof.Machine.execGetDigests s
  | .getCertificate => Sys2Proof.Machine.execGetCertificate s
  | .challenge nonce => Sys2Proof.Machine.execChallenge nonce s
  | .getMeasurements index nonce => Sys2Proof.Machine.execGetMeasurements index nonce s
  | .keyExchange share => Sys2Proof.Machine.execKeyExchange share s
  | .finish genuine => Sys2Proof.Machine.execFinish genuine s
  | .keyUpdate => Sys2Proof.Machine.execKeyUpdate s
  | .heartbeat => Sys2Proof.Machine.execHeartbeat s
  | .endSession => Sys2Proof.Machine.execEndSession s
  | .keySet slot key => Sys2Proof.Machine.execKeySet slot key s
  | .keyClear slot => Sys2Proof.Machine.execKeyClear slot s
  | .ideKmProgram stream key => Sys2Proof.Machine.execIdeKmProgram stream key s
  | .ideTlpFailure stream => Sys2Proof.Machine.execIdeTlpFailure stream s
  | .lockInterface => Sys2Proof.Machine.execLockInterface s
  | .startInterface => Sys2Proof.Machine.execStartInterface s
  | .stopInterface => Sys2Proof.Machine.execStopInterface s
  | .hostCommit v => Sys2Proof.Machine.execHostCommit v s
  | .portTrained port neighbour version => Sys2Proof.Machine.execPortTrained port neighbour version s
  | .portTrainingMismatch port => Sys2Proof.Machine.execPortTrainingMismatch port s
  | .portRetrain port => Sys2Proof.Machine.execPortRetrain port s
  | .portRetrainResult port ok => Sys2Proof.Machine.execPortRetrainResult port ok s
  | .portRecRetry port => Sys2Proof.Machine.execPortRecRetry port s
  | .portRecHalf port => Sys2Proof.Machine.execPortRecHalf port s
  | .portRecDown port => Sys2Proof.Machine.execPortRecDown port s
  | .portAwaitTimeout port => Sys2Proof.Machine.execPortAwaitTimeout port s
  | .linkBlockReceive port b crcOk => Sys2Proof.Machine.execLinkBlockReceive port b crcOk s
  | .linkResendTimer port => Sys2Proof.Machine.execLinkResendTimer port s
  | .write h bytes => Sys2Proof.Machine.execWrite h bytes s
  | .read h len => Sys2Proof.Machine.execRead h len s
  | .atomic h kind a b => Sys2Proof.Machine.execAtomic h kind a b s
  | .readRsp h bytes => Sys2Proof.Machine.execReadRsp h bytes s
  | .atomicRsp h old => Sys2Proof.Machine.execAtomicRsp h old s
  | .ack h ack => Sys2Proof.Machine.execAck h ack s
  | .ackTimer conn => Sys2Proof.Machine.execAckTimer conn s
  | .msgResendTimer conn => Sys2Proof.Machine.execMsgResendTimer conn s
  | .openMsg src index slot nonce => Sys2Proof.Machine.execOpenMsg src index slot nonce s
  | .openAck conn src index nonce => Sys2Proof.Machine.execOpenAck conn src index nonce s
  | .openRetryTimer conn => Sys2Proof.Machine.execOpenRetryTimer conn s
  | .close h => Sys2Proof.Machine.execClose h s
  | .rekey h nonce => Sys2Proof.Machine.execRekey h nonce s
  | .rekeyThreshold conn => Sys2Proof.Machine.execRekeyThreshold conn s
  | .sessionLimitV1 conn => Sys2Proof.Machine.execSessionLimitV1 conn s
  | .peerLimitExpiry conn => Sys2Proof.Machine.execPeerLimitExpiry conn s
  | .cairnSend => Sys2Proof.Machine.execCairnSend s
  | .cairn h c => Sys2Proof.Machine.execCairn h c s
  | .memberSilent member => Sys2Proof.Machine.execMemberSilent member s
  | .deputyClaim => Sys2Proof.Machine.execDeputyClaim s
  | .workerClaimTimer => Sys2Proof.Machine.execWorkerClaimTimer s
  | .topClaimTimer => Sys2Proof.Machine.execTopClaimTimer s
  | .managerListenExpiry => Sys2Proof.Machine.execManagerListenExpiry s
  | .claim h top epoch deputy => Sys2Proof.Machine.execClaim h top epoch deputy s
  | .join src nonce id roster => Sys2Proof.Machine.execJoin src nonce id roster s
  | .joinAck src top epoch manager deputy quarantined roster groupKey sysKey => Sys2Proof.Machine.execJoinAck src top epoch manager deputy quarantined roster groupKey sysKey s
  | .joinRetry => Sys2Proof.Machine.execJoinRetry s
  | .roster h reply => Sys2Proof.Machine.execRoster h reply s
  | .map h groupLevel lists => Sys2Proof.Machine.execMap h groupLevel lists s
  | .fwdRecompute => Sys2Proof.Machine.execFwdRecompute s
  | .fabCommit v => Sys2Proof.Machine.execFabCommit v s
  | .allreduce ring => Sys2Proof.Machine.execAllreduce ring s
  | .reduceScatter ring => Sys2Proof.Machine.execReduceScatter ring s
  | .allgather ring => Sys2Proof.Machine.execAllgather ring s
  | .broadcast ring => Sys2Proof.Machine.execBroadcast ring s
  | .barrier ring => Sys2Proof.Machine.execBarrier ring s
  | .ready h comm cseq step credit op count fmt redop xsExp root => Sys2Proof.Machine.execReady h comm cseq step credit op count fmt redop xsExp root s
  | .data h comm cseq step offset data => Sys2Proof.Machine.execData h comm cseq step offset data s
  | .collAbort h comm cseq status device rank => Sys2Proof.Machine.execCollAbort h comm cseq status device rank s
  | .extend h device delay cairnSeq => Sys2Proof.Machine.execExtend h device delay cairnSeq s
  | .lost h device => Sys2Proof.Machine.execLost h device s
  | .step h comm cseq engine slot => Sys2Proof.Machine.execStep h comm cseq engine slot s
  | .collStep v => Sys2Proof.Machine.execCollStep v s
  | .collDeadline engine slot => Sys2Proof.Machine.execCollDeadline engine slot s
  | .collEngineParity engine => Sys2Proof.Machine.execCollEngineParity engine s
  | .mirrorSet ring => Sys2Proof.Machine.execMirrorSet ring s
  | .mirrorSync ring => Sys2Proof.Machine.execMirrorSync ring s
  | .mirrorClear ring => Sys2Proof.Machine.execMirrorClear ring s
  | .mirrorBlockCopy entry => Sys2Proof.Machine.execMirrorBlockCopy entry s
  | .collCommit v => Sys2Proof.Machine.execCollCommit v s
  | .streamFrame port frame => Sys2Proof.Machine.execStreamFrame port frame s
  | .endOfFlowFrame port frame => Sys2Proof.Machine.execEndOfFlowFrame port frame s
  | .arpRequest port addr => Sys2Proof.Machine.execArpRequest port addr s
  | .neighborSolicitation port addr => Sys2Proof.Machine.execNeighborSolicitation port addr s
  | .streamPortLink port up => Sys2Proof.Machine.execStreamPortLink port up s
  | .spillWriteAck flow => Sys2Proof.Machine.execSpillWriteAck flow s
  | .inboxDelivery flow => Sys2Proof.Machine.execInboxDelivery flow s
  | .decisionWord => Sys2Proof.Machine.execDecisionWord s
  | .decisionCutoff flow => Sys2Proof.Machine.execDecisionCutoff flow s
  | .flowIdleTimeout flow => Sys2Proof.Machine.execFlowIdleTimeout flow s
  | .install src => Sys2Proof.Machine.execInstall src s
  | .free src => Sys2Proof.Machine.execFree src s
  | .ctxRead src => Sys2Proof.Machine.execCtxRead src s
  | .strmRelease ring => Sys2Proof.Machine.execStrmRelease ring s
  | .strmWatch ring => Sys2Proof.Machine.execStrmWatch ring s
  | .strmCommit v => Sys2Proof.Machine.execStrmCommit v s
  | .streamEngineParity => Sys2Proof.Machine.execStreamEngineParity s
  | .ppsInEdge falling age => Sys2Proof.Machine.execPpsInEdge falling age s
  | .ppsLossTimeout => Sys2Proof.Machine.execPpsLossTimeout s
  | .timeExchangeTimer => Sys2Proof.Machine.execTimeExchangeTimer s
  | .timeReq port t1 authentic => Sys2Proof.Machine.execTimeReq port t1 authentic s
  | .timeRsp port t1 t2 t3 offset state hops authentic => Sys2Proof.Machine.execTimeRsp port t1 t2 t3 offset state hops authentic s
  | .parentServoUpdate => Sys2Proof.Machine.execParentServoUpdate s
  | .parentReselect => Sys2Proof.Machine.execParentReselect s
  | .sysrefLoss => Sys2Proof.Machine.execSysrefLoss s
  | .sysrefReturn => Sys2Proof.Machine.execSysrefReturn s
  | .timeSteer v => Sys2Proof.Machine.execTimeSteer v s
  | .steerTimeout => Sys2Proof.Machine.execSteerTimeout s
  | .timeSecNext src v => Sys2Proof.Machine.execTimeSecNext src v s
  | .timeCommit src v => Sys2Proof.Machine.execTimeCommit src v s
  | .trigInEdge k falling => Sys2Proof.Machine.execTrigInEdge k falling s
  | .tinPop k => Sys2Proof.Machine.execTinPop k s
  | .toutSchedule o v => Sys2Proof.Machine.execToutSchedule o v s
  | .trigOutEdge o => Sys2Proof.Machine.execTrigOutEdge o s
  | .ppsOutPulse => Sys2Proof.Machine.execPpsOutPulse s
  | .quadSleep quad => Sys2Proof.Machine.execQuadSleep quad s
  | .quadWakeRequest quad => Sys2Proof.Machine.execQuadWakeRequest quad s
  | .quadPllLock quad => Sys2Proof.Machine.execQuadPllLock quad s
  | .quadPllLockTimeout quad => Sys2Proof.Machine.execQuadPllLockTimeout quad s
  | .registerPathTimeout => Sys2Proof.Machine.execRegisterPathTimeout s
  | .railTelemetry hubW pkgW uj => Sys2Proof.Machine.execRailTelemetry hubW pkgW uj s
  | .cappingPeriod p => Sys2Proof.Machine.execCappingPeriod p s
  | .pwrSetpoint v => Sys2Proof.Machine.execPwrSetpoint v s
  | .cappingFallback => Sys2Proof.Machine.execCappingFallback s
  | .pwrCommit v => Sys2Proof.Machine.execPwrCommit v s
  | .pwrbrakeAssert => Sys2Proof.Machine.execPwrbrakeAssert s
  | .pwrbrakeRelease => Sys2Proof.Machine.execPwrbrakeRelease s
  | .dieTempRead hubC => Sys2Proof.Machine.execDieTempRead hubC s
  | .sagDetect vaon v1p8 => Sys2Proof.Machine.execSagDetect vaon v1p8 s
  | .sagEnd => Sys2Proof.Machine.execSagEnd s
  | .railOutOfRange rail => Sys2Proof.Machine.execRailOutOfRange rail s
  | .palertAssert status => Sys2Proof.Machine.execPalertAssert status s
  | .vaonPowerOn maddr => Sys2Proof.Machine.execVaonPowerOn maddr s
  | .perstNAssert => Sys2Proof.Machine.execPerstNAssert s
  | .perstNRelease rails sysref late => Sys2Proof.Machine.execPerstNRelease rails sysref late s
  | .routeFlintEnd nocPll routers links segments dead => Sys2Proof.Machine.execRouteFlintEnd nocPll routers links segments dead s
  | .tileFlintEnd failed corrected plls movers crcs colls strm core => Sys2Proof.Machine.execTileFlintEnd failed corrected plls movers crcs colls strm core s
  | .stackTrainingEnd absent failed => Sys2Proof.Machine.execStackTrainingEnd absent failed s
  | .clusterBinding => Sys2Proof.Machine.execClusterBinding s
  | .hubReadySet readyMs => Sys2Proof.Machine.execHubReadySet readyMs s
  | .blanket tag => Sys2Proof.Machine.execBlanket tag s
  | .secBlanket src v => Sys2Proof.Machine.execSecBlanket src v s
  | .blanketDrained => Sys2Proof.Machine.execBlanketDrained s
  | .blanketAttested => Sys2Proof.Machine.execBlanketAttested s
  | .secSlotCmd src v => Sys2Proof.Machine.execSecSlotCmd src v s
  | .slotDrainDone slot => Sys2Proof.Machine.execSlotDrainDone slot s
  | .lcNonce tag => Sys2Proof.Machine.execLcNonce tag s
  | .lcEol tag nonce genuine => Sys2Proof.Machine.execLcEol tag nonce genuine s
  | .svnCommit tag => Sys2Proof.Machine.execSvnCommit tag s
  | .fwWrite tag svn major minor digest genuine => Sys2Proof.Machine.execFwWrite tag svn major minor digest genuine s
  | .bedrockInstall tag m host => Sys2Proof.Machine.execBedrockInstall tag m host s
  | .bedrockRemove tag => Sys2Proof.Machine.execBedrockRemove tag s
  | .heartbeatLoss => Sys2Proof.Machine.execHeartbeatLoss s
  | .fatalParity xlat => Sys2Proof.Machine.execFatalParity xlat s
  | .eventCoalesceTimer code unit => Sys2Proof.Machine.execEventCoalesceTimer code unit s
  | .rasInject v => Sys2Proof.Machine.execRasInject v s
  | .fatalClear tag seq => Sys2Proof.Machine.execFatalClear tag seq s
  | .mgmtRead tag off len => Sys2Proof.Machine.execMgmtRead tag off len s
  | .mgmtWrite tag off v => Sys2Proof.Machine.execMgmtWrite tag off v s
  | .evtAck tag seq => Sys2Proof.Machine.execEvtAck tag seq s
  | .wake tag => Sys2Proof.Machine.execWake tag s
  | .config tag item sub vals => Sys2Proof.Machine.execConfig tag item sub vals s
  | .fenceClear tag slots => Sys2Proof.Machine.execFenceClear tag slots s
  | .rosterCmd tag op m e cm2 => Sys2Proof.Machine.execRosterCmd tag op m e cm2 s
  | .flint tag failed => Sys2Proof.Machine.execFlint tag failed s
  | .mgmtResponseRead => Sys2Proof.Machine.execMgmtResponseRead s
  | .i3cEntdaa addr => Sys2Proof.Machine.execI3cEntdaa addr s
  | .i3cSetdasa target addr => Sys2Proof.Machine.execI3cSetdasa target addr s
  | .i3cRstdaa => Sys2Proof.Machine.execI3cRstdaa s
  | .registerWrite src off size v => Sys2Proof.Machine.execRegisterWrite src off size v s
  | .controlCoreInstruction tile => Sys2Proof.Machine.execControlCoreInstruction tile s
  | .registerRead src off size => Sys2Proof.Machine.execRegisterRead src off size s
  | .moverParityError mover => Sys2Proof.Machine.execMoverParityError mover s
  | .expressLinkLoss segment => Sys2Proof.Machine.execExpressLinkLoss segment s
  | .sitePwrenAssert => Sys2Proof.Machine.execSitePwrenAssert s
  | .substitutionsEnd ctx => Sys2Proof.Machine.execSubstitutionsEnd ctx s
  | .lcTestTransition serial part quads => Sys2Proof.Machine.execLcTestTransition serial part quads s
  | .groupKeyGraceEnd => Sys2Proof.Machine.execGroupKeyGraceEnd s
  | .vaonPowerOff => Sys2Proof.Machine.execVaonPowerOff s

end Sys2Proof.Machine
end

