-- ==== Sys2Proof/Machine/Idle.lean ====
section
/-! DEFINITION. What the block does when no command waits: one tick of the time base, and the work that carries on by itself (R180, R287, R324, R337, R343, R354, R381, R434, R443). -/
namespace Sys2Proof.Machine

/-- An idle step. The command table has no row for a tick of the clock, so a step on an empty queue is one: the time counter advances once,
open collectives, mirrors, accepted messages and waiting repairs go on, connections of a blanket that have closed are reset, key changes that
have waited for a second are answered, and a move to END_OF_LIFE that waited for a sag is programmed. Without VAON nothing happens, and after a lost
heartbeat the counter stands (R464). [DESIGN CHOICE, log 6; DESIGN CHOICE, log 30] -/
def State.idle (s : State) : State :=
  if !s.boot.vaon then s
  else
    let s := if s.glb.stop = 2 then s else s.advance
    let s := (s.coll.mirrors.map (·.1)).foldl State.mirrorOn s.collAll
    s.connKickAll.brSettle.settleConns.lateChanges.settleEol

end Sys2Proof.Machine
end

