-- ==== Sys2Proof/WellFormed.lean ====
section
/-! DEFINITION. Which commands are well formed: an operand that numbers a unit names one that the part has, and an operand with a fixed width fits it. The meanings are total and need none of it; statements may. -/
namespace Sys2Proof

/-- A ring (R218: 8,192 rings). -/
def ringOk (r : Nat) : Bool := decide (r < 8192)
/-- A logical tile (R423, R424). -/
def tileOk (t : Nat) : Bool := decide (t < 2048)
/-- A site (R31). -/
def siteOk (n : Nat) : Bool := decide (n < 8)
/-- A module of a site: nine on an A-site, eight on an S-site (R31). -/
def moduleOk (n m : Nat) : Bool := decide (m < 8) || (decide (m = 8) && decide (n < 4))
/-- A fabric port (R312). -/
def portOk (p : Nat) : Bool := decide (p < 16)
/-- A connection entry (R322). -/
def connOk (e : Nat) : Bool := decide (e < 65536)
/-- A stack (R156). -/
def stackOk (k : Nat) : Bool := decide (k < 8)
/-- A memory controller (R156). -/
def ctlOk (c : Nat) : Bool := decide (c < 16)
/-- A physical quad (R399). -/
def quadOk (q : Nat) : Bool := decide (q < 32)
/-- A mover (R228). -/
def moverOk (m : Nat) : Bool := decide (m < 64)
/-- A CRC unit (R246–R248). -/
def unitOk (u : Nat) : Bool := decide (u < 32)
/-- A physical cluster (R147). -/
def clusterOk (c : Nat) : Bool := decide (c < 128)
/-- A torus link (R151). -/
def linkOk (k : Nat) : Bool := decide (k < 256)
/-- A segment of the express spines: ten on each (R137). -/
def segmentOk (k : Nat) : Bool := decide (k < 20)
/-- A context (R215: six bits). -/
def ctxOk (c : Nat) : Bool := decide (c < 64)
/-- A granule of addressable memory (R157). -/
def granuleOk (g : Nat) : Bool := decide (g < 385024)
/-- A member number (R329). -/
def memberOk (m : Nat) : Bool := decide (m < 64)
/-- An IDE stream (R309). -/
def streamOk (k : Nat) : Bool := decide (k < 8)
/-- An MSI-X vector (R302). -/
def vectorOk (v : Nat) : Bool := decide (v < 2048)
/-- A trigger pin (R390, R391). -/
def pinOk (i : Nat) : Bool := decide (i < 4)
/-- A flow (R361). -/
def flowOk (k : Nat) : Bool := decide (k < 65536)
/-- The tag of a management command (R506). -/
def tagOk (t : Nat) : Bool := decide (t < 256)
/-- A collective engine and one of its slots (R347). -/
def engineOk (e i : Nat) : Bool := decide (e < 16) && decide (i < 4)
/-- A mirror entry (R353). -/
def mirrorEntryOk (n : Nat) : Bool := decide (n < 64)
/-- A fault record (R215). -/
def recordOk (k : Nat) : Bool := decide (k < 64)
/-- A device ID (R319). -/
def deviceOk (d : Nat) : Bool := decide (d < 65536)

/-- Whether a command is well formed. -/
def Instr.wf : Instr → Bool
  | .glbCommit _ => true
  | .glbSubstCmd _ => true
  | .quiescentPoint ctx => ctxOk ctx
  | .popWrite tag _ _ => tagOk tag
  | .rework tag _ _ => tagOk tag
  | .sitePowerTelemetry n _ => siteOk n
  | .powerOverrunTimeout n => siteOk n
  | .powerCapDeadline n => siteOk n
  | .temperatureRequest => true
  | .temperatureReport n _ => siteOk n
  | .temperatureSilence n => siteOk n
  | .thermalTripMessage n => siteOk n
  | .sitePgoodRise n => siteOk n
  | .sitePgoodTimeout n => siteOk n
  | .sidebandUp n m => siteOk n && moduleOk n m
  | .sidebandTimeout n => siteOk n
  | .identityBlockRead n _ => siteOk n
  | .identityTimeout n => siteOk n
  | .spdmResponse n _ => siteOk n
  | .spdmTimeout n => siteOk n
  | .sitePgoodFall n => siteOk n
  | .siteResetTimeout n => siteOk n
  | .sitePowerCycleEnd n => siteOk n
  | .siteCommit n _ => siteOk n
  | .dispatchStart tile => tileOk tile
  | .mcfg tile => tileOk tile
  | .mloadb tile => tileOk tile
  | .mstream tile => tileOk tile
  | .mdrain tile => tileOk tile
  | .mzero tile => tileOk tile
  | .mfence tile => tileOk tile
  | .mfenceRelease tile => tileOk tile
  | .tdma tile => tileOk tile
  | .tdmaf tile => tileOk tile
  | .tdmaComplete tile _ => tileOk tile
  | .twait tile => tileOk tile
  | .twaitRelease tile => tileOk tile
  | .tpoll tile => tileOk tile
  | .tpollRelease tile => tileOk tile
  | .tend tile => tileOk tile
  | .fenceI tile => tileOk tile
  | .kernelTrap tile => tileOk tile
  | .kernelTimeout tile => tileOk tile
  | .scratchWindowAccess _ => true
  | .tileFailure tile _ => tileOk tile
  | .vld tile => tileOk tile
  | .vst tile => tileOk tile
  | .vadd tile => tileOk tile
  | .vsub tile => tileOk tile
  | .vmul tile => tileOk tile
  | .vfma tile => tileOk tile
  | .vmax tile => tileOk tile
  | .vmin tile => tileOk tile
  | .vcvt tile => tileOk tile
  | .vredsum tile => tileOk tile
  | .vbcast tile => tileOk tile
  | .vmvx tile => tileOk tile
  | .vexp2 tile => tileOk tile
  | .vrecip tile => tileOk tile
  | .vside tile => tileOk tile
  | .perfCounterWrap tile _ => tileOk tile
  | .packetEject _ => true
  | .flitReplay link _ _ => linkOk link
  | .routeSwitchover => true
  | .routerLoss cluster => clusterOk cluster
  | .nocRequestTimeout _ => true
  | .nocLateResponse => true
  | .nocCommit _ => true
  | .nocPllUnlock => true
  | .memoryRead _ => true
  | .memoryWrite _ => true
  | .wcbAgeExpiry _ => true
  | .writeBurstRelease ctl _ _ => ctlOk ctl
  | .requestAgePromotion _ => true
  | .scrubVisit _ _ => true
  | .pprRepair => true
  | .pprDismiss => true
  | .stackTempRead stack _ => stackOk stack
  | .granSet => true
  | .granSetZero => true
  | .granRead => true
  | .granDrainDone => true
  | .zeroingPass granule => granuleOk granule
  | .bedrockBlock granule _ _ => granuleOk granule
  | .bedrockFetchTimeout granule => granuleOk granule
  | .bedrockSupply _ => true
  | .bedrockSupplyTimeout granule => granuleOk granule
  | .hbmCommit _ => true
  | .regEpoch _ => true
  | .regCommit _ => true
  | .creditSend _ ctl => ctlOk ctl
  | .xlatInv _ _ => true
  | .invalidationDone => true
  | .faultResume index => recordOk index
  | .faultAbort index => recordOk index
  | .siteRequest site _ _ _ _ _ _ => siteOk site.site && moduleOk site.site site.module
  | .doorbell _ _ _ _ _ => true
  | .descriptorFetch ring => ringOk ring
  | .nop ring => ringOk ring
  | .hamper ring => ringOk ring
  | .hamperNextSub ring => ringOk ring
  | .copy ring => ringOk ring
  | .fill ring => ringOk ring
  | .writeImm ring => ringOk ring
  | .legacyNop ring => ringOk ring
  | .legacyCopy ring => ringOk ring
  | .legacyFill ring => ringOk ring
  | .moverTransfer ring => ringOk ring
  | .dispatch ring => ringOk ring
  | .dispatchPlacement ring => ringOk ring
  | .completionWrite ring => ringOk ring
  | .moderationTimeout ring => ringOk ring
  | .wakeHoldExpiry ring => ringOk ring
  | .qmCommit _ => true
  | .restart ring => ringOk ring
  | .abort ring => ringOk ring
  | .crcData ring => ringOk ring
  | .crcBlocks ring => ringOk ring
  | .crcSave ring => ringOk ring
  | .crcLoad ring => ringOk ring
  | .crcUnitClaim unit => unitOk unit
  | .crcParityError unit => unitOk unit
  | .crcCtlWrite _ unit _ => unitOk unit
  | .crcValWrite _ unit _ => unitOk unit
  | .moduleTrained n m _ _ _ => siteOk n && moduleOk n m
  | .rateAttemptTimeout n m _ => siteOk n && moduleOk n m
  | .widthCheckAnswer n m _ _ _ _ => siteOk n && moduleOk n m
  | .widthCheckTimeout n m => siteOk n && moduleOk n m
  | .moduleRetrain n m _ _ _ => siteOk n && moduleOk n m
  | .moduleLinkDown n m => siteOk n && moduleOk n m
  | .spreadAnswer n _ => siteOk n
  | .spreadTimeout n => siteOk n
  | .entryLend n m => siteOk n && moduleOk n m
  | .moduleL1Entry n m => siteOk n && moduleOk n m
  | .siteRecRetry n m => siteOk n && moduleOk n m
  | .siteRecSpare n m => siteOk n && moduleOk n m
  | .siteRecHalf n m => siteOk n && moduleOk n m
  | .siteRecRetire n m => siteOk n && moduleOk n m
  | .siteRecRetrain n m => siteOk n && moduleOk n m
  | .siteAwaitTimeout n m => siteOk n && moduleOk n m
  | .sbRead n _ => siteOk n
  | .sbWrite n _ => siteOk n
  | .sbResponse n _ _ => siteOk n
  | .rdshared site _ => siteOk site
  | .rdown site _ => siteOk site
  | .upgrade site _ => siteOk site
  | .rdcurr site _ => siteOk site
  | .wrline site _ _ _ => siteOk site
  | .wrpartial site _ _ _ => siteOk site
  | .wbdirty site _ _ _ => siteOk site
  | .evictclean site _ => siteOk site
  | .systiniAck site _ => siteOk site
  | .snprsp site _ _ _ _ => siteOk site
  | .aprsp site _ _ _ => siteOk site
  | .cxlRdshared site _ => siteOk site
  | .cxlRdany site _ => siteOk site
  | .cxlRdown site _ => siteOk site
  | .cxlRdownnodata site _ => siteOk site
  | .cxlRdcurr site _ => siteOk site
  | .cxlWrinv site _ _ _ => siteOk site
  | .cxlCleanevict site _ => siteOk site
  | .cxlDirtyevict site _ _ _ => siteOk site
  | .cxlClflush site _ => siteOk site
  | .snoopLimitExpiry site _ => siteOk site
  | .ackLimitExpiry site _ => siteOk site
  | .cohCommit _ => true
  | .configRequest _ _ _ => true
  | .bar4Access _ _ _ _ _ _ => true
  | .unsupportedRequest _ => true
  | .outboundCompletion _ _ _ _ => true
  | .outboundTimeout _ => true
  | .keepaliveTimer => true
  | .msixUnmask vector => vectorOk vector
  | .l0pEntry => true
  | .l0pExit => true
  | .linkL1Entry => true
  | .l12Entry => true
  | .linkStateExit => true
  | .d3hotEntry => true
  | .d0Return => true
  | .flr => true
  | .hotReset => true
  | .linkDisable => true
  | .linkLoss => true
  | .linkRetrained _ _ _ => true
  | .getVersion => true
  | .getCapabilities => true
  | .negotiateAlgorithms => true
  | .getDigests => true
  | .getCertificate => true
  | .challenge _ => true
  | .getMeasurements _ _ => true
  | .keyExchange _ => true
  | .finish _ => true
  | .keyUpdate => true
  | .heartbeat => true
  | .endSession => true
  | .keySet _ _ => true
  | .keyClear _ => true
  | .ideKmProgram stream _ => streamOk stream
  | .ideTlpFailure stream => streamOk stream
  | .lockInterface => true
  | .startInterface => true
  | .stopInterface => true
  | .hostCommit _ => true
  | .portTrained port _ _ => portOk port
  | .portTrainingMismatch port => portOk port
  | .portRetrain port => portOk port
  | .portRetrainResult port _ => portOk port
  | .portRecRetry port => portOk port
  | .portRecHalf port => portOk port
  | .portRecDown port => portOk port
  | .portAwaitTimeout port => portOk port
  | .linkBlockReceive port _ _ => portOk port
  | .linkResendTimer port => portOk port
  | .write h _ => connOk h.conn
  | .read h _ => connOk h.conn
  | .atomic h _ _ _ => connOk h.conn
  | .readRsp h _ => connOk h.conn
  | .atomicRsp h _ => connOk h.conn
  | .ack h _ => connOk h.conn
  | .ackTimer conn => connOk conn
  | .msgResendTimer conn => connOk conn
  | .openMsg src _ _ _ => deviceOk src
  | .openAck conn src _ _ => connOk conn && deviceOk src
  | .openRetryTimer conn => connOk conn
  | .close h => connOk h.conn
  | .rekey h _ => connOk h.conn
  | .rekeyThreshold conn => connOk conn
  | .sessionLimitV1 conn => connOk conn
  | .peerLimitExpiry conn => connOk conn
  | .cairnSend => true
  | .cairn h _ => connOk h.conn
  | .memberSilent member => memberOk member
  | .deputyClaim => true
  | .workerClaimTimer => true
  | .topClaimTimer => true
  | .managerListenExpiry => true
  | .claim h _ _ _ => connOk h.conn
  | .join src _ _ _ => deviceOk src
  | .joinAck src _ _ _ _ _ _ _ _ => deviceOk src
  | .joinRetry => true
  | .roster h _ => connOk h.conn
  | .map h _ _ => connOk h.conn
  | .fwdRecompute => true
  | .fabCommit _ => true
  | .allreduce ring => ringOk ring
  | .reduceScatter ring => ringOk ring
  | .allgather ring => ringOk ring
  | .broadcast ring => ringOk ring
  | .barrier ring => ringOk ring
  | .ready h _ _ _ _ _ _ _ _ _ _ => connOk h.conn
  | .data h _ _ _ _ _ => connOk h.conn
  | .collAbort h _ _ _ _ _ => connOk h.conn
  | .extend h _ _ _ => connOk h.conn
  | .lost h _ => connOk h.conn
  | .step h _ _ _ _ => connOk h.conn
  | .collStep _ => true
  | .collDeadline engine slot => engineOk engine slot
  | .collEngineParity engine => engineOk engine 0
  | .mirrorSet ring => ringOk ring
  | .mirrorSync ring => ringOk ring
  | .mirrorClear ring => ringOk ring
  | .mirrorBlockCopy entry => mirrorEntryOk entry
  | .collCommit _ => true
  | .streamFrame port _ => portOk port
  | .endOfFlowFrame port _ => portOk port
  | .arpRequest port _ => portOk port
  | .neighborSolicitation port _ => portOk port
  | .streamPortLink port _ => portOk port
  | .spillWriteAck flow => flowOk flow
  | .inboxDelivery flow => flowOk flow
  | .decisionWord => true
  | .decisionCutoff flow => flowOk flow
  | .flowIdleTimeout flow => flowOk flow
  | .install _ => true
  | .free _ => true
  | .ctxRead _ => true
  | .strmRelease ring => ringOk ring
  | .strmWatch ring => ringOk ring
  | .strmCommit _ => true
  | .streamEngineParity => true
  | .ppsInEdge _ _ => true
  | .ppsLossTimeout => true
  | .timeExchangeTimer => true
  | .timeReq port _ _ => portOk port
  | .timeRsp port _ _ _ _ _ _ _ => portOk port
  | .parentServoUpdate => true
  | .parentReselect => true
  | .sysrefLoss => true
  | .sysrefReturn => true
  | .timeSteer _ => true
  | .steerTimeout => true
  | .timeSecNext _ _ => true
  | .timeCommit _ _ => true
  | .trigInEdge _ _ => true
  | .tinPop _ => true
  | .toutSchedule o _ => pinOk o
  | .trigOutEdge o => pinOk o
  | .ppsOutPulse => true
  | .quadSleep quad => quadOk quad
  | .quadWakeRequest quad => quadOk quad
  | .quadPllLock quad => quadOk quad
  | .quadPllLockTimeout quad => quadOk quad
  | .registerPathTimeout => true
  | .railTelemetry _ _ _ => true
  | .cappingPeriod _ => true
  | .pwrSetpoint _ => true
  | .cappingFallback => true
  | .pwrCommit _ => true
  | .pwrbrakeAssert => true
  | .pwrbrakeRelease => true
  | .dieTempRead _ => true
  | .sagDetect _ _ => true
  | .sagEnd => true
  | .railOutOfRange _ => true
  | .palertAssert _ => true
  | .vaonPowerOn _ => true
  | .perstNAssert => true
  | .perstNRelease _ _ _ => true
  | .routeFlintEnd _ _ _ _ _ => true
  | .tileFlintEnd _ _ _ _ _ _ _ _ => true
  | .stackTrainingEnd _ _ => true
  | .clusterBinding => true
  | .hubReadySet _ => true
  | .blanket tag => tagOk tag
  | .secBlanket _ _ => true
  | .blanketDrained => true
  | .blanketAttested => true
  | .secSlotCmd _ _ => true
  | .slotDrainDone _ => true
  | .lcNonce tag => tagOk tag
  | .lcEol tag _ _ => tagOk tag
  | .svnCommit tag => tagOk tag
  | .fwWrite tag _ _ _ _ _ => tagOk tag
  | .bedrockInstall tag _ _ => tagOk tag
  | .bedrockRemove tag => tagOk tag
  | .heartbeatLoss => true
  | .fatalParity _ => true
  | .eventCoalesceTimer _ _ => true
  | .rasInject _ => true
  | .fatalClear tag _ => tagOk tag
  | .mgmtRead tag _ _ => tagOk tag
  | .mgmtWrite tag _ _ => tagOk tag
  | .evtAck tag _ => tagOk tag
  | .wake tag => tagOk tag
  | .config tag _ _ _ => tagOk tag
  | .fenceClear tag _ => tagOk tag
  | .rosterCmd tag _ _ _ _ => tagOk tag
  | .flint tag _ => tagOk tag
  | .mgmtResponseRead => true
  | .i3cEntdaa _ => true
  | .i3cSetdasa _ _ => true
  | .i3cRstdaa => true
  | .registerWrite _ _ _ _ => true
  | .controlCoreInstruction tile => tileOk tile
  | .registerRead _ _ _ => true
  | .moverParityError mover => moverOk mover
  | .expressLinkLoss segment => segmentOk segment
  | .sitePwrenAssert => true
  | .substitutionsEnd ctx => ctxOk ctx
  | .lcTestTransition _ _ _ => true
  | .groupKeyGraceEnd => true
  | .vaonPowerOff => true

end Sys2Proof
end

