-- ==== Sys2Proof/Safety.lean ====
section
/-! DEFINITION. What the statements mean by a run that goes on, by memory in its canonical form and by a well-formed queue. -/
namespace Sys2Proof

/-- A step or a command that answers a next state. -/
def Completes (o : Host.Outcome Machine.State Machine.Fault Machine.Refusal) : Prop := ∃ t, o = .next t

/-- Stacked memory and scratch in canonical form: addresses rise strictly and no entry holds what an unlisted address reads as. -/
def Canonical (s : Machine.State) : Prop := Machine.Memory.wf s.hbm.mem = true ∧ Machine.Memory.wf s.scr.mem = true

/-- Every command that waits is well formed. -/
def QueueWellFormed (s : Machine.State) : Prop := ∀ c ∈ s.pending, c.wf = true

/-- The state after a number of steps, or the fault or refusal that ends them. -/
def runSteps : Nat → Machine.State → Host.Outcome Machine.State Machine.Fault Machine.Refusal
  | 0, s => .next s
  | n + 1, s =>
    match Machine.step s with
    | .next t => runSteps n t
    | .fault f => .fault f
    | .refused r => .refused r

end Sys2Proof
end

