-- ==== Sys2Proof/Certificates/Slice0/Obligations.lean ====
section
/-! DEFINITION. The statements for the provers. -/
open Sys2Proof Sys2Proof.Machine

/-- O1. The GLB commit, the substitution command and a quiescent point take effect -/
def Obligations.GlbAndSubstitutionCommandsTakeEffect : Prop :=
  (∀ (v : Word) (s : State), bits v.toNat 0 0 = 1 → s.shf Reg.DUTY_MODE_desc_translation = 0 → s.shf Reg.GLB_DRV_INFO_drv_api ≤ 2 → exec (.glbCommit v) s = .next (let u := s.commitRegs [Reg.DUTY_MODE, Reg.GLB_DRV_INFO]; let w : State := { u with pwr := { u.pwr with missed := 0 }, time := { u.time with steerAt := if u.on Reg.DUTY_MODE_time_discipline && !u.duty 9 then u.now else u.time.steerAt } }; (w.wr Reg.DUTY_ACTIVE_duty_active (bits (w.reg Reg.DUTY_MODE) 9 0)).commitDone Reg.GLB_COMMIT_STATUS)) ∧
  (∀ (v : Word) (s : State), s.duty 5 = true → exec (.glbSubstCmd v) s = .next (let cs := if bit v.toNat 6 then List.range 64 else [bits v.toNat 5 0]; cs.foldl State.quiesce (cs.foldl (fun (s : State) c => s.wr ⟨Reg.GLB_SUBST_ARMED, c, c⟩ 1) s))) ∧
  (∀ (ctx : Nat) (s : State), ctx < 64 → s.ctxIdle ctx = true → s.duty 5 = false → exec (.quiescentPoint ctx) s = .next (let t := (s.wr ⟨Reg.GLB_SUBST_ARMED, ctx, ctx⟩ 0).rebindAll ctx; let u := (t.ownedCells ctx).foldl (fun (u : State) k => u.startCopy ctx k) t; if u.hbm.copying.any (fun x => x.ctx == ctx) then { u with glb := { u.glb with armed := u.glb.armed ++ [64 + ctx] } } else u)) ∧
  (∀ (ctx : Nat) (s : State), ctx < 64 → s.glb.armed.contains (64 + ctx) = true → exec (.substitutionsEnd ctx) s = .next (let t := (s.hbm.copying.filter (fun x => x.ctx == ctx)).foldl State.endCopy s; let u := { t with glb := { t.glb with armed := t.glb.armed.filter (· != 64 + ctx) } }; ((({ u with hbm := { u.hbm with copyWait := [] } }).resume u.hbm.copyWait).homeRetry).homeKick))

/-- O2. What the power and temperature commands of a site do -/
def Obligations.SitePowerAndTemperatureCommandsTakeEffect : Prop :=
  (∀ (n : Nat) (s : State), n < 8 → s.siteDraws n = true → (s.takeLimit n).on (Reg.SITE_PWR_STATUS_unmonitored n) = false → exec (.sitePowerTelemetry n none) s = .next (let t := s.takeLimit n; let u := (t.wr (Reg.SITE_PWR_STATUS_unmonitored n) 1).eventOpen blkSite 0x0D 0 n; u.capNotice n)) ∧
  (∀ (n : Nat) (w : Nat) (s : State), n < 8 → s.siteDraws n = true → ((s.takeLimit n).site n).readings.length + 1 < 100 → w ≤ (s.takeLimit n).rd (Reg.SITE_PWR_LIMIT_pwr_limit_w n) → exec (.sitePowerTelemetry n (some w)) s = .next (let t := s.takeLimit n; t.setSite n { t.site n with readings := (t.site n).readings ++ [w], overrun := 0 })) ∧
  (∀ (n : Nat) (s : State), n < 8 → (s.site n).overrun = 1 → exec (.powerOverrunTimeout n) s = .next ((s.setSite n { s.site n with overrun := 2 }).powerCap n (s.rd (Reg.SITE_PWR_LIMIT_pwr_limit_w n)))) ∧
  (∀ (n : Nat) (s : State), n < 8 → (s.site n).overrun = 2 → exec (.powerCapDeadline n) s = .next (s.fenceSite n 6)) ∧
  (∀ (s : State), exec .temperatureRequest s = .next (((List.range 8).filter (fun n => !s.siteDark n && !(s.site n).sbUp.isEmpty)).foldl (fun (s : State) n => (s.setSite n { s.site n with tempAsked := true }).sideband n none .temperature) s)) ∧
  (∀ (n : Nat) (tempC : Nat) (p : PopSite) (s : State), n < 8 → s.siteDark n = false → (s.site n).tempReports = 9 → s.popSite n = some p → tempC < p.tempLimitC → exec (.temperatureReport n tempC) s = .next ((s.setSite n { s.site n with tempAsked := false, tempReports := 0 }).wr (Reg.SITE_PWR_STATUS_chiplet_temp_c n) (min tempC 255))) ∧
  (∀ (n : Nat) (s : State), n < 8 → (s.site n).tempAsked = true → exec (.temperatureSilence n) s = .next (s.fenceSite n 8)) ∧
  (∀ (n : Nat) (s : State), n < 8 → exec (.thermalTripMessage n) s = .next (s.fenceSite n 8))

/-- O3. What the commands of a site's power-up, identity and attestation do -/
def Obligations.SiteBringUpCommandsTakeEffect : Prop :=
  (∀ (s : State), s.boot.perst = false → s.boot.trip = false → s.boot.sysref = true → s.boot.stage ≠ 0 → s.boot.plan < 3 → exec .sitePwrenAssert s = .next (((List.range 8).filter (fun n => s.on (Reg.SITE_POP_populated n) && s.siteState n == 0)).foldl State.powerSite s)) ∧
  (∀ (n : Nat) (s : State), n < 8 → (s.site n).pwren = true → s.siteState n = 1 → exec (.sitePgoodRise n) s = .next ((s.setSite n { s.site n with pgood := true }).startSideband n)) ∧
  (∀ (n : Nat) (s : State), n < 8 → s.siteState n = 1 → (s.site n).pgood = false → (s.site n).cycling = false → exec (.sitePgoodTimeout n) s = .next (s.fenceSite n 1)) ∧
  (∀ (n : Nat) (m : Nat) (s : State), Machine.moduleOk n m = true → s.modState n m = 2 → exec (.sidebandUp n m) s = .next (let a := s.setSite n { s.site n with sbUp := (s.site n).sbUp ++ [m] }; let b := a.setModule n m { a.module n m with sideband := true }; let u := ((b.setModState n m 3).wr (Reg.SITE_MOD_STATUS_rate n m) (b.rd (Reg.SITE_LINK_CFG_max_rate n))).wr (Reg.SITE_MOD_STATUS_logical n m) (b.module n m).logical; if u.siteState n = 2 then ((u.wr (Reg.SITE_STATE_state n) 3).sideband n none .identity).capNotice n else u)) ∧
  (∀ (n : Nat) (s : State), n < 8 → s.siteState n = 2 → exec (.sidebandTimeout n) s = .next (s.fenceSite n 2)) ∧
  (∀ (n : Nat) (block : IdentityBlock) (p : PopSite) (s : State), n < 8 → s.siteState n = 3 → bits block.hi.toNat 31 0 ≤ 16384 → s.popSite n = some p → identityMatches p block = true → exec (.identityBlockRead n block) s = .next (let t := ((s.setReg (Reg.SITE_ID_LO n) block.lo.toNat).setReg (Reg.SITE_ID_HI n) block.hi.toNat); ((t.setSite n { s.site n with resetPending := false }).wr (Reg.SITE_STATE_state n) 4).spdmSend n 1)) ∧
  (∀ (n : Nat) (s : State), n < 8 → s.siteState n = 3 → (s.site n).resetPending = false → exec (.identityTimeout n) s = .next (s.fenceSite n 3)) ∧
  (∀ (n : Nat) (answer : SpdmAnswer) (s : State), n < 8 → 0 < (s.site n).spdmStep → (s.site n).spdmStep < 7 → s.spdmBad n answer = false → exec (.spdmResponse n answer) s = .next (s.spdmSend n ((s.site n).spdmStep + 1))) ∧
  (∀ (n : Nat) (s : State), n < 8 → (s.site n).spdmStep ≠ 0 → exec (.spdmTimeout n) s = .next (s.fenceSite n 5)) ∧
  (∀ (n : Nat) (s : State), n < 8 → (s.site n).pgood = true → (s.site n).cycling = false → exec (.sitePgoodFall n) s = .next ((s.setSite n { s.site n with pgood := false }).fenceSite n 7)) ∧
  (∀ (n : Nat) (s : State), n < 8 → (s.site n).resetPending = true → exec (.siteResetTimeout n) s = .next (let t := ((s.pwren n false).endMailbox n 3).modulesOff n; (t.setSite n { t.site n with resetPending := false, aperture := false, opening := false, cycling := true, sclk := false, sbUp := [], tempAsked := false, spdmStep := 0 }).wr (Reg.SITE_STATE_state n) 1)) ∧
  (∀ (n : Nat) (s : State), n < 8 → (s.site n).cycling = true → exec (.sitePowerCycleEnd n) s = .next (s.powerSite n)) ∧
  (∀ (n : Nat) (v : Word) (s : State), n < 8 → bits v.toNat 0 0 = 1 → s.shf (Reg.SITE_PWR_LIMIT_pwr_limit_w n) ≤ s.rd (Reg.SITE_POP_power_limit_w n) → s.shf (Reg.SITE_LINK_CFG_max_rate n) ≤ 4 → s.shf (Reg.SITE_LINK_CFG_retry_limit n) ≠ 0 → exec (.siteCommit n v) s = .next (((s.commitReg (Reg.SITE_LINK_CFG n)).setSite n { s.site n with pendLimit := some (s.shf (Reg.SITE_PWR_LIMIT_pwr_limit_w n)) }).commitDone (Reg.SITE_COMMIT_STATUS n)))

/-- O4. What each vector instruction of a kernel does -/
def Obligations.VectorInstructionsExecute : Prop :=
  (∀ (tile : Nat) (w : Nat) (u v : State) (bs : List Byte) (s : State), s.coreRuns tile = true → s.fetchInst tile = (.inst w 4, u) → opOfInst w 4 = .vec 0 → accessTrap (u.rs1 tile w) 64 cLoadAlign cLoadAccess = none → u.tileRead tile agVector (u.rs1 tile w) 64 = (some bs, v) → (v.tile tile).run.isSome = true → exec (.vld tile) s = .next (u.retire tile (.go ((v.setV tile (bits w 11 7) (leValue bs)).perf tile 4 1) ((u.tile tile).pc + 4)))) ∧
  (∀ (tile : Nat) (w : Nat) (u : State) (s : State), s.coreRuns tile = true → s.fetchInst tile = (.inst w 4, u) → opOfInst w 4 = .vec 1 → accessTrap (u.rs1 tile w) 64 cStoreAlign cStoreAccess = none → exec (.vst tile) s = .next (u.retire tile (.go ((u.tileWrite tile agVector (u.rs1 tile w) (leBytes 64 (u.vreg tile (bits w 24 20)))).perf tile 4 1) ((u.tile tile).pc + 4)))) ∧
  (∀ (tile : Nat) (w : Nat) (u : State) (s : State), s.coreRuns tile = true → s.fetchInst tile = (.inst w 4, u) → opOfInst w 4 = .vec 2 → exec (.vadd tile) s = .next (
      let ty := bits w 14 12
      let rd := bits w 11 7
      let rs1 := bits w 19 15
      let rs2 := bits w 24 20
      let v := u.setV tile rd (vZip ty (vArith ty 2) (u.vreg tile rs1) (u.vreg tile rs2))
      u.retire tile (.go (v.perf tile 4 1) ((u.tile tile).pc + 4)))) ∧
  (∀ (tile : Nat) (w : Nat) (u : State) (s : State), s.coreRuns tile = true → s.fetchInst tile = (.inst w 4, u) → opOfInst w 4 = .vec 3 → exec (.vsub tile) s = .next (
      let ty := bits w 14 12
      let rd := bits w 11 7
      let rs1 := bits w 19 15
      let rs2 := bits w 24 20
      let v := u.setV tile rd (vZip ty (vArith ty 3) (u.vreg tile rs1) (u.vreg tile rs2))
      u.retire tile (.go (v.perf tile 4 1) ((u.tile tile).pc + 4)))) ∧
  (∀ (tile : Nat) (w : Nat) (u : State) (s : State), s.coreRuns tile = true → s.fetchInst tile = (.inst w 4, u) → opOfInst w 4 = .vec 4 → exec (.vmul tile) s = .next (
      let ty := bits w 14 12
      let rd := bits w 11 7
      let rs1 := bits w 19 15
      let rs2 := bits w 24 20
      let v := u.setV tile rd (vZip ty (vArith ty 4) (u.vreg tile rs1) (u.vreg tile rs2))
      u.retire tile (.go (v.perf tile 4 1) ((u.tile tile).pc + 4)))) ∧
  (∀ (tile : Nat) (w : Nat) (u : State) (s : State), s.coreRuns tile = true → s.fetchInst tile = (.inst w 4, u) → opOfInst w 4 = .vec 5 → exec (.vfma tile) s = .next (
      let ty := bits w 14 12
      let rd := bits w 11 7
      let rs1 := bits w 19 15
      let rs2 := bits w 24 20
      let v := u.setV tile rd (ofLanes ty (((lanesOf ty (u.vreg tile rd)).zip ((lanesOf ty (u.vreg tile rs1)).zip (lanesOf ty (u.vreg tile rs2)))).map (fun (p : Nat × Nat × Nat) => vFma ty 5 p.1 p.2.1 p.2.2)))
      u.retire tile (.go (v.perf tile 4 1) ((u.tile tile).pc + 4)))) ∧
  (∀ (tile : Nat) (w : Nat) (u : State) (s : State), s.coreRuns tile = true → s.fetchInst tile = (.inst w 4, u) → opOfInst w 4 = .vec 6 → exec (.vmax tile) s = .next (
      let ty := bits w 14 12
      let rd := bits w 11 7
      let rs1 := bits w 19 15
      let rs2 := bits w 24 20
      let v := u.setV tile rd (vZip ty (vMaxMin ty 6) (u.vreg tile rs1) (u.vreg tile rs2))
      u.retire tile (.go (v.perf tile 4 1) ((u.tile tile).pc + 4)))) ∧
  (∀ (tile : Nat) (w : Nat) (u : State) (s : State), s.coreRuns tile = true → s.fetchInst tile = (.inst w 4, u) → opOfInst w 4 = .vec 7 → exec (.vmin tile) s = .next (
      let ty := bits w 14 12
      let rd := bits w 11 7
      let rs1 := bits w 19 15
      let rs2 := bits w 24 20
      let v := u.setV tile rd (vZip ty (vMaxMin ty 7) (u.vreg tile rs1) (u.vreg tile rs2))
      u.retire tile (.go (v.perf tile 4 1) ((u.tile tile).pc + 4)))) ∧
  (∀ (tile : Nat) (w : Nat) (u : State) (s : State), s.coreRuns tile = true → s.fetchInst tile = (.inst w 4, u) → opOfInst w 4 = .vec 8 → exec (.vcvt tile) s = .next (
      let ty := bits w 14 12
      let rd := bits w 11 7
      let rs1 := bits w 19 15
      let rs2 := bits w 24 20
      let v := u.setV tile rd (vCvt (rs2 % 8) ty (u.vreg tile rs1))
      u.retire tile (.go (v.perf tile 4 1) ((u.tile tile).pc + 4)))) ∧
  (∀ (tile : Nat) (w : Nat) (u : State) (s : State), s.coreRuns tile = true → s.fetchInst tile = (.inst w 4, u) → opOfInst w 4 = .vec 9 → exec (.vredsum tile) s = .next (
      let ty := bits w 14 12
      let rd := bits w 11 7
      let rs1 := bits w 19 15
      let rs2 := bits w 24 20
      let v := u.setV tile rd (ofLanes ty [vRedsum ty (u.vreg tile rs1)])
      u.retire tile (.go (v.perf tile 4 1) ((u.tile tile).pc + 4)))) ∧
  (∀ (tile : Nat) (w : Nat) (u : State) (s : State), s.coreRuns tile = true → s.fetchInst tile = (.inst w 4, u) → opOfInst w 4 = .vec 10 → exec (.vbcast tile) s = .next (
      let ty := bits w 14 12
      let rd := bits w 11 7
      let rs1 := bits w 19 15
      let rs2 := bits w 24 20
      let v := u.setV tile rd (ofLanes ty (List.replicate (vLanes ty) (u.xreg tile rs1).toNat))
      u.retire tile (.go (v.perf tile 4 1) ((u.tile tile).pc + 4)))) ∧
  (∀ (tile : Nat) (w : Nat) (u : State) (s : State), s.coreRuns tile = true → s.fetchInst tile = (.inst w 4, u) → opOfInst w 4 = .vec 11 → exec (.vmvx tile) s = .next (
      let ty := bits w 14 12
      let rd := bits w 11 7
      let rs1 := bits w 19 15
      let rs2 := bits w 24 20
      let v := u.setX tile rd (BitVec.ofInt 64 (signed (vBits ty) (u.vreg tile rs1)))
      u.retire tile (.go (v.perf tile 4 1) ((u.tile tile).pc + 4)))) ∧
  (∀ (tile : Nat) (w : Nat) (u : State) (s : State), s.coreRuns tile = true → s.fetchInst tile = (.inst w 4, u) → opOfInst w 4 = .vec 12 → exec (.vexp2 tile) s = .next (
      let ty := bits w 14 12
      let rd := bits w 11 7
      let rs1 := bits w 19 15
      let rs2 := bits w 24 20
      let v := u.setV tile rd (ofLanes ty ((lanesOf ty (u.vreg tile rs1)).map (vExp2 ty)))
      u.retire tile (.go (v.perf tile 4 1) ((u.tile tile).pc + 4)))) ∧
  (∀ (tile : Nat) (w : Nat) (u : State) (s : State), s.coreRuns tile = true → s.fetchInst tile = (.inst w 4, u) → opOfInst w 4 = .vec 13 → exec (.vrecip tile) s = .next (
      let ty := bits w 14 12
      let rd := bits w 11 7
      let rs1 := bits w 19 15
      let rs2 := bits w 24 20
      let v := u.setV tile rd (ofLanes ty ((lanesOf ty (u.vreg tile rs1)).map (vRecip ty)))
      u.retire tile (.go (v.perf tile 4 1) ((u.tile tile).pc + 4)))) ∧
  (∀ (tile : Nat) (w : Nat) (u : State) (s : State), s.coreRuns tile = true → s.fetchInst tile = (.inst w 4, u) → opOfInst w 4 = .vec 16 → cfgSlice (u.tile tile).cfg = false → u.rs1 tile w / 2 ^ 28 = 0 → u.rs2 tile w / 2 ^ 40 = 0 → bits (u.rs1 tile w) 19 0 % 8 = 0 → (cfgForm (u.tile tile).cfg = 0 ∨ u.rs2 tile w = 0) → (cfgForm (u.tile tile).cfg ≠ 0 ∨ fmtBlock (cfgA (u.tile tile).cfg) = true ∨ bits (u.rs2 tile w) 39 20 = 0) → bits (u.rs1 tile w) 19 0 + (if cfgForm (u.tile tile).cfg = 1 then 2048 else 512) ≤ scratchBytes → (cfgForm (u.tile tile).cfg ≠ 0 ∨ bits (u.rs2 tile w) 19 0 + 32 ≤ scratchBytes) → exec (.vside tile) s = .next (u.retire tile ((
      let s := u
      let t := tile
      let x := s.tile t
      let c := x.cfg
      let v := s.rs1 t w
      let u := s.rs2 t w
      let table := bits v 19 0
      let row := bits v 25 20
      let form := cfgForm c
      let size := if form = 1 then 2048 else 512
      s.readFor t agVector table size (fun s tb =>
        s.imageFor t agVector (bits u 19 0) 32 (form == 0) (fun s ab =>
          s.imageFor t agVector (bits u 39 20) (recordBytesOf (cfgA c) 64) (form == 0 && fmtBlock (cfgA c)) (fun s ar =>
            let slots := sideSlots form row
            let recs := slots.map (fun p => sideRecord (leValue (slab tb p.1 8)))
            let clean := slots.all (fun p => bits (leValue (slab tb p.1 8)) 63 46 == 0)
            if !clean || recs.any Option.isNone then .trap cIllegal s
            else
              let acts : Option (List (List Gran)) := if form = 0 then some [granulesOf (cfgA c) (cfgK c) (vecElems (cfgA c) (cfgK c) ab) ar]
                else ((s.tile t).stat (bit v 27)).map (fun p => statVectors c p.1 p.2)
              let s := match acts with
                | some av =>
                  (slots.zip recs).foldl (fun (s : State) (p : (Nat × Nat × Nat × Nat) × Option (List (Nat × Nat))) =>
                    (p.2.getD []).foldl (fun (s : State) (o : Nat × Nat) =>
                      s.sideAdd t (bit v 26) p.1.2.1 (actElem ((av[p.1.2.2.1]?).getD []) (p.1.2.2.2 + o.1)) o.2) s) s
                | none =>
                  let x := s.tile t
                  let b := x.bank (bit v 26)
                  let flats := ((slots.zip recs).filter (fun p => p.2.getD [] ≠ [])).map (fun p => p.1.2.1)
                  s.setTile t (x.setBank (bit v 26) (b.feedOpen (flats.filter (fun f => b.cells.any (fun q => q.1 == f))) (x.openKey (bit v 27) tb)))
              .go s (s.after t))))).vectorCycles tile (if cfgForm (u.tile tile).cfg = 1 then 32 else 8))))

/-- O5. What each matrix, DMA and control instruction of a kernel does -/
def Obligations.MatrixAndDmaInstructionsExecute : Prop :=
  (∀ (tile : Nat) (w : Nat) (u : State) (s : State), s.coreRuns tile = true → s.fetchInst tile = (.inst w 4, u) → opOfInst w 4 = .mcfg → cfgOk (u.rs1 tile w) = true → exec (.mcfg tile) s = .next (u.retire tile (
      let s := u
      let t := tile
      .go (s.setTile t { s.tile t with cfg := s.rs1 t w }) (s.after t)))) ∧
  (∀ (tile : Nat) (w : Nat) (u : State) (s : State), s.coreRuns tile = true → s.fetchInst tile = (.inst w 4, u) → opOfInst w 4 = .mloadb → bits (u.rs1 tile w) 19 0 % (if cfgForm (u.tile tile).cfg = 0 then 2048 else 128) = 0 → bits (u.rs1 tile w) 19 0 + statBytes (u.tile tile).cfg ≤ scratchBytes → exec (.mloadb tile) s = .next (u.retire tile (
      let s := u
      let t := tile
      let c := (s.tile t).cfg
      let a := bits (s.rs1 t w) 19 0
      s.readFor t agArray a (statBytes c) (fun s bs =>
        s.imageFor t agArray (s.csrOf t 0x801) (statScaleBytes c) (fmtBlock (cfgB c)) (fun s sc =>
          let b : StatBuf := { form := cfgForm c, fmt := cfgB c, bytes := bs, scales := sc }
          let x := s.tile t
          .go (s.setTile t (if bit w 30 then { x with b1 := some b } else { x with b0 := some b })) (s.after t)))))) ∧
  (∀ (tile : Nat) (w : Nat) (u : State) (s : State), s.coreRuns tile = true → s.fetchInst tile = (.inst w 4, u) → opOfInst w 4 = .mstream → u.rs1 tile w / 2 ^ 36 = 0 → bits (u.rs1 tile w) 35 28 + bits (u.rs1 tile w) 27 20 + 1 ≤ (if cfgForm (u.tile tile).cfg = 1 then 256 else 64) → bits (u.rs1 tile w) 19 0 % streamBytes (u.tile tile).cfg = 0 → (cfgSlice (u.tile tile).cfg = false ∨ bit w 31 = false) → (bit w 28 = false ∨ cfgA (u.tile tile).cfg < 4 ∧ cfgB (u.tile tile).cfg < 4) → bits (u.rs1 tile w) 19 0 + streamBytes (u.tile tile).cfg * (bits (u.rs1 tile w) 27 20 + 1) ≤ scratchBytes → exec (.mstream tile) s = .next (u.retire tile (
      let s := u
      let t := tile
      let x := s.tile t
      let c := x.cfg
      let v := s.rs1 t w
      let addr := bits v 19 0
      let n := bits v 27 20 + 1
      let start := bits v 35 28
      let slice := cfgSlice c
      let e := bit w 28
      let hdr := s.csrOf t 0x802
      if slice then
        let cols := (x.stat (bit w 30)).map (fun p =>
          let codes := (codesOf (fmtBits (cfgB c)) p.1).map (sliceElem (cfgB c))
          (List.range 64).map (fun j => alignBlock (cfgB c) ((List.range 64).map (fun k => (codes[64 * k + j]?).getD .special))))
        streamedEnd t 0 (streamAll (fun s i => s.sliceRow t w addr start i cols) n 0 s)
      else
        let image := if fmtBlock (cfgA c) then streamScaleBytes c * n else 0
        let stalls := if cfgForm c = 0 then 0 else linesTouched (s.csrOf t 0x800) image
        s.imageFor t agArray (s.csrOf t 0x800) image (fmtBlock (cfgA c)) (fun s sc =>
          if !e then streamedEnd t stalls (streamAll (fun s i => s.streamLine t w addr start i sc none) n 0 s)
          else if hdr % 8 ≠ 0 then .trap cIllegal s
          else s.imageFor t agArray hdr 32 true (fun s hb =>
            let h := escHeader hb
            if !h.aligned then .trap cIllegal s
            else streamedEnd t stalls (streamAll (fun s i => s.streamLine t w addr start i sc (some h)) n 0 s)))))) ∧
  (∀ (tile : Nat) (w : Nat) (u : State) (s : State), s.coreRuns tile = true → s.fetchInst tile = (.inst w 4, u) → opOfInst w 4 = .mdrain → u.rs1 tile w / 2 ^ 32 = 0 → bits (u.rs1 tile w) 19 0 % 32 = 0 → bits (u.rs1 tile w) 25 20 + bits (u.rs1 tile w) 31 26 < 64 → bits (u.rs2 tile w) 19 0 % 32 = 0 → imageBytes (bits w 28 25) ≤ bits (u.rs2 tile w) 19 0 → bits (u.rs1 tile w) 19 0 + bits (u.rs1 tile w) 31 26 * bits (u.rs2 tile w) 19 0 + imageBytes (bits w 28 25) ≤ scratchBytes → bits w 28 25 < 12 → (cfgSlice (u.tile tile).cfg = false ∨ bit w 31 = false ∧ (bits w 28 25 < 4 ∨ bits w 28 25 = 11)) → exec (.mdrain tile) s = .next (u.retire tile (
      let s := u
      let t := tile
      let x := s.tile t
      let v := s.rs1 t w
      let dest := bits v 19 0
      let first := bits v 25 20
      let n := bits v 31 26 + 1
      let stride := bits (s.rs2 t w) 19 0
      let fmt := bits w 28 25
      let me := s.csrOf t 0x803
      let rows (s : State) (h : Option EscHeader) : State × Option EscHeader :=
        (List.range n).foldl (fun (p : State × Option EscHeader) i => p.1.drainRow t w (first + i) i (dest + i * stride) p.2) (s, h)
      if bit me 63 && drain4 fmt then
        let a := bits me 19 0
        s.imageFor t agDrain a 32 true (fun s hb =>
          let s := s.setTile t { s.tile t with escs := insertNat a (s.tile t).escs }
          let (s, h) := rows s (some (escHeader hb))
          let s := match h with | some h => s.tileWrite t agDrain a (h.words hb) | none => s
          .go s (s.after t))
      else let s := (rows s none).1; .go s (s.after t)))) ∧
  (∀ (tile : Nat) (w : Nat) (u : State) (s : State), s.coreRuns tile = true → s.fetchInst tile = (.inst w 4, u) → opOfInst w 4 = .mzero → (cfgSlice (u.tile tile).cfg = false ∨ bit w 31 = false) → exec (.mzero tile) s = .next (u.retire tile (
      let s := u
      let t := tile
      let x := s.tile t
      .go (s.setTile t (if cfgSlice x.cfg then { x with comb := [] } else if bit w 31 then { x with k1 := Bank.empty } else { x with k0 := Bank.empty })) (s.after t)))) ∧
  (∀ (tile : Nat) (w : Nat) (u : State) (s : State), s.coreRuns tile = true → s.fetchInst tile = (.inst w 4, u) → opOfInst w 4 = .mfence → exec (.mfence tile) s = .next (u.retire tile (
      let s := u
      let t := tile
      .ended (s.setTile t { s.tile t with wait := .fence })))) ∧
  (∀ (tile : Nat) (w : Nat) (u : State) (s : State), s.coreRuns tile = true → s.fetchInst tile = (.inst w 4, u) → opOfInst w 4 = .tdma → tdmaOk (u.rs1 tile w) (u.rs2 tile w) = true → u.glb.stop = 0 → (u.tile tile).tdma.length < 16 → (u.tile tile).tdma.any (fun c => c.tag == bits (u.rs2 tile w) 43 40) = false → exec (.tdma tile) s = .next (u.retire tile (
      let s := u
      let t := tile
      let r := s.rs1 t w
      let l := s.rs2 t w
      let x := s.tile t
      let tag := bits l 43 40
      let toMem := bit r 63
      let acc : Acc := if toMem then .read else .write
      let acc : Acc := if acc = Acc.read then .write else .read
      match x.run with
        | none => .ended s
        | some d =>
          match s.translate d.ctx (bits r 55 0) acc with
          | .fault kind seg => .ended (s.tileFault t d.ctx (bits r 55 0) kind seg acc)
          | .ok g seg left =>
            match s.tdmaWalk d.ctx acc 64 (bits r 55 0 + left) (bits l 39 20 - left) with
            | some (va, kind, seg) => .ended (s.tileFault t d.ctx va kind seg acc)
            | none =>
            if !s.tileRoute t g then
              .ended ((s.refusal blkNoc 0 8 (bits r 55 0)).endKernel t stNocTimeout 0)
            else
              let c : TdmaCmd := { tag := tag, toMem := toMem, va := bits r 55 0, scr := bits l 19 0, len := bits l 39 20, pos := 0,
                                   held := seg, buf := none, bad := false }
              .go (s.setTile t { x with tdma := x.tdma ++ [c] }) (s.after t)))) ∧
  (∀ (tile : Nat) (w : Nat) (u : State) (s : State), s.coreRuns tile = true → s.fetchInst tile = (.inst w 4, u) → opOfInst w 4 = .tdmaf → tdmaOk (u.rs1 tile w) (u.rs2 tile w) = true → u.glb.stop = 0 → (u.tile tile).tdma = [] → exec (.tdmaf tile) s = .next (u.retire tile (
      let s := u
      let t := tile
      let r := s.rs1 t w
      let l := s.rs2 t w
      let x := s.tile t
      let tag := bits l 43 40
      let toMem := bit r 63
      let acc : Acc := if toMem then .read else .write
      let acc : Acc := if acc = Acc.read then .write else .read
      match x.run with
        | none => .ended s
        | some d =>
          match s.translate d.ctx (bits r 55 0) acc with
          | .fault kind seg => .ended (s.tileFault t d.ctx (bits r 55 0) kind seg acc)
          | .ok g seg left =>
            match s.tdmaWalk d.ctx acc 64 (bits r 55 0 + left) (bits l 39 20 - left) with
            | some (va, kind, seg) => .ended (s.tileFault t d.ctx va kind seg acc)
            | none =>
            if !s.tileRoute t g then
              .ended ((s.refusal blkNoc 0 8 (bits r 55 0)).endKernel t stNocTimeout 0)
            else
              let c : TdmaCmd := { tag := tag, toMem := toMem, va := bits r 55 0, scr := bits l 19 0, len := bits l 39 20, pos := 0,
                                   held := seg, buf := none, bad := false }
              .go (s.setTile t { x with tdma := x.tdma ++ [c] }) (s.after t)))) ∧
  (∀ (tile : Nat) (w : Nat) (u : State) (s : State), s.coreRuns tile = true → s.fetchInst tile = (.inst w 4, u) → opOfInst w 4 = .twait → exec (.twait tile) s = .next (u.retire tile (
      let s := u
      let t := tile
      let m := s.rs1 t w % 65536
      if (s.tile t).tdma.any (fun c => bit m c.tag) then .ended (s.setTile t { s.tile t with wait := .tags m }) else .go s (s.after t)))) ∧
  (∀ (tile : Nat) (w : Nat) (u : State) (s : State), s.coreRuns tile = true → s.fetchInst tile = (.inst w 4, u) → opOfInst w 4 = .tpoll → accessTrap (u.rs1 tile w) 8 cLoadAlign cLoadAccess = none → exec (.tpoll tile) s = .next (u.retire tile (
      let s := u
      let t := tile
      let a := s.rs1 t w
      let v := s.rs2 t w
      s.readFor t agCore a 8 (fun s bs =>
          if leValue bs = v then .ended (s.setTile t { s.tile t with wait := .poll a v }) else .go s (s.after t))))) ∧
  (∀ (tile : Nat) (w : Nat) (u : State) (s : State), s.coreRuns tile = true → s.fetchInst tile = (.inst w 4, u) → opOfInst w 4 = .tend → (u.tile tile).tdma = [] → exec (.tend tile) s = .next (u.retire tile (
      let s := u
      let t := tile
      .ended ((s.setTile t { s.tile t with instret := (s.tile t).instret + 1 }).endKernel t stSuccess (s.rs1 t w % 65536))))) ∧
  (∀ (tile : Nat) (w : Nat) (u : State) (s : State), s.coreRuns tile = true → s.fetchInst tile = (.inst w 4, u) → opOfInst w 4 = .fenceI → exec (.fenceI tile) s = .next (u.retire tile (
      let s := u
      let t := tile
      .go (s.setTile t { s.tile t with ibuf := [] }) (s.after t)))) ∧
  (∀ (tile : Nat) (w len : Nat) (u : State) (s : State), s.coreRuns tile = true → s.fetchInst tile = (.inst w len, u) → opOfInst w len = .std → exec (.controlCoreInstruction tile) s = .next (u.retire tile (u.coreStd tile (if len = 2 then expandC w else w) len))) ∧
  (∀ (tile : Nat) (s : State), (s.tile tile).wait = .fence → exec (.mfenceRelease tile) s = .next (
      ((s.setTile tile { s.tile tile with unsettled := [] }).release tile))) ∧
  (∀ (tile : Nat) (m : Nat) (s : State), (s.tile tile).wait = .tags m → (s.tile tile).tdma.any (fun c => bit m c.tag) = false → exec (.twaitRelease tile) s = .next (
      (s.release tile))) ∧
  (∀ (tile : Nat) (a v : Nat) (bs : List Byte) (u : State) (s : State), (s.tile tile).wait = .poll a v → s.tileRead tile agCore a 8 = (some bs, u) → leValue bs ≠ v → exec (.tpollRelease tile) s = .next (
      u.release tile)) ∧
  (∀ (tile : Nat) (tag : Nat) (d : TileDisp) (s : State), (s.tile tile).run = some d → (s.tdmaOf tile tag).isSome = true → s.tilePaused tile = false → s.quadRuns (s.quadOf tile) = true → exec (.tdmaComplete tile tag) s = .next (
      let s := if s.classBelow (s.quadOf tile) then s.updRun d.ring d.seq (fun (r : Run) => { r with oversub := true }) else s
      ((s.tdmaPieces tile tag tdmaMaxPieces).tdmaEnd tile tag)))

/-- O6. Dispatch start, traps, time limits, tile failures and accesses to scratch windows -/
def Obligations.KernelAndScratchEventsTakeEffect : Prop :=
  (∀ (tile : Nat) (d : TileDisp) (rest : List TileDisp) (s : State), (s.tile tile).run = none → (s.tile tile).queue = d :: rest → s.glb.stop = 0 → s.tileFenced tile = false → s.quadRuns (s.quadOf tile) = true → exec (.dispatchStart tile) s = .next (
      let x := s.tile tile
      let s := s.setTile tile (x.start tile s.now d rest)
      let s := (s.tileState tile 1).wr (Reg.TILE_STATUS_ring (tile / 16) (tile % 16)) d.ring
      (s.perf tile 7 1))) ∧
  (∀ (tile : Nat) (w len cause : Nat) (u v : State) (s : State), s.coreRuns tile = true → s.fetchInst tile = (.inst w len, u) → u.opInst tile w len (opOfInst w len) = .trap cause v → exec (.kernelTrap tile) s = .next (v.kernelTrap tile cause (s.tile tile).pc)) ∧
  (∀ (tile : Nat) (cause : Nat) (u : State) (s : State), s.coreRuns tile = true → s.fetchInst tile = (.fault cause, u) → exec (.kernelTrap tile) s = .next (u.kernelTrap tile cause (s.tile tile).pc)) ∧
  (∀ (tile : Nat) (d : TileDisp) (s : State), (s.tile tile).run = some d → d.limitUs ≠ 0 → d.limitUs * 2 ^ 32 / 1000000 ≤ s.now - (s.tile tile).startedAt → exec (.kernelTimeout tile) s = .next (
      let s := match s.slotOf tile with
        | some p => s.setSlot p { s.slot p with fault := putBits (s.slot p).fault 7 0 2 }
        | none => s
      (s.endKernel tile stKernelTimeout 0))) ∧
  (∀ (req : MemReq) (s : State), exec (.scratchWindowAccess req) s = .next (
      (s.windowAccess req))) ∧
  (∀ (tile : Nat) (cause : Nat) (s : State), (cause = 0x10 ∨ cause = 0x11 ∨ cause = 0x13) → exec (.tileFailure tile cause) s = .next (
      (s.failTile tile cause))) ∧
  (∀ (tile : Nat) (which : Nat) (s : State), s.tileUnmapped tile = false → s.on (Reg.TILE_CFG_perf_run (tile / 16) (tile % 16)) = true → which = 0 → exec (.perfCounterWrap tile which) s = .next (s.perfAdd tile 0 (2 ^ 48 - s.rd (Reg.TILE_PERF0_count (tile / 16) (tile % 16))))) ∧
  (∀ (tile : Nat) (which : Nat) (s : State), s.tileUnmapped tile = false → s.on (Reg.TILE_CFG_perf_run (tile / 16) (tile % 16)) = true → which ≠ 0 → exec (.perfCounterWrap tile which) s = .next (s.perfAdd tile 1 (2 ^ 48 - s.rd (Reg.TILE_PERF1_count (tile / 16) (tile % 16)))))

/-- O7. What the commands of the on-chip network do -/
def Obligations.NetworkCommandsTakeEffect : Prop :=
  (∀ (req : TileRequest) (s : State), exec (.packetEject req) s = .next (
      ((req.corrected.foldl (fun (s : State) k => s.corrected Reg.NOC_ERR_CORR_corrected blkNoc k) s).windowAccess req.body))) ∧
  (∀ (link : Nat) (corrected : Nat) (third : Bool) (s : State), exec (.flitReplay link corrected third) s = .next (
      let s := (List.range corrected).foldl (fun (s : State) _ => s.corrected Reg.NOC_ERR_CORR_corrected blkNoc link) s
      let s := s.sat Reg.NOC_ERR_REPLAY_replays 1
      let recent := ((s.noc.replays.get [] link).filter (fun t => decide (s.now - t < secUnits))) ++ [s.now]
      let s := { s with noc := { s.noc with replays := s.noc.replays.put link recent } }
      (if third || decide (1000 < recent.length) then s.retireLink link else s))) ∧
  (∀ (s : State), exec .routeSwitchover s = .next (
      s.switchover)) ∧
  (∀ (cluster : Nat) (s : State), exec (.routerLoss cluster) s = .next (
      (s.loseCluster (cluster % 128)))) ∧
  (∀ (t : Nat) (s : State), (s.tile t).run.isSome = true → (s.tile t).tdma.any (fun c => s.endsByTimeout (.tile t c.tag)) = true → exec (.nocRequestTimeout (.tile t)) s = .next ((((s.tile t).tdma.filter (fun c => s.endsByTimeout (.tile t c.tag))).foldl (fun (s : State) (c : TdmaCmd) => s.dropReqs (.tile t c.tag)) (s.sat Reg.NOC_TIMEOUTS_timeouts 1)).endKernel t stNocTimeout 0)) ∧
  (∀ (r seq : Nat) (d : Run) (s : State), s.runOf r seq = some d → d.status = none → s.endsByTimeout (.run r seq) = true → exec (.nocRequestTimeout (.ring r seq)) s = .next (((s.sat Reg.NOC_TIMEOUTS_timeouts 1).dropReqs (.run r seq)).failMove r seq stNocTimeout)) ∧
  (∀ (s : State), exec .nocLateResponse s = .next (
      (s.sat Reg.NOC_TIMEOUTS_late 1))) ∧
  (∀ (v : Word) (s : State), bit v.toNat 0 = true → 100 ≤ s.shf Reg.NOC_CFG_timeout_us → s.shf Reg.NOC_CFG_timeout_us ≤ 10000 → s.badRoute = none → exec (.nocCommit v) s = .next (
      (s.loseUnreachable 128).routesTaken)) ∧
  (∀ (s : State), exec .nocPllUnlock s = .next (
      (s.fatalStop 0x0C11 0 2 0 false)))

/-- O8. What the commands of the memory controllers do -/
def Obligations.MemoryCommandsTakeEffect : Prop :=
  (∀ (req : MemReq) (s : State), exec (.memoryRead req) s = .next (
      (s.memoryRequest { req with data := none }))) ∧
  (∀ (req : MemReq) (s : State), exec (.memoryWrite req) s = .next (
      (s.memoryRequest { req with data := some (req.data.getD []) }))) ∧
  (∀ (line : Nat) (e : WcbEntry) (s : State), s.wcbOf line = some e → exec (.wcbAgeExpiry line) s = .next (s.wcbRetire e)) ∧
  (∀ (ctl : Nat) (ch : Nat) (pc : Nat) (s : State), exec (.writeBurstRelease ctl ch pc) s = .next (
      let here := s.hbm.wq.filter (fun e =>
        let a := 32 * e.sector
        let o := a % granuleBytes
        let m := (s.own (a / granuleBytes)).mode
        (s.place a).1 == ctl && channelOf m o == ch && pcOf m o == pc)
      let order := (List.range 7).flatMap (fun k => here.filter (fun e => s.rankOf ctl e == k))
      if decide (24 ≤ here.length) || here.any (fun e => decide (e.since + usTime 2 ≤ s.now)) then ((order.take 16).foldl State.wqOut s) else s)) ∧
  (∀ (sector : Nat) (s : State), exec (.requestAgePromotion sector) s = .next (
      { s with hbm := { s.hbm with wq := s.hbm.wq.map (fun (e : WrEntry) =>
        if e.sector = sector ∧ e.level = 3 ∧ e.since + usTime 10 ≤ s.now then { e with level := 2 } else e) } })) ∧
  (∀ (addr : Nat) (ecc : Ecc) (s : State), addr < s.memTop → s.serves addr = true → s.injected addr 32 ecc = .corrected → exec (.scrubVisit addr ecc) s = .next ((s.useInjection addr 32).sectorCorrected addr)) ∧
  (∀ (addr : Nat) (ecc : Ecc) (s : State), addr < s.memTop → s.serves addr = true → s.injected addr 32 ecc = .uncorrectable → (s.own (addr / granuleBytes)).bedrock = false → (s.useInjection addr 32).sectorPoisoned (addr / 32) = false → exec (.scrubVisit addr ecc) s = .next ((s.useInjection addr 32).sectorLost addr)) ∧
  (∀ (r : RowErr) (t : List RowErr) (s : State), s.hbm.rowList = r :: t → exec .pprRepair s = .next ((({ s with hbm := { s.hbm with rowList := t } }).showRows).repairRow r)) ∧
  (∀ (r : RowErr) (t : List RowErr) (s : State), s.hbm.rowList = r :: t → exec .pprDismiss s = .next (({ s with hbm := { s.hbm with rowList := t } }).showRows)) ∧
  (∀ (stack : Nat) (tempC : Nat) (s : State), stack < 8 → s.rd (Reg.HBM_STACK_STATUS_state stack) < 5 → (s.fuse.part ≠ Part.x672 ∨ stack ≠ 7) → exec (.stackTempRead stack tempC) s = .next (
      let st := s.rd (Reg.HBM_STACK_STATUS_state stack)
      let n := s.hbm.tempReads.get 0 stack + 1
      let s := { s with hbm := { s.hbm with tempReads := s.hbm.tempReads.put stack (n % 100) } }
      let s := if n = 100 then
          let s := s.wr (Reg.HBM_STACK_STATUS_temp_c stack) (min tempC 255)
          s.wr Reg.PWR_TEMP_stack_max_c s.hottest
        else s
      if st = 4 then s
      else if 105 ≤ tempC then (s.haltStack stack)
      else (s.wr (Reg.HBM_STACK_STATUS_state stack) (thermalStep st tempC)))) ∧
  (∀ (s : State), s.on Reg.HBM_GRAN_STATUS_busy = false → s.rd Reg.HBM_GRAN_RANGE_first + s.rd Reg.HBM_GRAN_RANGE_count_m1 + 1 ≤ s.granules → s.rd Reg.HBM_GRAN_ATTR_mode ≠ 3 → exec .granSet s = .next (let first := s.rd Reg.HBM_GRAN_RANGE_first
      let op : GranOp := { zero := false, next := first, last := first + s.rd Reg.HBM_GRAN_RANGE_count_m1, owner := s.rd Reg.HBM_GRAN_ATTR_owner, mode := s.rd Reg.HBM_GRAN_ATTR_mode }
      ((({ s with hbm := { s.hbm with gran := some op } }).wr Reg.HBM_GRAN_STATUS_busy 1).wr Reg.HBM_GRAN_STATUS_result 0).granNext.granRecall)) ∧
  (∀ (s : State), s.on Reg.HBM_GRAN_STATUS_busy = false → s.rd Reg.HBM_GRAN_RANGE_first + s.rd Reg.HBM_GRAN_RANGE_count_m1 + 1 ≤ s.granules → s.rd Reg.HBM_GRAN_ATTR_mode ≠ 3 → exec .granSetZero s = .next (let first := s.rd Reg.HBM_GRAN_RANGE_first
      let op : GranOp := { zero := true, next := first, last := first + s.rd Reg.HBM_GRAN_RANGE_count_m1, owner := s.rd Reg.HBM_GRAN_ATTR_owner, mode := s.rd Reg.HBM_GRAN_ATTR_mode }
      ((({ s with hbm := { s.hbm with gran := some op } }).wr Reg.HBM_GRAN_STATUS_busy 1).wr Reg.HBM_GRAN_STATUS_result 0).granNext.granRecall)) ∧
  (∀ (s : State), exec .granRead s = .next (
      s.granRead)) ∧
  (∀ (op : GranOp) (s : State), s.hbm.gran = some op → s.rangeHeld (op.next * granuleBytes) granuleBytes = false → exec .granDrainDone s = .next (s.granDrained.granRecall.homeRetry.homeKick)) ∧
  (∀ (granule : Nat) (s : State), (s.own granule).fresh = true → exec (.zeroingPass granule) s = .next (
      (s.setOwn granule { s.own granule with fresh := false }).showZero)) ∧
  (∀ (granule : Nat) (data : List Byte) (digest : Nat) (rep : BrRepair) (s : State), s.rd Reg.HBM_BEDROCK_state ≠ 1 → s.repairOf granule = some rep → (rep.stage = .manager ∨ rep.stage = .deputy) → (s.mram.manifest.map Manifest.digest) = some digest → s.bedrockOk granule data = true → exec (.bedrockBlock granule data digest) s = .next (s.brAccept granule data)) ∧
  (∀ (granule : Nat) (data : List Byte) (digest : Nat) (s : State), s.rd Reg.HBM_BEDROCK_state = 1 → exec (.bedrockBlock granule data digest) s = .next (s.brLoad granule data (((s.mram.manifest.map Manifest.digest) == some digest) || s.hbm.brHost.isSome))) ∧
  (∀ (granule : Nat) (rep : BrRepair) (s : State), s.repairOf granule = some rep → (rep.stage = .manager ∨ rep.stage = .deputy) → exec (.bedrockFetchTimeout granule) s = .next ((s.event blkHbm 0x0A 0 rep.ctl (20000 + (if rep.stage = .manager then s.managerDev else s.deputyDev) * 2 ^ 32)).brOnward rep)) ∧
  (∀ (v : DWord) (s : State), s.on Reg.HBM_BR_PEND_pending = true → s.brStaging (bits v.toNat 47 0) = true → s.bedrockOk (s.rd Reg.HBM_BR_PEND_granule) (s.memBytes (bits v.toNat 47 0) granuleBytes) = true → exec (.bedrockSupply v) s = .next (s.brAccept (s.rd Reg.HBM_BR_PEND_granule) (s.memBytes (bits v.toNat 47 0) granuleBytes))) ∧
  (∀ (granule : Nat) (rep : BrRepair) (s : State), s.repairOf granule = some rep → rep.stage = .driver → exec (.bedrockSupplyTimeout granule) s = .next (let u := (s.poisonParked granule).fallback 6; (u.brStage granule (if u.isManager then .deputy else .manager)).send (.brFetch granule u.isManager))) ∧
  (∀ (v : Word) (s : State), bits v.toNat 0 0 = 1 → 1 ≤ s.shf Reg.HBM_CFG_scrub_hours → s.shf Reg.HBM_CFG_scrub_hours ≤ 48 → 1 ≤ s.shf Reg.HBM_CFG_wcb_age_us → s.shf Reg.HBM_CFG_wcb_age_us ≤ 64 → exec (.hbmCommit v) s = .next (
      ((s.commitReg Reg.HBM_CFG).commitDone Reg.HBM_COMMIT_STATUS))) ∧
  (∀ (samples : List CtlSample) (s : State), exec (.regEpoch samples) s = .next (
      let s := match s.regul.pend with
        | some set => ({ s with regul := { s.regul with pend := none } }).applySet set
        | none => s
      let s := { s with regul := { s.regul with epochs := s.regul.epochs + 1 } }
      let s := (samples.filter (fun k => decide (k.ctl < 16))).foldl State.ctlEpoch s
      (s.showClasses samples).markBelow)) ∧
  (∀ (v : Word) (s : State), bits v.toNat 0 0 = 1 → (s.showCheck (fun c => s.shd (Reg.REG_CLASS_FLOOR c))).badClassField = none → (s.showCheck (fun c => s.shd (Reg.REG_CLASS_FLOOR c))).overload (fun c => s.shd (Reg.REG_CLASS_FLOOR c)) = none → exec (.regCommit v) s = .next (
      let set := fun c => s.shd (Reg.REG_CLASS_FLOOR c)
      let s := s.showCheck set
      let offs := (List.range 45).map Reg.REG_CLASS_FLOOR ++ (List.range 44).map Reg.REG_CLASS_CTL
      let cap := offs.map (fun o => (o, BitVec.ofNat 64 (s.shd o)))
      ({ s with regul := { s.regul with pend := some cap } }.commitDone Reg.REG_COMMIT_STATUS))) ∧
  (∀ (cls : Nat) (ctl : Nat) (r : MemReq) (s : State), s.hasCredit cls ctl = true → s.hbm.credWait.find? (fun r => r.cls == cls && (s.place r.addr).1 == ctl) = some r → exec (.creditSend cls ctl) s = .next (({ s with hbm := { s.hbm with credWait := s.hbm.credWait.erase r } }).memRequest r))

/-- O9. What invalidations, fault records and site requests do -/
def Obligations.TranslationCommandsTakeEffect : Prop :=
  (∀ (v : Word) (internal : Bool) (f : Nat) (s : State), s.xlatRefusal v.toNat internal = some f → exec (.xlatInv v internal) s = .next (s.commitRefused Reg.XLAT_COMMIT_STATUS f)) ∧
  (∀ (v : Word) (internal : Bool) (s : State), s.xlatRefusal v.toNat internal = none → exec (.xlatInv v internal) s = .next (
      let c := bits v.toNat 5 0
      let mask := bits v.toNat 31 16
      let sites := bit v.toNat 7
      let was := s.on (Reg.XLAT_CTX_enable c)
      let moved := s.shf (Reg.XLAT_CTX c |> fun o => ⟨o, 31, 0⟩) != s.rd ⟨Reg.XLAT_CTX c, 31, 0⟩
      let bump := (List.range 16).filter (fun k => bit mask k || was != (s.shf (Reg.XLAT_CTX_enable c) == 1))
      let bound := (List.range 8).any (fun n => s.on (siteBound n) && s.rd (siteCtx n) == c)
      let ranges := if bound then (bump.map (s.segSet c)).filterMap (fun x =>
        if x.valid && x.coherent then some (x.target, x.size) else none) else []
      let ids := (s.acc.outq.filter (fun o => o.ctx == c && o.ans.isNone && (match o.seg with | some (k, _) => bump.contains k | none => false))).map OutReq.id
      let reqs := (s.xlat.siteReqs.filter (fun q => sites || (q.ctx == c && bump.contains q.seg))).map SiteReq.id
      let s := s.commitReg (Reg.XLAT_CTX c)
      let s := (List.range 16).foldl (fun (s : State) k =>
        if bit mask k then s.commitRegs [Reg.SEG_BASE c k, Reg.SEG_LIMIT c k, Reg.SEG_TARGET c k, Reg.SEG_ATTR c k] else s) s
      let s := if sites then s.commitRegs ((List.range 4).map Reg.XLAT_SITE_CTX) else s
      let s := (bump.foldl (fun (s : State) k => s.bumpGen c k) s).mirrorsMoved c
      let tag := bits v.toNat 15 8
      let s := (s.commitDone Reg.XLAT_COMMIT_STATUS).wr Reg.XLAT_INV_DONE_last_accepted tag
      let p : XlatPend := { tag := tag, ids := ids, reqs := reqs, ranges := ranges }
      let s := ({ s with xlat := { s.xlat with pend := s.xlat.pend ++ [p] } }).showXlat
      if mask = 0 ∧ moved = false ∧ sites = false then s.invDone else s)) ∧
  (∀ (s : State), exec .invalidationDone s = .next (
      s.invDone)) ∧
  (∀ (index : Nat) (s : State), s.rd (Reg.XLAT_FAULT_INFO_state (index % 64)) ≠ 0 → exec (.faultResume index) s = .next (((s.joinedTo (index % 64)).filter (s.waitsUnder (index % 64))).foldl State.resumeAgent (s.freeRecord (index % 64)))) ∧
  (∀ (index : Nat) (s : State), s.rd (Reg.XLAT_FAULT_INFO_state (index % 64)) ≠ 0 → exec (.faultAbort index) s = .next (s.abortRecord (index % 64))) ∧
  (∀ (site : SiteModule) (tag : Nat) (va : Nat) (len : Nat) (write : Bool) (data : List (Option Byte)) (poison : Bool) (s : State), exec (.siteRequest site tag va len write data poison) s = .next (
      let n := site.site
      let s := s.leaveL1 n site.module
      if !s.siteOpen n then s
      else if site.module != s.carrierOf n (some va) then ((s.misroutedAt n va).refuseUncached n tag write)
      else (s.siteRequest n tag va len write data poison)))

/-- O10. What doorbells, fetches, completions and ring commands do -/
def Obligations.QueueCommandsTakeEffect : Prop :=
  (∀ (src : BusSrc) (write : Bool) (off : Nat) (size : Nat) (v : Word) (s : State), s.barOk src = true → write = true → size = 4 → off % 4096 = 0 → exec (.doorbell src write off size v) s = .next (s.ringDoorbell (off / 4096 % 8192) off v)) ∧
  (∀ (ring : Nat) (s : State), s.glb.stop = 0 → s.rd (Reg.QM_RING_STATE_state ring) = ringActive → s.rd Reg.HOST_STATUS_dstate ≠ 3 → s.glb.armed.contains (64 + s.ringCtx ring) = false → exec (.descriptorFetch ring) s = .next (
      match s.openHamper ring with
        | some q => (s.fetchSub ring q)
        | none => (s.fetchNext ring))) ∧
  (∀ (ring : Nat) (q : QDesc) (s : State), (s.ring ring).fetched.head? = some q → s.glb.stop = 0 → s.rd (Reg.QM_RING_STATE_state ring) = ringActive → s.mayIssue ring (s.fenceOf ring q.bytes) = true → s.knownOp ring q.bytes = true → s.isOp ring 1 q.bytes = true → ((s.ringCls ring ≠ clsCrc ∧ s.ringCls ring ≠ clsStream) ∨ s.streamBusy ring = false) → exec (.hamper ring) s = .next (s.issueHamper ring q)) ∧
  (∀ (ring : Nat) (d : Run) (s : State), s.glb.stop = 0 → s.ringWaits ring = false → s.rd (Reg.QM_RING_STATE_state ring) ≠ ringDisabled → s.restingHamper ring = some d → exec (.hamperNextSub ring) s = .next (s.hamperOn ring d)) ∧
  (∀ (ring : Nat) (s : State), s.glb.stop = 0 → exec (.completionWrite ring) s = .next (
      (s.completeHead ring))) ∧
  (∀ (ring : Nat) (s : State), s.on (Reg.QM_RING_IRQ_irq_en ring) = true → s.rd (Reg.QM_RING_IRQ_mod_us ring) ≠ 0 → (s.ring ring).unsig ≠ 0 → exec (.moderationTimeout ring) s = .next ((s.setRing ring { s.ring ring with unsig := 0, unsigAt := none }).msix (s.rd (Reg.QM_RING_IRQ_vector ring)))) ∧
  (∀ (ring : Nat) (s : State), exec (.wakeHoldExpiry ring) s = .next (
      (s.setRing ring { s.ring ring with holdEnd := none, holdUs := 0 }))) ∧
  (∀ (v : Word) (s : State), bit v.toNat 31 = true → (s.ringMoved (bits v.toNat 12 0) = false ∨ (s.ringIdle (bits v.toNat 12 0) = true ∧ s.ringFault0 (bits v.toNat 12 0) = 0)) → (s.on (Reg.QM_RING_CFG_enable (bits v.toNat 12 0)) = false ∨ s.shf (Reg.QM_RING_CFG_enable (bits v.toNat 12 0)) = 1 ∨ s.ringIdle (bits v.toNat 12 0) = true) → (s.on (Reg.QM_RING_CFG_enable (bits v.toNat 12 0)) = true ∨ s.shf (Reg.QM_RING_CFG_enable (bits v.toNat 12 0)) ≠ 1 ∨ s.ringFault0 (bits v.toNat 12 0) = 0) → exec (.qmCommit v) s = .next (
      let r := bits v.toNat 12 0
      let was := s.on (Reg.QM_RING_CFG_enable r)
      let will := s.shf (Reg.QM_RING_CFG_enable r) == 1
      let s := s.commitRegs [Reg.QM_RING_BASE r, Reg.QM_RING_CQ r, Reg.QM_RING_CFG r, Reg.QM_RING_IRQ r, Reg.QM_RING_QUADS r]
      let s := if will && !was then
          (((s.clearRing r).unhalt r ringActive).wr (Reg.QM_RING_STATE_tail r) 0).setReg (Reg.QM_RING_SEQ r) 0
            |>.setReg (Reg.QM_RING_FETCH r) 0
        else if was && !will then (s.clearRing r).unhalt r ringDisabled
        else s
      (s.commitDone Reg.QM_COMMIT_STATUS))) ∧
  (∀ (ring : Nat) (s : State), s.rd (Reg.QM_RING_STATE_state ring) = ringHalted → exec (.restart ring) s = .next ((s.setRing ring { s.ring ring with cmd := 1 }).ringCommand ring)) ∧
  (∀ (ring : Nat) (s : State), s.rd (Reg.QM_RING_STATE_state ring) = ringHalted → exec (.abort ring) s = .next ((s.setRing ring { s.ring ring with cmd := 2 }).ringCommand ring))

/-- O11. What the descriptors of mover and compute rings do -/
def Obligations.MoverAndDispatchDescriptorsIssue : Prop :=
  (∀ (ring : Nat) (q : QDesc) (held : Held) (s : State), (s.ring ring).fetched.head? = some q → s.glb.stop = 0 → s.rd (Reg.QM_RING_STATE_state ring) = ringActive → s.mayIssue ring (s.fenceOf ring q.bytes) = true → s.knownOp ring q.bytes = true → s.isOp ring 0 q.bytes = true → nopOk q.bytes = true → s.checkFields ring q.phys (s.strictOf ring q.bytes) (s.addrFields ring q.bytes) q.held = .ok held → s.engineGone ring = false → exec (.nop ring) s = .next (((s.takeHead ring q).updRun ring q.seq (fun (d : Run) => { d with held := held })).startNop ring q.seq)) ∧
  (∀ (ring : Nat) (q : QDesc) (held : Held) (s : State), (s.ring ring).fetched.head? = some q → s.glb.stop = 0 → s.rd (Reg.QM_RING_STATE_state ring) = ringActive → s.mayIssue ring (s.fenceOf ring q.bytes) = true → s.knownOp ring q.bytes = true → s.isOp ring 0x10 q.bytes = true → copyOk q.bytes = true → s.checkFields ring q.phys (s.strictOf ring q.bytes) (s.addrFields ring q.bytes) q.held = .ok held → s.engineGone ring = false → exec (.copy ring) s = .next (((s.takeHead ring q).updRun ring q.seq (fun (d : Run) => { d with held := held })).startMove ring q.seq)) ∧
  (∀ (ring : Nat) (q : QDesc) (held : Held) (s : State), (s.ring ring).fetched.head? = some q → s.glb.stop = 0 → s.rd (Reg.QM_RING_STATE_state ring) = ringActive → s.mayIssue ring (s.fenceOf ring q.bytes) = true → s.knownOp ring q.bytes = true → s.isOp ring 0x11 q.bytes = true → fillOk q.bytes = true → s.checkFields ring q.phys (s.strictOf ring q.bytes) (s.addrFields ring q.bytes) q.held = .ok held → s.engineGone ring = false → exec (.fill ring) s = .next (((s.takeHead ring q).updRun ring q.seq (fun (d : Run) => { d with held := held })).startMove ring q.seq)) ∧
  (∀ (ring : Nat) (q : QDesc) (held : Held) (s : State), (s.ring ring).fetched.head? = some q → s.glb.stop = 0 → s.rd (Reg.QM_RING_STATE_state ring) = ringActive → s.mayIssue ring (s.fenceOf ring q.bytes) = true → s.knownOp ring q.bytes = true → s.isOp ring 0x12 q.bytes = true → s.undrained ring = false → writeImmOk q.bytes = true → s.checkFields ring q.phys (s.strictOf ring q.bytes) (s.addrFields ring q.bytes) q.held = .ok held → s.engineGone ring = false → exec (.writeImm ring) s = .next (((s.takeHead ring q).updRun ring q.seq (fun (d : Run) => { d with held := held })).startMove ring q.seq)) ∧
  (∀ (ring : Nat) (q : QDesc) (held : Held) (s : State), (s.ring ring).fetched.head? = some q → s.glb.stop = 0 → s.rd (Reg.QM_RING_STATE_state ring) = ringActive → s.mayIssue ring (s.fenceOf ring q.bytes) = true → s.knownOp ring q.bytes = true → s.isLegacyOp ring 0 q.bytes = true → legacyOk q.bytes 0 = true → s.checkFields ring q.phys (s.strictOf ring q.bytes) (s.addrFields ring q.bytes) q.held = .ok held → s.engineGone ring = false → exec (.legacyNop ring) s = .next (((s.takeHead ring q).updRun ring q.seq (fun (d : Run) => { d with held := held })).startNop ring q.seq)) ∧
  (∀ (ring : Nat) (q : QDesc) (held : Held) (s : State), (s.ring ring).fetched.head? = some q → s.glb.stop = 0 → s.rd (Reg.QM_RING_STATE_state ring) = ringActive → s.mayIssue ring (s.fenceOf ring q.bytes) = true → s.knownOp ring q.bytes = true → s.isLegacyOp ring 1 q.bytes = true → legacyOk q.bytes 1 = true → s.checkFields ring q.phys (s.strictOf ring q.bytes) (s.addrFields ring q.bytes) q.held = .ok held → s.engineGone ring = false → exec (.legacyCopy ring) s = .next (((s.takeHead ring q).updRun ring q.seq (fun (d : Run) => { d with held := held })).startMove ring q.seq)) ∧
  (∀ (ring : Nat) (q : QDesc) (held : Held) (s : State), (s.ring ring).fetched.head? = some q → s.glb.stop = 0 → s.rd (Reg.QM_RING_STATE_state ring) = ringActive → s.mayIssue ring (s.fenceOf ring q.bytes) = true → s.knownOp ring q.bytes = true → s.isLegacyOp ring 2 q.bytes = true → legacyOk q.bytes 2 = true → s.checkFields ring q.phys (s.strictOf ring q.bytes) (s.addrFields ring q.bytes) q.held = .ok held → s.engineGone ring = false → exec (.legacyFill ring) s = .next (((s.takeHead ring q).updRun ring q.seq (fun (d : Run) => { d with held := held })).startMove ring q.seq)) ∧
  (∀ (ring : Nat) (q : QDesc) (held : Held) (s : State), (s.ring ring).fetched.head? = some q → s.glb.stop = 0 → s.rd (Reg.QM_RING_STATE_state ring) = ringActive → s.mayIssue ring (s.fenceOf ring q.bytes) = true → s.knownOp ring q.bytes = true → s.isOp ring 0x20 q.bytes = true → s.genBusy q.bytes = false → dispatchOk s q.bytes = true → s.checkFields ring q.phys (s.strictOf ring q.bytes) (s.addrFields ring q.bytes) q.held = .ok held → s.engineGone ring = false → exec (.dispatch ring) s = .next (((s.takeHead ring q).updRun ring q.seq (fun (d : Run) => { d with held := held })).startDispatch ring q.seq)) ∧
  (∀ (ring : Nat) (d : Run) (s : State), s.glb.stop = 0 → s.ringCls ring = clsMover → s.ringWaits ring = false → s.rd (Reg.QM_RING_STATE_state ring) ≠ ringDisabled → s.moving ring = some d → (s.on (Reg.QM_RING_CFG_legacy ring) = true ∨ opOf d.cur ≠ 0) → s.moveLen ring d.cur ≠ 0 → exec (.moverTransfer ring) s = .next (s.moveStep ring d)) ∧
  (∀ (ring : Nat) (d : Run) (s : State), s.glb.stop = 0 → s.unplaced ring = some d → (dispTiles d.cur).find? s.tileFenced = none → (dispTiles d.cur).all (fun t => decide ((s.tile t).queue.length < tileQueue)) = true → exec (.dispatchPlacement ring) s = .next (s.placeRun ring d))

/-- O12. What the CRC units do -/
def Obligations.CrcCommandsTakeEffect : Prop :=
  (∀ (ring : Nat) (q : QDesc) (held : Held) (s : State), (s.ring ring).fetched.head? = some q → s.glb.stop = 0 → s.rd (Reg.QM_RING_STATE_state ring) = ringActive → s.mayIssue ring (s.fenceOf ring q.bytes) = true → s.knownOp ring q.bytes = true → s.isOp ring 0x30 q.bytes = true → crcDataOk q.bytes = true → s.checkFields ring q.phys (s.strictOf ring q.bytes) (s.addrFields ring q.bytes) q.held = .ok held → s.engineGone ring = false → (s.ring ring).issued.find? (fun d => !d.allIssued && (d.subs.isEmpty || d.ends.length == d.sub)) = none → (s.ring ring).issued.any (fun d => d.status.isNone) = false → exec (.crcData ring) s = .next (((s.takeHead ring q).updRun ring q.seq (fun (d : Run) => { d with held := held })).startCrc ring q.seq)) ∧
  (∀ (ring : Nat) (q : QDesc) (held : Held) (s : State), (s.ring ring).fetched.head? = some q → s.glb.stop = 0 → s.rd (Reg.QM_RING_STATE_state ring) = ringActive → s.mayIssue ring (s.fenceOf ring q.bytes) = true → s.knownOp ring q.bytes = true → s.isOp ring 0x31 q.bytes = true → crcBlocksOk q.bytes = true → s.checkFields ring q.phys (s.strictOf ring q.bytes) (s.addrFields ring q.bytes) q.held = .ok held → s.engineGone ring = false → (s.ring ring).issued.find? (fun d => !d.allIssued && (d.subs.isEmpty || d.ends.length == d.sub)) = none → (s.ring ring).issued.any (fun d => d.status.isNone) = false → exec (.crcBlocks ring) s = .next (((s.takeHead ring q).updRun ring q.seq (fun (d : Run) => { d with held := held })).startCrc ring q.seq)) ∧
  (∀ (ring : Nat) (q : QDesc) (held : Held) (s : State), (s.ring ring).fetched.head? = some q → s.glb.stop = 0 → s.rd (Reg.QM_RING_STATE_state ring) = ringActive → s.mayIssue ring (s.fenceOf ring q.bytes) = true → s.knownOp ring q.bytes = true → s.isOp ring 0x32 q.bytes = true → crcSaveOk q.bytes = true → s.checkFields ring q.phys (s.strictOf ring q.bytes) (s.addrFields ring q.bytes) q.held = .ok held → s.engineGone ring = false → (s.ring ring).issued.find? (fun d => !d.allIssued && (d.subs.isEmpty || d.ends.length == d.sub)) = none → (s.ring ring).issued.any (fun d => d.status.isNone) = false → exec (.crcSave ring) s = .next (((s.takeHead ring q).updRun ring q.seq (fun (d : Run) => { d with held := held })).startCrc ring q.seq)) ∧
  (∀ (ring : Nat) (q : QDesc) (held : Held) (s : State), (s.ring ring).fetched.head? = some q → s.glb.stop = 0 → s.rd (Reg.QM_RING_STATE_state ring) = ringActive → s.mayIssue ring (s.fenceOf ring q.bytes) = true → s.knownOp ring q.bytes = true → s.isOp ring 0x33 q.bytes = true → crcLoadOk q.bytes = true → s.checkFields ring q.phys (s.strictOf ring q.bytes) (s.addrFields ring q.bytes) q.held = .ok held → s.engineGone ring = false → (s.ring ring).issued.find? (fun d => !d.allIssued && (d.subs.isEmpty || d.ends.length == d.sub)) = none → (s.ring ring).issued.any (fun d => d.status.isNone) = false → exec (.crcLoad ring) s = .next (((s.takeHead ring q).updRun ring q.seq (fun (d : Run) => { d with held := held })).startCrc ring q.seq)) ∧
  (∀ (ring : Nat) (d : Run) (s : State), (s.ring ring).issued.find? (fun d => !d.allIssued && (d.subs.isEmpty || d.ends.length == d.sub)) = some d → opOf d.cur = 0x30 → s.glb.stop = 0 → s.holdsUnit (s.ringUnit ring) ring d.seq = true → s.ringWaits ring = false → exec (.crcData ring) s = .next (s.crcDataStep ring d)) ∧
  (∀ (ring : Nat) (d : Run) (s : State), (s.ring ring).issued.find? (fun d => !d.allIssued && (d.subs.isEmpty || d.ends.length == d.sub)) = some d → opOf d.cur = 0x31 → s.glb.stop = 0 → s.holdsUnit (s.ringUnit ring) ring d.seq = true → s.ringWaits ring = false → exec (.crcBlocks ring) s = .next (s.crcBlocksStep ring d)) ∧
  (∀ (ring : Nat) (d : Run) (s : State), (s.ring ring).issued.find? (fun d => !d.allIssued && (d.subs.isEmpty || d.ends.length == d.sub)) = some d → opOf d.cur = 0x32 → s.glb.stop = 0 → s.holdsUnit (s.ringUnit ring) ring d.seq = true → s.ringWaits ring = false → exec (.crcSave ring) s = .next (s.crcSaveStep ring d)) ∧
  (∀ (ring : Nat) (d : Run) (s : State), (s.ring ring).issued.find? (fun d => !d.allIssued && (d.subs.isEmpty || d.ends.length == d.sub)) = some d → opOf d.cur = 0x33 → s.glb.stop = 0 → s.holdsUnit (s.ringUnit ring) ring d.seq = true → s.ringWaits ring = false → exec (.crcLoad ring) s = .next (s.crcLoadStep ring d)) ∧
  (∀ (unit : Nat) (r seq : Nat) (t : List (Nat × Nat)) (s : State), (s.crc unit).holder = none → (s.crc unit).waiting = (r, seq) :: t → exec (.crcUnitClaim unit) s = .next ((s.setCrc unit { s.crc unit with waiting := t }).claim unit r seq)) ∧
  (∀ (unit : Nat) (s : State), exec (.crcParityError unit) s = .next (
      (s.fenceCrc unit 1))) ∧
  (∀ (src : BusSrc) (unit : Nat) (v : Word) (s : State), s.barOk src = true → exec (.crcCtlWrite src unit v) s = .next (s.writeCrcCtl src (unit % 32) v)) ∧
  (∀ (src : BusSrc) (unit : Nat) (v : DWord) (s : State), s.barOk src = true → exec (.crcValWrite src unit v) s = .next (s.writeCrcVal src (unit % 32) v))

/-- O13. What the commands of a site's modules and links do -/
def Obligations.ModuleAndLinkCommandsTakeEffect : Prop :=
  (∀ (n : Nat) (m : Nat) (rate : Nat) (repaired : Nat) (version : Nat) (s : State), Machine.moduleOk n m = true → (3 ≤ s.modState n m ∧ s.modState n m ≤ 5 ∨ s.modState n m = 9) → (version = 1 ∨ version = 2) → rate ≤ 4 → (s.searches n m = false ∨ rate ≤ s.rd (Reg.SITE_MOD_STATUS_rate n m)) → exec (.moduleTrained n m rate repaired version) s = .next (
      let s := if s.searches n m then s.wr (Reg.SITE_MOD_STATUS_rate n m) rate else s
      let s := s.wr (Reg.SITE_MOD_STATUS_repairs n m) (min 15 (s.rd (Reg.SITE_MOD_STATUS_repairs n m) + repaired))
      let s := s.setModule n m { s.module n m with version := version }
      ((s.setModState n m 6).sideband n (some m) (.widthCheck m)))) ∧
  (∀ (n : Nat) (m : Nat) (spent : Bool) (s : State), Machine.moduleOk n m = true → (2 ≤ s.modState n m ∧ s.modState n m ≤ 5 ∨ s.modState n m = 9) → (s.searches n m = false ∨ s.rd (Reg.SITE_MOD_STATUS_rate n m) = 0) → exec (.rateAttemptTimeout n m spent) s = .next (s.moduleFails n m (if spent then 1 else 2))) ∧
  (∀ (n : Nat) (m : Nat) (spent : Bool) (s : State), Machine.moduleOk n m = true → s.searches n m = true → s.rd (Reg.SITE_MOD_STATUS_rate n m) ≠ 0 → exec (.rateAttemptTimeout n m spent) s = .next ((s.wr (Reg.SITE_MOD_STATUS_rate n m) (s.rd (Reg.SITE_MOD_STATUS_rate n m) - 1)).setModState n m 4)) ∧
  (∀ (n : Nat) (m : Nat) (half : Bool) (rate : Nat) (version : Nat) (lanesMatch : Bool) (s : State), Machine.moduleOk n m = true → s.modState n m = 6 → half = s.on (Reg.SITE_MOD_STATUS_half n m) → rate = s.rd (Reg.SITE_MOD_STATUS_rate n m) → version = (s.module n m).version → lanesMatch = true → exec (.widthCheckAnswer n m half rate version lanesMatch) s = .next (s.modulePasses n m)) ∧
  (∀ (n : Nat) (m : Nat) (half : Bool) (rate : Nat) (version : Nat) (lanesMatch : Bool) (s : State), Machine.moduleOk n m = true → s.modState n m = 6 → lanesMatch = false → exec (.widthCheckAnswer n m half rate version lanesMatch) s = .next (s.mismatch n m)) ∧
  (∀ (n : Nat) (m : Nat) (s : State), Machine.moduleOk n m = true → s.modState n m = 6 → exec (.widthCheckTimeout n m) s = .next (s.mismatch n m)) ∧
  (∀ (n : Nat) (m : Nat) (replays : Nat) (crcErrors : Nat) (third : Bool) (s : State), Machine.moduleOk n m = true → s.inService n m = true → exec (.moduleRetrain n m replays crcErrors third) s = .next (
      let s := (s.sat (Reg.SITE_MOD_ERR_replays n m) replays).sat (Reg.SITE_MOD_ERR_crc_errors n m) crcErrors
      if third || decide (s.rd (Reg.SITE_LINK_CFG_retry_limit n) < replays) then ((s.retrain n m 9).stepEvent n m 1) else s)) ∧
  (∀ (n : Nat) (m : Nat) (s : State), Machine.moduleOk n m = true → exec (.moduleLinkDown n m) s = .next (s.moduleDown n m)) ∧
  (∀ (n : Nat) (epoch : Nat) (e : SpreadExch) (s : State), (s.link n).exch = some e → epoch = (s.rd (Reg.SITE_SPREAD_EPOCH_epoch n) + 1) % 256 → e.sent ≠ 0 → exec (.spreadAnswer n epoch) s = (
      let want := (s.rd (Reg.SITE_SPREAD_EPOCH_epoch n) + 1) % 256
      let old := s.mapsInForce n
      let down := (List.range 64).filter (fun i =>
        let p := lmapGet old.1 ((old.2[i]?).getD 0)
        ((old.2[i]?).getD 0 != (e.entries[i]?).getD 0 || p != lmapGet e.lmap ((e.entries[i]?).getD 0)) && !s.inService n p)
      let s := (s.setReg (Reg.SITE_LMAP n) e.lmap).wr (Reg.SITE_SPREAD_EPOCH_epoch n) want
      let s := (List.range 4).foldl (fun (s : State) i => s.setReg (Reg.SITE_SPREAD n i)
        (((e.entries.drop (16 * i)).take 16).zipIdx.foldl (fun v (p : Nat × Nat) => v + p.1 * 16 ^ p.2) 0)) s
      let s := (s.setLink n { s.link n with exch := none }).wr (Reg.SITE_SPREAD_EPOCH_moving n) 0
      let s := ((s.reissue n (fun i => down.contains i)).showLink n).releaseHeld n
      match (s.link n).next with
      | [] => .next (if (s.site n).opening then s.finishOpen n else s)
      | m :: t => .next ((s.setLink n { s.link n with next := t }).beginExch n m))) ∧
  (∀ (n : Nat) (e : SpreadExch) (s : State), (s.link n).exch = some e → e.sent ≠ 0 → e.sent < 3 → exec (.spreadTimeout n) s = .next ((s.setLink n { s.link n with exch := some { e with sent := e.sent + 1 } }).sendSpread n)) ∧
  (∀ (n : Nat) (e : SpreadExch) (s : State), (s.link n).exch = some e → 3 ≤ e.sent → exec (.spreadTimeout n) s = .next (s.fenceSite n 2)) ∧
  (∀ (n : Nat) (m : Nat) (t : Nat) (s : State), (s.module n m).heldAt = some t → Machine.moduleOk n m = true → s.inService n m = false → lendUnits ≤ s.now - t → exec (.entryLend n m) s = .next (s.lend n m)) ∧
  (∀ (n : Nat) (m : Nat) (s : State), Machine.moduleOk n m = true → s.modState n m = 7 → s.on (Reg.SITE_LINK_CFG_l1_enable n) = true → exec (.moduleL1Entry n m) s = .next (s.setModState n m 8)) ∧
  (∀ (n : Nat) (m : Nat) (s : State), bit (s.reg (Reg.SITE_REC_PEND n)) 31 = true → bits (s.reg (Reg.SITE_REC_PEND n)) 27 24 = m → bit (bits (s.reg (Reg.SITE_REC_PEND n)) 4 1) 0 = true → exec (.siteRecRetry n m) s = .next (((s.setModule n m { s.module n m with retries := (s.module n m).retries + 1 }).retrain n m (if (s.module n m).reason = 3 then 3 else 9)).showLink n)) ∧
  (∀ (n : Nat) (m : Nat) (s : State), bit (s.reg (Reg.SITE_REC_PEND n)) 31 = true → bits (s.reg (Reg.SITE_REC_PEND n)) 27 24 = m → bit (bits (s.reg (Reg.SITE_REC_PEND n)) 4 1) 1 = true → exec (.siteRecSpare n m) s = .next ((s.useSpare n m (if (s.module n m).reason = 3 then 2 else 1)).showLink n)) ∧
  (∀ (n : Nat) (m : Nat) (s : State), bit (s.reg (Reg.SITE_REC_PEND n)) 31 = true → bits (s.reg (Reg.SITE_REC_PEND n)) 27 24 = m → bit (bits (s.reg (Reg.SITE_REC_PEND n)) 4 1) 2 = true → exec (.siteRecHalf n m) s = .next ((s.halfStep n m).showLink n)) ∧
  (∀ (n : Nat) (m : Nat) (s : State), bit (s.reg (Reg.SITE_REC_PEND n)) 31 = true → bits (s.reg (Reg.SITE_REC_PEND n)) 27 24 = m → bit (bits (s.reg (Reg.SITE_REC_PEND n)) 4 1) 3 = true → exec (.siteRecRetire n m) s = .next ((s.endModule n m 5).showLink n)) ∧
  (∀ (n : Nat) (m : Nat) (s : State), Machine.moduleOk n m = true → s.inService n m = true → exec (.siteRecRetrain n m) s = .next (((s.wr (Reg.SITE_MOD_STATUS_rate n m) (s.rd (Reg.SITE_LINK_CFG_max_rate n))).retrain n m 4).stepEvent n m 1)) ∧
  (∀ (n : Nat) (m : Nat) (s : State), Machine.moduleOk n m = true → s.modState n m = 11 → 100 * msUnits ≤ s.now - (s.module n m).awaitAt → exec (.siteAwaitTimeout n m) s = .next (((s.fallback 4).ladderStep n m (s.module n m).reason).showLink n)) ∧
  (∀ (n : Nat) (size8 : Bool) (s : State), (s.link n).sb = none → exec (.sbRead n size8) s = .next (let size := if size8 then 8 else 4; let u := (s.setLink n { s.link n with sb := some (false, s.rd (Reg.SITE_SB_ADDR_addr n), size) }).wr (Reg.SITE_SB_STATUS_busy n) 1; if u.siteDark n then u.endMailbox n 3 else u.sideband n (if s.rd (Reg.SITE_SB_ADDR_module n) = 15 then none else some (s.rd (Reg.SITE_SB_ADDR_module n))) (.access (s.rd (Reg.SITE_SB_ADDR_addr n)) size none))) ∧
  (∀ (n : Nat) (size8 : Bool) (s : State), (s.link n).sb = none → exec (.sbWrite n size8) s = .next (let size := if size8 then 8 else 4; let u := (s.setLink n { s.link n with sb := some (true, s.rd (Reg.SITE_SB_ADDR_addr n), size) }).wr (Reg.SITE_SB_STATUS_busy n) 1; if u.siteDark n then u.endMailbox n 3 else u.sideband n (if s.rd (Reg.SITE_SB_ADDR_module n) = 15 then none else some (s.rd (Reg.SITE_SB_ADDR_module n))) (.access (s.rd (Reg.SITE_SB_ADDR_addr n)) size (some (u.reg (Reg.SITE_SB_DATA n)))))) ∧
  (∀ (n : Nat) (refused : Bool) (data : DWord) (write : Bool) (addr size : Nat) (s : State), (s.link n).sb = some (write, addr, size) → exec (.sbResponse n refused data) s = .next (let u := if write || refused then s else s.setReg (Reg.SITE_SB_DATA n) (data.toNat % 2 ^ (8 * size)); u.endMailbox n (if refused then 2 else 1)))

/-- O14. What the messages of sites to the home agent do -/
def Obligations.CoherenceCommandsTakeEffect : Prop :=
  (∀ (site : Nat) (m : SysMsg) (a left : Nat) (coh : Bool) (seg : Option (Nat × Nat)) (s : State), (s.leaveL1 site m.module).siteOpen site = true → (s.leaveL1 site m.module).msgOk site m = true → ((s.leaveL1 site m.module).askedAgain { site := site, op := .rdShared, cxl := false, goOnly := false, tag := m.tag, line := 0, va := m.va.getD 0 / lineSize * lineSize, ctx := s.rd (siteCtx site), seg := 0, bytes := [], poison := false }).isNone = true → (s.leaveL1 site m.module).siteXlat site (m.va.getD 0 / lineSize * lineSize) false = .ok (.mem a coh) seg left → coh = true → (s.leaveL1 site m.module).siteCoherent site = true → exec (.rdshared site m) s = .next (((s.leaveL1 site m.module).siteAdmit site m.tag (s.rd (siteCtx site)) ((seg.map Prod.fst).getD 0)).homeAsk (.site { site := site, op := .rdShared, cxl := false, goOnly := false, tag := m.tag, line := a / lineSize, va := m.va.getD 0 / lineSize * lineSize, ctx := s.rd (siteCtx site), seg := (seg.map Prod.fst).getD 0, bytes := [], poison := false }))) ∧
  (∀ (site : Nat) (m : SysMsg) (a left : Nat) (coh : Bool) (seg : Option (Nat × Nat)) (s : State), (s.leaveL1 site m.module).siteOpen site = true → (s.leaveL1 site m.module).msgOk site m = true → ((s.leaveL1 site m.module).askedAgain { site := site, op := .rdOwn, cxl := false, goOnly := false, tag := m.tag, line := 0, va := m.va.getD 0 / lineSize * lineSize, ctx := s.rd (siteCtx site), seg := 0, bytes := [], poison := false }).isNone = true → (s.leaveL1 site m.module).siteXlat site (m.va.getD 0 / lineSize * lineSize) true = .ok (.mem a coh) seg left → coh = true → (s.leaveL1 site m.module).siteCoherent site = true → ((s.leaveL1 site m.module).own (a / granuleBytes)).bedrock = false → (s.leaveL1 site m.module).segPermits (s.rd (siteCtx site)) ((seg.map Prod.fst).getD 0) .read = true → exec (.rdown site m) s = .next (((s.leaveL1 site m.module).siteAdmit site m.tag (s.rd (siteCtx site)) ((seg.map Prod.fst).getD 0)).homeAsk (.site { site := site, op := .rdOwn, cxl := false, goOnly := false, tag := m.tag, line := a / lineSize, va := m.va.getD 0 / lineSize * lineSize, ctx := s.rd (siteCtx site), seg := (seg.map Prod.fst).getD 0, bytes := [], poison := false }))) ∧
  (∀ (site : Nat) (m : SysMsg) (a left : Nat) (coh : Bool) (seg : Option (Nat × Nat)) (s : State), (s.leaveL1 site m.module).siteOpen site = true → (s.leaveL1 site m.module).msgOk site m = true → ((s.leaveL1 site m.module).askedAgain { site := site, op := .upgrade, cxl := false, goOnly := false, tag := m.tag, line := 0, va := m.va.getD 0 / lineSize * lineSize, ctx := s.rd (siteCtx site), seg := 0, bytes := [], poison := false }).isNone = true → (s.leaveL1 site m.module).siteXlat site (m.va.getD 0 / lineSize * lineSize) true = .ok (.mem a coh) seg left → coh = true → (s.leaveL1 site m.module).siteCoherent site = true → ((s.leaveL1 site m.module).own (a / granuleBytes)).bedrock = false → (s.leaveL1 site m.module).segPermits (s.rd (siteCtx site)) ((seg.map Prod.fst).getD 0) .read = true → exec (.upgrade site m) s = .next (((s.leaveL1 site m.module).siteAdmit site m.tag (s.rd (siteCtx site)) ((seg.map Prod.fst).getD 0)).homeAsk (.site { site := site, op := .upgrade, cxl := false, goOnly := false, tag := m.tag, line := a / lineSize, va := m.va.getD 0 / lineSize * lineSize, ctx := s.rd (siteCtx site), seg := (seg.map Prod.fst).getD 0, bytes := [], poison := false }))) ∧
  (∀ (site : Nat) (m : SysMsg) (a left : Nat) (coh : Bool) (seg : Option (Nat × Nat)) (s : State), (s.leaveL1 site m.module).siteOpen site = true → (s.leaveL1 site m.module).msgOk site m = true → ((s.leaveL1 site m.module).askedAgain { site := site, op := .rdCurr, cxl := false, goOnly := false, tag := m.tag, line := 0, va := m.va.getD 0 / lineSize * lineSize, ctx := s.rd (siteCtx site), seg := 0, bytes := [], poison := false }).isNone = true → (s.leaveL1 site m.module).siteXlat site (m.va.getD 0 / lineSize * lineSize) false = .ok (.mem a coh) seg left → exec (.rdcurr site m) s = .next (((s.leaveL1 site m.module).siteAdmit site m.tag (s.rd (siteCtx site)) ((seg.map Prod.fst).getD 0)).homeAsk (.site { site := site, op := .rdCurr, cxl := false, goOnly := false, tag := m.tag, line := a / lineSize, va := m.va.getD 0 / lineSize * lineSize, ctx := s.rd (siteCtx site), seg := (seg.map Prod.fst).getD 0, bytes := [], poison := false }))) ∧
  (∀ (site : Nat) (m : SysMsg) (bytes : List Byte) (poison : Bool) (a left : Nat) (coh : Bool) (seg : Option (Nat × Nat)) (s : State), (s.leaveL1 site m.module).siteOpen site = true → (s.leaveL1 site m.module).msgOk site m = true → ((s.leaveL1 site m.module).askedAgain { site := site, op := .wrLine, cxl := false, goOnly := false, tag := m.tag, line := 0, va := m.va.getD 0 / lineSize * lineSize, ctx := s.rd (siteCtx site), seg := 0, bytes := wholeLine bytes, poison := poison }).isNone = true → (s.leaveL1 site m.module).siteXlat site (m.va.getD 0 / lineSize * lineSize) true = .ok (.mem a coh) seg left → exec (.wrline site m bytes poison) s = .next (((s.leaveL1 site m.module).siteAdmit site m.tag (s.rd (siteCtx site)) ((seg.map Prod.fst).getD 0)).homeAsk (.site { site := site, op := .wrLine, cxl := false, goOnly := false, tag := m.tag, line := a / lineSize, va := m.va.getD 0 / lineSize * lineSize, ctx := s.rd (siteCtx site), seg := (seg.map Prod.fst).getD 0, bytes := wholeLine bytes, poison := poison }))) ∧
  (∀ (site : Nat) (m : SysMsg) (bytes : List (Option Byte)) (poison : Bool) (a left : Nat) (coh : Bool) (seg : Option (Nat × Nat)) (s : State), (s.leaveL1 site m.module).siteOpen site = true → (s.leaveL1 site m.module).msgOk site m = true → ((s.leaveL1 site m.module).askedAgain { site := site, op := .wrPartial, cxl := false, goOnly := false, tag := m.tag, line := 0, va := m.va.getD 0 / lineSize * lineSize, ctx := s.rd (siteCtx site), seg := 0, bytes := bytes.take lineSize, poison := poison }).isNone = true → (s.leaveL1 site m.module).siteXlat site (m.va.getD 0 / lineSize * lineSize) true = .ok (.mem a coh) seg left → exec (.wrpartial site m bytes poison) s = .next (((s.leaveL1 site m.module).siteAdmit site m.tag (s.rd (siteCtx site)) ((seg.map Prod.fst).getD 0)).homeAsk (.site { site := site, op := .wrPartial, cxl := false, goOnly := false, tag := m.tag, line := a / lineSize, va := m.va.getD 0 / lineSize * lineSize, ctx := s.rd (siteCtx site), seg := (seg.map Prod.fst).getD 0, bytes := bytes.take lineSize, poison := poison }))) ∧
  (∀ (site : Nat) (m : SysMsg) (bytes : List Byte) (poison : Bool) (a left : Nat) (coh : Bool) (seg : Option (Nat × Nat)) (s : State), (s.leaveL1 site m.module).siteOpen site = true → (s.leaveL1 site m.module).msgOk site m = true → ((s.leaveL1 site m.module).askedAgain { site := site, op := .wbDirty, cxl := false, goOnly := false, tag := m.tag, line := 0, va := m.va.getD 0 / lineSize * lineSize, ctx := s.rd (siteCtx site), seg := 0, bytes := wholeLine bytes, poison := poison }).isNone = true → (s.leaveL1 site m.module).siteXlat site (m.va.getD 0 / lineSize * lineSize) true = .ok (.mem a coh) seg left → exec (.wbdirty site m bytes poison) s = .next (((s.leaveL1 site m.module).siteAdmit site m.tag (s.rd (siteCtx site)) ((seg.map Prod.fst).getD 0)).homeAsk (.site { site := site, op := .wbDirty, cxl := false, goOnly := false, tag := m.tag, line := a / lineSize, va := m.va.getD 0 / lineSize * lineSize, ctx := s.rd (siteCtx site), seg := (seg.map Prod.fst).getD 0, bytes := wholeLine bytes, poison := poison }))) ∧
  (∀ (site : Nat) (m : SysMsg) (a left : Nat) (coh : Bool) (seg : Option (Nat × Nat)) (s : State), (s.leaveL1 site m.module).siteOpen site = true → (s.leaveL1 site m.module).msgOk site m = true → ((s.leaveL1 site m.module).askedAgain { site := site, op := .evictClean, cxl := false, goOnly := false, tag := m.tag, line := 0, va := m.va.getD 0 / lineSize * lineSize, ctx := s.rd (siteCtx site), seg := 0, bytes := [], poison := false }).isNone = true → (s.leaveL1 site m.module).siteXlat site (m.va.getD 0 / lineSize * lineSize) false = .ok (.mem a coh) seg left → exec (.evictclean site m) s = .next (((s.leaveL1 site m.module).siteAdmit site m.tag (s.rd (siteCtx site)) ((seg.map Prod.fst).getD 0)).homeAsk (.site { site := site, op := .evictClean, cxl := false, goOnly := false, tag := m.tag, line := a / lineSize, va := m.va.getD 0 / lineSize * lineSize, ctx := s.rd (siteCtx site), seg := (seg.map Prod.fst).getD 0, bytes := [], poison := false }))) ∧
  (∀ (site : Nat) (m : SysMsg) (a left : Nat) (coh : Bool) (seg : Option (Nat × Nat)) (s : State), (s.leaveL1 site m.module).siteOpen site = true → (s.leaveL1 site m.module).msgOk site m = true → ((s.leaveL1 site m.module).askedAgain { site := site, op := .rdShared, cxl := true, goOnly := true, tag := m.tag, line := 0, va := m.va.getD 0 / lineSize * lineSize, ctx := s.rd (siteCtx site), seg := 0, bytes := [], poison := false }).isNone = true → (s.leaveL1 site m.module).siteXlat site (m.va.getD 0 / lineSize * lineSize) false = .ok (.mem a coh) seg left → coh = true → (s.leaveL1 site m.module).siteCoherent site = true → exec (.cxlRdshared site m) s = .next (((s.leaveL1 site m.module).siteAdmit site m.tag (s.rd (siteCtx site)) ((seg.map Prod.fst).getD 0)).homeAsk (.site { site := site, op := .rdShared, cxl := true, goOnly := true, tag := m.tag, line := a / lineSize, va := m.va.getD 0 / lineSize * lineSize, ctx := s.rd (siteCtx site), seg := (seg.map Prod.fst).getD 0, bytes := [], poison := false }))) ∧
  (∀ (site : Nat) (m : SysMsg) (a left : Nat) (coh : Bool) (seg : Option (Nat × Nat)) (s : State), (s.leaveL1 site m.module).siteOpen site = true → (s.leaveL1 site m.module).msgOk site m = true → ((s.leaveL1 site m.module).askedAgain { site := site, op := .rdShared, cxl := true, goOnly := false, tag := m.tag, line := 0, va := m.va.getD 0 / lineSize * lineSize, ctx := s.rd (siteCtx site), seg := 0, bytes := [], poison := false }).isNone = true → (s.leaveL1 site m.module).siteXlat site (m.va.getD 0 / lineSize * lineSize) false = .ok (.mem a coh) seg left → coh = true → (s.leaveL1 site m.module).siteCoherent site = true → exec (.cxlRdany site m) s = .next (((s.leaveL1 site m.module).siteAdmit site m.tag (s.rd (siteCtx site)) ((seg.map Prod.fst).getD 0)).homeAsk (.site { site := site, op := .rdShared, cxl := true, goOnly := false, tag := m.tag, line := a / lineSize, va := m.va.getD 0 / lineSize * lineSize, ctx := s.rd (siteCtx site), seg := (seg.map Prod.fst).getD 0, bytes := [], poison := false }))) ∧
  (∀ (site : Nat) (m : SysMsg) (a left : Nat) (coh : Bool) (seg : Option (Nat × Nat)) (s : State), (s.leaveL1 site m.module).siteOpen site = true → (s.leaveL1 site m.module).msgOk site m = true → ((s.leaveL1 site m.module).askedAgain { site := site, op := .rdOwn, cxl := true, goOnly := false, tag := m.tag, line := 0, va := m.va.getD 0 / lineSize * lineSize, ctx := s.rd (siteCtx site), seg := 0, bytes := [], poison := false }).isNone = true → (s.leaveL1 site m.module).siteXlat site (m.va.getD 0 / lineSize * lineSize) true = .ok (.mem a coh) seg left → coh = true → (s.leaveL1 site m.module).siteCoherent site = true → ((s.leaveL1 site m.module).own (a / granuleBytes)).bedrock = false → (s.leaveL1 site m.module).segPermits (s.rd (siteCtx site)) ((seg.map Prod.fst).getD 0) .read = true → exec (.cxlRdown site m) s = .next (((s.leaveL1 site m.module).siteAdmit site m.tag (s.rd (siteCtx site)) ((seg.map Prod.fst).getD 0)).homeAsk (.site { site := site, op := .rdOwn, cxl := true, goOnly := false, tag := m.tag, line := a / lineSize, va := m.va.getD 0 / lineSize * lineSize, ctx := s.rd (siteCtx site), seg := (seg.map Prod.fst).getD 0, bytes := [], poison := false }))) ∧
  (∀ (site : Nat) (m : SysMsg) (a left : Nat) (coh : Bool) (seg : Option (Nat × Nat)) (s : State), (s.leaveL1 site m.module).siteOpen site = true → (s.leaveL1 site m.module).msgOk site m = true → ((s.leaveL1 site m.module).askedAgain { site := site, op := .upgrade, cxl := true, goOnly := false, tag := m.tag, line := 0, va := m.va.getD 0 / lineSize * lineSize, ctx := s.rd (siteCtx site), seg := 0, bytes := [], poison := false }).isNone = true → (s.leaveL1 site m.module).siteXlat site (m.va.getD 0 / lineSize * lineSize) true = .ok (.mem a coh) seg left → coh = true → (s.leaveL1 site m.module).siteCoherent site = true → ((s.leaveL1 site m.module).own (a / granuleBytes)).bedrock = false → (s.leaveL1 site m.module).segPermits (s.rd (siteCtx site)) ((seg.map Prod.fst).getD 0) .read = true → exec (.cxlRdownnodata site m) s = .next (((s.leaveL1 site m.module).siteAdmit site m.tag (s.rd (siteCtx site)) ((seg.map Prod.fst).getD 0)).homeAsk (.site { site := site, op := .upgrade, cxl := true, goOnly := false, tag := m.tag, line := a / lineSize, va := m.va.getD 0 / lineSize * lineSize, ctx := s.rd (siteCtx site), seg := (seg.map Prod.fst).getD 0, bytes := [], poison := false }))) ∧
  (∀ (site : Nat) (m : SysMsg) (a left : Nat) (coh : Bool) (seg : Option (Nat × Nat)) (s : State), (s.leaveL1 site m.module).siteOpen site = true → (s.leaveL1 site m.module).msgOk site m = true → ((s.leaveL1 site m.module).askedAgain { site := site, op := .rdCurr, cxl := true, goOnly := false, tag := m.tag, line := 0, va := m.va.getD 0 / lineSize * lineSize, ctx := s.rd (siteCtx site), seg := 0, bytes := [], poison := false }).isNone = true → (s.leaveL1 site m.module).siteXlat site (m.va.getD 0 / lineSize * lineSize) false = .ok (.mem a coh) seg left → exec (.cxlRdcurr site m) s = .next (((s.leaveL1 site m.module).siteAdmit site m.tag (s.rd (siteCtx site)) ((seg.map Prod.fst).getD 0)).homeAsk (.site { site := site, op := .rdCurr, cxl := true, goOnly := false, tag := m.tag, line := a / lineSize, va := m.va.getD 0 / lineSize * lineSize, ctx := s.rd (siteCtx site), seg := (seg.map Prod.fst).getD 0, bytes := [], poison := false }))) ∧
  (∀ (site : Nat) (m : SysMsg) (bytes : List Byte) (poison : Bool) (a left : Nat) (coh : Bool) (seg : Option (Nat × Nat)) (s : State), (s.leaveL1 site m.module).siteOpen site = true → (s.leaveL1 site m.module).msgOk site m = true → ((s.leaveL1 site m.module).askedAgain { site := site, op := .wrLine, cxl := true, goOnly := false, tag := m.tag, line := 0, va := m.va.getD 0 / lineSize * lineSize, ctx := s.rd (siteCtx site), seg := 0, bytes := wholeLine bytes, poison := poison }).isNone = true → (s.leaveL1 site m.module).siteXlat site (m.va.getD 0 / lineSize * lineSize) true = .ok (.mem a coh) seg left → exec (.cxlWrinv site m bytes poison) s = .next (((s.leaveL1 site m.module).siteAdmit site m.tag (s.rd (siteCtx site)) ((seg.map Prod.fst).getD 0)).homeAsk (.site { site := site, op := .wrLine, cxl := true, goOnly := false, tag := m.tag, line := a / lineSize, va := m.va.getD 0 / lineSize * lineSize, ctx := s.rd (siteCtx site), seg := (seg.map Prod.fst).getD 0, bytes := wholeLine bytes, poison := poison }))) ∧
  (∀ (site : Nat) (m : SysMsg) (a left : Nat) (coh : Bool) (seg : Option (Nat × Nat)) (s : State), (s.leaveL1 site m.module).siteOpen site = true → (s.leaveL1 site m.module).msgOk site m = true → ((s.leaveL1 site m.module).askedAgain { site := site, op := .evictClean, cxl := true, goOnly := false, tag := m.tag, line := 0, va := m.va.getD 0 / lineSize * lineSize, ctx := s.rd (siteCtx site), seg := 0, bytes := [], poison := false }).isNone = true → (s.leaveL1 site m.module).siteXlat site (m.va.getD 0 / lineSize * lineSize) false = .ok (.mem a coh) seg left → exec (.cxlCleanevict site m) s = .next (((s.leaveL1 site m.module).siteAdmit site m.tag (s.rd (siteCtx site)) ((seg.map Prod.fst).getD 0)).homeAsk (.site { site := site, op := .evictClean, cxl := true, goOnly := false, tag := m.tag, line := a / lineSize, va := m.va.getD 0 / lineSize * lineSize, ctx := s.rd (siteCtx site), seg := (seg.map Prod.fst).getD 0, bytes := [], poison := false }))) ∧
  (∀ (site : Nat) (m : SysMsg) (bytes : List Byte) (poison : Bool) (a left : Nat) (coh : Bool) (seg : Option (Nat × Nat)) (s : State), (s.leaveL1 site m.module).siteOpen site = true → (s.leaveL1 site m.module).msgOk site m = true → ((s.leaveL1 site m.module).askedAgain { site := site, op := .wbDirty, cxl := true, goOnly := false, tag := m.tag, line := 0, va := m.va.getD 0 / lineSize * lineSize, ctx := s.rd (siteCtx site), seg := 0, bytes := wholeLine bytes, poison := poison }).isNone = true → (s.leaveL1 site m.module).siteXlat site (m.va.getD 0 / lineSize * lineSize) true = .ok (.mem a coh) seg left → exec (.cxlDirtyevict site m bytes poison) s = .next (((s.leaveL1 site m.module).siteAdmit site m.tag (s.rd (siteCtx site)) ((seg.map Prod.fst).getD 0)).homeAsk (.site { site := site, op := .wbDirty, cxl := true, goOnly := false, tag := m.tag, line := a / lineSize, va := m.va.getD 0 / lineSize * lineSize, ctx := s.rd (siteCtx site), seg := (seg.map Prod.fst).getD 0, bytes := wholeLine bytes, poison := poison }))) ∧
  (∀ (site : Nat) (m : SysMsg) (a left : Nat) (coh : Bool) (seg : Option (Nat × Nat)) (s : State), (s.leaveL1 site m.module).siteOpen site = true → (s.leaveL1 site m.module).msgOk site m = true → ((s.leaveL1 site m.module).askedAgain { site := site, op := .clFlush, cxl := true, goOnly := false, tag := m.tag, line := 0, va := m.va.getD 0 / lineSize * lineSize, ctx := s.rd (siteCtx site), seg := 0, bytes := [], poison := false }).isNone = true → (s.leaveL1 site m.module).siteXlat site (m.va.getD 0 / lineSize * lineSize) false = .ok (.mem a coh) seg left → exec (.cxlClflush site m) s = .next (((s.leaveL1 site m.module).siteAdmit site m.tag (s.rd (siteCtx site)) ((seg.map Prod.fst).getD 0)).homeAsk (.site { site := site, op := .clFlush, cxl := true, goOnly := false, tag := m.tag, line := a / lineSize, va := m.va.getD 0 / lineSize * lineSize, ctx := s.rd (siteCtx site), seg := (seg.map Prod.fst).getD 0, bytes := [], poison := false }))) ∧
  (∀ (site : Nat) (m : SysMsg) (t : HomeTxn) (s : State), (s.leaveL1 site m.module).siteOpen site = true → (s.leaveL1 site m.module).msgOk site m = true → (s.leaveL1 site m.module).grantOf site m.tag = some t → exec (.systiniAck site m) s = .next (((s.leaveL1 site m.module).endTxn t.id).homeKick)) ∧
  (∀ (site : Nat) (m : SysMsg) (state : Nat) (data : Option (List Byte)) (poison : Bool) (t : HomeTxn) (kind : SnoopKind) (s : State), (s.leaveL1 site m.module).siteOpen site = true → (s.leaveL1 site m.module).msgOk site m = true → (s.leaveL1 site m.module).snoopOf site m.tag = some (t, kind) → exec (.snprsp site m state data poison) s = .next (let d := data.map (fun bs => ((bs ++ List.replicate lineSize 0).take lineSize).map (fun (b : Byte) => (b, poison)))
      let u := s.leaveL1 site m.module
      let v : State := match d with
        | some bs => if kind = SnoopKind.share ∧ u.on (Reg.SITE_LINK_STATUS_cxl site) = true ∧ u.serves (t.line * lineSize) = true then
            u.memPutMarked (siteClass site) (t.line * lineSize) bs else u
        | none => u
      ((v.snoopEntry site t.line state kind).snoopDone site m.tag t d).exchKick site)) ∧
  (∀ (site : Nat) (m : SysMsg) (data : List Byte) (poison : Bool) (o : OutReq) (i : Nat) (s : State), (s.leaveL1 site m.module).siteOpen site = true → (s.leaveL1 site m.module).msgOk site m = true → (s.leaveL1 site m.module).acc.outq.findSome? (fun (o : OutReq) => (o.lineOf site m.tag).map (fun i => (o, i))) = some (o, i) → exec (.aprsp site m data poison) s = .next (((s.leaveL1 site m.module).lineAnswered o i (((data ++ List.replicate lineSize 0).take lineSize).map (fun (b : Byte) => (b, poison)))).exchKick site)) ∧
  (∀ (site : Nat) (tag : Nat) (t : HomeTxn) (kind : SnoopKind) (s : State), s.snoopOf site tag = some (t, kind) → exec (.snoopLimitExpiry site tag) s = .next (let dirty : Bool := match s.entryOf site t.line with | some e => e.state != LineState.s | none => false; let u := s.homeLate site; let v := if dirty then u.poisonLine t.line else u; ((v.dropEntry site t.line).snoopDone site tag t none).exchKick site)) ∧
  (∀ (site : Nat) (tag : Nat) (t : HomeTxn) (s : State), s.grantOf site tag = some t → exec (.ackLimitExpiry site tag) s = .next (((s.homeLate site).endTxn t.id).homeKick)) ∧
  (∀ (v : Word) (s : State), bits v.toNat 0 0 = 1 → 50 ≤ s.shf Reg.COH_CFG_snoop_limit_us → s.shf Reg.COH_CFG_snoop_limit_us ≤ 1000 → exec (.cohCommit v) s = .next (
      ((s.commitReg Reg.COH_CFG).commitDone Reg.COH_COMMIT_STATUS)))

/-- O15. What the host's commands and the events of its link do -/
def Obligations.HostInterfaceCommandsTakeEffect : Prop :=
  (∀ (write : Bool) (off : Nat) (v : Word) (s : State), s.reached = true → s.cfgRetry = false → write = true → exec (.configRequest write off v) s = .next ((s.cfgWrite (off % 4096 / 4 * 4) v.toNat).send (.config (off % 4096 / 4 * 4) false 0))) ∧
  (∀ (write : Bool) (off : Nat) (v : Word) (s : State), s.reached = true → s.cfgRetry = false → write = false → exec (.configRequest write off v) s = .next (s.send (.config (off % 4096 / 4 * 4) false (BitVec.ofNat 32 (s.cfgRead (off % 4096 / 4 * 4)))))) ∧
  (∀ (tag : Nat) (b : Nat) (len : Nat) (write : Bool) (data : List (Option Byte)) (tee : Option Nat) (s : State), s.barOk (.host tee) = true → (if write then data.length else len) ≠ 0 → exec (.bar4Access tag b len write data tee) s = .next (
      let n := if write then data.length else len
      let lens := lineLens b n
      let (id, s) := s.openAsm (.bar4 tag) write b (0, 0, 0) lens
      (lens.zipIdx.foldl (fun (s : State) (p : Nat × Nat) =>
        let lo := max b ((b / lineSize + p.2) * lineSize)
        s.barLine id p.2 lo p.1 (if write then some ((data.drop (lo - b)).take p.1) else none)) s))) ∧
  (∀ (off : Nat) (s : State), exec (.unsupportedRequest off) s = .next (
      ((s.unsupportedReq off).send (.unsupported off 0)))) ∧
  (∀ (tag : Nat) (ok : Bool) (poison : Bool) (data : List Byte) (o : OutReq) (s : State), s.outRead tag = some o → ok = true → exec (.outboundCompletion tag ok poison data) s = .next ((if poison then s.countHost else s).answerReq tag (.data (((data ++ List.replicate o.len 0).take o.len).map (fun (b : Byte) => (b, poison)))))) ∧
  (∀ (tag : Nat) (ok : Bool) (poison : Bool) (data : List Byte) (o : OutReq) (s : State), s.outRead tag = some o → ok = false → exec (.outboundCompletion tag ok poison data) s = .next (s.countHost.answerReq tag (.error stHostError))) ∧
  (∀ (tag : Nat) (o : OutReq) (s : State), s.outRead tag = some o → s.rd Reg.HOST_STATUS_dstate ≠ 3 → exec (.outboundTimeout tag) s = .next (s.countHost.answerReq tag (.error stHostError))) ∧
  (∀ (s : State), exec .keepaliveTimer s = .next (s)) ∧
  (∀ (vector : Nat) (s : State), vector < 2048 → exec (.msixUnmask vector) s = .next (s.setMsixWord (4 * vector + 3) (BitVec.ofNat 32 (putBits (s.msixWord (4 * vector + 3)) 0 0 0)))) ∧
  (∀ (s : State), s.on Reg.HOST_STATUS_link_up = true → s.on Reg.HOST_CFG_l0p_en = true → s.rd Reg.HOST_LINK_STATUS_pstate = 0 → exec .l0pEntry s = .next (s.pstate 1)) ∧
  (∀ (s : State), s.rd Reg.HOST_LINK_STATUS_pstate = 1 → exec .l0pExit s = .next (s.pstate 0)) ∧
  (∀ (s : State), s.on Reg.HOST_STATUS_link_up = true → s.rd Reg.HOST_LINK_STATUS_pstate ≤ 1 → s.linkBusy = false → s.l1Enabled = true → exec .linkL1Entry s = .next (s.pstate 2)) ∧
  (∀ (s : State), s.on Reg.HOST_STATUS_link_up = true → s.rd Reg.HOST_LINK_STATUS_pstate = 2 → s.l12Enabled = true → exec .l12Entry s = .next (s.pstate 3)) ∧
  (∀ (s : State), 2 ≤ s.rd Reg.HOST_LINK_STATUS_pstate → exec .linkStateExit s = .next (s.pstate 0)) ∧
  (∀ (s : State), exec .d3hotEntry s = .next (s.wr Reg.HOST_STATUS_dstate 3)) ∧
  (∀ (s : State), exec .d0Return s = .next (((s.wr Reg.HOST_STATUS_dstate 0).releaseWake).evtFlush.msixFlush)) ∧
  (∀ (s : State), s.reached = true → exec .flr s = .next (s.functionReset)) ∧
  (∀ (s : State), s.reached = true → exec .hotReset s = .next (s.linkDown.functionReset)) ∧
  (∀ (s : State), s.reached = true → exec .linkDisable s = .next (({ s.linkDown with host := { s.host with linkEnabled := false } }).functionReset)) ∧
  (∀ (s : State), s.reached = true → exec .linkLoss s = .next (s.linkDown.functionReset)) ∧
  (∀ (speed : Nat) (width : Nat) (flit : Bool) (s : State), s.endpointUp = true → exec (.linkRetrained speed width flit) s = .next (
      let again := s.rd Reg.HOST_LINK_STATUS_speed != 0
      let low := decide (speed < 4 ∨ width < 16)
      let s := if again then s.sat Reg.HOST_LINK_STATUS_retrains 1 else s
      let s := ({ s with host := { s.host with linkEnabled := true } }).wr Reg.HOST_STATUS_link_up 1
      let s := ((s.wr Reg.HOST_LINK_STATUS_speed speed).wr Reg.HOST_LINK_STATUS_width width).wr Reg.HOST_LINK_STATUS_flit (ofBool flit)
      let s := (s.pstate 0).wr Reg.HOST_LINK_STATUS_degraded (ofBool low)
      if low then (s.eventOpen blkHost 9 0 0) else s)) ∧
  (∀ (v : Word) (s : State), bits v.toNat 0 0 = 1 → s.hostRefusal = none → exec (.hostCommit v) s = .next (
      ((s.hostSet.commitDone Reg.HOST_COMMIT_STATUS).msixFlush)))

/-- O16. What the security messages of the host do -/
def Obligations.SecurityMessagesTakeEffect : Prop :=
  (∀ (s : State), s.doeUp = true → exec .getVersion s = .next (s.doe 0x04 [0x13])) ∧
  (∀ (s : State), s.doeUp = true → exec .getCapabilities s = .next (s.doe 0x61 [0x84, 0xE1, 0xE3, 0x81, 0x82, 0x83, 0xE0, 0xE4, 0xE5, 0xE9, 0xE8, 0xEC])) ∧
  (∀ (s : State), s.doeUp = true → exec .negotiateAlgorithms s = .next (s.doe 0x63 [0x80, 0x2, 0x10, 0x2])) ∧
  (∀ (s : State), s.doeUp = true → exec .getDigests s = .next (s.doe 0x01 [Config.crypto 8 [s.certChain]])) ∧
  (∀ (s : State), s.doeUp = true → exec .getCertificate s = .next (s.doe 0x02 [s.certChain])) ∧
  (∀ (nonce : Nat) (s : State), s.doeUp = true → exec (.challenge nonce) s = .next (s.signed 0x03 nonce [Config.crypto 8 [s.certChain]])) ∧
  (∀ (index : Nat) (nonce : Nat) (s : State), s.doeUp = true → index ≠ 0 → index ≠ 0xFF → index ≤ 6 → exec (.getMeasurements index nonce) s = .next (s.signed 0x60 nonce (s.measurement index))) ∧
  (∀ (index : Nat) (nonce : Nat) (s : State), s.doeUp = true → index = 0 → exec (.getMeasurements index nonce) s = .next (s.signed 0x60 nonce [6])) ∧
  (∀ (index : Nat) (nonce : Nat) (s : State), s.doeUp = true → index = 0xFF → exec (.getMeasurements index nonce) s = .next (s.signed 0x60 nonce ([1, 2, 3, 4, 5, 6].flatMap s.measurement))) ∧
  (∀ (share : Nat) (s : State), s.doeUp = true → s.host.session = false → exec (.keyExchange share) s = .next (({ s with host := { s.host with handshake := true } }).signed 0x64 share [])) ∧
  (∀ (genuine : Bool) (s : State), s.doeUp = true → s.host.handshake = true → genuine = true → exec (.finish genuine) s = .next (({ s with host := { s.host with handshake := false, session := true } }).doe 0x65 [])) ∧
  (∀ (genuine : Bool) (s : State), s.doeUp = true → s.host.handshake = true → genuine = false → exec (.finish genuine) s = .next (({ s with host := { s.host with handshake := false } }).doe 0x7F [6])) ∧
  (∀ (s : State), s.doeUp = true → s.host.session = true → exec .keyUpdate s = .next (s.doe 0x69 [])) ∧
  (∀ (s : State), s.doeUp = true → s.host.session = true → exec .heartbeat s = .next (s.doe 0x68 [])) ∧
  (∀ (s : State), s.doeUp = true → s.host.session = true → exec .endSession s = .next (({ s with host := { s.host with session := false } }).doe 0x6C [])) ∧
  (∀ (slot : Nat) (key : Nat) (s : State), s.host.session = true → 11 ≤ slot → slot ≤ 15 → s.role ≠ 0 → s.role ≠ 4 → s.rd Reg.HOST_STATUS_tdisp ≠ 3 → exec (.keySet slot key) s = .next (s.changeSlot { slot := slot, key := some key, asked := some s.now })) ∧
  (∀ (slot : Nat) (s : State), s.host.session = true → 11 ≤ slot → slot ≤ 15 → s.role ≠ 0 → s.role ≠ 4 → s.rd Reg.HOST_STATUS_tdisp ≠ 3 → exec (.keyClear slot) s = .next (s.changeSlot { slot := slot, key := none, asked := some s.now })) ∧
  (∀ (stream : Nat) (key : Nat) (s : State), s.doeUp = true → s.host.session = true → stream < 8 → exec (.ideKmProgram stream key) s = .next ((s.changeSlot { slot := stream + 1, key := some key, asked := none }).doe 0x200 [stream])) ∧
  (∀ (stream : Nat) (s : State), stream < 8 → s.reached = true → exec (.ideTlpFailure stream) s = .next (((s.sat Reg.HOST_ERR_ide_fail 1).ideSecure (stream + 1) 0).tdispError)) ∧
  (∀ (s : State), s.doeUp = true → s.rd Reg.HOST_STATUS_tdisp = 0 → s.blanket.row = 0 → s.host.lockPend = false → s.blanket.wiped = true → s.streamsKeyed = true → exec .lockInterface s = .next (let u := { s with host := { s.host with lockPend := true } }; (((List.range 8).filter (fun n => u.siteState n == 5)).foldl (fun (s : State) n => s.spdmSend n 6) u).lockCheck)) ∧
  (∀ (s : State), s.doeUp = true → s.rd Reg.HOST_STATUS_tdisp = 1 → exec .startInterface s = .next ((s.wr Reg.HOST_STATUS_tdisp 2).doe 0x105 [1])) ∧
  (∀ (s : State), s.doeUp = true → s.rd Reg.HOST_STATUS_tdisp ≠ 0 → exec .stopInterface s = .next (({ s with host := { s.host with stopPend := true } }).startBlanket 4))

/-- O17. What the commands of the fabric ports and links do -/
def Obligations.FabricPortCommandsTakeEffect : Prop :=
  (∀ (port : Nat) (neighbour : Nat) (version : Nat) (s : State), s.portState port = 1 → port < 16 → (s.on Reg.FAB_IDENT_configured = false ∨ neighbour ≠ s.deviceId) → (version = 2 ∨ (version = 1 ∧ (s.port port).mode = 2)) → exec (.portTrained port neighbour version) s = .next (
      let s := (s.wr (Reg.FAB_PORT_STATUS_neighbour port) neighbour).wr (Reg.FAB_PORT_STATUS_version port) version
      let s := s.setPort port { PortSt.off with mode := (s.port port).mode }
      (s.setPortState port 2))) ∧
  (∀ (port : Nat) (s : State), s.portState port = 1 → port < 16 → exec (.portTrainingMismatch port) s = .next (s.portEvent port)) ∧
  (∀ (port : Nat) (s : State), s.portUp port = true → port < 16 → exec (.portRetrain port) s = .next ((s.setPort port { s.port port with assist := s.duty 4 }).retrainPort port 0)) ∧
  (∀ (port : Nat) (ok : Bool) (s : State), s.portState port = 4 → port < 16 → ok = true → exec (.portRetrainResult port ok) s = .next ((s.setPortState port (if (s.port port).step = 0 then 2 else 3)).pump port (s.port port).queue.length)) ∧
  (∀ (port : Nat) (ok : Bool) (s : State), s.portState port = 4 → port < 16 → ok = false → exec (.portRetrainResult port ok) s = .next (if (s.port port).step = 0 then s.portFailed port 1 else if (s.port port).step = 1 then s.retrainPort port 2 else s.portFailed port 2)) ∧
  (∀ (port : Nat) (s : State), port < 16 → s.on (Reg.FAB_PORT_REC_pending port) = true → bit (s.rd (Reg.FAB_PORT_REC_offered port)) 1 = true → exec (.portRecRetry port) s = .next ((s.endAwait port).retrainPort port (if s.rd (Reg.FAB_PORT_REC_reason port) = 1 then 0 else 1))) ∧
  (∀ (port : Nat) (s : State), port < 16 → s.on (Reg.FAB_PORT_REC_pending port) = true → bit (s.rd (Reg.FAB_PORT_REC_offered port)) 2 = true → exec (.portRecHalf port) s = .next ((s.endAwait port).retrainPort port 1)) ∧
  (∀ (port : Nat) (s : State), port < 16 → s.on (Reg.FAB_PORT_REC_pending port) = true → bit (s.rd (Reg.FAB_PORT_REC_offered port)) 3 = true → exec (.portRecDown port) s = .next ((s.endAwait port).portDown port)) ∧
  (∀ (port : Nat) (s : State), s.portState port = 5 → port < 16 → exec (.portAwaitTimeout port) s = .next (((s.endAwait port).fallback 4).portFallsBack port (s.rd (Reg.FAB_PORT_REC_reason port)))) ∧
  (∀ (port : Nat) (b : LinkBlock) (crcOk : Bool) (s : State), s.portUp port = true → port < 16 → crcOk = false → exec (.linkBlockReceive port b crcOk) s = .next ((s.sat (Reg.FAB_PORT_ERR_crc_errors port) 1).linkDiscard port)) ∧
  (∀ (port : Nat) (b : LinkBlock) (crcOk : Bool) (s : State), s.portUp port = true → port < 16 → crcOk = true → exec (.linkBlockReceive port b crcOk) s = .next (let u := s.linkHeader port b; if b.kind ≠ 0 then u else if b.seq % 2 ^ 24 = (u.port port).recvSeq ∧ b.lane < 48 then u.linkAccept port b else u.linkDiscard port)) ∧
  (∀ (port : Nat) (s : State), s.portUp port = true → port < 16 → exec (.linkResendTimer port) s = .next (s.resendBlocks port)) ∧
  (∀ (v : Word) (s : State), bits v.toNat 0 0 = 1 → s.fabRefusal = none → exec (.fabCommit v) s = .next (
      let es := s.connShadow.map (·.1)
      let s := s.commitRegs (Reg.FAB_CFG :: (List.range 16).map Reg.FAB_PORT_CFG)
      let s := es.foldl State.commitConn s
      ({ s with connShadow := [] }.commitDone Reg.FAB_COMMIT_STATUS)))

/-- O18. What the messages and timers of fabric connections do -/
def Obligations.ConnectionCommandsTakeEffect : Prop :=
  (∀ (h : FabHdr) (bytes : List Byte) (s : State), s.connLive h = true → (s.connState h.conn).v1 = false → h.seq % 2 ^ 24 = (s.connState h.conn).recvSeq → s.acceptable h.conn (hdrMsg h 1 (bytes.take 2048).length (bytes.take 2048)) = true → exec (.write h bytes) s = .next (let c := s.connState h.conn; (s.setConn h.conn { c with recvSeq := (h.seq % 2 ^ 24 + 1) % 2 ^ 24, undone := c.undone ++ [h.seq % 2 ^ 24], held := c.held ++ [{ (hdrMsg h 1 (bytes.take 2048).length (bytes.take 2048)) with seq := h.seq % 2 ^ 24 }] }).connKick h.conn (c.held.length + 1))) ∧
  (∀ (h : FabHdr) (len : Nat) (s : State), s.connLive h = true → (s.connState h.conn).v1 = false → h.seq % 2 ^ 24 = (s.connState h.conn).recvSeq → s.acceptable h.conn (hdrMsg h 2 (min len 2048) []) = true → exec (.read h len) s = .next (let c := s.connState h.conn; (s.setConn h.conn { c with recvSeq := (h.seq % 2 ^ 24 + 1) % 2 ^ 24, undone := c.undone ++ [h.seq % 2 ^ 24], held := c.held ++ [{ (hdrMsg h 2 (min len 2048) []) with seq := h.seq % 2 ^ 24 }] }).connKick h.conn (c.held.length + 1))) ∧
  (∀ (h : FabHdr) (kind : Nat) (a : Nat) (b : Nat) (s : State), s.connLive h = true → (s.connState h.conn).v1 = false → h.seq % 2 ^ 24 = (s.connState h.conn).recvSeq → s.acceptable h.conn (hdrMsg h 4 8 (leBytes 1 kind ++ leBytes 8 a ++ leBytes 8 b)) = true → exec (.atomic h kind a b) s = .next (let c := s.connState h.conn; (s.setConn h.conn { c with recvSeq := (h.seq % 2 ^ 24 + 1) % 2 ^ 24, undone := c.undone ++ [h.seq % 2 ^ 24], held := c.held ++ [{ (hdrMsg h 4 8 (leBytes 1 kind ++ leBytes 8 a ++ leBytes 8 b)) with seq := h.seq % 2 ^ 24 }] }).connKick h.conn (c.held.length + 1))) ∧
  (∀ (h : FabHdr) (bytes : List Byte) (s : State), s.connLive h = true → (s.connState h.conn).v1 = false → h.seq % 2 ^ 24 = (s.connState h.conn).recvSeq → s.acceptable h.conn (hdrMsg h 3 bytes.length bytes) = true → exec (.readRsp h bytes) s = .next (let c := s.connState h.conn; (s.setConn h.conn { c with recvSeq := (h.seq % 2 ^ 24 + 1) % 2 ^ 24, undone := c.undone ++ [h.seq % 2 ^ 24], held := c.held ++ [{ (hdrMsg h 3 bytes.length bytes) with seq := h.seq % 2 ^ 24 }] }).connKick h.conn (c.held.length + 1))) ∧
  (∀ (h : FabHdr) (old : Nat) (s : State), s.connLive h = true → (s.connState h.conn).v1 = false → h.seq % 2 ^ 24 = (s.connState h.conn).recvSeq → s.acceptable h.conn (hdrMsg h 5 8 (leBytes 8 old)) = true → exec (.atomicRsp h old) s = .next (let c := s.connState h.conn; (s.setConn h.conn { c with recvSeq := (h.seq % 2 ^ 24 + 1) % 2 ^ 24, undone := c.undone ++ [h.seq % 2 ^ 24], held := c.held ++ [{ (hdrMsg h 5 8 (leBytes 8 old)) with seq := h.seq % 2 ^ 24 }] }).connKick h.conn (c.held.length + 1))) ∧
  (∀ (h : FabHdr) (ack : Nat) (s : State), s.connLive h = true → exec (.ack h ack) s = .next (
      let e := h.conn
      let c := s.connState e
      let gone := c.unacked.filter (fun (m : FabMsg) => seqUpTo m.seq ack)
      let s := s.setConn e { c with unacked := c.unacked.filter (fun (m : FabMsg) => !seqUpTo m.seq ack) }
      let s := gone.foldl (fun (s : State) (m : FabMsg) => match m.req with
        | some id => if m.op = 1 then s.answerReq id .done else s
        | none => s) s
      ((s.sendWaiting e).connSettle e))) ∧
  (∀ (conn : Nat) (s : State), ((s.connKick conn (s.connState conn).held.length).connState conn).toAck ≠ 0 → exec (.ackTimer conn) s = .next ((s.connKick conn (s.connState conn).held.length).sendAck conn)) ∧
  (∀ (conn : Nat) (s : State), exec (.msgResendTimer conn) s = .next (
      let c := s.connState conn
      let ms := c.unacked.map (fun (m : FabMsg) => { m with flow := m.flow + 1 })
      (ms.foldl (fun (s : State) m => s.emit conn m) (s.setConn conn { c with unacked := ms })))) ∧
  (∀ (src : Nat) (index : Nat) (slot : Nat) (nonce : Nat) (e : Nat) (s : State), s.connFor src slot = some e → s.connHeld e = false → s.slotLoaded slot = true → s.connRd e Reg.FAB_CONN_DATA_state ≠ 4 → exec (.openMsg src index slot nonce) s = .next (
      let opening := s.connRd e Reg.FAB_CONN_DATA_state == 1 || s.connRd e Reg.FAB_CONN_DATA_state == 3
      let s := if opening then s else (s.endTransfers e)
      let own := if opening then (s.connState e).nonce else s.freeVal
      let s := if opening then s else s.useFree
      let s := s.setConn e { s.connState e with v1 := s.peerV1 src }
      let s := s.connWr e Reg.FAB_CONN_DATA_peer_index index
      ((s.ctl e 0x11 [e, own]).nowOpen e index own nonce))) ∧
  (∀ (conn : Nat) (src : Nat) (index : Nat) (nonce : Nat) (s : State), (s.connRd conn Reg.FAB_CONN_DATA_state = 1 ∨ s.connRd conn Reg.FAB_CONN_DATA_state = 3) → s.connRd conn Reg.FAB_CONN_DATA_peer = src → exec (.openAck conn src index nonce) s = .next (s.nowOpen conn index (s.connState conn).nonce nonce)) ∧
  (∀ (conn : Nat) (s : State), (s.connRd conn Reg.FAB_CONN_DATA_state = 1 ∨ s.connRd conn Reg.FAB_CONN_DATA_state = 3) → exec (.openRetryTimer conn) s = .next (s.sendOpen conn)) ∧
  (∀ (h : FabHdr) (s : State), s.connLive h = true → exec (.close h) s = .next (((s.endTransfers h.conn).setConn h.conn ConnSt.closed).connTo h.conn 0)) ∧
  (∀ (h : FabHdr) (nonce : Nat) (s : State), s.connLive h = true → (s.connState h.conn).v1 = false → exec (.rekey h nonce) s = .next ((s.rekeyed h.conn s.freeVal nonce).useFree)) ∧
  (∀ (conn : Nat) (s : State), s.connRd conn Reg.FAB_CONN_DATA_state = 2 → (s.connState conn).v1 = false → exec (.rekeyThreshold conn) s = .next ((s.useFree.ctl conn 0x13 [s.freeVal]).rekeyed conn s.freeVal ((s.useFree.ctl conn 0x13 [s.freeVal]).connState conn).peerNonce)) ∧
  (∀ (conn : Nat) (s : State), s.connRd conn Reg.FAB_CONN_DATA_state = 2 → (s.connState conn).v1 = true → exec (.sessionLimitV1 conn) s = .next ((s.setConn conn { s.connState conn with reopening := true }).connSettle conn)) ∧
  (∀ (conn : Nat) (s : State), s.peerLate conn = true → exec (.peerLimitExpiry conn) s = .next (s.breakConn conn)) ∧
  (∀ (h : FabHdr) (comm : Nat) (cseq : Nat) (step : Nat) (credit : Nat) (op : Nat) (count : Nat) (fmt : Nat) (redop : Nat) (xsExp : Nat) (root : Nat) (s : State), s.connLive h = true → (s.connState h.conn).v1 = false → h.seq % 2 ^ 24 = (s.connState h.conn).recvSeq → s.acceptable h.conn (hdrMsg h 0x40 32 (collSub comm cseq step credit ++ readyBody op count fmt redop xsExp root)) = true → exec (.ready h comm cseq step credit op count fmt redop xsExp root) s = .next (let c := s.connState h.conn; (s.setConn h.conn { c with recvSeq := (h.seq % 2 ^ 24 + 1) % 2 ^ 24, undone := c.undone ++ [h.seq % 2 ^ 24], held := c.held ++ [{ (hdrMsg h 0x40 32 (collSub comm cseq step credit ++ readyBody op count fmt redop xsExp root)) with seq := h.seq % 2 ^ 24 }] }).connKick h.conn (c.held.length + 1))) ∧
  (∀ (h : FabHdr) (comm : Nat) (cseq : Nat) (step : Nat) (offset : Nat) (data : List Byte) (s : State), s.connLive h = true → (s.connState h.conn).v1 = false → h.seq % 2 ^ 24 = (s.connState h.conn).recvSeq → s.acceptable h.conn (hdrMsg h 0x41 (16 + (data.take 2032).length) (collSub comm cseq step offset ++ data.take 2032)) = true → exec (.data h comm cseq step offset data) s = .next (let c := s.connState h.conn; (s.setConn h.conn { c with recvSeq := (h.seq % 2 ^ 24 + 1) % 2 ^ 24, undone := c.undone ++ [h.seq % 2 ^ 24], held := c.held ++ [{ (hdrMsg h 0x41 (16 + (data.take 2032).length) (collSub comm cseq step offset ++ data.take 2032)) with seq := h.seq % 2 ^ 24 }] }).connKick h.conn (c.held.length + 1))) ∧
  (∀ (h : FabHdr) (comm : Nat) (cseq : Nat) (status : Nat) (device : Nat) (rank : Nat) (s : State), s.connLive h = true → (s.connState h.conn).v1 = false → h.seq % 2 ^ 24 = (s.connState h.conn).recvSeq → s.acceptable h.conn (hdrMsg h 0x42 24 (collSub comm cseq 0 0 ++ leBytes 2 status ++ leBytes 2 device ++ leBytes 4 rank)) = true → exec (.collAbort h comm cseq status device rank) s = .next (let c := s.connState h.conn; (s.setConn h.conn { c with recvSeq := (h.seq % 2 ^ 24 + 1) % 2 ^ 24, undone := c.undone ++ [h.seq % 2 ^ 24], held := c.held ++ [{ (hdrMsg h 0x42 24 (collSub comm cseq 0 0 ++ leBytes 2 status ++ leBytes 2 device ++ leBytes 4 rank)) with seq := h.seq % 2 ^ 24 }] }).connKick h.conn (c.held.length + 1))) ∧
  (∀ (h : FabHdr) (device : Nat) (delay : Nat) (cairnSeq : Nat) (s : State), s.connLive h = true → (s.connState h.conn).v1 = false → h.seq % 2 ^ 24 = (s.connState h.conn).recvSeq → s.acceptable h.conn (hdrMsg h 0x43 25 (collSub 0 0 0 0 ++ extendBody device delay cairnSeq)) = true → exec (.extend h device delay cairnSeq) s = .next (let c := s.connState h.conn; (s.setConn h.conn { c with recvSeq := (h.seq % 2 ^ 24 + 1) % 2 ^ 24, undone := c.undone ++ [h.seq % 2 ^ 24], held := c.held ++ [{ (hdrMsg h 0x43 25 (collSub 0 0 0 0 ++ extendBody device delay cairnSeq)) with seq := h.seq % 2 ^ 24 }] }).connKick h.conn (c.held.length + 1))) ∧
  (∀ (h : FabHdr) (device : Nat) (s : State), s.connLive h = true → (s.connState h.conn).v1 = false → h.seq % 2 ^ 24 = (s.connState h.conn).recvSeq → s.acceptable h.conn (hdrMsg h 0x44 18 (collSub 0 0 0 0 ++ lostBody device)) = true → exec (.lost h device) s = .next (let c := s.connState h.conn; (s.setConn h.conn { c with recvSeq := (h.seq % 2 ^ 24 + 1) % 2 ^ 24, undone := c.undone ++ [h.seq % 2 ^ 24], held := c.held ++ [{ (hdrMsg h 0x44 18 (collSub 0 0 0 0 ++ lostBody device)) with seq := h.seq % 2 ^ 24 }] }).connKick h.conn (c.held.length + 1)))

/-- O19. What cairns, claims, joins, rosters and maps do -/
def Obligations.HierarchyCommandsTakeEffect : Prop :=
  (∀ (s : State), s.on Reg.FAB_IDENT_configured = true → s.glb.stop ≠ 2 → exec .cairnSend s = .next (let u := (s.wr Reg.RAS_STATUS_health s.healthCode).cairns; { u with hier := { u.hier with fatals := u.rd Reg.RAS_CNT_FATAL_count } })) ∧
  (∀ (h : FabHdr) (c : Cairn) (s : State), c.device = h.src → h.conn < 2048 → s.connLive h = true → (s.connState h.conn).v1 = false → exec (.cairn h c) s = .next (let own := c.device / 64 == s.group
      let u := { s with fab := { s.fab with map := s.fab.map.put c.device c.neighbours } }
      if c.kind = 1 ∧ own = true then u.workerCairn c else if c.kind = 2 ∧ own = true then u.managerCairn c else if c.kind = 3 ∧ own = false then u.groupCairn c else if c.kind = 4 then u.topCairn c else u)) ∧
  (∀ (member : Nat) (s : State), (s.role = 2 ∨ s.role = 3) → (s.seen (member % 64)).joined = true → (s.seen (member % 64)).lost = false → member % 64 ≠ s.me → s.silentFor (s.seen (member % 64)).at_ 31 = true → exec (.memberSilent member) s = .next (let u := (s.setSeen (member % 64) { s.seen (member % 64) with lost := true, joined := false, slow := none }).showLive; if u.isManager then u.memberLost (member % 64) else u)) ∧
  (∀ (s : State), s.role = 2 → s.silentFor s.hier.heardAt 31 = true → s.mayClaim = true → exec .deputyClaim s = .next (s.takeover)) ∧
  (∀ (s : State), s.role = 1 → s.silentFor s.hier.heardAt (60 + 10 * s.me) = true → s.mayClaim = true → exec .workerClaimTimer s = .next (s.takeover)) ∧
  (∀ (s : State), s.role = 3 → s.on Reg.FAB_GROUP_top = false → s.silentFor s.hier.topAt (if s.on Reg.FAB_GROUP_top_deputy then 31 else 60 + 10 * (s.group % 64)) = true → s.mayClaim = true → exec .topClaimTimer s = .next (
      let old := s.rd Reg.FAB_TOP_top_group
      let d := ((s.hier.groups.filter (fun p => p.1 != old && p.1 != s.group && p.2.joined && !p.2.lost && p.2.health == 0)).map (·.1)).head?.getD s.group
      let s := (s.wr Reg.FAB_TOP_top_group s.group).wr Reg.FAB_TOP_top_deputy_group d
      let s := { s with hier := { s.hier with topEpoch := s.hier.topEpoch + 1, topAt := s.now } }
      let s := s.arrange
      let s := (s.hier.groups.map (·.1)).foldl (fun (s : State) g => s.joinMsg (s.groupDev g) 0x23 [1, s.hier.topEpoch, d]) s
      (s.cairnOut 4 ((s.hier.groups.map (·.1)).map (· + 1024))))) ∧
  (∀ (s : State), s.on Reg.FAB_IDENT_configured = true → s.on Reg.HUB_READY_ready = true → s.role = 0 → s.rd Reg.FAB_IDENT_manager_member = s.me → s.hier.heard = false → exec .managerListenExpiry s = .next (
      let s := (s.putKey 9 s.freeVal).useFree
      let s := if s.rd Reg.FAB_TOP_top_group = s.group ∧ s.slotLoaded 10 = false then (s.putKey 10 s.freeVal).useFree else s
      let s := { s with hier := { s.hier with topEpoch := 1 } }
      (s.claimGroup 1 (s.rd Reg.FAB_IDENT_deputy_member)))) ∧
  (∀ (h : FabHdr) (top : Bool) (epoch : Nat) (deputy : Nat) (s : State), h.authentic = true → s.role ≠ 0 → top = false → h.src / 64 = s.group → h.src % 64 ≠ s.me → wins epoch (h.src % 64) s.epoch s.manager = true → s.enrolled (h.src % 64) = true → exec (.claim h top epoch deputy) s = .next (s.follow epoch (h.src % 64) (deputy % 64))) ∧
  (∀ (h : FabHdr) (top : Bool) (epoch : Nat) (deputy : Nat) (s : State), h.authentic = true → s.role = 3 → top = true → wins epoch (h.src / 64) s.hier.topEpoch (s.rd Reg.FAB_TOP_top_group) = true → h.src / 64 ≠ s.group → exec (.claim h top epoch deputy) s = .next (s.followTop epoch (h.src / 64) deputy)) ∧
  (∀ (src : Nat) (nonce : Nat) (id : Identity) (roster : List RosterEntry) (s : State), id.genuine = true → src ≠ s.deviceId → src / 64 = s.group → (s.role = 2 ∨ s.role = 3) → exec (.join src nonce id roster) s = .next (s.joinGroup (src % 65536) nonce id)) ∧
  (∀ (src : Nat) (nonce : Nat) (id : Identity) (roster : List RosterEntry) (s : State), id.genuine = true → src ≠ s.deviceId → src / 64 ≠ s.group → (s.on Reg.FAB_GROUP_top = true ∨ s.on Reg.FAB_GROUP_top_deputy = true) → exec (.join src nonce id roster) s = .next (s.joinSystem (src % 65536) nonce id roster)) ∧
  (∀ (src : Nat) (top : Bool) (epoch : Nat) (manager : Nat) (deputy : Nat) (quarantined : Bool) (roster : Nat) (groupKey : Nat) (sysKey : Option Nat) (s : State), top = false → src / 64 = s.group → s.role ≠ 3 → s.hier.joining = true → exec (.joinAck src top epoch manager deputy quarantined roster groupKey sysKey) s = .next (
      let keyed (s : State) : State := match sysKey with | some k => if quarantined then s else s.putKey 10 k | none => s
      let s := { (keyed (s.putKey 9 groupKey)) with hier := { s.hier with joining := false, heardAt := s.now, rosterSeen := digestHead roster } }
      let s := ((s.wr Reg.FAB_GROUP_epoch epoch).wr Reg.FAB_GROUP_manager manager).wr Reg.FAB_GROUP_deputy deputy
      let r := if quarantined then 4 else if deputy % 64 = s.me then 2 else 1
      ((s.wr Reg.FAB_GROUP_role r).reviewHeld.arrange))) ∧
  (∀ (s : State), s.on Reg.FAB_IDENT_configured = true → s.on Reg.HUB_READY_ready = true → s.hier.joining = true → exec .joinRetry s = .next (s.sendJoin)) ∧
  (∀ (h : FabHdr) (reply : Option (List RosterEntry)) (s : State), s.connLive h = true → h.conn < 2048 → (s.connState h.conn).v1 = false → reply = none → (s.role = 2 ∨ s.role = 3) → s.quarantined h.src = false → exec (.roster h reply) s = .next (s.ctl h.conn 0x24 ((List.range 64).flatMap (fun m => [(s.rosterOf m).digest, (s.rosterOf m).serial, ofBool (s.rosterOf m).enrolled])))) ∧
  (∀ (h : FabHdr) (reply : Option (List RosterEntry)) (l : List RosterEntry) (s : State), s.connLive h = true → (s.connState h.conn).v1 = false → reply = some l → h.conn ≤ 1 → (s.role = 1 ∨ s.role = 2) → digestHead (rosterDigest ((l.take 64).zipIdx.map (fun p => (p.2, p.1)))) = s.hier.rosterSeen → exec (.roster h reply) s = .next (let r : Sparse RosterEntry := (l.take 64).zipIdx.map (fun p => (p.2, p.1))
      let removed := (List.range 64).any (fun m => s.enrolled m && !(r.get { digest := 0, serial := 0, enrolled := false } m).enrolled)
      let u := ({ s with hier := { s.hier with roster := r } }).arrange
      if removed then u.sendJoin else u)) ∧
  (∀ (h : FabHdr) (groupLevel : Bool) (lists : List (Nat × List Nat)) (s : State), s.connLive h = true → h.conn < 2048 → (s.connState h.conn).v1 = false → exec (.map h groupLevel lists) s = .next (
      let u := lists.foldl (fun (s : State) p =>
        let (k, l) := if groupLevel then (groupNode p.1, p.2.map groupNode) else p
        { s with fab := { s.fab with map := s.fab.map.put k l } }) s
      if groupLevel && u.isManager && (h.conn == 2 || h.conn == 3) then
        u.liveMembers.foldl (fun (s : State) m => s.ctl (64 + m) 0x25 (1 :: lists.flatMap (fun p => p.1 :: p.2))) u
      else u)) ∧
  (∀ (s : State), s.on Reg.FAB_IDENT_configured = true → s.isManager = false → exec .fwdRecompute s = .next (
      let own := (List.range 16).map (fun p => if s.portUp p then s.rd (Reg.FAB_PORT_STATUS_neighbour p) else 0xFFFF)
      let s := { s with fab := { s.fab with map := s.fab.map.put s.deviceId own } }
      let members := (List.range 64).filter (fun m => m != s.me)
      let groups := (List.range 1024).filter (fun g => g != s.group)
      let f1 := members.foldl (fun (t : Sparse Nat) m => t.put (1024 + m) (s.fwdFor (s.memberDev m))) s.fab.fwd
      let f2 := groups.foldl (fun (t : Sparse Nat) g => t.put g (s.fwdFor (groupNode g))) f1
      { s with fab := { s.fab with fwd := f2 } }))

/-- O20. What the collective and mirror engines do -/
def Obligations.CollectiveCommandsTakeEffect : Prop :=
  (∀ (ring : Nat) (q : QDesc) (held : Held) (s : State), (s.ring ring).fetched.head? = some q → s.glb.stop = 0 → s.rd (Reg.QM_RING_STATE_state ring) = ringActive → s.mayIssue ring (s.fenceOf ring q.bytes) = true → s.knownOp ring q.bytes = true → s.isOp ring 0x40 q.bytes = true → (s.freeSlot (s.ringEngine ring)).isNone = false → collOk q.bytes = true → s.checkFields ring q.phys (s.strictOf ring q.bytes) (s.addrFields ring q.bytes) q.held = .ok held → s.engineGone ring = false → exec (.allreduce ring) s = .next (let u := ((s.takeHead ring q).updRun ring q.seq (fun (d : Run) => { d with held := held })).startColl ring q.seq; ((u.coll.slots.filter (fun p => p.2.ring == ring)).map (·.1)).foldl (fun (s : State) key => s.collAdvance key collFuel) u)) ∧
  (∀ (ring : Nat) (q : QDesc) (held : Held) (s : State), (s.ring ring).fetched.head? = some q → s.glb.stop = 0 → s.rd (Reg.QM_RING_STATE_state ring) = ringActive → s.mayIssue ring (s.fenceOf ring q.bytes) = true → s.knownOp ring q.bytes = true → s.isOp ring 0x41 q.bytes = true → (s.freeSlot (s.ringEngine ring)).isNone = false → collOk q.bytes = true → s.checkFields ring q.phys (s.strictOf ring q.bytes) (s.addrFields ring q.bytes) q.held = .ok held → s.engineGone ring = false → exec (.reduceScatter ring) s = .next (let u := ((s.takeHead ring q).updRun ring q.seq (fun (d : Run) => { d with held := held })).startColl ring q.seq; ((u.coll.slots.filter (fun p => p.2.ring == ring)).map (·.1)).foldl (fun (s : State) key => s.collAdvance key collFuel) u)) ∧
  (∀ (ring : Nat) (q : QDesc) (held : Held) (s : State), (s.ring ring).fetched.head? = some q → s.glb.stop = 0 → s.rd (Reg.QM_RING_STATE_state ring) = ringActive → s.mayIssue ring (s.fenceOf ring q.bytes) = true → s.knownOp ring q.bytes = true → s.isOp ring 0x42 q.bytes = true → (s.freeSlot (s.ringEngine ring)).isNone = false → collOk q.bytes = true → s.checkFields ring q.phys (s.strictOf ring q.bytes) (s.addrFields ring q.bytes) q.held = .ok held → s.engineGone ring = false → exec (.allgather ring) s = .next (let u := ((s.takeHead ring q).updRun ring q.seq (fun (d : Run) => { d with held := held })).startColl ring q.seq; ((u.coll.slots.filter (fun p => p.2.ring == ring)).map (·.1)).foldl (fun (s : State) key => s.collAdvance key collFuel) u)) ∧
  (∀ (ring : Nat) (q : QDesc) (held : Held) (s : State), (s.ring ring).fetched.head? = some q → s.glb.stop = 0 → s.rd (Reg.QM_RING_STATE_state ring) = ringActive → s.mayIssue ring (s.fenceOf ring q.bytes) = true → s.knownOp ring q.bytes = true → s.isOp ring 0x43 q.bytes = true → (s.freeSlot (s.ringEngine ring)).isNone = false → collOk q.bytes = true → s.checkFields ring q.phys (s.strictOf ring q.bytes) (s.addrFields ring q.bytes) q.held = .ok held → s.engineGone ring = false → exec (.broadcast ring) s = .next (let u := ((s.takeHead ring q).updRun ring q.seq (fun (d : Run) => { d with held := held })).startColl ring q.seq; ((u.coll.slots.filter (fun p => p.2.ring == ring)).map (·.1)).foldl (fun (s : State) key => s.collAdvance key collFuel) u)) ∧
  (∀ (ring : Nat) (q : QDesc) (held : Held) (s : State), (s.ring ring).fetched.head? = some q → s.glb.stop = 0 → s.rd (Reg.QM_RING_STATE_state ring) = ringActive → s.mayIssue ring (s.fenceOf ring q.bytes) = true → s.knownOp ring q.bytes = true → s.isOp ring 0x44 q.bytes = true → (s.freeSlot (s.ringEngine ring)).isNone = false → collOk q.bytes = true → s.checkFields ring q.phys (s.strictOf ring q.bytes) (s.addrFields ring q.bytes) q.held = .ok held → s.engineGone ring = false → exec (.barrier ring) s = .next (let u := ((s.takeHead ring q).updRun ring q.seq (fun (d : Run) => { d with held := held })).startColl ring q.seq; ((u.coll.slots.filter (fun p => p.2.ring == ring)).map (·.1)).foldl (fun (s : State) key => s.collAdvance key collFuel) u)) ∧
  (∀ (h : FabHdr) (comm : Nat) (cseq : Nat) (engine : Nat) (slot : Nat) (s : State), exec (.step h comm cseq engine slot) s = .next (
      (s.arrive h (hdrMsg h 0x45 18 (collSub comm cseq 0 0 ++ leBytes 1 engine ++ leBytes 1 slot))))) ∧
  (∀ (v : Word) (x : CollRun) (s : State), s.collRun (collKey (bits v.toNat 3 0 % 16) (bits v.toNat 5 4 % 4)) = some x → bit (s.rd Reg.COLL_PEND_waiting) (collKey (bits v.toNat 3 0 % 16) (bits v.toNat 5 4 % 4)) = true → exec (.collStep v) s = .next (let key := collKey (bits v.toNat 3 0 % 16) (bits v.toNat 5 4 % 4); ((s.collPend key false).setColl key { x with released := true }).collAdvance key collFuel)) ∧
  (∀ (engine : Nat) (slot : Nat) (x : CollRun) (s : State), s.collRun (collKey engine slot) = some x → x.deadline ≤ s.now → exec (.collDeadline engine slot) s = .next (s.collFail (collKey engine slot) stCollTimeout s.deviceId)) ∧
  (∀ (engine : Nat) (s : State), exec (.collEngineParity engine) s = .next (
      (s.fenceColl engine 1))) ∧
  (∀ (ring : Nat) (q : QDesc) (held : Held) (s : State), (s.ring ring).fetched.head? = some q → s.glb.stop = 0 → s.rd (Reg.QM_RING_STATE_state ring) = ringActive → s.mayIssue ring (s.fenceOf ring q.bytes) = true → s.knownOp ring q.bytes = true → s.isOp ring 0x50 q.bytes = true → mirrorOk q.bytes = true → s.checkFields ring q.phys (s.strictOf ring q.bytes) (s.addrFields ring q.bytes) q.held = .ok held → s.engineGone ring = false → exec (.mirrorSet ring) s = .next (((s.takeHead ring q).updRun ring q.seq (fun (d : Run) => { d with held := held })).startMirrorSet ring q.seq)) ∧
  (∀ (ring : Nat) (q : QDesc) (held : Held) (s : State), (s.ring ring).fetched.head? = some q → s.glb.stop = 0 → s.rd (Reg.QM_RING_STATE_state ring) = ringActive → s.mayIssue ring (s.fenceOf ring q.bytes) = true → s.knownOp ring q.bytes = true → s.isOp ring 0x51 q.bytes = true → ((s.mirror (mirEntry q.bytes)).bind MirSt.sync) = none → mirrorOk q.bytes = true → s.checkFields ring q.phys (s.strictOf ring q.bytes) (s.addrFields ring q.bytes) q.held = .ok held → s.engineGone ring = false → exec (.mirrorSync ring) s = .next (((s.takeHead ring q).updRun ring q.seq (fun (d : Run) => { d with held := held })).startMirrorSync ring q.seq)) ∧
  (∀ (ring : Nat) (q : QDesc) (held : Held) (s : State), (s.ring ring).fetched.head? = some q → s.glb.stop = 0 → s.rd (Reg.QM_RING_STATE_state ring) = ringActive → s.mayIssue ring (s.fenceOf ring q.bytes) = true → s.knownOp ring q.bytes = true → s.isOp ring 0x52 q.bytes = true → s.mirrorBusy (mirEntry q.bytes) = false → mirrorOk q.bytes = true → s.checkFields ring q.phys (s.strictOf ring q.bytes) (s.addrFields ring q.bytes) q.held = .ok held → s.engineGone ring = false → exec (.mirrorClear ring) s = .next (((s.takeHead ring q).updRun ring q.seq (fun (d : Run) => { d with held := held })).startMirrorClear ring q.seq)) ∧
  (∀ (entry : Nat) (s : State), exec (.mirrorBlockCopy entry) s = .next (
      (s.mirrorOn entry))) ∧
  (∀ (v : Word) (s : State), bits v.toNat 0 0 = 1 → 10 ≤ s.shf Reg.COLL_CFG_default_timeout_ms → s.shf Reg.COLL_CFG_mirror_gbps ≤ 200 → s.shf Reg.COLL_CFG_ext_limit_s ≠ 0 → exec (.collCommit v) s = .next (
      ((s.commitReg Reg.COLL_CFG).commitDone Reg.COLL_COMMIT_STATUS)))

/-- O21. What frames, flows, records and decisions do -/
def Obligations.StreamCommandsTakeEffect : Prop :=
  (∀ (port : Nat) (frame : StreamFrame) (s : State), s.streamUp port = true → s.glb.stop ≠ 2 → s.frameFate port frame = .checkFail → exec (.streamFrame port frame) s = .next (s.frameCheckFail port)) ∧
  (∀ (port : Nat) (frame : StreamFrame) (k : Nat) (s : State), s.streamUp port = true → s.glb.stop ≠ 2 → s.frameFate port frame = .good → s.flowFor port (frameSource frame) (frameField frame 4 4) = some k → exec (.streamFrame port frame) s = .next (s.flowFrame port k frame)) ∧
  (∀ (port : Nat) (frame : StreamFrame) (s : State), s.streamUp port = false → exec (.streamFrame port frame) s = .next (s)) ∧
  (∀ (port : Nat) (frame : StreamFrame) (k : Nat) (s : State), s.streamUp port = true → s.glb.stop ≠ 2 → s.frameFate port frame = .good → s.flowFor port (frameSource frame) (frameField frame 4 4) = some k → exec (.endOfFlowFrame port frame) s = .next (s.flowFrame port k frame)) ∧
  (∀ (port : Nat) (addr : Nat) (s : State), s.streamUp port = true → s.ownAddress port false addr = true → exec (.arpRequest port addr) s = .next (s.send (.neighbour port false))) ∧
  (∀ (port : Nat) (addr : Nat) (s : State), s.streamUp port = true → s.ownAddress port true addr = true → exec (.neighborSolicitation port addr) s = .next (s.send (.neighbour port true))) ∧
  (∀ (port : Nat) (up : Bool) (s : State), s.streamPort port = true → exec (.streamPortLink port up) s = .next (s.wr ⟨Reg.STRM_STATUS, 16 + port, 16 + port⟩ (ofBool up))) ∧
  (∀ (flow : Nat) (f : FlowSt) (r : FlowRec) (u : State) (t : State) (s : State), s.flow flow = some f → f.recs.find? (fun (x : FlowRec) => x.valid && !x.hdr) = some r → f.fault = 0 → s.spillBody f r = (.done, u) → u.spill f.ctx (f.slotAt r.n) (f.recHeader flow r) = (.done, t) → exec (.spillWriteAck flow) s = .next ((t.setFlow flow { f with recs := f.recs.map (fun (x : FlowRec) => if x = r then ({ r with hdr := true, bytes := [] }) else x) }).flowMoved flow)) ∧
  (∀ (flow : Nat) (f : FlowSt) (r : FlowRec) (st : Nat) (t : State) (s : State), s.flow flow = some f → f.recs.find? (fun (x : FlowRec) => x.valid && !x.hdr) = some r → f.fault = 0 → s.spillBody f r = (.fail st, t) → exec (.spillWriteAck flow) s = .next (((t.setFlow flow (({ f with recs := f.recs.map (fun (x : FlowRec) => if x = r then ({ r with valid := false, hdr := true, asked := true }) else x) } : FlowSt).lose 1)).faultFlow flow st).flowMoved flow)) ∧
  (∀ (flow : Nat) (f : FlowSt) (r : FlowRec) (i : Nat) (t : Nat) (sl : Nat) (bs : List PByte) (u : State) (s : State), s.flow flow = some f → f.recs.find? (fun (x : FlowRec) => x.valid && x.hdr && !x.asked) = some r → s.filterTile f = some (i, t, sl) → s.quadRuns (s.quadOf t) = true → s.recordRead flow f r = (some bs, u) → exec (.inboxDelivery flow) s = .next (
      let v := (u.scrStore t (f.inbox + sl * f.slotBytes + 32) (bs.drop 32)).scrStore t (f.inbox + sl * f.slotBytes) (bs.take 32)
      let g := { f with recs := f.recs.map (fun (x : FlowRec) => if x = r then { r with asked := true, inbox := some (t, sl) } else x), rr := (i + 1) % f.tileCount }
      let busy := if r.decided.isSome then v.strm.inboxBusy else v.strm.inboxBusy ++ [(t, sl, flow, r.n)]
      { (v.setFlow flow g) with strm := { (v.setFlow flow g).strm with inboxBusy := busy, inboxNext := v.strm.inboxNext.put t (sl + 1) } })) ∧
  (∀ (k : Nat) (word : Nat) (rest : List (Nat × Nat)) (s : State), s.strm.fwd = (k, word) :: rest → s.on Reg.STRM_STATUS_engine_fenced = false → exec .decisionWord s = .next (({ s with strm := { s.strm with fwd := rest } } : State).decisionWord k word)) ∧
  (∀ (flow : Nat) (s : State), exec (.decisionCutoff flow) s = .next (
      (s.cutoffs flow))) ∧
  (∀ (flow : Nat) (f : FlowSt) (s : State), s.flow flow = some f → f.learned = true → f.idle ≠ 0 → f.state ≠ flowClosing → f.lastAt + msTime f.idle ≤ s.now → exec (.flowIdleTimeout flow) s = .next (s.closeFlow flow false)) ∧
  (∀ (src : BusSrc) (s : State), (s.ctxImage.headD 0) % 256 = 2 → s.flow (s.rd Reg.STRM_CTX_SEL_entry) = none → genOk s.ctxImage = true → s.genInFlight (s.rd Reg.STRM_CTX_SEL_entry) = false → exec (.install src) s = .next (({ s with gens := s.gens.put (s.rd Reg.STRM_CTX_SEL_entry) (genImage s.ctxImage) } : State).ctxResult (s.rd Reg.STRM_CTX_SEL_entry) 0)) ∧
  (∀ (src : BusSrc) (f : FlowSt) (s : State), (s.ctxImage.headD 0) % 256 = 1 → f = { words := ([putBits (putBits (s.ctxImage.headD 0) 11 8 flowOpen) 23 20 0] ++ (s.ctxImage.drop 1).take 5 ++ [0, 0]).map (BitVec.ofNat 64), next := none, marker := none, tokens := 0, tokensAt := 0, missing := [], recs := [], rr := 0, pool := 0, idle := 0, lastAt := 0, woke := false, fault := 0, drop := false } → s.flowRefused src (s.rd Reg.STRM_CTX_SEL_entry) s.ctxImage f = 0 → exec (.install src) s = .next (((s.openFlow (s.rd Reg.STRM_CTX_SEL_entry) f.words 0 0).ctxResult (s.rd Reg.STRM_CTX_SEL_entry) 0))) ∧
  (∀ (src : BusSrc) (f : FlowSt) (s : State), s.flow (s.rd Reg.STRM_CTX_SEL_entry) = some f → (f.ctx ≠ 0 ∨ isFirmware src = true) → exec (.free src) s = .next ((s.closeFlow (s.rd Reg.STRM_CTX_SEL_entry) false).ctxResult (s.rd Reg.STRM_CTX_SEL_entry) 0)) ∧
  (∀ (src : BusSrc) (f : FlowSt) (s : State), s.flow (s.rd Reg.STRM_CTX_SEL_entry) = some f → (f.ctx ≠ 0 ∨ isFirmware src = true) → exec (.ctxRead src) s = .next (((List.range 8).foldl (fun (s : State) i => s.setReg (Reg.STRM_CTX_DATA i) (((f.words.map BitVec.toNat)[i]?).getD 0)) s).ctxResult (s.rd Reg.STRM_CTX_SEL_entry) 0)) ∧
  (∀ (ring : Nat) (q : QDesc) (held : Held) (s : State), (s.ring ring).fetched.head? = some q → s.glb.stop = 0 → s.rd (Reg.QM_RING_STATE_state ring) = ringActive → s.mayIssue ring (s.fenceOf ring q.bytes) = true → s.knownOp ring q.bytes = true → s.isOp ring 0x60 q.bytes = true → s.streamBusy ring = false → s.streamBodyOk ring q.bytes = true → s.checkFields ring q.phys (s.strictOf ring q.bytes) (s.addrFields ring q.bytes) q.held = .ok held → s.engineGone ring = false → exec (.strmRelease ring) s = .next (((s.takeHead ring q).updRun ring q.seq (fun (d : Run) => { d with held := held })).startRelease ring q.seq)) ∧
  (∀ (ring : Nat) (q : QDesc) (held : Held) (s : State), (s.ring ring).fetched.head? = some q → s.glb.stop = 0 → s.rd (Reg.QM_RING_STATE_state ring) = ringActive → s.mayIssue ring (s.fenceOf ring q.bytes) = true → s.knownOp ring q.bytes = true → s.isOp ring 0x61 q.bytes = true → s.streamBusy ring = false → s.streamBodyOk ring q.bytes = true → s.checkFields ring q.phys (s.strictOf ring q.bytes) (s.addrFields ring q.bytes) q.held = .ok held → s.engineGone ring = false → exec (.strmWatch ring) s = .next (((s.takeHead ring q).updRun ring q.seq (fun (d : Run) => { d with held := held })).startWatch ring q.seq)) ∧
  (∀ (v : Word) (s : State), bits v.toNat 0 0 = 1 → (List.range 16).any (fun p => s.shf (Reg.STRM_PORT_CFG_vlan p) == 0xFFF) = false → (List.range 16).find? s.templateBad = none → exec (.strmCommit v) s = .next (
      let offs := (List.range 16).map Reg.STRM_PORT_CFG ++ (List.range 16).flatMap (fun t => (List.range 8).map (Reg.STRM_TMPL t))
      ((s.commitRegs offs).commitDone Reg.STRM_COMMIT_STATUS))) ∧
  (∀ (s : State), exec .streamEngineParity s = .next (
      s.fenceStream))

/-- O22. What edges of PPS_IN, TRIG_IN and the schedule do, and how time is steered -/
def Obligations.TimeCommandsTakeEffect : Prop :=
  (∀ (falling : Bool) (age : Nat) (s : State), falling = s.on Reg.TIME_CFG_pps_falling → s.isManager = true → s.timeState = 3 → s.rd Reg.TIME_STATUS_source = 1 → (signed 32 ((s.now - age) % 2 ^ 32)).natAbs ≤ ppsSlack → exec (.ppsInEdge falling age) s = .next (s.ppsAccept (signed 32 ((s.now - age) % 2 ^ 32)))) ∧
  (∀ (falling : Bool) (age : Nat) (s : State), falling = s.on Reg.TIME_CFG_pps_falling → s.isManager = true → s.timeState = 3 → s.rd Reg.TIME_STATUS_source = 1 → ppsSlack < (signed 32 ((s.now - age) % 2 ^ 32)).natAbs → 2 ≤ s.time.ignored → exec (.ppsInEdge falling age) s = .next (s.noSource.toTime 2)) ∧
  (∀ (falling : Bool) (age : Nat) (s : State), falling = s.on Reg.TIME_CFG_pps_falling → s.isManager = true → s.timeState = 2 → s.rd Reg.TIME_STATUS_source = 1 → s.time.slew = false → exec (.ppsInEdge falling age) s = .next (({ s with time := { s.time with ppsAt := s.now } } : State).ppsAcquire age)) ∧
  (∀ (falling : Bool) (age : Nat) (s : State), falling = s.on Reg.TIME_CFG_pps_falling → s.isManager = true → s.timeState = 1 → exec (.ppsInEdge falling age) s = .next (s.ppsSearch (s.now - age))) ∧
  (∀ (s : State), s.rd Reg.TIME_STATUS_source = 1 → s.time.ppsAt + 3 * 2 ^ 31 ≤ s.now → exec .ppsLossTimeout s = .next (s.noSource)) ∧
  (∀ (s : State), s.glb.stop ≠ 2 → s.rd Reg.TIME_STATUS_source = 2 → s.portUp (s.rd Reg.TIME_STATUS_parent_port) = true → s.slotLoaded (s.timeSlot (s.rd (Reg.FAB_PORT_STATUS_neighbour (s.rd Reg.TIME_STATUS_parent_port)))) = true → exec .timeExchangeTimer s = .next (({ s with time := { s.time with req := some s.now } } : State).linkLocal (s.rd Reg.TIME_STATUS_parent_port) 0x28 [s.now])) ∧
  (∀ (port : Nat) (t1 : Nat) (authentic : Bool) (s : State), s.glb.stop ≠ 2 → s.portUp port = true → authentic = true → s.rd (Reg.FAB_PORT_STATUS_version port) ≠ 1 → s.slotLoaded (s.timeSlot (s.rd (Reg.FAB_PORT_STATUS_neighbour port))) = true → exec (.timeReq port t1 authentic) s = .next (s.linkLocal port 0x29 [t1, s.now, s.now, unsigned 64 s.time.offset, s.timeState, s.rd Reg.TIME_STATUS_hops])) ∧
  (∀ (port : Nat) (t1 : Nat) (t2 : Nat) (t3 : Nat) (offset : DWord) (state : Nat) (hops : Nat) (authentic : Bool) (s : State), port = s.rd Reg.TIME_STATUS_parent_port → s.rd Reg.TIME_STATUS_source = 2 → s.time.req = some t1 → authentic = true → s.portUp port = true → s.rd (Reg.FAB_PORT_STATUS_version port) ≠ 1 → exec (.timeRsp port t1 t2 t3 offset state hops authentic) s = .next (
      let t4 := s.now
      let asym := Int.fdiv (signed 32 (s.reg (Reg.TIME_PORT_ASYM port)) * (2 ^ 32 : Nat)) (10 ^ 12 : Nat)
      let off := Int.fdiv (((t2 : Int) - t1) - ((t4 : Int) - t3) - asym) 2
      let delay := Int.fdiv (((t4 : Int) - t1) - ((t3 : Int) - t2)) 2
      let ex := ((s.time.exch ++ [(off, delay)]).reverse.take 10).reverse
      let s := { s with time := { s.time with req := none, exch := ex, offset := signed 64 offset.toNat - off } }
      ((s.wr Reg.TIME_DELAY_delay_ns (delay.toNat * 10 ^ 9 / 2 ^ 32)).wr Reg.TIME_STATUS_hops (min 0xFF (hops + 1))))) ∧
  (∀ (off : Int) (d : Int) (s : State), bestExchange s.time.exch = some (off, d) → (s.timeErr (-off)).rd Reg.TIME_STATUS_source = 2 → (s.timeErr (-off)).timeState = 3 → exec .parentServoUpdate s = .next ((s.timeErr (-off)).parentLocked off (-off))) ∧
  (∀ (off : Int) (d : Int) (s : State), bestExchange s.time.exch = some (off, d) → (s.timeErr (-off)).rd Reg.TIME_STATUS_source = 2 → ((s.timeErr (-off)).timeState = 1 ∨ (s.timeErr (-off)).timeState = 4) → exec .parentServoUpdate s = .next ((s.timeErr (-off)).acquire 2)) ∧
  (∀ (s : State), s.rd Reg.TIME_STATUS_source = 2 → s.parents = [] → exec .parentReselect s = .next (s.noSource)) ∧
  (∀ (p : Nat) (d : Nat) (s : State), s.role ≠ 0 → s.on Reg.FAB_GROUP_top = false → s.rd Reg.TIME_STATUS_source = 0 → s.parents = [(p, d)] → s.timeState ≠ 0 → exec .parentReselect s = .next ((({ s with time := { s.time with exch := [], req := none } } : State).wr Reg.TIME_STATUS_parent_port p).acquire 2)) ∧
  (∀ (s : State), s.boot.sysref = true → exec .sysrefLoss s = .next (
      let s := { s with boot := { s.boot with sysref := false } }
      let s := (s.noSource.toTime 0).eventOpen blkTime 9 0 0
      ((List.range 8).foldl State.siteClockLost s))) ∧
  (∀ (s : State), s.boot.sysref = false → exec .sysrefReturn s = .next (
      let s := { s with boot := { s.boot with sysref := true } }
      let s := if s.timeState = 0 then s.toTime 4 else s
      ((List.range 8).foldl State.siteClockBack s))) ∧
  (∀ (v : DWord) (s : State), s.duty 9 = true → exec (.timeSteer v) s = .next (
      let s := (s.setReg Reg.TIME_STEER v.toNat).setRate (clampRate ((rateNominal : Nat) + signed 64 v.toNat))
      let s := { s with time := { s.time with steerAt := s.now } }
      (if s.timeState = 4 ∧ s.rd Reg.TIME_STATUS_source ≠ 0 then s.toTime 3 else s))) ∧
  (∀ (s : State), s.duty 9 = true → s.timeState = 3 → s.time.steerAt + 2 ^ 32 ≤ s.now → exec .steerTimeout s = .next ((s.toTime 4).fallback 9)) ∧
  (∀ (src : BusSrc) (v : Word) (s : State), isFirmware src = true → exec (.timeSecNext src v) s = .next ((s.setReg Reg.TIME_SEC_NEXT v.toNat).wr Reg.TIME_STATUS_sec_armed 1)) ∧
  (∀ (src : BusSrc) (v : Word) (s : State), isFirmware src = true → bits v.toNat 0 0 = 1 → s.shf Reg.TIME_CFG_pps_out_ms ≠ 0 → s.shf Reg.TIME_CFG_pps_out_ms ≤ 200 → s.shf Reg.TIME_CFG_step_limit_us ≠ 0 → (List.range 4).all (fun (o : Nat) => decide (4 ≤ bits (s.shd Reg.TIME_TOUT_CFG) (8 * o + 4) (8 * o)) && decide (bits (s.shd Reg.TIME_TOUT_CFG) (8 * o + 4) (8 * o) ≤ 16)) = true → exec (.timeCommit src v) s = .next (
      ((s.commitRegs [Reg.TIME_CFG, Reg.TIME_TOUT_CFG]).commitDone Reg.TIME_COMMIT_STATUS))) ∧
  (∀ (k : Nat) (falling : Bool) (s : State), k < 4 → bit (bits (s.rd Reg.TIME_TIN_CFG_input) (4 * k + 2) (4 * k)) 0 = true → falling = bit (bits (s.rd Reg.TIME_TIN_CFG_input) (4 * k + 2) (4 * k)) 1 → exec (.trigInEdge k falling) s = .next (
      let c := bits (s.rd Reg.TIME_TIN_CFG_input) (4 * k + 2) (4 * k)
      let last := s.time.tinLast.find? (fun p => p.1 == k)
      let near := match last with | some p => tooClose p.2 s.now | none => false
      let s := { s with time := { s.time with tinLast := s.time.tinLast.put k s.now } }
      let s := if bit c 2 then s.wakeCold Reg.HOST_WAKE_EN_trig else s
      if near || decide (64 ≤ (s.stamps k).length) then (s.wr ⟨Reg.TIME_TIN_OVF, k, k⟩ 1)
      else (s.setStamps k (s.stamps k ++ [s.now])))) ∧
  (∀ (k : Nat) (s : State), k < 4 → exec (.tinPop k) s = .next (
      let (v, s) := s.popStamp k
      (s.send (.regRead (Reg.TIME_TIN_TS k) 8 (BitVec.ofNat 64 v))))) ∧
  (∀ (o : Nat) (v : DWord) (s : State), o < 4 → exec (.toutSchedule o v) s = .next (s.schedule o (v.toNat / 4 * 4))) ∧
  (∀ (o : Nat) (e : Edge) (t : List Edge) (s : State), s.edges o = e :: t → e.due ≤ s.now → exec (.trigOutEdge o) s = .next (s.makeEdge o)) ∧
  (∀ (s : State), s.now / 2 ^ 32 ≠ s.time.pulse → s.pinsLive = true → exec .ppsOutPulse s = .next ((({ s with time := { s.time with pulse := s.now / 2 ^ 32 } } : State).send (.pin .ppsOut true)).send (.pin .ppsOut false)))

/-- O23. What readings, clocks, brakes and sags do -/
def Obligations.PowerCommandsTakeEffect : Prop :=
  (∀ (quad : Nat) (s : State), s.quadRuns (quad % 32) = true → s.quadBusy (quad % 32) = false → s.quadHeld (quad % 32) = false → s.quadFilters (quad % 32) = false → s.noc.eject.any (fun (p : Packet) => p.quad == quad % 32) = false → s.pwr.stalled.any (fun (a : RegWait) => a.quad == quad % 32) = false → s.braking = false → s.on Reg.HUB_READY_ready = true → s.rd Reg.PWR_SLEEP_sleep_idle_us ≠ 0 → exec (.quadSleep quad) s = .next (s.quadClock (quad % 32) false)) ∧
  (∀ (quad : Nat) (s : State), exec (.quadWakeRequest quad) s = .next (
      (s.wakeQuad (quad % 32)))) ∧
  (∀ (quad : Nat) (s : State), s.pwr.waking.contains (quad % 32) = true → exec (.quadPllLock quad) s = .next (
      let q := quad % 32
      let s := s.quadLocked q
      let mine := s.pwr.stalled.filter (fun (a : RegWait) => a.quad == q)
      (mine.foldl State.doAccess { s with pwr := { s.pwr with stalled := s.pwr.stalled.filter (fun (a : RegWait) => a.quad != q) } }))) ∧
  (∀ (quad : Nat) (s : State), s.pwr.waking.contains (quad % 32) = true → s.pwr.restarted.contains (quad % 32) = false → exec (.quadPllLockTimeout quad) s = .next ({ s with pwr := { s.pwr with restarted := s.pwr.restarted ++ [quad % 32] } })) ∧
  (∀ (quad : Nat) (s : State), s.pwr.waking.contains (quad % 32) = true → s.pwr.restarted.contains (quad % 32) = true → exec (.quadPllLockTimeout quad) s = .next (s.fenceQuad (quad % 32))) ∧
  (∀ (a : RegWait) (t : List RegWait) (s : State), s.pwr.stalled = a :: t → a.write = none → exec .registerPathTimeout s = .next ((({ s with pwr := { s.pwr with stalled := t } } : State).refusal (blockOf a.off) 0 0x0B a.off).send (.regRead a.off a.size (BitVec.ofNat 64 (2 ^ (8 * a.size) - 1))))) ∧
  (∀ (hubW : Nat) (pkgW : Nat) (uj : Nat) (s : State), s.pwr.readings.length < 99 → exec (.railTelemetry hubW pkgW uj) s = .next ({ s with pwr := { s.pwr with readings := s.pwr.readings ++ [(hubW, pkgW, uj)] } })) ∧
  (∀ (hubW : Nat) (pkgW : Nat) (uj : Nat) (s : State), 99 ≤ s.pwr.readings.length → exec (.railTelemetry hubW pkgW uj) s = .next (
      let l := s.pwr.readings ++ [(hubW, pkgW, uj)]
      let sum (f : Nat × Nat × Nat → Nat) : Nat := l.foldl (fun n x => n + f x) 0
      let s := { s with pwr := { s.pwr with readings := [] } }
      let s := s.wr Reg.PWR_PKG_hub_w (coarseW (sum (fun x => x.1) / l.length))
      let s := s.wr Reg.PWR_PKG_package_w (coarseW (sum (fun x => x.2.1) / l.length))
      (s.wrap Reg.PWR_ENERGY_energy_uj (sum (fun x => x.2.2))).renewCounts)) ∧
  (∀ (p : Nat) (s : State), s.on Reg.HUB_READY_ready = true → s.boot.trip = false → exec (.cappingPeriod p) s = .next (
      let share := s.rd Reg.PWR_SHARE_share_w
      let f := s.rd Reg.PWR_STATUS_tile_mhz
      let top := s.mhzCeiling
      let hot := decide (s.rd Reg.PWR_CTL_tj_target_c ≤ s.pwr.hubC)
      let host := s.pwr.hostNow
      let asked := if host && s.pwr.wrote then max 250 (min top (s.rd Reg.PWR_SETPOINT_set_mhz)) else f
      let g := if s.braking then f
        else if host then
          (if share < p then powerStep p share f else if hot then min asked (max 250 (f - 25)) else asked)
        else capStep p share f top hot
      let s := if host && decide (share < p) && !s.braking then s.sat Reg.PWR_EVENTS_cap_clamps 1 else s
      let s := if hot && decide (p ≤ share) && !s.braking then { s with pwr := { s.pwr with cool := g } } else s
      let missed := if host && !s.pwr.wrote then s.pwr.missed + 1 else 0
      let s := { s with pwr := { s.pwr with wrote := false, hostNow := s.duty 7, missed := missed } }
      let s := s.applyPwr
      let s := s.toMhz (min g (max 250 s.mhzCeiling))
      (s.atFloor p (decide (share < p) && s.rd Reg.PWR_STATUS_tile_mhz == 250)))) ∧
  (∀ (v : Word) (s : State), s.duty 7 = true → 250 ≤ bits v.toNat 11 0 → bits v.toNat 11 0 % 25 = 0 → exec (.pwrSetpoint v) s = .next (let f := bits v.toNat 11 0; let u := if partMhz s.fuse.part < f then s.eventOpen blkPwr 0x0D 0 0 else s; ({ u with pwr := { u.pwr with wrote := true } } : State).wr Reg.PWR_SETPOINT_set_mhz (min f (partMhz s.fuse.part)))) ∧
  (∀ (s : State), s.duty 7 = true → 2 ≤ s.pwr.missed → exec .cappingFallback s = .next ((({ s with pwr := { s.pwr with hostNow := false } } : State).fallback 7).wr ⟨Reg.DUTY_ACTIVE, 7, 7⟩ 0)) ∧
  (∀ (v : Word) (s : State), bits v.toNat 0 0 = 1 → 400 ≤ s.worstShare (s.shf Reg.PWR_ENVELOPE_envelope_w) → s.shf Reg.PWR_ENVELOPE_envelope_w ≤ partCapW s.fuse.part → 70 ≤ s.shf Reg.PWR_CTL_tj_target_c → s.shf Reg.PWR_CTL_tj_target_c ≤ 95 → s.shf Reg.PWR_CTL_period_ms ≠ 0 → s.shf Reg.PWR_CTL_period_ms ≤ 100 → 250 ≤ s.shf Reg.PWR_CTL_tile_mhz → s.shf Reg.PWR_CTL_tile_mhz ≤ partMhz s.fuse.part → s.shf Reg.PWR_CTL_tile_mhz % 25 = 0 → exec (.pwrCommit v) s = .next (let set : List (Nat × DWord) := [(Reg.PWR_ENVELOPE, BitVec.ofNat 64 (putBits (s.shd Reg.PWR_ENVELOPE) 12 0 (s.shf Reg.PWR_ENVELOPE_envelope_w))), (Reg.PWR_CTL, BitVec.ofNat 64 (putBits (s.shd Reg.PWR_CTL) 11 0 (s.shf Reg.PWR_CTL_tile_mhz))), (Reg.PWR_SLEEP, BitVec.ofNat 64 (s.shd Reg.PWR_SLEEP))]; ({ s with pwr := { s.pwr with pend := some set } } : State).commitDone Reg.PWR_COMMIT_STATUS)) ∧
  (∀ (s : State), s.boot.trip = false → s.boot.perst = false → s.on Reg.HUB_READY_ready = true → s.on Reg.PWR_STATUS_brake = false → exec .pwrbrakeAssert s = .next ((({ s with pwr := { s.pwr with pinLow := true } } : State).wr Reg.PWR_STATUS_brake 1).brakeTaken)) ∧
  (∀ (s : State), exec .pwrbrakeRelease s = .next (
      ({ s with pwr := { s.pwr with pinLow := false } }.wr Reg.PWR_STATUS_brake 0))) ∧
  (∀ (hubC : Nat) (s : State), s.boot.trip = false → hubC < 100 → exec (.dieTempRead hubC) s = .next (
      let n := s.pwr.dieReads + 1
      let s := { s with pwr := { s.pwr with hubC := hubC, dieReads := n % 100 } }
      let t := if n = 100 then s.wr Reg.PWR_TEMP_hub_c (min hubC 255) else s
      t.wr Reg.PWR_STATUS_int_brake 0)) ∧
  (∀ (hubC : Nat) (s : State), s.boot.trip = false → 115 ≤ hubC → exec (.dieTempRead hubC) s = .next (
      let n := s.pwr.dieReads + 1
      let s := { s with pwr := { s.pwr with hubC := hubC, dieReads := n % 100 } }
      let t := if n = 100 then s.wr Reg.PWR_TEMP_hub_c (min hubC 255) else s
      t.thermtrip)) ∧
  (∀ (vaon : Bool) (v1p8 : Bool) (s : State), (vaon || v1p8) = true → exec (.sagDetect vaon v1p8) s = .next (
      let s := if vaon then (s.wr Reg.PWR_SAG_vaon_low 1).wr Reg.PWR_SAG_vaon_seen 1 else s
      let s := if v1p8 then (s.wr Reg.PWR_SAG_v1p8_low 1).wr Reg.PWR_SAG_v1p8_seen 1 else s
      ({ s with sag := some (s.sag.getD []) }.wr Reg.PWR_STATUS_sag 1))) ∧
  (∀ (s : State), exec .sagEnd s = .next (
      let l := s.sag.getD []
      let s := ((({ s with sag := none }.wr Reg.PWR_SAG_vaon_low 0).wr Reg.PWR_SAG_v1p8_low 0).wr Reg.PWR_STATUS_sag 0).wr Reg.PWR_SAG_deferred 0
      (l.foldl State.mramApply s))) ∧
  (∀ (rail : Nat) (s : State), rail < 5 → s.boot.perst = false → s.pwr.railAt.find? (fun p => p.1 == rail) = none → exec (.railOutOfRange rail) s = .next (({ s with pwr := { s.pwr with railAt := s.pwr.railAt.put rail s.now } } : State).eventAny blkPwr 0x0D 0)) ∧
  (∀ (status : List Nat) (s : State), exec (.palertAssert status) s = .next (
      ((status.filter (fun v => bit v 1)).foldl (fun (s : State) _ => s.eventAny blkPwr 0x0D 0) s)))

/-- O24. What power-on, PERST_N and the stages of bring-up do -/
def Obligations.BringUpCommandsTakeEffect : Prop :=
  (∀ (maddr : Nat) (s : State), s.boot.vaon = false → (s.fuse.lc = .lost ∨ s.fuse.lc = .blank) → exec (.vaonPowerOn maddr) s = .next (
      let t := { State.reset with pending := s.pending, free := s.free, out := s.out, fuse := s.fuse }
      let t := { t with mram := { s.mram with powerOns := s.mram.powerOns + 1 } }
      let t := { t with mgmt := { MgmtSt.reset with maddr := maddr % 4 }, pwr := { t.pwr with pinLow := s.pwr.pinLow } }
      { t with boot := { t.boot with lc := s.fuse.lc } })) ∧
  (∀ (maddr : Nat) (s : State), s.boot.vaon = false → (s.fuse.lc = .production ∨ s.fuse.lc = .test) → exec (.vaonPowerOn maddr) s = .next (
      let t := { State.reset with pending := s.pending, free := s.free, out := s.out, fuse := s.fuse }
      let t := { t with mram := { s.mram with powerOns := s.mram.powerOns + 1 } }
      let t := { t with mgmt := { MgmtSt.reset with maddr := maddr % 4 }, pwr := { t.pwr with pinLow := s.pwr.pinLow } }
      let t := { t with boot := { t.boot with lc := s.fuse.lc } }
      let a := t.fwFit t.mram.fwA
      let b := t.fwFit t.mram.fwB
      let runB := b && (!a || decide (fwVersion t.mram.fwA < fwVersion t.mram.fwB))
      { t with boot := { t.boot with recovery := !a && !b, runB := runB } })) ∧
  (∀ (s : State), s.boot.vaon = true → exec .vaonPowerOff s = .next (
      let s := if s.boot.trip then s.send (.pin .thermtripN true) else s
      let s := if s.alertLevel then s else s.send (.pin .alertN true)
      let s := if s.host.wakeLow then s.send (.pin .wakeN true) else s
      let t := { State.reset with pending := s.pending, free := s.free, out := s.out, fuse := s.fusesOff }
      { t with mram := s.mram, boot := { t.boot with vaon := false }, pwr := { t.pwr with pinLow := s.pwr.pinLow } })) ∧
  (∀ (s : State), s.boot.vaon = true → s.boot.perst = false → exec .perstNAssert s = .next (
      (s.withAlert (fun s =>
        let s := s.quietPins
        let s := if s.boot.trip then s.send (.pin .thermtripN true) else s
        let s := if s.host.wakeLow then s.send (.pin .wakeN true) else s
        let t := s.mainReset keptReg
        { t with boot := { t.boot with perst := true } })))) ∧
  (∀ (rails : RailReport) (sysref : Bool) (late : Bool) (s : State), s.boot.vaon = true → s.boot.perst = true → exec (.perstNRelease rails sysref late) s = .next (s.withAlert (fun (s : State) =>
        let t := s.mainReset (fun off => off == Reg.PWR_ENERGY)
        let t := { t with evt := { t.evt with boot := (t.evt.boot + 1) % 65536, windows := [], opAck := 0 } }
        let plan := if !rails.inRange then 4 else if !sysref then 3 else 0
        let t := { t with boot := { t.boot with perst := false, sysref := sysref, late := late } }
        let t := t.loadFuses.loadFatal.showWear
        if !t.firmwareRuns then t
        else
          let t := { t with boot := { t.boot with stage := 1, plan := plan, ctlFailed := [], ctlIdle := [], reapplied := [], shrink := false } }
          let t := ({ t with hbm := { t.hbm with tenantKey := t.freeVal } }).useFree
          (t.loadPop.loadEnvelope.loadIdent.loadRoster.loadRegs.loadPorts.regulators rails.absent).showShare))) ∧
  (∀ (nocPll : Bool) (routers : List Nat) (links : List Nat) (segments : List Nat) (dead : List Nat) (s : State), s.bringUp 1 = true → nocPll = true → exec (.routeFlintEnd nocPll routers links segments dead) s = .next (
      let s := ((links.filter (fun k => decide (k < 256))).foldl State.retireLink s)
      let s := (routers.filter (fun c => decide (c < 128))).foldl State.loseCluster s
      let s := (({ s with noc := { s.noc with routed := true } }).loseUnreachable 128).routesTaken.switchover
      let s := (segments.filter (fun k => decide (k < 20))).foldl (fun (s : State) k =>
        ({ s with noc := { s.noc with segLost := s.noc.segLost.put k 1 }, glb := { s.glb with worn := true } }).eventOpen blkNoc 7 3 k) s
      (if dead.isEmpty then s.toStage 2 else s.narrow 5))) ∧
  (∀ (failed : List Nat) (corrected : List (Nat × Nat)) (plls : List Nat) (movers : List Nat) (crcs : List Nat) (colls : List Nat) (strm : Bool) (core : Bool) (s : State), s.bringUp 2 = true → core = false → exec (.tileFlintEnd failed corrected plls movers crcs colls strm core) s = .next (
      let tested (p : Nat) : Bool := decide (p < 2304) && !s.fuse.fusedQuads.contains (p / 72) && !plls.contains (p / 72)
      let s := ((plls.filter (fun q => decide (q < 32) && !s.fuse.fusedQuads.contains q)).eraseDups).foldl State.fenceQuad s
      let s := (corrected.filter (fun c => tested c.1)).foldl (fun (s : State) c =>
        (s.setSlot c.1 { s.slot c.1 with corrected := c.2 }).sat Reg.RAS_CNT_CORR_count c.2) s
      let s := (((failed ++ (corrected.filter (fun c => decide (3 < c.2))).map (·.1)).filter tested) ++ s.mram.fences).eraseDups.foldl State.failSlot s
      let s := { s with scr := { s.scr with mem := [], poison := [] } }
      let s := (movers.filter (fun m => decide (m < 64))).foldl (fun (s : State) m => s.fenceMover m 2) s
      let s := (crcs.filter (fun u => decide (u < 32))).foldl (fun (s : State) u => s.fenceCrc u 2) s
      let s := colls.foldl (fun (s : State) e => s.fenceColl e 2) s
      let s := if strm then s.fenceStream else s
      let s := (List.range 32).foldl (fun (s : State) q =>
        s.quadClock q (!s.fuse.fusedQuads.contains q && !s.pwr.quadFenced.contains q)) s
      ((s.toMhz 750).toStage 3))) ∧
  (∀ (absent : List Nat) (failed : List Nat) (s : State), s.bringUp 3 = true → exec (.stackTrainingEnd absent failed) s = .next (
      let gone (k : Nat) : Bool := !s.stackFused k && (absent.contains k || failed.any (fun c => c / 2 == k))
      let idle (c : Nat) : Bool := s.stackFused (c / 2) || absent.contains (c / 2)
      let bad := (List.range 8).filter gone
      let s := bad.foldl (fun (s : State) k => s.wr (Reg.HBM_STACK_STATUS_state k) 5) s
      let s := { s with boot := { s.boot with ctlFailed := (List.range 16).filter (fun c => failed.contains c && !idle c), ctlIdle := (List.range 16).filter idle } }
      let live := (List.range 8).filter (fun k => !gone k && !s.stackFused k)
      let s := s.wr Reg.HBM_STATUS_halted (bad.foldl (fun v k => v + 2 ^ k) 0)
      let none_ := decide (live.length < 7)
      let s := s.wr Reg.HBM_STATUS_present (if none_ then 0 else live.foldl (fun v k => v + 2 ^ k) 0)
      let s := (s.wr Reg.HBM_STATUS_layout7 (ofBool (s.fuse.part == .x672 || live.length == 7))).wr Reg.HBM_STATUS_no_memory (ofBool none_)
      let s := { s with glb := { s.glb with worn := s.glb.worn || !bad.isEmpty } }
      let s := s.reapply
      let s := s.mram.marked.foldl State.replaceCell s
      ((if none_ then s.narrow 2 else s).toStage 4))) ∧
  (∀ (s : State), s.bringUp 4 = true → exec .clusterBinding s = .next (
      let s := s.bindTiles
      let all := decide (s.glb.tileCount = 16 * (128 - 4 * s.fuse.fusedQuads.length))
      ({ s with glb := { s.glb with worn := s.glb.worn || !all } }.toStage 5))) ∧
  (∀ (readyMs : Nat) (s : State), s.boot.perst = false → s.boot.trip = false → s.boot.stage = 5 → exec (.hubReadySet readyMs) s = .next (s.becomeReady readyMs))

/-- O25. What the blanket, key slots, the life cycle and firmware commands do -/
def Obligations.BlanketAndLifeCycleCommandsTakeEffect : Prop :=
  (∀ (tag : Nat) (s : State), s.boot.vaon = true → s.mgmt.running = none → s.mgAvailable 0x10 (false) = true → s.sag = none → exec (.blanket tag) s = .next ({ s.startBlanket 1 with mgmt := { (s.startBlanket 1).mgmt with running := some (0x10, tag) } })) ∧
  (∀ (src : BusSrc) (v : Word) (s : State), bit v.toNat 0 = true → (s.rd Reg.HOST_STATUS_tdisp ≠ 2 ∨ teeOk src = true) → exec (.secBlanket src v) s = .next (s.startBlanket 2)) ∧
  (∀ (s : State), s.blanket.row = 1 → s.glb.stop = 0 → s.blanketIdle = true → exec .blanketDrained s = .next (
      let s := (List.range 8).foldl (fun (s : State) i => s.emptySlot (i + 1)) s
      let s := (s.wr Reg.HOST_STATUS_ide_secure 0).settleConns
      let s := [11, 12, 13, 14, 15].foldl State.settleSlot s
      let s := if s.blanket.remove then s.bedrockGone else s
      let s := { s with blanket := { s.blanket with remove := false } }.freshen
      let s := { s with home := { s.home with filter := [] } }
      let active := (List.range 8).filter (fun n => s.siteState n == 5)
      let s := (List.range 8).foldl (fun (s : State) n => (s.endMailbox n 3).resetSite n) s
      let s := (List.range 8).foldl State.showEntries s
      let s := s.zeroSram.checkBedrock
      { s with blanket := { s.blanket with row := 2, reset := active } })) ∧
  (∀ (s : State), s.blanket.row = 2 → s.glb.stop = 0 → exec .blanketAttested s = .next (s.blanketEnd)) ∧
  (∀ (src : BusSrc) (v : Word) (s : State), 11 ≤ bits v.toNat 3 0 → (s.rd Reg.HOST_STATUS_tdisp ≠ 2 ∨ teeOk src = true) → bit v.toNat 8 = true → exec (.secSlotCmd src v) s = .next (s.changeSlot { slot := bits v.toNat 3 0, key := none, asked := none })) ∧
  (∀ (slot : Nat) (s : State), exec (.slotDrainDone slot) s = .next (
      (s.settleSlot (slot % 16)))) ∧
  (∀ (tag : Nat) (s : State), s.boot.vaon = true → s.mgmt.running = none → s.mgAvailable 0x43 (false) = true → s.sag = none → s.blanket.row = 0 → exec (.lcNonce tag) s = .next (s.giveNonce.1.mgLast 0x43 tag mgDone (leBytes 32 s.giveNonce.2))) ∧
  (∀ (tag : Nat) (nonce : Nat) (genuine : Bool) (t : State) (ok : Bool) (s : State), s.boot.vaon = true → s.mgmt.running = none → s.mgAvailable 0x44 false = true → s.sag = none → s.blanket.row = 0 → s.beginEol nonce genuine = (t, ok) → exec (.lcEol tag nonce genuine) s = .next (if ok = true then { t with mgmt := { t.mgmt with running := some (0x44, tag) } } else t.mgLast 0x44 tag mgRefused [])) ∧
  (∀ (tag : Nat) (f : FwCopy) (s : State), s.boot.vaon = true → s.mgmt.running = none → s.mgAvailable 0x41 false = true → s.sag = none → s.fwRunning = some f → s.fuse.svn < f.svn → f.svn ≤ 64 → exec (.svnCommit tag) s = .next (((({ s with fuse := { s.fuse with svn := f.svn } } : State).wr Reg.SEC_FW_svn_fused f.svn).wr Reg.SEC_STATUS_svn_behind 0).mgLast 0x41 tag mgDone [])) ∧
  (∀ (tag : Nat) (svn : Nat) (major : Nat) (minor : Nat) (digest : Nat) (genuine : Bool) (s : State), s.boot.vaon = true → s.mgmt.running = none → s.mgAvailable 0x40 false = true → s.sag = none → (s.boot.recovery || s.boot.runB) = true → exec (.fwWrite tag svn major minor digest genuine) s = .next ((s.storeWrite 6 (fun (u : State) => { u with mram := { u.mram with fwA := some { valid := genuine, svn := svn % 256, major := major % 2 ^ 32, minor := minor % 2 ^ 32, digest := digest } } })).mgLast 0x40 tag (if s.storeOk 6 then mgDone else mgRefused) [])) ∧
  (∀ (tag : Nat) (svn : Nat) (major : Nat) (minor : Nat) (digest : Nat) (genuine : Bool) (s : State), s.boot.vaon = true → s.mgmt.running = none → s.mgAvailable 0x40 false = true → s.sag = none → (s.boot.recovery || s.boot.runB) = false → exec (.fwWrite tag svn major minor digest genuine) s = .next ((s.storeWrite 6 (fun (u : State) => { u with mram := { u.mram with fwB := some { valid := genuine, svn := svn % 256, major := major % 2 ^ 32, minor := minor % 2 ^ 32, digest := digest } } })).mgLast 0x40 tag (if s.storeOk 6 then mgDone else mgRefused) [])) ∧
  (∀ (tag : Nat) (m : Manifest) (host : Option Nat) (s : State), s.boot.vaon = true → s.mgmt.running = none → s.mgAvailable 0x30 (false) = true → s.sag = none → s.blanket.row = 0 → exec (.bedrockInstall tag m host) s = .next ((s.installBedrock m host).1.mgLast 0x30 tag (s.installBedrock m host).2 [])) ∧
  (∀ (tag : Nat) (s : State), s.boot.vaon = true → s.mgmt.running = none → s.mgAvailable 0x31 (false) = true → s.sag = none → s.blanket.row = 0 → exec (.bedrockRemove tag) s = .next (({ s with blanket := { s.blanket with remove := s.mram.manifest.isSome } } : State).mgLast 0x31 tag mgDone []))

/-- O26. What losses, parity errors, injections and the coalescing timer do -/
def Obligations.ReliabilityCommandsTakeEffect : Prop :=
  (∀ (s : State), s.running = true → s.glb.stop ≠ 2 → exec .heartbeatLoss s = .next (
      let s := s.fatalOpen 0x3811 0 true
      { s with glb := { s.glb with stop := 2 } })) ∧
  (∀ (xlat : Bool) (s : State), s.running = true → exec (.fatalParity xlat) s = .next (
      let s := s.fatalOpen (if xlat then 0x0611 else 0x0511) 0 false
      { s with glb := { s.glb with stop := max s.glb.stop 1 } })) ∧
  (∀ (code : Nat) (unit : Nat) (s : State), s.boot.vaon = true → exec (.eventCoalesceTimer code unit) s = .next (s.closeWindow code unit)) ∧
  (∀ (v : DWord) (s : State), bit v.toNat 63 = true → 1 ≤ bits v.toNat 51 48 → bits v.toNat 51 48 ≤ 4 → s.evt.inject = none → s.injectable (bits v.toNat 51 48) (bits v.toNat 57 52) (bits v.toNat 47 0) = true → exec (.rasInject v) s = .next (({ s with evt := { s.evt with inject := some (bits v.toNat 51 48, bits v.toNat 47 0) } } : State).wr Reg.RAS_INJECT_STATUS_result 1)) ∧
  (∀ (v : DWord) (s : State), bit v.toNat 63 = true → 1 ≤ bits v.toNat 51 48 → bits v.toNat 51 48 ≤ 4 → (s.evt.inject.isSome = true ∨ s.injectable (bits v.toNat 51 48) (bits v.toNat 57 52) (bits v.toNat 47 0) = false) → exec (.rasInject v) s = .next (s.wr Reg.RAS_INJECT_STATUS_result 3)) ∧
  (∀ (mover : Nat) (s : State), exec (.moverParityError mover) s = .next (
      (s.fenceMover mover 1))) ∧
  (∀ (segment : Nat) (s : State), s.noc.segLost.get 0 segment = 0 → exec (.expressLinkLoss segment) s = .next (({ s with noc := { s.noc with segLost := s.noc.segLost.put segment 1 } } : State).eventOpen blkNoc 7 3 segment)) ∧
  (∀ (segment : Nat) (s : State), s.noc.segLost.get 0 segment = 1 → exec (.expressLinkLoss segment) s = .next (let u : State := { s with noc := { s.noc with segLost := s.noc.segLost.put segment 2 } }; u.fatalStop 0x0C11 segment 1 (Config.endStops (segEnds segment).1.code (segEnds segment).2.code).toNat false)) ∧
  (∀ (serial : Nat) (part : Part) (quads : List Nat) (s : State), s.sag = none → s.boot.vaon = true → s.boot.lc = s.fuse.lc → s.fuse.lc = .blank → exec (.lcTestTransition serial part quads) s = .next ({ s with fuse := { s.fuse with lc := .test, uds := true, serial := serial % 2 ^ 64, burnAt := s.burnStart } })) ∧
  (∀ (serial : Nat) (part : Part) (quads : List Nat) (f : FwCopy) (s : State), s.sag = none → s.boot.vaon = true → s.boot.lc = s.fuse.lc → s.fuse.lc = .test → s.fwRunning = some f → exec (.lcTestTransition serial part quads) s = .next ({ s with fuse := { s.fuse with lc := .production, part := part, fusedQuads := variantQuads part quads, svn := min 64 f.svn, debugOff := true, burnAt := s.burnStart } })) ∧
  (∀ (s : State), exec .groupKeyGraceEnd s = .next (
      { s with sec := { s.sec with oldGroupKey := none } }))

/-- O27. What the management commands and the accesses of BAR0 do -/
def Obligations.ManagementAndRegisterCommandsTakeEffect : Prop :=
  (∀ (tag : Nat) (seq : Nat) (s : State), s.boot.vaon = true → s.mgmt.running = none → s.mgAvailable 0x42 (false) = true → s.sag = none → exec (.fatalClear tag seq) s = .next ((s.storeWrite 0 (fun (u : State) => u.clearFatal seq)).mgLast 0x42 tag (if s.storeOk 0 then mgDone else mgRefused) [])) ∧
  (∀ (tag : Nat) (off : Nat) (len : Nat) (s : State), s.boot.vaon = true → s.mgmt.running = none → s.mgAvailable 0x01 (off == Reg.SEC_STATUS && len == 4) = true → s.sag = none → len ≠ 0 → len ≤ 240 → len % 4 = 0 → off % 4 = 0 → off + len ≤ 67108864 → exec (.mgmtRead tag off len) s = .next (((((List.range (len / 4)).map (fun (i : Nat) => off + 4 * i)).foldl (fun (u : State) (o : Nat) => u.readEffect o) s).mgLast 0x01 tag mgDone (((List.range (len / 4)).map (fun (i : Nat) => off + 4 * i)).flatMap (fun (o : Nat) => leBytes 4 (s.operatorWord o)))))) ∧
  (∀ (tag : Nat) (off : Nat) (v : Word) (s : State), s.boot.vaon = true → s.mgmt.running = none → s.mgAvailable 0x02 (false) = true → s.sag = none → off = Reg.RAS_ALERT_EN → exec (.mgmtWrite tag off v) s = .next ((s.withAlert (fun (u : State) => u.wr Reg.RAS_ALERT_EN_enable (v.toNat % 32 ||| 3))).mgLast 0x02 tag mgDone [])) ∧
  (∀ (tag : Nat) (off : Nat) (v : Word) (s : State), s.boot.vaon = true → s.mgmt.running = none → s.mgAvailable 0x02 (false) = true → s.sag = none → off = Reg.RAS_ALERT → exec (.mgmtWrite tag off v) s = .next ((s.withAlert (fun (u : State) => [Reg.RAS_ALERT_op_lost, Reg.RAS_ALERT_wear, Reg.RAS_ALERT_uncorrected].foldl (fun (u : State) (f : Fld) => if bit v.toNat f.lo then u.wr f 0 else u) u)).mgLast 0x02 tag mgDone [])) ∧
  (∀ (tag : Nat) (seq : Nat) (s : State), s.boot.vaon = true → s.mgmt.running = none → s.mgAvailable 0x03 (false) = true → s.sag = none → exec (.evtAck tag seq) s = .next (({ s with evt := { s.evt with opAck := seq % 2 ^ 32 } } : State).mgLast 0x03 tag mgDone [])) ∧
  (∀ (tag : Nat) (s : State), s.boot.vaon = true → s.mgmt.running = none → s.mgAvailable 0x11 (false) = true → s.sag = none → exec (.wake tag) s = .next ((s.wakeCold Reg.HOST_WAKE_EN_mgmt).mgLast 0x11 tag mgDone [])) ∧
  (∀ (tag : Nat) (item : Nat) (sub : Nat) (vals : List Nat) (s : State), s.boot.vaon = true → s.mgmt.running = none → s.mgAvailable 0x12 false = true → s.sag = none → configForm item sub vals = true → (item ≠ 2 ∨ s.portFused sub = false) → configRefused item sub (vals.headD 0) = false → (item = 4 ∨ s.configNow = false) → exec (.config tag item sub vals) s = .next ((s.storeWrite 7 (fun (u : State) => { u with mram := { u.mram with config := u.mram.config.put (configKey item (configSub item sub)) vals } })).mgLast 0x12 tag (if s.storeOk 7 then mgDone else mgRefused) [])) ∧
  (∀ (tag : Nat) (item : Nat) (sub : Nat) (vals : List Nat) (t : State) (st : Option Nat) (s : State), s.boot.vaon = true → s.mgmt.running = none → s.mgAvailable 0x12 false = true → s.sag = none → configForm item sub vals = true → (item ≠ 2 ∨ s.portFused sub = false) → configRefused item sub (vals.headD 0) = false → item ≠ 4 → s.configNow = true → s.configWrite item sub (vals.headD 0) = (t, st) → st.all (fun (o : Nat) => t.rd ⟨o, 0, 0⟩ != 1) = true → exec (.config tag item sub vals) s = .next ((t.storeWrite 7 (fun (u : State) => { u with mram := { u.mram with config := u.mram.config.put (configKey item (configSub item sub)) vals } })).mgLast 0x12 tag (if t.storeOk 7 then mgDone else mgRefused) [])) ∧
  (∀ (tag : Nat) (record : PopRecord) (genuine : Bool) (s : State), s.boot.vaon = true → s.mgmt.running = none → s.mgAvailable 0x20 (false) = true → s.sag = none → s.mram.pop = none → genuine = true → record.reworkCount = 0 → popOk s.fuse.part record = true → exec (.popWrite tag record genuine) s = .next ((s.storeWrite 8 (fun (u : State) => { u with mram := { u.mram with pop := some record } })).mgLast 0x20 tag (if s.storeOk 8 then mgDone else mgRefused) [])) ∧
  (∀ (tag : Nat) (record : PopRecord) (genuine : Bool) (old : PopRecord) (s : State), s.boot.vaon = true → s.mgmt.running = none → s.mgAvailable 0x21 (false) = true → s.sag = none → s.mram.pop = some old → genuine = true → old.reworkCount < 2 → popOk s.fuse.part record = true → exec (.rework tag record genuine) s = .next ((s.storeWrite 8 (fun (u : State) => { u with mram := { u.mram with pop := some { record with reworkCount := old.reworkCount + 1 } } })).mgLast 0x21 tag (if s.storeOk 8 then mgDone else mgRefused) [])) ∧
  (∀ (tag : Nat) (slots : List Nat) (s : State), s.boot.vaon = true → s.mgmt.running = none → s.mgAvailable 0x22 (false) = true → s.sag = none → exec (.fenceClear tag slots) s = .next ((s.storeWrite 4 (fun (u : State) => { u with mram := { u.mram with fences := u.mram.fences.filter (fun (p : Nat) => !slots.contains p) } })).mgLast 0x22 tag (if s.storeOk 4 then mgDone else mgRefused) [])) ∧
  (∀ (tag : Nat) (op : Nat) (m : Nat) (e : RosterEntry) (cm2 : Bool) (s : State), s.boot.vaon = true → s.mgmt.running = none → s.mgAvailable 0x23 (false) = true → s.sag = none → op = 0 → m < 64 → s.isManager = true → s.mayEnrol m e cm2 = true → exec (.rosterCmd tag op m e cm2) s = .next ((s.storeWrite 9 (fun (u : State) => if (s.enrolled m && (s.rosterOf m).digest != e.digest) = true then (u.putRoster (u.hier.roster.put m { e with enrolled := true })).newGroupKey else u.putRoster (u.hier.roster.put m { e with enrolled := true }))).mgLast 0x23 tag (if s.storeOk 9 then mgDone else mgRefused) [])) ∧
  (∀ (tag : Nat) (op : Nat) (m : Nat) (e : RosterEntry) (cm2 : Bool) (s : State), s.boot.vaon = true → s.mgmt.running = none → s.mgAvailable 0x23 (false) = true → s.sag = none → op = 1 → m < 64 → s.isManager = true → exec (.rosterCmd tag op m e cm2) s = .next ((s.storeWrite 9 (fun (u : State) => if s.enrolled m = true then (u.putRoster (u.hier.roster.del m)).newGroupKey else u.putRoster (u.hier.roster.del m))).mgLast 0x23 tag (if s.storeOk 9 then mgDone else mgRefused) [])) ∧
  (∀ (tag : Nat) (failed : List Nat) (s : State), s.boot.vaon = true → s.mgmt.running = none → s.mgAvailable 0x50 (false) = true → s.sag = none → s.boot.lc = .endOfLife → exec (.flint tag failed) s = .next ((let u := ((failed.filter (fun (p : Nat) => decide (p < 2304) && !s.fuse.fusedQuads.contains (p / 72))).eraseDups).foldl State.failSlot s; ({ u with scr := { u.scr with mem := [], poison := [] } } : State).mgLast 0x50 tag mgDone []))) ∧
  (∀ (s : State), s.boot.vaon = true → s.mgmt.running = none → exec .mgmtResponseRead s = .next (({ s with mgmt := { s.mgmt with bounced := none } } : State).send (.mgmt s.mgmt.last.1 s.mgmt.last.2.1 s.mgmt.last.2.2.1 s.mgmt.last.2.2.2))) ∧
  (∀ (c : Nat) (t : Nat) (s : State), s.boot.vaon = true → s.mgmt.running = some (c, t) → s.mgmt.bounced = none → exec .mgmtResponseRead s = .next (s.send (.mgmt c t mgInProgress []))) ∧
  (∀ (addr : Nat) (s : State), s.boot.vaon = true → s.mgmt.i3c = none → exec (.i3cEntdaa addr) s = .next ({ s with mgmt := { s.mgmt with i3c := some (addr % 128) } })) ∧
  (∀ (target : Nat) (addr : Nat) (s : State), s.boot.vaon = true → s.mgmt.i3c = none → target = 0x58 + s.mgmt.maddr → exec (.i3cSetdasa target addr) s = .next ({ s with mgmt := { s.mgmt with i3c := some (addr % 128) } })) ∧
  (∀ (s : State), s.boot.vaon = true → exec .i3cRstdaa s = .next ({ s with mgmt := { s.mgmt with i3c := none } })) ∧
  (∀ (src : BusSrc) (off : Nat) (size : Nat) (v : DWord) (s : State), s.barOk src = true → accessOk off size = true → exec (.registerWrite src off size v) s = .next (s.takeAccess src off size (some v))) ∧
  (∀ (src : BusSrc) (off : Nat) (size : Nat) (v : DWord) (s : State), s.barOk src = true → accessOk off size = false → exec (.registerWrite src off size v) s = .next (((s.sat Reg.HOST_ERR_inbound_ur 1).regEvent 2 off v.toNat).send (.unsupported off size))) ∧
  (∀ (src : BusSrc) (off : Nat) (size : Nat) (s : State), s.barOk src = true → accessOk off size = true → exec (.registerRead src off size) s = .next (s.takeAccess src off size none)) ∧
  (∀ (src : BusSrc) (off : Nat) (size : Nat) (s : State), s.barOk src = true → accessOk off size = false → exec (.registerRead src off size) s = .next (((s.sat Reg.HOST_ERR_inbound_ur 1).regEvent 2 off 0).send (.unsupported off size)))

/-- O28. A step carries out the command at the front of the queue -/
def Obligations.StepRunsTheCommandAtTheFront : Prop :=
  (∀ (c : Instr) (rest : List Instr) (s : State), step { s with pending := c :: rest } = exec c { s with pending := rest }) ∧
  (∀ (s : State), s.pending = [] → step s = .next s.idle) ∧
  (∀ (s : State), s.pending = [] → s.boot.vaon = false → step s = .next s)

/-- O29. Every command and every step answers a next state, in every state -/
def Obligations.EveryCommandAndStepCompletes : Prop :=
  (∀ (c : Instr) (s : State), Completes (exec c s)) ∧ (∀ (s : State), Completes (step s))

/-- O30. Every command and every step keeps stacked memory and scratch in canonical form -/
def Obligations.EveryStepKeepsMemoryCanonical : Prop :=
  (∀ (c : Instr) (s t : State), Canonical s → exec c s = .next t → Canonical t) ∧
  (∀ (s t : State), Canonical s → step s = .next t → Canonical t)

/-- O31. A command leaves the queue as it is, a step takes one command off its front, and the queue stays well formed -/
def Obligations.CommandsAreTakenInOrder : Prop :=
  (∀ (c : Instr) (s t : State), exec c s = .next t → t.pending = s.pending) ∧
  (∀ (s t : State), step s = .next t → t.pending = s.pending.drop 1) ∧
  (∀ (s t : State), QueueWellFormed s → step s = .next t → QueueWellFormed t)

/-- O32. The number of free values used never falls -/
def Obligations.FreeValuesAreNeverUsedTwice : Prop :=
  (∀ (c : Instr) (s t : State), exec c s = .next t → s.free ≤ t.free) ∧
  (∀ (n : Nat) (s t : State), runSteps n s = .next t → s.free ≤ t.free)

/-- O33. After n steps the first n waiting commands have been carried out, from every state -/
def Obligations.EveryWaitingCommandIsCarriedOut : Prop :=
  ∀ (n : Nat) (s : State), ∃ (t : State), runSteps n s = .next t ∧ t.pending = s.pending.drop n ∧ (Canonical s → Canonical t)

/-- O34. The state after reset: register reset values, nothing stored, nothing running -/
def Obligations.ResetStateIsAsTheSpecSays : Prop :=
  (∀ (o : Nat), State.reset.reg o = regReset o % 2 ^ 64 ∧ State.reset.shd o = regReset o % 2 ^ 64) ∧
  State.reset.pending = [] ∧ State.reset.rd Reg.HUB_READY_ready = 0 ∧ State.reset.rd Reg.DUTY_MODE_desc_translation = 0 ∧
  State.reset.reg Reg.GLB_COMMIT_STATUS = 0xFF00 ∧ State.reset.reg (Reg.REG_CLASS_CTL 0) = 2000 ∧ State.reset.reg (Reg.REG_CLASS_CTL 36) = 0x10320 ∧
  (State.reset.loadFuses).reg Reg.GLB_ID = 0x0C0301B1 ∧
  (∀ (a : Nat), State.reset.memByte a = 0#8) ∧ State.reset.evt.slots = [] ∧ State.reset.rings = [] ∧ State.reset.connSt = []

/-- O35. The state after reset has a canonical memory and a well-formed queue -/
def Obligations.ResetIsCanonical : Prop :=
  Canonical State.reset ∧ QueueWellFormed State.reset

/-- O36. GLB_COMMIT refuses to turn on descriptor translation by the driver while the TDISP interface is locked or running -/
def Obligations.GlbCommitRefusedWhileInterfaceIsHeld : Prop :=
  (∀ (v : Word) (s : State), v.toNat % 2 = 1 → s.shf Reg.DUTY_MODE_desc_translation = 1 →
    (s.rd Reg.HOST_STATUS_tdisp = 1 ∨ s.rd Reg.HOST_STATUS_tdisp = 2) →
    ∃ (t : State), exec (.glbCommit v) s = .next t ∧ t.rd Reg.GLB_COMMIT_STATUS_refused = 1 ∧ t.rd Reg.GLB_COMMIT_STATUS_first_field = 0 ∧
      (∀ (o : Nat), o ≠ Reg.GLB_COMMIT_STATUS → t.reg o = s.reg o) ∧ (∀ (o : Nat), t.shd o = s.shd o)) ∧
  (∀ (v : Word) (s : State), v.toNat % 2 = 1 →
    (s.shf Reg.DUTY_MODE_desc_translation = 0 ∨ (s.rd Reg.HOST_STATUS_tdisp ≠ 1 ∧ s.rd Reg.HOST_STATUS_tdisp ≠ 2)) →
    s.shf Reg.GLB_DRV_INFO_drv_api ≤ 2 →
    ∃ (t : State), exec (.glbCommit v) s = .next t ∧ t.rd Reg.GLB_COMMIT_STATUS_refused = 0 ∧
      bits (t.reg Reg.DUTY_MODE) 9 0 = bits (s.shd Reg.DUTY_MODE) 9 0 ∧ bits (t.reg Reg.DUTY_ACTIVE) 9 0 = bits (s.shd Reg.DUTY_MODE) 9 0)

/-- O37. A write of commit fields changes no value in force; a commit takes exactly those fields; a refused commit keeps the old set -/
def Obligations.StagedWritesWaitForTheirCommit : Prop :=
  (∀ (s : State) (o : Nat) (d : RegDesc) (v x : Nat), (∀ f ∈ d.fields, f.acc = Access.rwc ∨ f.acc = Access.ro) →
    (s.writeFields o d v).reg x = s.reg x) ∧
  (∀ (s : State) (o i : Nat) (d : RegDesc), findReg o = some d → i < 64 →
    ((s.commitReg o).reg o).testBit i =
      if d.fields.any (fun (f : FieldDesc) => f.acc == Access.rwc && decide (f.lo ≤ i ∧ i ≤ f.hi)) then (s.shd o).testBit i else (s.reg o).testBit i) ∧
  (∀ (s : State) (o x : Nat), x ≠ o → (s.commitReg o).reg x = s.reg x) ∧
  (∀ (s : State) (o x : Nat), (s.commitReg o).shd x = s.shd x) ∧
  (∀ (s : State) (o code x : Nat), x ≠ o → (s.commitRefused o code).reg x = s.reg x ∧ (s.commitRefused o code).shd x = s.shd x) ∧
  (∀ (s : State) (o code : Nat), (s.commitRefused o code).shd o = s.shd o ∧ (s.commitRefused o code).rd ⟨o, 15, 8⟩ = code % 256 ∧
    (s.commitRefused o code).rd ⟨o, 0, 0⟩ = 1)

/-- O38. Reserved bits read as 0 and a 1 written to one is discarded -/
def Obligations.ReservedBitsReadZeroAndDiscardOnes : Prop :=
  (∀ (s : State) (view : Viewer) (o i : Nat) (d : RegDesc), findReg o = some d → s.viewOf o = none → view ≠ Viewer.operator →
    (∀ f ∈ d.fields, i < f.lo ∨ f.hi < i) → (s.look view o d).testBit i = false) ∧
  (∀ (s : State) (o v w : Nat) (d : RegDesc), (∀ f ∈ d.fields, bits v f.hi f.lo = bits w f.hi f.lo) → s.writeFields o d v = s.writeFields o d w)

/-- O39. Bytes written to stacked memory or scratch read back, and every other byte reads as before -/
def Obligations.MemoryReadsBackWhatWasWritten : Prop :=
  (∀ (s : State) (cls a : Nat) (bs : List PByte) (c : Nat), s.hbm.wcb = [] → s.hbm.wq = [] → bs.length ≤ 2048 →
    (s.putMarked cls a bs).memByte c = if a ≤ c ∧ c < a + bs.length then ((bs[c - a]?).map Prod.fst).getD 0 else s.memByte c) ∧
  (∀ (s : State) (p a : Nat) (bs : List PByte) (q c : Nat), Canonical s → a + bs.length ≤ 2 ^ 20 → c < 2 ^ 20 →
    ((s.scrWrite p a bs).scrBytes q c 1).map Prod.fst =
      if q = p ∧ a ≤ c ∧ c < a + bs.length then [((bs[c - a]?).getD (0, false)).1] else (s.scrBytes q c 1).map Prod.fst)

/-- O40. Placement is one to one: the cell that holds a byte carries that byte's granule, in both layouts -/
def Obligations.EveryCellCarriesOneGranule : Prop :=
  ∀ (s : State) (a : Nat), a < s.memTop →
    s.granuleOfCell (s.cellOf a) = some (a / granuleBytes) ∧ (s.place a).1 < 16 ∧ (s.place a).2 < 385024 ∧
    (s.on Reg.HBM_STATUS_layout7 = true → (s.place a).1 / 2 ≠ s.absentStack)

/-- O41. PERST_N asserted: the always-on domain is kept and everything else is at its reset value -/
def Obligations.PerstKeepsOnlyTheAlwaysOnDomain : Prop :=
  ∀ (s : State), s.boot.vaon = true → s.boot.perst = false → s.sag = none →
    ∃ (t : State), exec .perstNAssert s = .next t ∧ t.boot.perst = true ∧ t.fuse = { s.fuse with burnAt := none } ∧ t.mram = s.mram ∧
      t.evt.slots = s.evt.slots ∧ t.evt.boot = s.evt.boot ∧ t.pending = s.pending ∧
      (∀ (o : Nat), keptReg o = true → t.reg o = s.reg o) ∧ (∀ (o : Nat), keptReg o = false → t.reg o = State.reset.reg o) ∧
      (∀ (o : Nat), t.shd o = State.reset.shd o) ∧
      t.hbm = HbmSt.reset ∧ t.scr = State.reset.scr ∧ t.tiles = [] ∧ t.rings = [] ∧ t.home = HomeSt.reset ∧ t.connSt = [] ∧ t.sec = SecSt.none ∧
      t.coll = CollSt.none ∧ t.strm = StrmSt.none ∧ t.time = TimeSt.reset

/-- O42. VAON lost: only fuses and the MRAM store survive, and a second loss does nothing -/
def Obligations.VaonLossKeepsFusesAndStoreAlone : Prop :=
  ∀ (s : State), s.boot.vaon = true →
    ∃ (t : State), exec .vaonPowerOff s = .next t ∧ t.boot.vaon = false ∧ t.fuse = s.fusesOff ∧ t.mram = s.mram ∧ t.pending = s.pending ∧
      (∀ (o : Nat), t.reg o = State.reset.reg o ∧ t.shd o = State.reset.shd o) ∧ t.evt = State.reset.evt ∧ t.sag = none ∧ t.hbm = HbmSt.reset ∧
      t.mgmt = MgmtSt.reset ∧ exec .vaonPowerOff t = .next t

/-- O43. ALERT_N is low after a thermal trip, and otherwise exactly while a bit of RAS_ALERT is set whose enable is set or which is always enabled -/
def Obligations.AlertPinIsLowWhileAnEnabledBitIsSet : Prop :=
  (∀ (s : State), s.alertLevel = false ↔ s.boot.trip = true ∨ ∃ (i : Nat), i < 5 ∧ (s.reg Reg.RAS_ALERT).testBit i = true ∧
    (i < 2 ∨ (s.rd Reg.RAS_ALERT_EN_enable).testBit i = true)) ∧
  (∀ (s : State) (f : State → State), (f s).alertLevel ≠ s.alertLevel → Out.pin Pin.alertN (f s).alertLevel ∈ (s.withAlert f).out)

/-- O44. An event of a code and unit whose millisecond runs is only counted; the first is logged, and a held one when the time ends -/
def Obligations.EventsOfAPairAreCountedForAMillisecond : Prop :=
  (∀ (s : State) (e : Event) (w : EvtWindow), e.cls < 2 → s.evt.windows.find? (fun (x : EvtWindow) => x.code == e.code && x.unit == e.unit) = some w →
    (s.post e).evt.slots = s.evt.slots ∧ (s.post e).regs = s.regs ∧ (s.post e).out = s.out ∧
    (s.post e).evt.windows.find? (fun (x : EvtWindow) => x.code == e.code && x.unit == e.unit) = some { w with held := w.held + 1, last := some e }) ∧
  (∀ (s : State) (e : Event), e.cls < 2 → s.evt.windows.find? (fun (x : EvtWindow) => x.code == e.code && x.unit == e.unit) = none →
    s.on Reg.QM_EVT_CFG_enable = false →
    (s.post e).rd Reg.RAS_EVT_NEXT_next = (s.rd Reg.RAS_EVT_NEXT_next + 1) % 2 ^ 32 ∧
    (s.post e).evt.slots = s.evt.slots.put (s.rd Reg.RAS_EVT_NEXT_next % 4096)
      { e with seq := s.rd Reg.RAS_EVT_NEXT_next, time := s.now, boot := s.evt.boot, count := 1 } ∧
    ((s.post e).evt.windows.find? (fun (x : EvtWindow) => x.code == e.code && x.unit == e.unit)).isSome = true) ∧
  (∀ (s : State) (code unit : Nat) (w : EvtWindow) (e : Event), s.boot.vaon = true → s.on Reg.QM_EVT_CFG_enable = false →
    s.evt.windows.find? (fun (x : EvtWindow) => x.code == code && x.unit == unit) = some w → w.last = some e → w.held = 1 →
    ∃ (t : State), exec (.eventCoalesceTimer code unit) s = .next t ∧
      t.evt.slots = s.evt.slots.put (s.rd Reg.RAS_EVT_NEXT_next % 4096)
        { e with seq := s.rd Reg.RAS_EVT_NEXT_next, time := s.now, boot := s.evt.boot, count := 1 })

/-- O45. A host access that the endpoint does not serve changes only HOST_ERR, the event log and what is answered -/
def Obligations.RefusedHostAccessChangesOnlyCounterAndLog : Prop :=
  ∀ (c : Instr) (tee : Option Nat) (off size : Nat) (s : State),
    (c = .registerRead (.host tee) off size ∨ (∃ (v : DWord), c = .registerWrite (.host tee) off size v) ∨ (∃ (w : Bool) (v : Word), c = .doorbell (.host tee) w off size v)) →
    (s.host.memEnable = false ∨ s.rd Reg.HOST_STATUS_dstate ≠ 0 ∨ s.on Reg.HOST_STATUS_link_up = false ∨ (s.rd Reg.HOST_STATUS_tdisp = 2 ∧ tee = none) ∨
      (s.rd Reg.HOST_STATUS_tdisp = 2 ∧ ∃ (k : Nat), tee = some k ∧ bit (s.rd Reg.HOST_STATUS_ide_secure) k = false)) →
    s.on Reg.QM_EVT_CFG_enable = false →
    ∃ (t : State), exec c s = .next t ∧ t = { s with regs := t.regs, evt := t.evt, out := t.out } ∧
      (∀ (o : Nat), o ≠ Reg.HOST_ERR → o ≠ Reg.RAS_EVT_NEXT → o ≠ Reg.RAS_EVT_LOST → o ≠ Reg.RAS_ALERT → t.reg o = s.reg o) ∧
      t.rd Reg.HOST_ERR_inbound_ur = min (s.rd Reg.HOST_ERR_inbound_ur + 1) (2 ^ (Reg.HOST_ERR_inbound_ur.hi + 1 - Reg.HOST_ERR_inbound_ur.lo) - 1) ∧
      t.out.getLast? = some (.unsupported off size)

/-- O46. The snoop filter's set of a line, and that the lines of one 64 KiB block all lie in different sets -/
def Obligations.LinesOfABlockLieInDistinctSets : Prop :=
  (∀ (s : State) (line : Nat), (s.setOf line).1 = (s.place (64 * line)).1 ∧ (s.setOf line).2 < 1024 ∧
    (∀ (i : Nat), i < 10 → (s.setOf line).2.testBit i = ((64 * line).testBit (6 + i) ^^ (64 * line).testBit (16 + i) ^^ (64 * line).testBit (26 + i)))) ∧
  (∀ (s : State) (a b : Nat), a / 1024 = b / 1024 → (s.setOf a).2 = (s.setOf b).2 → a = b)

/-- O47. PWRBRAKE_N is ignored before HUB_READY, after THERMTRIP_N and while PERST_N is asserted -/
def Obligations.PwrbrakeIsIgnoredOutsideReadiness : Prop :=
  ∀ (s : State), s.on Reg.HUB_READY_ready = false ∨ s.boot.trip = true ∨ s.boot.perst = true →
    exec .pwrbrakeAssert s = .next { s with pwr := { s.pwr with pinLow := true } }

/-- O48. Packed elements: where 4-bit, 2-bit and binary elements lie, read and written -/
def Obligations.PackedElementsLieWhereTheRuleSays : Prop :=
  (∀ (fmt : Nat) (bs : List Byte) (i : Nat), fmt < 4 → i < bs.length * 2 →
    (bs.flatMap (unpackByte fmt))[i]? = (bs[i / 2]?).map (fun (b : Byte) => if i % 2 = 0 then bits b.toNat 3 0 else bits b.toNat 7 4)) ∧
  (∀ (fmt : Nat) (bs : List Byte) (i : Nat), (fmt = 4 ∨ fmt = 5) → i < bs.length * 4 →
    (bs.flatMap (unpackByte fmt))[i]? = (bs[i / 4]?).map (fun (b : Byte) => bits b.toNat (2 * (i % 4) + 1) (2 * (i % 4)))) ∧
  (∀ (bs : List Byte) (i : Nat), i < bs.length * 8 →
    (bs.flatMap (unpackByte 6))[i]? = (bs[i / 8]?).map (fun (b : Byte) => bits b.toNat (i % 8) (i % 8))) ∧
  (∀ (old : List Byte) (codes : List (Option Nat)) (i a b : Nat), i < codes.length / 2 → codes[2 * i]? = some (some a) → codes[2 * i + 1]? = some (some b) →
    ∃ (x : Byte), (rowImage 4 old codes)[i]? = some (some x) ∧ bits x.toNat 3 0 = a % 16 ∧ bits x.toNat 7 4 = b % 16)

/-- O49. The stochastic rounding generator: its step bit by bit, and its update of sixteen steps -/
def Obligations.LfsrStepsAndUpdates : Prop :=
  (∀ (v : Nat), v < 2 ^ 32 → lfsrStep v < 2 ^ 32 ∧
    ∀ (i : Nat), (lfsrStep v).testBit i = (v.testBit (i + 1) ^^ (v.testBit 0 && (i == 31 || i == 21 || i == 1 || i == 0)))) ∧
  (∀ (v : Nat), lfsrUpdate v = Nat.repeat lfsrStep 16 v) ∧
  (∀ (c v : Nat), bits c 17 16 = 2 → drainRnd c v = .stochastic (v % 2 ^ 16))

/-- O50. Slices: the slice of rank i is the sign on nibble i of M, each lies in −15 to 15, and together they make up the element -/
def Obligations.SlicesMakeUpTheElement : Prop :=
  ∀ (fmt : Nat) (codes : List Nat) (d : SliceDigit), 8 ≤ fmt → fmt ≤ 14 →
    d ∈ (alignBlock fmt (codes.map (sliceElem fmt))).1 →
    (∀ (i : Nat), i < sliceCount fmt → -15 ≤ d.slice (sliceCount fmt) i ∧ d.slice (sliceCount fmt) i ≤ 15 ∧
      d.slice (sliceCount fmt) i = signedOf d.neg (d.m / 16 ^ (sliceCount fmt - 1 - i) % 16)) ∧
    signedOf d.neg d.m = ((List.range (sliceCount fmt)).map (fun (i : Nat) => d.slice (sliceCount fmt) i * 16 ^ (sliceCount fmt - 1 - i))).sum

/-- O51. Every finite code of E5M2, BF16, FP16, FP32 and FP64 decodes to a value that encodes to that code -/
def Obligations.FiniteCodesSurviveARoundTrip : Prop :=
  ∀ (f : Flt) (c : Nat) (neg : Bool) (m : Nat) (q : Int), f ∈ [fltE5m2, fltBf16, fltFp16, fltFp32, fltFp64] → c < 2 ^ f.bitsOf →
    f.decode c = .fin neg m q → f.encode neg (signedOf neg m) 1 q = c

/-- O52. An express route leads from its source to its destination, along one spine and, once crossed, along the other -/
def Obligations.ExpressRoutesJoinTheirStops : Prop :=
  ∀ (src dst : Nat), src < 54 → dst < 54 →
    ((expressRoute src dst).first ++ (expressRoute src dst).second).foldl (fun (p : Option XPlace) (k : Nat) => p.bind (fun (x : XPlace) =>
      if (segEnds k).1 = x then some (segEnds k).2 else if (segEnds k).2 = x then some (segEnds k).1 else none)) (some (stopPlace src)) = some (stopPlace dst) ∧
    (∀ k ∈ (expressRoute src dst).first, k / 10 = if startsEast src then 1 else 0) ∧
    (∀ k ∈ (expressRoute src dst).second, k / 10 = if startsEast src then 0 else 1) ∧
    ((expressRoute src dst).first.Pairwise (fun (a b : Nat) => a < b) ∨ (expressRoute src dst).first.Pairwise (fun (a b : Nat) => b < a)) ∧
    ((expressRoute src dst).second.Pairwise (fun (a b : Nat) => a < b) ∨ (expressRoute src dst).second.Pairwise (fun (a b : Nat) => b < a)) ∧
    ((expressRoute src dst).cross = none → (expressRoute src dst).second = []) ∧
    ∀ c ∈ (expressRoute src dst).cross, ∀ k < 3,
      (expressRoute src dst).second.length ≤ ((spine (decide (8 ≤ dst))).idxOf (stopPlace dst) - 5 * k) + (5 * k - (spine (decide (8 ≤ dst))).idxOf (stopPlace dst))
end

