-- ==== Sys2Proof/Laws/Registers.lean ====
section
/-! SUPPORT. Reading after writing: sparse tables, bit fields, registers and fields of registers. -/
namespace Sys2Proof.Machine

/-! ### Sparse tables -/

theorem Sparse.get_put_same {α : Type} (d v : α) (t : Sparse α) (a : Nat) : (Sparse.put t a v).get d a = v := by
  induction t with
  | nil => simp [Sparse.put, Sparse.get]
  | cons p t ih =>
    obtain ⟨k, w⟩ := p
    simp only [Sparse.put]
    split
    · simp [Sparse.get]
    · split
      · simp [Sparse.get]
      · rename_i h1 h2
        simp [Sparse.get, h2, ih]

theorem Sparse.get_put_ne {α : Type} (d v : α) (t : Sparse α) (a b : Nat) (h : b ≠ a) :
    (Sparse.put t a v).get d b = t.get d b := by
  induction t with
  | nil => simp [Sparse.put, Sparse.get, h]
  | cons p t ih =>
    obtain ⟨k, w⟩ := p
    simp only [Sparse.put]
    split
    · simp [Sparse.get, h]
    · split
      · rename_i h1 h2
        subst h2
        simp [Sparse.get, h]
      · simp only [Sparse.get, ih]

theorem Sparse.get_put {α : Type} (d v : α) (t : Sparse α) (a b : Nat) :
    (Sparse.put t a v).get d b = if b = a then v else t.get d b := by
  by_cases h : b = a
  · subst h; simp [Sparse.get_put_same]
  · simp [Sparse.get_put_ne, h]

theorem Sparse.get_del {α : Type} (d : α) (t : Sparse α) (a b : Nat) :
    (Sparse.del t a).get d b = if b = a then d else t.get d b := by
  induction t with
  | nil => simp [Sparse.del, Sparse.get]
  | cons p t ih =>
    obtain ⟨k, w⟩ := p
    simp only [Sparse.del]
    split
    · rename_i h; subst h
      rw [ih]; by_cases hb : b = a <;> simp [Sparse.get, hb]
    · rename_i h
      simp only [Sparse.get, ih]
      by_cases hb : b = a
      · subst hb; simp [h]
      · simp [hb]

/-! ### Bit fields -/

theorem bits_lt (v hi lo : Nat) : bits v hi lo < 2 ^ (hi + 1 - lo) := Nat.mod_lt _ (Nat.two_pow_pos _)

theorem bits_testBit (v hi lo i : Nat) : (bits v hi lo).testBit i = (decide (i < hi + 1 - lo) && v.testBit (lo + i)) := by
  simp [bits, Nat.testBit_mod_two_pow, Nat.testBit_shiftRight]

/-- A number with a field taken out. -/
theorem putBits_base (v hi lo : Nat) (h : lo ≤ hi) :
    v - (bits v hi lo) <<< lo = v % 2 ^ lo + (v >>> (hi + 1)) <<< (hi + 1) := by
  have e : hi + 1 = lo + (hi + 1 - lo) := by omega
  have hv : v = v % 2 ^ lo + (v >>> lo) <<< lo := by
    rw [Nat.shiftRight_eq_div_pow, Nat.shiftLeft_eq, Nat.mul_comm]; exact (Nat.mod_add_div v (2 ^ lo)).symm
  have hw : v >>> lo = bits v hi lo + (v >>> (hi + 1)) <<< (hi + 1 - lo) := by
    have : v >>> (hi + 1) = (v >>> lo) >>> (hi + 1 - lo) := by rw [← Nat.shiftRight_add, ← e]
    rw [this, bits, Nat.shiftRight_eq_div_pow (v >>> lo), Nat.shiftLeft_eq, Nat.mul_comm]
    exact (Nat.mod_add_div _ _).symm
  have hs : (v >>> lo) <<< lo = (bits v hi lo) <<< lo + (v >>> (hi + 1)) <<< (hi + 1) := by
    rw [hw]
    simp only [Nat.shiftLeft_eq, Nat.add_mul]
    rw [Nat.mul_assoc, ← Nat.pow_add, show hi + 1 - lo + lo = hi + 1 by omega]
  generalize (bits v hi lo) <<< lo = p at *
  generalize (v >>> (hi + 1)) <<< (hi + 1) = q at *
  generalize (v >>> lo) <<< lo = r at *
  generalize v % 2 ^ lo = u at *
  omega

theorem putBits_eq (v hi lo x : Nat) (h : lo ≤ hi) :
    putBits v hi lo x = v % 2 ^ lo + (x % 2 ^ (hi + 1 - lo)) * 2 ^ lo + (v >>> (hi + 1)) * 2 ^ (hi + 1) := by
  rw [putBits, putBits_base v hi lo h, Nat.shiftLeft_eq, Nat.shiftLeft_eq]; omega

theorem putBits_testBit (v hi lo x i : Nat) (h : lo ≤ hi) :
    (putBits v hi lo x).testBit i =
      if i < lo then v.testBit i else if i ≤ hi then x.testBit (i - lo) else v.testBit i := by
  have hx : x % 2 ^ (hi + 1 - lo) < 2 ^ (hi + 1 - lo) := Nat.mod_lt _ (Nat.two_pow_pos _)
  have hl : v % 2 ^ lo < 2 ^ lo := Nat.mod_lt _ (Nat.two_pow_pos _)
  have hlow : v % 2 ^ lo + (x % 2 ^ (hi + 1 - lo)) * 2 ^ lo < 2 ^ (hi + 1) := by
    have : 2 ^ (hi + 1) = 2 ^ (hi + 1 - lo) * 2 ^ lo := by rw [← Nat.pow_add]; congr 1; omega
    rw [this]
    calc v % 2 ^ lo + x % 2 ^ (hi + 1 - lo) * 2 ^ lo < 2 ^ lo + x % 2 ^ (hi + 1 - lo) * 2 ^ lo := by omega
      _ = (x % 2 ^ (hi + 1 - lo) + 1) * 2 ^ lo := by ring
      _ ≤ 2 ^ (hi + 1 - lo) * 2 ^ lo := Nat.mul_le_mul_right _ hx
  rw [putBits_eq v hi lo x h]
  have e1 : v % 2 ^ lo + x % 2 ^ (hi + 1 - lo) * 2 ^ lo + v >>> (hi + 1) * 2 ^ (hi + 1) =
      2 ^ (hi + 1) * (v >>> (hi + 1)) + (2 ^ lo * (x % 2 ^ (hi + 1 - lo)) + v % 2 ^ lo) := by ring
  rw [e1, Nat.testBit_two_pow_mul_add _ (by rw [Nat.mul_comm, Nat.add_comm]; exact hlow), Nat.testBit_two_pow_mul_add _ hl]
  simp only [Nat.testBit_mod_two_pow, Nat.testBit_shiftRight]
  by_cases h1 : i < lo
  · simp [h1, show i < hi + 1 by omega]
  · by_cases h2 : i ≤ hi
    · simp [h1, h2, show i < hi + 1 by omega, show i - lo < hi + 1 - lo by omega]
    · simp [h1, h2, show ¬ i < hi + 1 by omega, show hi + 1 + (i - (hi + 1)) = i by omega]

theorem bits_putBits_same (v hi lo x : Nat) (h : lo ≤ hi) : bits (putBits v hi lo x) hi lo = x % 2 ^ (hi + 1 - lo) := by
  apply Nat.eq_of_testBit_eq
  intro i
  rw [bits_testBit, putBits_testBit _ _ _ _ _ h, Nat.testBit_mod_two_pow]
  by_cases hi' : i < hi + 1 - lo
  · simp [hi', show ¬ lo + i < lo by omega, show lo + i ≤ hi by omega]
  · simp [hi']

theorem bits_putBits_disjoint (v hi lo x hi' lo' : Nat) (h : lo ≤ hi) (d : hi < lo' ∨ hi' < lo) :
    bits (putBits v hi lo x) hi' lo' = bits v hi' lo' := by
  apply Nat.eq_of_testBit_eq
  intro i
  rw [bits_testBit, bits_testBit, putBits_testBit _ _ _ _ _ h]
  by_cases hw : i < hi' + 1 - lo'
  · have : lo' + i ≤ hi' := by omega
    rcases d with d | d
    · simp [hw, show ¬ lo' + i < lo by omega, show ¬ lo' + i ≤ hi by omega]
    · simp [hw, show lo' + i < lo by omega]
  · simp [hw]

theorem bits_mod (v n hi lo : Nat) (h : hi < n) : bits (v % 2 ^ n) hi lo = bits v hi lo := by
  apply Nat.eq_of_testBit_eq
  intro i
  rw [bits_testBit, bits_testBit, Nat.testBit_mod_two_pow]
  by_cases hw : i < hi + 1 - lo
  · simp [hw, show lo + i < n by omega]
  · simp [hw]

/-! ### Registers -/

theorem State.reg_setReg (s : State) (off v o : Nat) : (s.setReg off v).reg o = if o = off then v % 2 ^ 64 else s.reg o := by
  simp only [State.reg, State.setReg, Sparse.get_put]
  split
  · simp
  · rfl

theorem State.shd_setShd (s : State) (off v o : Nat) : (s.setShd off v).shd o = if o = off then v % 2 ^ 64 else s.shd o := by
  simp only [State.shd, State.setShd, Sparse.get_put]
  split
  · simp
  · rfl

@[simp] theorem State.reg_setShd (s : State) (off v o : Nat) : (s.setShd off v).reg o = s.reg o := rfl
@[simp] theorem State.shd_setReg (s : State) (off v o : Nat) : (s.setReg off v).shd o = s.shd o := rfl
@[simp] theorem State.rd_setShd (s : State) (off v : Nat) (f : Fld) : (s.setShd off v).rd f = s.rd f := rfl
@[simp] theorem State.shd_wr (s : State) (f : Fld) (v o : Nat) : (s.wr f v).shd o = s.shd o := rfl
@[simp] theorem State.reg_send (s : State) (x : Out) (o : Nat) : (s.send x).reg o = s.reg o := rfl
@[simp] theorem State.rd_send (s : State) (x : Out) (f : Fld) : (s.send x).rd f = s.rd f := rfl
@[simp] theorem State.reg_useFree (s : State) (o : Nat) : s.useFree.reg o = s.reg o := rfl
@[simp] theorem State.rd_useFree (s : State) (f : Fld) : s.useFree.rd f = s.rd f := rfl

/-- A field reads back what was written to it, cut to its width. -/
theorem State.rd_wr_same (s : State) (f : Fld) (v : Nat) (h : f.lo ≤ f.hi) (w : f.hi < 64) :
    (s.wr f v).rd f = v % 2 ^ (f.hi + 1 - f.lo) := by
  simp only [State.rd, State.wr, State.reg_setReg, if_true]
  rw [bits_mod _ _ _ _ w, bits_putBits_same _ _ _ _ h]

/-- A write of a field leaves every field of another register. -/
theorem State.rd_wr_other (s : State) (f g : Fld) (v : Nat) (h : g.off ≠ f.off) : (s.wr f v).rd g = s.rd g := by
  simp only [State.rd, State.wr, State.reg_setReg, if_neg h]

/-- A write of a field leaves every register of another offset. -/
theorem State.reg_wr_other (s : State) (f : Fld) (v o : Nat) (h : o ≠ f.off) : (s.wr f v).reg o = s.reg o := by
  simp only [State.wr, State.reg_setReg, if_neg h]

/-- A write of a field leaves the other fields of its register. -/
theorem State.rd_wr_disjoint (s : State) (f g : Fld) (v : Nat) (e : g.off = f.off) (h : f.lo ≤ f.hi) (w : g.hi < 64)
    (d : f.hi < g.lo ∨ g.hi < f.lo) : (s.wr f v).rd g = s.rd g := by
  simp only [State.rd, State.wr, State.reg_setReg, e, if_true]
  rw [bits_mod _ _ _ _ w, bits_putBits_disjoint _ _ _ _ _ _ h d]

/-- A one-bit field after its write. -/
theorem State.on_wr_same (s : State) (f : Fld) (v : Nat) (h : f.lo ≤ f.hi) (w : f.hi < 64) :
    (s.wr f v).on f = (v % 2 ^ (f.hi + 1 - f.lo) != 0) := by simp only [State.on, State.rd_wr_same s f v h w]

/-! ### Fields taken together, and the table of registers -/

/-- Fields taken from another number: a bit of one of them is that number's, every other bit stays. -/
theorem takeFields_testBit (fs : List FieldDesc) (new old i : Nat) (h : ∀ f ∈ fs, f.lo ≤ f.hi) :
    (fs.foldl (fun v f => putBits v f.hi f.lo (bits new f.hi f.lo)) old).testBit i =
      if fs.any (fun f => decide (f.lo ≤ i ∧ i ≤ f.hi)) then new.testBit i else old.testBit i := by
  induction fs generalizing old with
  | nil => rfl
  | cons f t ih =>
    have hf := h f (List.mem_cons_self ..)
    rw [List.foldl_cons, ih _ (fun g m => h g (List.mem_cons_of_mem _ m)), putBits_testBit _ _ _ _ _ hf, List.any_cons]
    by_cases a : f.lo ≤ i ∧ i ≤ f.hi
    · obtain ⟨a, b⟩ := a
      have e : (bits new f.hi f.lo).testBit (i - f.lo) = new.testBit i := by
        rw [bits_testBit, show f.lo + (i - f.lo) = i by omega]
        simp; omega
      simp only [a, b, and_self, decide_true, Bool.true_or, if_true, if_neg (Nat.not_lt.mpr a), e, ite_self]
    · have d : decide (f.lo ≤ i ∧ i ≤ f.hi) = false := decide_eq_false a
      rw [d, Bool.false_or]
      split
      · rfl
      · split
        · rfl
        · rw [if_neg (by omega)]

/-- The RWC fields of a register taken from another value, bit by bit. -/
theorem takeRwc_testBit (off old new i : Nat) (d : RegDesc) (e : findReg off = some d) (h : ∀ f ∈ d.fieldsOf .rwc, f.lo ≤ f.hi) :
    (takeRwc off old new).testBit i = if (d.fieldsOf .rwc).any (fun f => decide (f.lo ≤ i ∧ i ≤ f.hi)) then new.testBit i else old.testBit i := by
  unfold takeRwc; rw [e]; exact takeFields_testBit _ _ _ _ h

theorem takeFields_lt (fs : List FieldDesc) (new old n : Nat) (h : ∀ f ∈ fs, f.lo ≤ f.hi) (b : ∀ f ∈ fs, f.hi < n) (w : old < 2 ^ n) :
    fs.foldl (fun v f => putBits v f.hi f.lo (bits new f.hi f.lo)) old < 2 ^ n := by
  apply Nat.lt_pow_two_of_testBit
  intro i hi
  rw [takeFields_testBit _ _ _ _ h]
  have : fs.any (fun f => decide (f.lo ≤ i ∧ i ≤ f.hi)) = false := by
    rw [List.any_eq_false]; intro f m; have := b f m; simp; omega
  rw [this]; exact Nat.testBit_lt_two_pow (Nat.lt_of_lt_of_le w (Nat.pow_le_pow_right (by decide) hi))

/-- Adding the fields of a register that do not overlap, taken each from its own source, gives each bit once. -/
theorem putBits_lt (v hi lo x n : Nat) (h : lo ≤ hi) (b : hi < n) (w : v < 2 ^ n) : putBits v hi lo x < 2 ^ n := by
  apply Nat.lt_pow_two_of_testBit
  intro i hi'
  rw [putBits_testBit _ _ _ _ _ h, if_neg (by omega), if_neg (by omega)]
  exact Nat.testBit_lt_two_pow (Nat.lt_of_lt_of_le w (Nat.pow_le_pow_right (by decide) hi'))

theorem State.reg_lt (s : State) (o : Nat) : s.reg o < 2 ^ 64 := (s.regs.get _ o).isLt

theorem State.shd_lt (s : State) (o : Nat) : s.shd o < 2 ^ 64 := (s.shadow.get _ o).isLt

theorem State.reg_commitReg_other (s : State) (off o : Nat) (h : o ≠ off) : (s.commitReg off).reg o = s.reg o := by
  rw [State.commitReg, State.reg_setReg, if_neg h]

@[simp] theorem State.shd_commitReg (s : State) (off o : Nat) : (s.commitReg off).shd o = s.shd o := rfl

theorem State.reg_commitReg_same (s : State) (off : Nat) : (s.commitReg off).reg off = takeRwc off (s.reg off) (s.shd off) % 2 ^ 64 := by
  rw [State.commitReg, State.reg_setReg, if_pos rfl]

/-- The fields of a register of the table lie apart. -/
def RegDesc.apart (d : RegDesc) : Bool :=
  decide (d.fields.Pairwise (fun f g => f.hi < g.lo ∨ g.hi < f.lo) ∧ ∀ f ∈ d.fields, f.lo ≤ f.hi ∧ f.hi < 64)

theorem addFields_testBit (fs : List FieldDesc) (w : FieldDesc → Nat) (i : Nat) (x : Nat) (h : ∀ f ∈ fs, f.lo ≤ f.hi)
    (p : fs.Pairwise (fun f g => f.hi < g.lo ∨ g.hi < f.lo)) (z : ∀ f ∈ fs, bits x f.hi f.lo = 0) (hx : x.testBit i = false)
    (o : ∀ f ∈ fs, i < f.lo ∨ f.hi < i) :
    (fs.foldl (fun x f => x + bits (w f) f.hi f.lo * 2 ^ f.lo) x).testBit i = false := by
  induction fs generalizing x with
  | nil => exact hx
  | cons f t ih =>
    have hf := h f (List.mem_cons_self ..)
    have e : x + bits (w f) f.hi f.lo * 2 ^ f.lo = putBits x f.hi f.lo (w f >>> f.lo) := by
      rw [putBits, z f (List.mem_cons_self ..), bits, Nat.shiftLeft_eq, Nat.shiftLeft_eq]; simp
    rw [List.foldl_cons, e]
    rw [List.pairwise_cons] at p
    refine ih _ (fun g m => h g (List.mem_cons_of_mem _ m)) p.2 (fun g m => ?_) ?_ (fun g m => o g (List.mem_cons_of_mem _ m))
    · rw [bits_putBits_disjoint _ _ _ _ _ _ hf (p.1 g m)]; exact z g (List.mem_cons_of_mem _ m)
    · rw [putBits_testBit _ _ _ _ _ hf]
      rcases o f (List.mem_cons_self ..) with q | q
      · rw [if_pos q]; exact hx
      · rw [if_neg (by omega), if_neg (by omega)]; exact hx

/-- A property of both branches holds of a choice between them. -/
theorem ite_cases {α : Type} {c : Prop} [Decidable c] (p : α → Prop) (a b : α) (x : p a) (y : p b) : p (if c then a else b) := by
  split
  · exact x
  · exact y

theorem regTables_apart (off : Nat) : ∀ d ∈ regTableOf off, d.apart = true := by
  have h : ∀ l ∈ [regTableGlb, regTablePwr, regTableTime, regTableSec, regTableHost, regTableQmgr, regTableXlat, regTableReg, regTableHbm,
      regTableNoc, regTableSite, regTableCoh, regTableFab, regTableStrm, regTableColl, regTableCrc, regTableTile, regTableRas], ∀ d ∈ l, d.apart = true := by
    decide +kernel
  unfold regTableOf
  iterate 18 refine ite_cases (fun l => ∀ d ∈ l, RegDesc.apart d = true) _ _ (h _ (by with_reducible repeat (first | exact List.mem_cons_self | apply List.mem_cons_of_mem))) ?_
  intro d m; cases m

theorem findReg_apart (off : Nat) (d : RegDesc) (e : findReg off = some d) :
    d.fields.Pairwise (fun f g => f.hi < g.lo ∨ g.hi < f.lo) ∧ ∀ f ∈ d.fields, f.lo ≤ f.hi ∧ f.hi < 64 := by
  have := regTables_apart off d (List.mem_of_find?_eq_some e)
  simpa [RegDesc.apart] using this

theorem Sparse.get_filter {α : Type} (d : α) (t : Sparse α) (p : Nat → Bool) (a : Nat) :
    Sparse.get d (t.filter (fun q => p q.1)) a = if p a then t.get d a else d := by
  induction t with
  | nil => simp [Sparse.get]
  | cons q t ih =>
    obtain ⟨k, w⟩ := q
    rw [List.filter_cons]
    by_cases h : p k = true
    · simp only [h, if_true, Sparse.get, ih]
      by_cases e : a = k
      · subst e; simp [h]
      · simp [e]
    · have hf : p k = false := by simpa using h
      simp only [hf, Bool.false_eq_true, if_false, Sparse.get]
      rw [ih]
      by_cases e : a = k
      · subst e; simp [hf]
      · simp [e]

end Sys2Proof.Machine
end

