-- ==== Sys2Proof/Laws/Events.lean ====
section
/-! SUPPORT. What an event, an alert and a stop of the main domains change, said once each. -/
namespace Sys2Proof.Machine

theorem State.withAlert_reg (s : State) (f : State → State) (o : Nat) : (s.withAlert f).reg o = (f s).reg o := by
  unfold State.withAlert; dsimp only
  split
  · rfl
  · split
    · split <;> rfl
    · rfl

theorem State.withAlert_evt (s : State) (f : State → State) : (s.withAlert f).evt = (f s).evt := by
  unfold State.withAlert; dsimp only
  split
  · rfl
  · split
    · split <;> rfl
    · rfl

theorem State.alert_reg (s : State) (f : Fld) (o : Nat) (h : o ≠ f.off) : (s.alert f).reg o = s.reg o := by
  rw [State.alert, State.withAlert_reg, State.reg_wr_other _ _ _ _ h]

theorem State.alert_evt (s : State) (f : Fld) : (s.alert f).evt = s.evt := by
  rw [State.alert, State.withAlert_evt]; rfl

/-- An entry written at the next sequence number; the number rises by one. -/
theorem State.logEntry_spec (s : State) (e : Event) (n : Nat) :
    (s.logEntry e n).rd Reg.RAS_EVT_NEXT_next = (s.rd Reg.RAS_EVT_NEXT_next + 1) % 2 ^ 32 ∧
    (s.logEntry e n).evt = { s.evt with slots := (s.evt.slots.put (s.rd Reg.RAS_EVT_NEXT_next % 4096)
      { e with seq := s.rd Reg.RAS_EVT_NEXT_next, time := s.now, boot := s.evt.boot, count := min n 65535 }) } ∧
    (∀ o, o ≠ Reg.RAS_EVT_NEXT → o ≠ Reg.RAS_EVT_LOST → o ≠ Reg.RAS_ALERT → (s.logEntry e n).reg o = s.reg o) := by
  unfold State.logEntry
  extract_lets seq slot t e'
  have ht : t.evt = s.evt ∧ ∀ o, o ≠ Reg.RAS_EVT_LOST → o ≠ Reg.RAS_ALERT → t.reg o = s.reg o := by
    simp only [t]
    split
    · exact ⟨rfl, fun o _ _ => rfl⟩
    · split
      · generalize (laterEq _ (s.rd Reg.RAS_EVT_ACK_ack) && laterEq _ (s.rd Reg.RAS_EVT_BOUNDARY_boundary)) = c
        have hr : (if c = true then s.sat Reg.RAS_EVT_LOST_lost 1 else s).evt = s.evt ∧
            ∀ o, o ≠ Reg.RAS_EVT_LOST → (if c = true then s.sat Reg.RAS_EVT_LOST_lost 1 else s).reg o = s.reg o := by
          cases c
          · exact ⟨rfl, fun o _ => rfl⟩
          · exact ⟨rfl, fun o a => by rw [if_pos rfl, State.sat, State.reg_wr_other _ _ _ _ a]⟩
        generalize (if c = true then s.sat Reg.RAS_EVT_LOST_lost 1 else s) = r at hr ⊢
        split
        · exact ⟨(State.alert_evt _ _).trans hr.1, fun o a b => by rw [State.alert_reg _ _ _ b]; exact hr.2 o a⟩
        · exact ⟨hr.1, fun o a _ => hr.2 o a⟩
      · exact ⟨rfl, fun o _ _ => rfl⟩
  obtain ⟨h1, h2⟩ := ht
  refine ⟨?_, ?_, fun o a b c => ?_⟩
  · exact State.rd_wr_same _ Reg.RAS_EVT_NEXT_next _ (by decide) (by decide)
  · have : e' = { e with seq := seq, time := s.now, boot := s.evt.boot, count := min n 65535 } := by
      simp only [e', h1]; rw [State.now, h2 _ (by decide) (by decide)]; rfl
    rw [this]
    show ({ t.evt with slots := _ } : EvtSt) = _
    rw [h1]
  · rw [State.reg_wr_other _ _ _ _ a]; exact h2 o b c

theorem State.evtCopy_off (s : State) (q : Nat) (h : s.on Reg.QM_EVT_CFG_enable = false) : s.evtCopy q = s := by
  unfold State.evtCopy; rw [if_neg (by simp [h])]

/-- A state that differs in registers, the event log and what was sent alone. -/
def State.noted (s t : State) : Prop := ∃ (r : Sparse DWord) (e : EvtSt) (o : List Out), t = { s with regs := r, evt := e, out := o }

theorem State.noted_refl (s : State) : s.noted s := ⟨_, _, _, rfl⟩

theorem State.noted_trans {s t u : State} (a : s.noted t) (b : t.noted u) : s.noted u := by
  obtain ⟨r, e, o, rfl⟩ := a
  obtain ⟨r', e', o', rfl⟩ := b
  exact ⟨r', e', o', rfl⟩

theorem State.noted_wr (s : State) (f : Fld) (v : Nat) : s.noted (s.wr f v) := ⟨_, _, _, rfl⟩

theorem State.noted_alert (s : State) (f : Fld) : s.noted (s.alert f) := by
  unfold State.alert State.withAlert
  dsimp only
  split
  · exact ⟨_, _, _, rfl⟩
  · split
    · split
      · exact ⟨_, _, _, rfl⟩
      · exact ⟨_, _, _, rfl⟩
    · exact ⟨_, _, _, rfl⟩

theorem State.noted_logEntry (s : State) (e : Event) (n : Nat) : s.noted (s.logEntry e n) := by
  unfold State.logEntry
  extract_lets seq slot t e'
  have ht : s.noted t := by
    simp only [t]
    split
    · exact s.noted_refl
    · split
      · generalize (laterEq _ (s.rd Reg.RAS_EVT_ACK_ack) && laterEq _ (s.rd Reg.RAS_EVT_BOUNDARY_boundary)) = c
        have hr : s.noted (if c = true then s.sat Reg.RAS_EVT_LOST_lost 1 else s) := by
          cases c
          · exact s.noted_refl
          · exact s.noted_wr _ _
        generalize (if c = true then s.sat Reg.RAS_EVT_LOST_lost 1 else s) = r at hr ⊢
        split
        · exact State.noted_trans hr (State.noted_alert _ _)
        · exact hr
      · exact s.noted_refl
  exact State.noted_trans ht ⟨_, _, _, rfl⟩

theorem State.post_quiet (s : State) (e : Event) (h : e.cls < 2) (q : s.on Reg.QM_EVT_CFG_enable = false) :
    s.noted (s.post e) ∧ ∀ o, o ≠ Reg.RAS_EVT_NEXT → o ≠ Reg.RAS_EVT_LOST → o ≠ Reg.RAS_ALERT → (s.post e).reg o = s.reg o := by
  unfold State.post
  rw [if_neg (by omega), if_neg (by omega)]
  dsimp only
  split
  · exact ⟨⟨_, _, _, rfl⟩, fun o _ _ _ => rfl⟩
  · obtain ⟨a, b, c⟩ := s.logEntry_spec e 1
    rw [State.evtCopy_off]
    · exact ⟨State.noted_trans (s.noted_logEntry e 1) ⟨_, _, _, rfl⟩, c⟩
    · show State.on (s.logEntry e 1) Reg.QM_EVT_CFG_enable = false
      rw [State.on, State.rd, show Reg.QM_EVT_CFG_enable.off = Reg.QM_EVT_CFG from rfl, c Reg.QM_EVT_CFG (by decide) (by decide) (by decide)]; exact q

/-- What a stop of the main domains reads of a state: registers, fuses, store, event entries, queue, sag and boot. -/
def State.alwaysOn (s t : State) : Prop :=
  t.regs = s.regs ∧ t.fuse = s.fuse ∧ t.mram = s.mram ∧ t.evt.slots = s.evt.slots ∧ t.evt.boot = s.evt.boot ∧ t.pending = s.pending ∧
  t.sag = s.sag ∧ t.boot = s.boot

theorem State.alwaysOn_refl (s : State) : s.alwaysOn s := ⟨rfl, rfl, rfl, rfl, rfl, rfl, rfl, rfl⟩

theorem State.alwaysOn_trans {s t u : State} (a : s.alwaysOn t) (b : t.alwaysOn u) : s.alwaysOn u := by
  obtain ⟨a1, a2, a3, a4, a5, a6, a7, a8⟩ := a
  obtain ⟨b1, b2, b3, b4, b5, b6, b7, b8⟩ := b
  exact ⟨b1.trans a1, b2.trans a2, b3.trans a3, b4.trans a4, b5.trans a5, b6.trans a6, b7.trans a7, b8.trans a8⟩

theorem State.alwaysOn_foldl {α : Type} (f : State → α → State) (l : List α) (h : ∀ (s : State) (a : α), s.alwaysOn (f s a)) (s : State) : s.alwaysOn (l.foldl f s) := by
  induction l generalizing s with
  | nil => exact s.alwaysOn_refl
  | cons a t ih => exact State.alwaysOn_trans (h s a) (ih _)

theorem State.quietPins_alwaysOn (s : State) : s.alwaysOn s.quietPins := by
  unfold State.quietPins
  refine State.alwaysOn_trans (t := (List.range 8).foldl (fun (s : State) n => s.pwren n false) s) ?_ ?_
  · apply State.alwaysOn_foldl
    intro s n
    unfold State.pwren
    split <;> exact s.alwaysOn_refl
  · apply State.alwaysOn_foldl
    intro s n
    split <;> exact s.alwaysOn_refl

theorem State.keepCounts_alwaysOn (s : State) (g : Nat → Bool) : s.alwaysOn (s.keepCounts g) := by
  unfold State.keepCounts
  refine State.alwaysOn_trans (State.alwaysOn_foldl _ _ ?_ s) (State.alwaysOn_foldl _ _ ?_ _)
  · intro s p; unfold State.keepCount; dsimp only
    exact s.alwaysOn_refl
  · intro s p; unfold State.keepCount; dsimp only
    exact s.alwaysOn_refl

end Sys2Proof.Machine
end

