-- ==== Sys2Proof/Laws/Memory.lean ====
section
/-! SUPPORT. Memory as a canonical list: every operation keeps the form, and a read finds what was last written. -/
namespace Sys2Proof.Machine

/-- The bound below which nothing of a list lies. -/
def Memory.above (lo : Option Nat) (a : Nat) : Prop := ∀ l, lo = some l → l < a

theorem Memory.wfAbove_cons (lo : Option Nat) (k : Nat) (b : Byte) (t : List Host.Cell) :
    Memory.wfAbove lo ((k, b) :: t) = true ↔ Memory.above lo k ∧ b ≠ Memory.unlisted ∧ Memory.wfAbove (some k) t = true := by
  cases lo <;> simp [Memory.wfAbove, Memory.above, and_assoc]

/-- A list above a bound is above every lower one. -/
theorem Memory.wfAbove_weaken (lo lo' : Option Nat) (m : List Host.Cell) (h : ∀ l, lo' = some l → ∃ k, lo = some k ∧ l ≤ k)
    (w : Memory.wfAbove lo m = true) : Memory.wfAbove lo' m = true := by
  cases m with
  | nil => simp [Memory.wfAbove]
  | cons p t =>
    obtain ⟨k, b⟩ := p
    rw [Memory.wfAbove_cons] at w ⊢
    refine ⟨fun l hl => ?_, w.2⟩
    obtain ⟨j, hj, hle⟩ := h l hl
    exact lt_of_le_of_lt hle (w.1 j hj)

theorem Memory.wfAbove_none (lo : Option Nat) (m : List Host.Cell) (w : Memory.wfAbove lo m = true) : Memory.wf m = true :=
  Memory.wfAbove_weaken lo none m (by simp) w

/-- A write keeps the form above any bound that lies below the address written. -/
theorem Memory.write_wfAbove (m : List Host.Cell) (lo : Option Nat) (a : Nat) (b : Byte) (w : Memory.wfAbove lo m = true)
    (ha : Memory.above lo a) : Memory.wfAbove lo (Memory.write m a b) = true := by
  induction m generalizing lo with
  | nil =>
    simp only [Memory.write]
    split
    · exact w
    · rename_i hb
      rw [Memory.wfAbove_cons]; exact ⟨ha, hb, rfl⟩
  | cons p t ih =>
    obtain ⟨k, c⟩ := p
    have w0 := (Memory.wfAbove_cons lo k c t).1 w
    simp only [Memory.write]
    split
    · rename_i hlt
      split
      · exact w
      · rename_i hb
        rw [Memory.wfAbove_cons]
        refine ⟨ha, hb, ?_⟩
        rw [Memory.wfAbove_cons]
        exact ⟨fun l hl => by cases hl; exact hlt, w0.2⟩
    · split
      · rename_i hge heq
        subst heq
        split
        · exact Memory.wfAbove_weaken (some a) lo t (fun l hl => ⟨a, rfl, le_of_lt (ha l hl)⟩) w0.2.2
        · rename_i hb
          rw [Memory.wfAbove_cons]; exact ⟨ha, hb, w0.2.2⟩
      · rename_i hge hne
        rw [Memory.wfAbove_cons]
        exact ⟨w0.1, w0.2.1, ih (some k) w0.2.2 (fun l hl => by cases hl; omega)⟩

/-- Writing a byte keeps the canonical form. -/
theorem Memory.write_wf (m : List Host.Cell) (a : Nat) (b : Byte) (w : Memory.wf m = true) : Memory.wf (Memory.write m a b) = true :=
  Memory.write_wfAbove m none a b w (by simp [Memory.above])

/-- Writing bytes keeps the canonical form. -/
theorem Memory.writeBytes_wf (m : List Host.Cell) (a : Nat) (bs : List Byte) (w : Memory.wf m = true) :
    Memory.wf (Memory.writeBytes m a bs) = true := by
  induction bs generalizing m a with
  | nil => exact w
  | cons b t ih => exact ih _ _ (Memory.write_wf m a b w)

/-- Leaving entries out keeps the canonical form. -/
theorem Memory.filter_wfAbove (m : List Host.Cell) (lo : Option Nat) (p : Host.Cell → Bool) (w : Memory.wfAbove lo m = true) :
    Memory.wfAbove lo (m.filter p) = true := by
  induction m generalizing lo with
  | nil => exact w
  | cons q t ih =>
    obtain ⟨k, c⟩ := q
    have w0 := (Memory.wfAbove_cons lo k c t).1 w
    rw [List.filter_cons]
    split
    · rw [Memory.wfAbove_cons]; exact ⟨w0.1, w0.2.1, ih (some k) w0.2.2⟩
    · exact ih lo (Memory.wfAbove_weaken (some k) lo t (fun l hl => ⟨k, rfl, le_of_lt (w0.1 l hl)⟩) w0.2.2)

theorem Memory.filter_wf (m : List Host.Cell) (p : Host.Cell → Bool) (w : Memory.wf m = true) : Memory.wf (m.filter p) = true :=
  Memory.filter_wfAbove m none p w

/-- Making a range unlisted keeps the canonical form. -/
theorem Memory.clear_wf (m : List Host.Cell) (lo hi : Nat) (w : Memory.wf m = true) : Memory.wf (Memory.clear m lo hi) = true :=
  Memory.filter_wf m _ w

/-- An empty memory is in canonical form. -/
theorem Memory.nil_wf : Memory.wf [] = true := rfl

/-- Nothing is read below the bound of a list. -/
theorem Memory.read_below (m : List Host.Cell) (k a : Nat) (w : Memory.wfAbove (some k) m = true) (h : a ≤ k) :
    Memory.read m a = Memory.unlisted := by
  cases m with
  | nil => rfl
  | cons p t =>
    obtain ⟨j, c⟩ := p
    have w0 := (Memory.wfAbove_cons (some k) j c t).1 w
    have : k < j := w0.1 k rfl
    simp [Memory.read, show ¬ a = j by omega, show a < j by omega]

/-- A byte reads back what was last written to it, and every other byte what it held. -/
theorem Memory.read_write_above (m : List Host.Cell) (lo : Option Nat) (a c : Nat) (b : Byte) (w : Memory.wfAbove lo m = true) :
    Memory.read (Memory.write m a b) c = if c = a then b else Memory.read m c := by
  induction m generalizing lo with
  | nil =>
    simp only [Memory.write]
    split
    · rename_i hb; subst hb; simp [Memory.read]
    · by_cases hc : c = a <;> simp [Memory.read, hc]
  | cons p t ih =>
    obtain ⟨k, x⟩ := p
    have w0 := (Memory.wfAbove_cons lo k x t).1 w
    simp only [Memory.write]
    split
    · rename_i hlt
      split
      · rename_i hb; subst hb
        by_cases hc : c = a
        · subst hc; simp [Memory.read, show ¬ c = k by omega, hlt]
        · simp [hc]
      · by_cases hc : c = a
        · simp [Memory.read, hc]
        · simp only [Memory.read, if_neg hc]
          by_cases h1 : c < a
          · simp [h1, show ¬ c = k by omega, show c < k by omega]
          · simp [h1]
    · split
      · rename_i hge heq
        subst heq
        split
        · rename_i hb; subst hb
          by_cases hc : c = a
          · subst hc; simp only [if_true]; exact Memory.read_below t c c w0.2.2 (le_refl _)
          · simp only [if_neg hc, Memory.read]
            by_cases h1 : c < a
            · simp only [h1, if_true]; exact Memory.read_below t a c w0.2.2 (le_of_lt h1)
            · simp [h1]
        · by_cases hc : c = a <;> simp [Memory.read, hc]
      · rename_i hge hne
        simp only [Memory.read]
        by_cases h1 : c = k
        · subst h1; simp [show ¬ c = a by omega]
        · by_cases h2 : c < k
          · simp [h1, h2, show ¬ c = a by omega]
          · simp only [if_neg h1, if_neg h2]; exact ih (some k) w0.2.2

theorem Memory.read_write (m : List Host.Cell) (a c : Nat) (b : Byte) (w : Memory.wf m = true) :
    Memory.read (Memory.write m a b) c = if c = a then b else Memory.read m c := Memory.read_write_above m none a c b w

/-- A cleared range reads as nothing written, and every other byte what it held. -/
theorem Memory.read_filter (m : List Host.Cell) (lo : Option Nat) (p : Nat → Bool) (c : Nat) (w : Memory.wfAbove lo m = true) :
    Memory.read (m.filter (fun q => p q.1)) c = if p c then Memory.read m c else Memory.unlisted := by
  induction m generalizing lo with
  | nil => simp [Memory.read]
  | cons q t ih =>
    obtain ⟨k, x⟩ := q
    have w0 := (Memory.wfAbove_cons lo k x t).1 w
    rw [List.filter_cons]
    by_cases hp : p k = true
    · simp only [hp, if_true, Memory.read]
      by_cases h1 : c = k
      · subst h1; simp [hp]
      · by_cases h2 : c < k
        · simp [h1, h2]
        · simp only [if_neg h1, if_neg h2]; exact ih (some k) w0.2.2
    · have hf : p k = false := by simpa using hp
      simp only [hf, Bool.false_eq_true, if_false, Memory.read]
      rw [ih (some k) w0.2.2]
      by_cases h1 : c = k
      · subst h1; simp [hf]
      · by_cases h2 : c < k
        · simp only [if_neg h1, if_pos h2]
          rw [Memory.read_below t k c w0.2.2 (le_of_lt h2)]
        · simp [h1, h2]

/-- Bytes written read back, and every other byte reads as before. -/
theorem Memory.read_writeBytes (m : List Host.Cell) (a c : Nat) (bs : List Byte) (w : Memory.wf m = true) :
    Memory.read (Memory.writeBytes m a bs) c = if a ≤ c ∧ c < a + bs.length then (bs[c - a]?).getD 0 else Memory.read m c := by
  induction bs generalizing m a with
  | nil => rw [if_neg (by simp)]; rfl
  | cons b t ih =>
    rw [Memory.writeBytes, ih _ _ (Memory.write_wf m a b w), Memory.read_write m a c b w]
    by_cases h : c = a
    · subst h
      rw [if_neg (by omega), if_pos rfl, if_pos (by simp)]; simp
    · by_cases h1 : a + 1 ≤ c ∧ c < a + 1 + t.length
      · rw [if_pos h1, if_pos (by simp only [List.length_cons]; omega), show c - a = (c - (a + 1)) + 1 by omega]; simp
      · rw [if_neg h1, if_neg h, if_neg (by simp only [List.length_cons]; omega)]

end Sys2Proof.Machine
end

