-- ==== Sys2Proof/Laws/Keeps.lean ====
section
/-! SUPPORT. What every operation keeps: the queue, the free values already used, and the canonical form of memory and scratch. -/
namespace Sys2Proof.Machine

/-- What every operation keeps: the queue as it stands, the free values already used, and memory and scratch in their canonical form. -/
structure Keeps (s t : State) : Prop where
  pending : t.pending = s.pending
  free : s.free ≤ t.free
  mem : Memory.wf s.hbm.mem = true → Memory.wf t.hbm.mem = true
  scr : Memory.wf s.scr.mem = true → Memory.wf t.scr.mem = true

theorem Keeps.refl (s : State) : Keeps s s := ⟨rfl, Nat.le_refl _, id, id⟩
theorem Keeps.trans {s t u : State} (h : Keeps s t) (k : Keeps t u) : Keeps s u :=
  ⟨k.pending.trans h.pending, Nat.le_trans h.free k.free, fun w => k.mem (h.mem w), fun w => k.scr (h.scr w)⟩

/-- An update of fields other than the queue and the stores. -/
theorem Keeps.upd {s x : State} {h : HbmSt} {c : ScratchSt} {vout vregs vshadow vheld vcaptured vevt vfuse vmram vsag vhost vglb vsites vregul vxlat vnoc vacc vrings veng vhome vlinks vconns vconnShadow vconnSt vtiles vgens vpwr vboot vmgmt vblanket vsec vcoll vstrm vfab vhier vtime} (k : Keeps s x) (m : h.mem = x.hbm.mem) (n : c.mem = x.scr.mem) :
    Keeps s (State.mk x.pending x.free vout vregs vshadow vheld vcaptured vevt vfuse vmram vsag vhost vglb vsites h vregul vxlat vnoc vacc vrings veng c vhome vlinks vconns vconnShadow vconnSt vtiles vgens vpwr vboot vmgmt vblanket vsec vcoll vstrm vfab vhier vtime) :=
  k.trans ⟨rfl, Nat.le_refl _, fun w => by simpa only [m] using w, fun w => by simpa only [n] using w⟩
theorem Keeps.updFree {s x : State} {h : HbmSt} {c : ScratchSt} {vout vregs vshadow vheld vcaptured vevt vfuse vmram vsag vhost vglb vsites vregul vxlat vnoc vacc vrings veng vhome vlinks vconns vconnShadow vconnSt vtiles vgens vpwr vboot vmgmt vblanket vsec vcoll vstrm vfab vhier vtime} {f : Nat} (k : Keeps s x) (l : s.free ≤ f) (m : h.mem = x.hbm.mem) (n : c.mem = x.scr.mem) :
    Keeps s (State.mk x.pending f vout vregs vshadow vheld vcaptured vevt vfuse vmram vsag vhost vglb vsites h vregul vxlat vnoc vacc vrings veng c vhome vlinks vconns vconnShadow vconnSt vtiles vgens vpwr vboot vmgmt vblanket vsec vcoll vstrm vfab vhier vtime) :=
  ⟨k.pending, l, fun w => by simpa only [m] using k.mem w, fun w => by simpa only [n] using k.scr w⟩
theorem Keeps.updStore {s x : State} {h : HbmSt} {c : ScratchSt} {vout vregs vshadow vheld vcaptured vevt vfuse vmram vsag vhost vglb vsites vregul vxlat vnoc vacc vrings veng vhome vlinks vconns vconnShadow vconnSt vtiles vgens vpwr vboot vmgmt vblanket vsec vcoll vstrm vfab vhier vtime} (k : Keeps s x) (m : Memory.wf x.hbm.mem = true → Memory.wf h.mem = true) (n : Memory.wf x.scr.mem = true → Memory.wf c.mem = true) :
    Keeps s (State.mk x.pending x.free vout vregs vshadow vheld vcaptured vevt vfuse vmram vsag vhost vglb vsites h vregul vxlat vnoc vacc vrings veng c vhome vlinks vconns vconnShadow vconnSt vtiles vgens vpwr vboot vmgmt vblanket vsec vcoll vstrm vfab vhier vtime) :=
  k.trans ⟨rfl, Nat.le_refl _, m, n⟩
/-- An update of any fields. -/
theorem Keeps.updReset {s x t : State} (k : Keeps s x) (p : t.pending = x.pending) (f : x.free ≤ t.free) (m : t.hbm.mem = []) (n : t.scr.mem = []) : Keeps s t :=
  k.trans ⟨p, f, fun _ => by rw [m]; rfl, fun _ => by rw [n]; rfl⟩
theorem Keeps.updAll {s x : State} {h : HbmSt} {c : ScratchSt} {vout vregs vshadow vheld vcaptured vevt vfuse vmram vsag vhost vglb vsites vregul vxlat vnoc vacc vrings veng vhome vlinks vconns vconnShadow vconnSt vtiles vgens vpwr vboot vmgmt vblanket vsec vcoll vstrm vfab vhier vtime} {f : Nat} (k : Keeps s x) (l : s.free ≤ f) (m : Memory.wf x.hbm.mem = true → Memory.wf h.mem = true) (n : Memory.wf x.scr.mem = true → Memory.wf c.mem = true) :
    Keeps s (State.mk x.pending f vout vregs vshadow vheld vcaptured vevt vfuse vmram vsag vhost vglb vsites h vregul vxlat vnoc vacc vrings veng c vhome vlinks vconns vconnShadow vconnSt vtiles vgens vpwr vboot vmgmt vblanket vsec vcoll vstrm vfab vhier vtime) :=
  ⟨k.pending, l, fun w => m (k.mem w), fun w => n (k.scr w)⟩
theorem Keeps.of {s x t : State} (h : Keeps s x) (p : t.pending = x.pending) (f : x.free ≤ t.free) (m : Memory.wf x.hbm.mem = true → Memory.wf t.hbm.mem = true)
    (c : Memory.wf x.scr.mem = true → Memory.wf t.scr.mem = true) : Keeps s t := h.trans ⟨p, f, m, c⟩
theorem Keeps.foldl {α : Type} {s x : State} {f : State → α → State} {l : List α} (h : Keeps s x) (k : ∀ y a, Keeps y (f y a)) : Keeps s (l.foldl f x) := by
  induction l generalizing x with
  | nil => exact h
  | cons a t ih => exact ih (h.trans (k x a))

/-- The same of a pair whose second or first part is the state, of an option and of an outcome. -/
def KeepsP {α : Type} (s : State) (p : α × State) : Prop := Keeps s p.2
def KeepsQ {α : Type} (s : State) (p : State × α) : Prop := Keeps s p.1
def KeepsPP {α β : Type} (s : State) (p : α × β × State) : Prop := Keeps s p.2.2
def KeepsO (s : State) (o : Option State) : Prop := ∀ t, o = some t → Keeps s t
def KeepsOP {α : Type} (s : State) (o : Option (α × State)) : Prop := ∀ p, o = some p → Keeps s p.2
def KeepsR (s : State) (o : Host.Outcome State Fault Refusal) : Prop := ∃ t, o = .next t ∧ Keeps s t
theorem KeepsP.mk {α : Type} {s t : State} {a : α} (h : Keeps s t) : KeepsP s (a, t) := h
theorem KeepsQ.mk {α : Type} {s t : State} {a : α} (h : Keeps s t) : KeepsQ s (t, a) := h
theorem KeepsPP.mk {α β : Type} {s t : State} {a : α} {b : β} (h : Keeps s t) : KeepsPP s (a, b, t) := h
theorem KeepsO.none {s : State} : KeepsO s .none := fun _ h => nomatch h
theorem KeepsO.some {s t : State} (h : Keeps s t) : KeepsO s (.some t) := fun _ e => by cases e; exact h
theorem KeepsOP.none {α : Type} {s : State} : KeepsOP s (.none : Option (α × State)) := fun _ h => nomatch h
theorem KeepsOP.some {α : Type} {s t : State} {a : α} (h : Keeps s t) : KeepsOP s (.some (a, t)) := fun _ e => by cases e; exact h
theorem KeepsR.next {s t : State} (h : Keeps s t) : KeepsR s (.next t) := ⟨t, rfl, h⟩
theorem KeepsP.trans {α : Type} {s x : State} {p : α × State} (h : Keeps s x) (k : KeepsP x p) : KeepsP s p := Keeps.trans h k
theorem KeepsQ.trans {α : Type} {s x : State} {p : State × α} (h : Keeps s x) (k : KeepsQ x p) : KeepsQ s p := Keeps.trans h k
theorem KeepsPP.trans {α β : Type} {s x : State} {p : α × β × State} (h : Keeps s x) (k : KeepsPP x p) : KeepsPP s p := Keeps.trans h k
theorem KeepsO.trans {s x : State} {o : Option State} (h : Keeps s x) (k : KeepsO x o) : KeepsO s o := fun t e => h.trans (k t e)
theorem KeepsOP.trans {α : Type} {s x : State} {o : Option (α × State)} (h : Keeps s x) (k : KeepsOP x o) : KeepsOP s o := fun t e => h.trans (k t e)
theorem KeepsR.trans {s x : State} {o : Host.Outcome State Fault Refusal} (h : Keeps s x) (k : KeepsR x o) : KeepsR s o := by
  obtain ⟨t, e, u⟩ := k; exact ⟨t, e, h.trans u⟩
theorem KeepsP.at {α : Type} {s t : State} {p : α × State} {a : α} (e : p = (a, t)) (h : KeepsP s p) : Keeps s t := by subst e; exact h
theorem KeepsQ.at {α : Type} {s t : State} {p : State × α} {a : α} (e : p = (t, a)) (h : KeepsQ s p) : Keeps s t := by subst e; exact h
theorem KeepsPP.at {α β : Type} {s t : State} {p : α × β × State} {a : α} {b : β} (e : p = (a, b, t)) (h : KeepsPP s p) : Keeps s t := by subst e; exact h
theorem KeepsO.at {s t : State} {o : Option State} (e : o = .some t) (h : KeepsO s o) : Keeps s t := h t e
theorem KeepsOP.at {α : Type} {s t : State} {o : Option (α × State)} {a : α} (e : o = .some (a, t)) (h : KeepsOP s o) : Keeps s t := h _ e
theorem KeepsP.foldl {α β : Type} {s : State} {x : β × State} {f : β × State → α → β × State} {l : List α} (h : KeepsP s x)
    (k : ∀ y a, KeepsP y.2 (f y a)) : KeepsP s (l.foldl f x) := by
  induction l generalizing x with
  | nil => exact h
  | cons a t ih => exact ih (Keeps.trans h (k x a))
theorem KeepsQ.foldl {α β : Type} {s : State} {x : State × β} {f : State × β → α → State × β} {l : List α} (h : KeepsQ s x)
    (k : ∀ y a, KeepsQ y.1 (f y a)) : KeepsQ s (l.foldl f x) := by
  induction l generalizing x with
  | nil => exact h
  | cons a t ih => exact ih (Keeps.trans h (k x a))
theorem KeepsO.foldl {α : Type} {s : State} {x : Option State} {f : Option State → α → Option State} {l : List α} (h : KeepsO s x)
    (n : ∀ a, f .none a = .none) (k : ∀ y a, KeepsO y (f (.some y) a)) : KeepsO s (l.foldl f x) := by
  induction l generalizing x with
  | nil => exact h
  | cons a t ih =>
    refine ih ?_
    cases x with
    | none => rw [n]; exact KeepsO.none
    | some y => exact KeepsO.trans (h y rfl) (k y a)
theorem Keeps.ite {s a b : State} {c : Prop} [Decidable c] (h : Keeps s a) (k : Keeps s b) : Keeps s (if c then a else b) := by
  split
  · exact h
  · exact k
theorem KeepsR.ite {s : State} {a b : Host.Outcome State Fault Refusal} {c : Prop} [Decidable c] (h : KeepsR s a) (k : KeepsR s b) :
    KeepsR s (if c then a else b) := by
  split
  · exact h
  · exact k
theorem KeepsP.ite {α : Type} {s : State} {a b : α × State} {c : Prop} [Decidable c] (h : KeepsP s a) (k : KeepsP s b) :
    KeepsP s (if c then a else b) := by
  split
  · exact h
  · exact k
theorem KeepsQ.ite {α : Type} {s : State} {a b : State × α} {c : Prop} [Decidable c] (h : KeepsQ s a) (k : KeepsQ s b) :
    KeepsQ s (if c then a else b) := by
  split
  · exact h
  · exact k
theorem KeepsO.ite {s : State} {a b : Option State} {c : Prop} [Decidable c] (h : KeepsO s a) (k : KeepsO s b) : KeepsO s (if c then a else b) := by
  split
  · exact h
  · exact k
theorem KeepsOP.ite {α : Type} {s : State} {a b : Option (α × State)} {c : Prop} [Decidable c] (h : KeepsOP s a) (k : KeepsOP s b) :
    KeepsOP s (if c then a else b) := by
  split
  · exact h
  · exact k
theorem KeepsPP.ite {α β : Type} {s : State} {a b : α × β × State} {c : Prop} [Decidable c] (h : KeepsPP s a) (k : KeepsPP s b) :
    KeepsPP s (if c then a else b) := by
  split
  · exact h
  · exact k
/-- The state in an outcome of an instruction, and in a piece of a tile's transfer. -/
def Ran.state : Ran → State
  | .go s _ => s
  | .trap _ s => s
  | .stall s => s
  | .ended s => s
def Moved.state : Moved → State
  | .on s => s
  | .held s => s
def KeepsRan (s : State) (r : Ran) : Prop := Keeps s r.state
def KeepsMoved (s : State) (r : Moved) : Prop := Keeps s r.state
theorem KeepsRan.trans {s x : State} {r : Ran} (h : Keeps s x) (k : KeepsRan x r) : KeepsRan s r := Keeps.trans h k
theorem KeepsMoved.trans {s x : State} {r : Moved} (h : Keeps s x) (k : KeepsMoved x r) : KeepsMoved s r := Keeps.trans h k
theorem KeepsRan.ite {s : State} {a b : Ran} {c : Prop} [Decidable c] (h : KeepsRan s a) (k : KeepsRan s b) : KeepsRan s (if c then a else b) := by
  split
  · exact h
  · exact k
theorem KeepsMoved.ite {s : State} {a b : Moved} {c : Prop} [Decidable c] (h : KeepsMoved s a) (k : KeepsMoved s b) :
    KeepsMoved s (if c then a else b) := by
  split
  · exact h
  · exact k
theorem KeepsRan.via {s : State} {t : Ran} (x : State) (h : Keeps s x) (k : Keeps s x → KeepsRan s t) : KeepsRan s t := k h
theorem KeepsMoved.via {s : State} {t : Moved} (x : State) (h : Keeps s x) (k : Keeps s x → KeepsMoved s t) : KeepsMoved s t := k h
theorem KeepsRan.leaf {s : State} {r : Ran} (h : Keeps s r.state) : KeepsRan s r := h
theorem KeepsMoved.leaf {s : State} {r : Moved} (h : Keeps s r.state) : KeepsMoved s r := h
theorem KeepsRan.atGo {s t : State} {r : Ran} {p : Nat} (e : r = .go t p) (h : KeepsRan s r) : Keeps s t := by subst e; exact h
theorem KeepsRan.atTrap {s t : State} {r : Ran} {p : Nat} (e : r = .trap p t) (h : KeepsRan s r) : Keeps s t := by subst e; exact h
theorem KeepsRan.atStall {s t : State} {r : Ran} (e : r = .stall t) (h : KeepsRan s r) : Keeps s t := by subst e; exact h
theorem KeepsRan.atEnded {s t : State} {r : Ran} (e : r = .ended t) (h : KeepsRan s r) : Keeps s t := by subst e; exact h
theorem KeepsMoved.atOn {s t : State} {r : Moved} (e : r = .on t) (h : KeepsMoved s r) : Keeps s t := by subst e; exact h
theorem KeepsMoved.atHeld {s t : State} {r : Moved} (e : r = .held t) (h : KeepsMoved s r) : Keeps s t := by subst e; exact h
theorem KeepsRan.vectorCycles {s : State} {r : Ran} {t k : Nat} (h : KeepsRan s r) (p : ∀ x, Keeps x (x.perf t 4 k)) : KeepsRan s (r.vectorCycles t k) := by
  cases r with
  | go x pc => exact Keeps.trans h (p x)
  | trap c x => exact h
  | stall x => exact h
  | ended x => exact h
theorem KeepsR.atNext {s t : State} (h : KeepsR s (.next t)) : Keeps s t := by
  obtain ⟨u, e, k⟩ := h; cases e; exact k
theorem KeepsP.snd {α : Type} {s : State} {p : α × State} (h : KeepsP s p) : Keeps s p.2 := h
theorem KeepsQ.fst {α : Type} {s : State} {p : State × α} (h : KeepsQ s p) : Keeps s p.1 := h
theorem KeepsO.getD {s t : State} {o : Option State} (h : KeepsO s o) (k : Keeps s t) : Keeps s (o.getD t) := by
  cases o with
  | none => exact k
  | some x => exact h x rfl
theorem Keeps.via {s t : State} (x : State) (h : Keeps s x) (k : Keeps s x → Keeps s t) : Keeps s t := k h
theorem KeepsP.via {α : Type} {s : State} {t : α × State} (x : State) (h : Keeps s x) (k : Keeps s x → KeepsP s t) : KeepsP s t := k h
theorem KeepsQ.via {α : Type} {s : State} {t : State × α} (x : State) (h : Keeps s x) (k : Keeps s x → KeepsQ s t) : KeepsQ s t := k h
theorem KeepsO.via {s : State} {t : Option State} (x : State) (h : Keeps s x) (k : Keeps s x → KeepsO s t) : KeepsO s t := k h
theorem KeepsOP.via {α : Type} {s : State} {t : Option (α × State)} (x : State) (h : Keeps s x) (k : Keeps s x → KeepsOP s t) : KeepsOP s t := k h
theorem KeepsR.via {s : State} {t : Host.Outcome State Fault Refusal} (x : State) (h : Keeps s x) (k : Keeps s x → KeepsR s t) : KeepsR s t := k h

end Sys2Proof.Machine
end

