-- ==== Sys2Proof/Laws/Numbers.lean ====
section
/-! SUPPORT. Numbers: whole values on their grid, packed elements and repeated steps. -/
namespace Sys2Proof.Machine

theorem floorLog2_one (n : Nat) (q : Int) (h : n ≠ 0) : floorLog2 n 1 q = Nat.log2 n + q := by
  unfold floorLog2
  have : (Nat.log2 1 : Int) = 0 := by rfl
  simp only [this, Int.sub_zero]
  rw [if_pos (Int.natCast_nonneg _)]
  have : 2 ^ Nat.log2 n ≤ n := Nat.log2_self_le h
  simp [this]

theorem roundQuot_one (n : Int) : roundQuot .nearest n 1 = n := by
  simp [roundQuot]

/-- An element of a list of lists of one length. -/
theorem flatMap_getElem {α β : Type} (k : Nat) (f : α → List β) (h : ∀ a, (f a).length = k) (l : List α) (i : Nat) (hk : 0 < k) (hi : i < l.length * k) :
    (l.flatMap f)[i]? = (l[i / k]?).bind (fun a => (f a)[i % k]?) := by
  induction l generalizing i with
  | nil => simp at hi
  | cons a t ih =>
    simp only [List.flatMap_cons, List.getElem?_append, h]
    by_cases c : i < k
    · simp [c, Nat.div_eq_of_lt c, Nat.mod_eq_of_lt c]
    · rw [if_neg c, ih (i - k) (by simp [Nat.add_mul] at hi; omega)]
      have e : i / k = (i - k) / k + 1 := by
        rw [← Nat.add_div_right _ hk]; congr 1; omega
      have m : (i - k) % k = i % k := by
        conv => rhs; rw [show i = (i - k) + k by omega, Nat.add_mod_right]
      rw [e, m]; rfl

theorem lfsrMask_testBit (i : Nat) : Nat.testBit 0x80200003 i = (i == 31 || i == 21 || i == 1 || i == 0) := by
  by_cases hi : i < 32
  · have : ∀ i : Fin 32, Nat.testBit 0x80200003 i.val = (i.val == 31 || i.val == 21 || i.val == 1 || i.val == 0) := by decide +kernel
    exact this ⟨i, hi⟩
  · rw [Nat.testBit_lt_two_pow (Nat.lt_of_lt_of_le (show 0x80200003 < 2 ^ 32 by norm_num) (Nat.pow_le_pow_right (by decide) (show 32 ≤ i by omega)))]
    have : i ≠ 31 ∧ i ≠ 21 ∧ i ≠ 1 ∧ i ≠ 0 := by omega
    simp [this]

end Sys2Proof.Machine
end

