-- ==== Sys2Proof/Laws/Places.lean ====
section
/-! SUPPORT. Where bytes lie and what a write of memory or scratch leaves. -/
namespace Sys2Proof.Machine

theorem State.showDirty_hbm (s : State) (n : Nat) : (s.showDirty n).hbm = s.hbm := by unfold State.showDirty; split <;> rfl

theorem State.mirrorDirty_hbm (s : State) (a n : Nat) : (s.mirrorDirty a n).hbm = s.hbm := by
  unfold State.mirrorDirty
  generalize s.coll.mirrors.filter _ = l
  induction l generalizing s with
  | nil => rfl
  | cons p t ih =>
    rw [List.foldl_cons, ih]
    exact State.showDirty_hbm _ _

theorem State.scrWrite_mem (s : State) (p a : Nat) (bs : List PByte) : (s.scrWrite p a bs).scr.mem = Memory.writeBytes s.scr.mem (scrKey p a) (bs.map Prod.fst) := by
  unfold State.scrWrite
  extract_lets n whole bad c kept t
  split
  · split <;> rfl
  · rfl

theorem ctlOf_lt (m g o : Nat) : ctlOf m g o < 16 := by
  have x (v hi lo w n : Nat) (h : hi + 1 - lo = n) (h' : w < 2 ^ n) : bits v hi lo ^^^ w < 2 ^ n :=
    Nat.xor_lt_two_pow (h ▸ bits_lt v hi lo) h'
  unfold ctlOf
  split
  · have a := x o 9 8 (bits g 1 0) 2 rfl (bits_lt g 1 0)
    have b := bits_lt o 20 19
    omega
  · split
    · have a := x o 8 8 (bits g 0 0) 1 rfl (bits_lt g 0 0)
      have b := bits_lt o 20 18
      omega
    · exact x o 11 8 (bits g 3 0) 4 rfl (bits_lt g 3 0)

theorem State.absentStack_lt (s : State) : s.absentStack < 8 := by
  unfold State.absentStack
  cases h : (List.range 8).find? _ with
  | none => decide
  | some k => exact List.mem_range.1 (List.mem_of_find?_eq_some h)

theorem cellKey_row (c r : Nat) (h : r < 2 ^ 19) : cellKey c r % 2 ^ 19 = r ∧ cellKey c r / 2 ^ 19 = c := by
  unfold cellKey; omega

end Sys2Proof.Machine
end

