-- ==== Sys2Proof/Laws/State.lean ====
section
/-! SUPPORT. What each named update of the state leaves alone: one lemma per field, true by unfolding. -/
namespace Sys2Proof.Machine

/-! ### State.setReg -/

@[simp] theorem State.setReg_pending (s : State) (off v : Nat) : (s.setReg off v).pending = s.pending := rfl
@[simp] theorem State.setReg_free (s : State) (off v : Nat) : (s.setReg off v).free = s.free := rfl
@[simp] theorem State.setReg_out (s : State) (off v : Nat) : (s.setReg off v).out = s.out := rfl
@[simp] theorem State.setReg_shadow (s : State) (off v : Nat) : (s.setReg off v).shadow = s.shadow := rfl
@[simp] theorem State.setReg_held (s : State) (off v : Nat) : (s.setReg off v).held = s.held := rfl
@[simp] theorem State.setReg_captured (s : State) (off v : Nat) : (s.setReg off v).captured = s.captured := rfl
@[simp] theorem State.setReg_evt (s : State) (off v : Nat) : (s.setReg off v).evt = s.evt := rfl
@[simp] theorem State.setReg_fuse (s : State) (off v : Nat) : (s.setReg off v).fuse = s.fuse := rfl
@[simp] theorem State.setReg_mram (s : State) (off v : Nat) : (s.setReg off v).mram = s.mram := rfl
@[simp] theorem State.setReg_sag (s : State) (off v : Nat) : (s.setReg off v).sag = s.sag := rfl
@[simp] theorem State.setReg_host (s : State) (off v : Nat) : (s.setReg off v).host = s.host := rfl
@[simp] theorem State.setReg_glb (s : State) (off v : Nat) : (s.setReg off v).glb = s.glb := rfl
@[simp] theorem State.setReg_sites (s : State) (off v : Nat) : (s.setReg off v).sites = s.sites := rfl
@[simp] theorem State.setReg_hbm (s : State) (off v : Nat) : (s.setReg off v).hbm = s.hbm := rfl
@[simp] theorem State.setReg_regul (s : State) (off v : Nat) : (s.setReg off v).regul = s.regul := rfl
@[simp] theorem State.setReg_xlat (s : State) (off v : Nat) : (s.setReg off v).xlat = s.xlat := rfl
@[simp] theorem State.setReg_noc (s : State) (off v : Nat) : (s.setReg off v).noc = s.noc := rfl
@[simp] theorem State.setReg_acc (s : State) (off v : Nat) : (s.setReg off v).acc = s.acc := rfl
@[simp] theorem State.setReg_rings (s : State) (off v : Nat) : (s.setReg off v).rings = s.rings := rfl
@[simp] theorem State.setReg_eng (s : State) (off v : Nat) : (s.setReg off v).eng = s.eng := rfl
@[simp] theorem State.setReg_scr (s : State) (off v : Nat) : (s.setReg off v).scr = s.scr := rfl
@[simp] theorem State.setReg_home (s : State) (off v : Nat) : (s.setReg off v).home = s.home := rfl
@[simp] theorem State.setReg_links (s : State) (off v : Nat) : (s.setReg off v).links = s.links := rfl
@[simp] theorem State.setReg_conns (s : State) (off v : Nat) : (s.setReg off v).conns = s.conns := rfl
@[simp] theorem State.setReg_connShadow (s : State) (off v : Nat) : (s.setReg off v).connShadow = s.connShadow := rfl
@[simp] theorem State.setReg_connSt (s : State) (off v : Nat) : (s.setReg off v).connSt = s.connSt := rfl
@[simp] theorem State.setReg_tiles (s : State) (off v : Nat) : (s.setReg off v).tiles = s.tiles := rfl
@[simp] theorem State.setReg_gens (s : State) (off v : Nat) : (s.setReg off v).gens = s.gens := rfl
@[simp] theorem State.setReg_pwr (s : State) (off v : Nat) : (s.setReg off v).pwr = s.pwr := rfl
@[simp] theorem State.setReg_boot (s : State) (off v : Nat) : (s.setReg off v).boot = s.boot := rfl
@[simp] theorem State.setReg_mgmt (s : State) (off v : Nat) : (s.setReg off v).mgmt = s.mgmt := rfl
@[simp] theorem State.setReg_blanket (s : State) (off v : Nat) : (s.setReg off v).blanket = s.blanket := rfl
@[simp] theorem State.setReg_sec (s : State) (off v : Nat) : (s.setReg off v).sec = s.sec := rfl
@[simp] theorem State.setReg_coll (s : State) (off v : Nat) : (s.setReg off v).coll = s.coll := rfl
@[simp] theorem State.setReg_strm (s : State) (off v : Nat) : (s.setReg off v).strm = s.strm := rfl
@[simp] theorem State.setReg_fab (s : State) (off v : Nat) : (s.setReg off v).fab = s.fab := rfl
@[simp] theorem State.setReg_hier (s : State) (off v : Nat) : (s.setReg off v).hier = s.hier := rfl
@[simp] theorem State.setReg_time (s : State) (off v : Nat) : (s.setReg off v).time = s.time := rfl

/-! ### State.wr -/

@[simp] theorem State.wr_pending (s : State) (f : Fld) (v : Nat) : (s.wr f v).pending = s.pending := rfl
@[simp] theorem State.wr_free (s : State) (f : Fld) (v : Nat) : (s.wr f v).free = s.free := rfl
@[simp] theorem State.wr_out (s : State) (f : Fld) (v : Nat) : (s.wr f v).out = s.out := rfl
@[simp] theorem State.wr_shadow (s : State) (f : Fld) (v : Nat) : (s.wr f v).shadow = s.shadow := rfl
@[simp] theorem State.wr_held (s : State) (f : Fld) (v : Nat) : (s.wr f v).held = s.held := rfl
@[simp] theorem State.wr_captured (s : State) (f : Fld) (v : Nat) : (s.wr f v).captured = s.captured := rfl
@[simp] theorem State.wr_evt (s : State) (f : Fld) (v : Nat) : (s.wr f v).evt = s.evt := rfl
@[simp] theorem State.wr_fuse (s : State) (f : Fld) (v : Nat) : (s.wr f v).fuse = s.fuse := rfl
@[simp] theorem State.wr_mram (s : State) (f : Fld) (v : Nat) : (s.wr f v).mram = s.mram := rfl
@[simp] theorem State.wr_sag (s : State) (f : Fld) (v : Nat) : (s.wr f v).sag = s.sag := rfl
@[simp] theorem State.wr_host (s : State) (f : Fld) (v : Nat) : (s.wr f v).host = s.host := rfl
@[simp] theorem State.wr_glb (s : State) (f : Fld) (v : Nat) : (s.wr f v).glb = s.glb := rfl
@[simp] theorem State.wr_sites (s : State) (f : Fld) (v : Nat) : (s.wr f v).sites = s.sites := rfl
@[simp] theorem State.wr_hbm (s : State) (f : Fld) (v : Nat) : (s.wr f v).hbm = s.hbm := rfl
@[simp] theorem State.wr_regul (s : State) (f : Fld) (v : Nat) : (s.wr f v).regul = s.regul := rfl
@[simp] theorem State.wr_xlat (s : State) (f : Fld) (v : Nat) : (s.wr f v).xlat = s.xlat := rfl
@[simp] theorem State.wr_noc (s : State) (f : Fld) (v : Nat) : (s.wr f v).noc = s.noc := rfl
@[simp] theorem State.wr_acc (s : State) (f : Fld) (v : Nat) : (s.wr f v).acc = s.acc := rfl
@[simp] theorem State.wr_rings (s : State) (f : Fld) (v : Nat) : (s.wr f v).rings = s.rings := rfl
@[simp] theorem State.wr_eng (s : State) (f : Fld) (v : Nat) : (s.wr f v).eng = s.eng := rfl
@[simp] theorem State.wr_scr (s : State) (f : Fld) (v : Nat) : (s.wr f v).scr = s.scr := rfl
@[simp] theorem State.wr_home (s : State) (f : Fld) (v : Nat) : (s.wr f v).home = s.home := rfl
@[simp] theorem State.wr_links (s : State) (f : Fld) (v : Nat) : (s.wr f v).links = s.links := rfl
@[simp] theorem State.wr_conns (s : State) (f : Fld) (v : Nat) : (s.wr f v).conns = s.conns := rfl
@[simp] theorem State.wr_connShadow (s : State) (f : Fld) (v : Nat) : (s.wr f v).connShadow = s.connShadow := rfl
@[simp] theorem State.wr_connSt (s : State) (f : Fld) (v : Nat) : (s.wr f v).connSt = s.connSt := rfl
@[simp] theorem State.wr_tiles (s : State) (f : Fld) (v : Nat) : (s.wr f v).tiles = s.tiles := rfl
@[simp] theorem State.wr_gens (s : State) (f : Fld) (v : Nat) : (s.wr f v).gens = s.gens := rfl
@[simp] theorem State.wr_pwr (s : State) (f : Fld) (v : Nat) : (s.wr f v).pwr = s.pwr := rfl
@[simp] theorem State.wr_boot (s : State) (f : Fld) (v : Nat) : (s.wr f v).boot = s.boot := rfl
@[simp] theorem State.wr_mgmt (s : State) (f : Fld) (v : Nat) : (s.wr f v).mgmt = s.mgmt := rfl
@[simp] theorem State.wr_blanket (s : State) (f : Fld) (v : Nat) : (s.wr f v).blanket = s.blanket := rfl
@[simp] theorem State.wr_sec (s : State) (f : Fld) (v : Nat) : (s.wr f v).sec = s.sec := rfl
@[simp] theorem State.wr_coll (s : State) (f : Fld) (v : Nat) : (s.wr f v).coll = s.coll := rfl
@[simp] theorem State.wr_strm (s : State) (f : Fld) (v : Nat) : (s.wr f v).strm = s.strm := rfl
@[simp] theorem State.wr_fab (s : State) (f : Fld) (v : Nat) : (s.wr f v).fab = s.fab := rfl
@[simp] theorem State.wr_hier (s : State) (f : Fld) (v : Nat) : (s.wr f v).hier = s.hier := rfl
@[simp] theorem State.wr_time (s : State) (f : Fld) (v : Nat) : (s.wr f v).time = s.time := rfl

/-! ### State.setShd -/

@[simp] theorem State.setShd_pending (s : State) (off v : Nat) : (s.setShd off v).pending = s.pending := rfl
@[simp] theorem State.setShd_free (s : State) (off v : Nat) : (s.setShd off v).free = s.free := rfl
@[simp] theorem State.setShd_out (s : State) (off v : Nat) : (s.setShd off v).out = s.out := rfl
@[simp] theorem State.setShd_regs (s : State) (off v : Nat) : (s.setShd off v).regs = s.regs := rfl
@[simp] theorem State.setShd_held (s : State) (off v : Nat) : (s.setShd off v).held = s.held := rfl
@[simp] theorem State.setShd_captured (s : State) (off v : Nat) : (s.setShd off v).captured = s.captured := rfl
@[simp] theorem State.setShd_evt (s : State) (off v : Nat) : (s.setShd off v).evt = s.evt := rfl
@[simp] theorem State.setShd_fuse (s : State) (off v : Nat) : (s.setShd off v).fuse = s.fuse := rfl
@[simp] theorem State.setShd_mram (s : State) (off v : Nat) : (s.setShd off v).mram = s.mram := rfl
@[simp] theorem State.setShd_sag (s : State) (off v : Nat) : (s.setShd off v).sag = s.sag := rfl
@[simp] theorem State.setShd_host (s : State) (off v : Nat) : (s.setShd off v).host = s.host := rfl
@[simp] theorem State.setShd_glb (s : State) (off v : Nat) : (s.setShd off v).glb = s.glb := rfl
@[simp] theorem State.setShd_sites (s : State) (off v : Nat) : (s.setShd off v).sites = s.sites := rfl
@[simp] theorem State.setShd_hbm (s : State) (off v : Nat) : (s.setShd off v).hbm = s.hbm := rfl
@[simp] theorem State.setShd_regul (s : State) (off v : Nat) : (s.setShd off v).regul = s.regul := rfl
@[simp] theorem State.setShd_xlat (s : State) (off v : Nat) : (s.setShd off v).xlat = s.xlat := rfl
@[simp] theorem State.setShd_noc (s : State) (off v : Nat) : (s.setShd off v).noc = s.noc := rfl
@[simp] theorem State.setShd_acc (s : State) (off v : Nat) : (s.setShd off v).acc = s.acc := rfl
@[simp] theorem State.setShd_rings (s : State) (off v : Nat) : (s.setShd off v).rings = s.rings := rfl
@[simp] theorem State.setShd_eng (s : State) (off v : Nat) : (s.setShd off v).eng = s.eng := rfl
@[simp] theorem State.setShd_scr (s : State) (off v : Nat) : (s.setShd off v).scr = s.scr := rfl
@[simp] theorem State.setShd_home (s : State) (off v : Nat) : (s.setShd off v).home = s.home := rfl
@[simp] theorem State.setShd_links (s : State) (off v : Nat) : (s.setShd off v).links = s.links := rfl
@[simp] theorem State.setShd_conns (s : State) (off v : Nat) : (s.setShd off v).conns = s.conns := rfl
@[simp] theorem State.setShd_connShadow (s : State) (off v : Nat) : (s.setShd off v).connShadow = s.connShadow := rfl
@[simp] theorem State.setShd_connSt (s : State) (off v : Nat) : (s.setShd off v).connSt = s.connSt := rfl
@[simp] theorem State.setShd_tiles (s : State) (off v : Nat) : (s.setShd off v).tiles = s.tiles := rfl
@[simp] theorem State.setShd_gens (s : State) (off v : Nat) : (s.setShd off v).gens = s.gens := rfl
@[simp] theorem State.setShd_pwr (s : State) (off v : Nat) : (s.setShd off v).pwr = s.pwr := rfl
@[simp] theorem State.setShd_boot (s : State) (off v : Nat) : (s.setShd off v).boot = s.boot := rfl
@[simp] theorem State.setShd_mgmt (s : State) (off v : Nat) : (s.setShd off v).mgmt = s.mgmt := rfl
@[simp] theorem State.setShd_blanket (s : State) (off v : Nat) : (s.setShd off v).blanket = s.blanket := rfl
@[simp] theorem State.setShd_sec (s : State) (off v : Nat) : (s.setShd off v).sec = s.sec := rfl
@[simp] theorem State.setShd_coll (s : State) (off v : Nat) : (s.setShd off v).coll = s.coll := rfl
@[simp] theorem State.setShd_strm (s : State) (off v : Nat) : (s.setShd off v).strm = s.strm := rfl
@[simp] theorem State.setShd_fab (s : State) (off v : Nat) : (s.setShd off v).fab = s.fab := rfl
@[simp] theorem State.setShd_hier (s : State) (off v : Nat) : (s.setShd off v).hier = s.hier := rfl
@[simp] theorem State.setShd_time (s : State) (off v : Nat) : (s.setShd off v).time = s.time := rfl

/-! ### State.send -/

@[simp] theorem State.send_pending (s : State) (o : Out) : (s.send o).pending = s.pending := rfl
@[simp] theorem State.send_free (s : State) (o : Out) : (s.send o).free = s.free := rfl
@[simp] theorem State.send_regs (s : State) (o : Out) : (s.send o).regs = s.regs := rfl
@[simp] theorem State.send_shadow (s : State) (o : Out) : (s.send o).shadow = s.shadow := rfl
@[simp] theorem State.send_held (s : State) (o : Out) : (s.send o).held = s.held := rfl
@[simp] theorem State.send_captured (s : State) (o : Out) : (s.send o).captured = s.captured := rfl
@[simp] theorem State.send_evt (s : State) (o : Out) : (s.send o).evt = s.evt := rfl
@[simp] theorem State.send_fuse (s : State) (o : Out) : (s.send o).fuse = s.fuse := rfl
@[simp] theorem State.send_mram (s : State) (o : Out) : (s.send o).mram = s.mram := rfl
@[simp] theorem State.send_sag (s : State) (o : Out) : (s.send o).sag = s.sag := rfl
@[simp] theorem State.send_host (s : State) (o : Out) : (s.send o).host = s.host := rfl
@[simp] theorem State.send_glb (s : State) (o : Out) : (s.send o).glb = s.glb := rfl
@[simp] theorem State.send_sites (s : State) (o : Out) : (s.send o).sites = s.sites := rfl
@[simp] theorem State.send_hbm (s : State) (o : Out) : (s.send o).hbm = s.hbm := rfl
@[simp] theorem State.send_regul (s : State) (o : Out) : (s.send o).regul = s.regul := rfl
@[simp] theorem State.send_xlat (s : State) (o : Out) : (s.send o).xlat = s.xlat := rfl
@[simp] theorem State.send_noc (s : State) (o : Out) : (s.send o).noc = s.noc := rfl
@[simp] theorem State.send_acc (s : State) (o : Out) : (s.send o).acc = s.acc := rfl
@[simp] theorem State.send_rings (s : State) (o : Out) : (s.send o).rings = s.rings := rfl
@[simp] theorem State.send_eng (s : State) (o : Out) : (s.send o).eng = s.eng := rfl
@[simp] theorem State.send_scr (s : State) (o : Out) : (s.send o).scr = s.scr := rfl
@[simp] theorem State.send_home (s : State) (o : Out) : (s.send o).home = s.home := rfl
@[simp] theorem State.send_links (s : State) (o : Out) : (s.send o).links = s.links := rfl
@[simp] theorem State.send_conns (s : State) (o : Out) : (s.send o).conns = s.conns := rfl
@[simp] theorem State.send_connShadow (s : State) (o : Out) : (s.send o).connShadow = s.connShadow := rfl
@[simp] theorem State.send_connSt (s : State) (o : Out) : (s.send o).connSt = s.connSt := rfl
@[simp] theorem State.send_tiles (s : State) (o : Out) : (s.send o).tiles = s.tiles := rfl
@[simp] theorem State.send_gens (s : State) (o : Out) : (s.send o).gens = s.gens := rfl
@[simp] theorem State.send_pwr (s : State) (o : Out) : (s.send o).pwr = s.pwr := rfl
@[simp] theorem State.send_boot (s : State) (o : Out) : (s.send o).boot = s.boot := rfl
@[simp] theorem State.send_mgmt (s : State) (o : Out) : (s.send o).mgmt = s.mgmt := rfl
@[simp] theorem State.send_blanket (s : State) (o : Out) : (s.send o).blanket = s.blanket := rfl
@[simp] theorem State.send_sec (s : State) (o : Out) : (s.send o).sec = s.sec := rfl
@[simp] theorem State.send_coll (s : State) (o : Out) : (s.send o).coll = s.coll := rfl
@[simp] theorem State.send_strm (s : State) (o : Out) : (s.send o).strm = s.strm := rfl
@[simp] theorem State.send_fab (s : State) (o : Out) : (s.send o).fab = s.fab := rfl
@[simp] theorem State.send_hier (s : State) (o : Out) : (s.send o).hier = s.hier := rfl
@[simp] theorem State.send_time (s : State) (o : Out) : (s.send o).time = s.time := rfl

/-! ### State.useFree -/

@[simp] theorem State.useFree_pending (s : State) : (s.useFree).pending = s.pending := rfl
@[simp] theorem State.useFree_out (s : State) : (s.useFree).out = s.out := rfl
@[simp] theorem State.useFree_regs (s : State) : (s.useFree).regs = s.regs := rfl
@[simp] theorem State.useFree_shadow (s : State) : (s.useFree).shadow = s.shadow := rfl
@[simp] theorem State.useFree_held (s : State) : (s.useFree).held = s.held := rfl
@[simp] theorem State.useFree_captured (s : State) : (s.useFree).captured = s.captured := rfl
@[simp] theorem State.useFree_evt (s : State) : (s.useFree).evt = s.evt := rfl
@[simp] theorem State.useFree_fuse (s : State) : (s.useFree).fuse = s.fuse := rfl
@[simp] theorem State.useFree_mram (s : State) : (s.useFree).mram = s.mram := rfl
@[simp] theorem State.useFree_sag (s : State) : (s.useFree).sag = s.sag := rfl
@[simp] theorem State.useFree_host (s : State) : (s.useFree).host = s.host := rfl
@[simp] theorem State.useFree_glb (s : State) : (s.useFree).glb = s.glb := rfl
@[simp] theorem State.useFree_sites (s : State) : (s.useFree).sites = s.sites := rfl
@[simp] theorem State.useFree_hbm (s : State) : (s.useFree).hbm = s.hbm := rfl
@[simp] theorem State.useFree_regul (s : State) : (s.useFree).regul = s.regul := rfl
@[simp] theorem State.useFree_xlat (s : State) : (s.useFree).xlat = s.xlat := rfl
@[simp] theorem State.useFree_noc (s : State) : (s.useFree).noc = s.noc := rfl
@[simp] theorem State.useFree_acc (s : State) : (s.useFree).acc = s.acc := rfl
@[simp] theorem State.useFree_rings (s : State) : (s.useFree).rings = s.rings := rfl
@[simp] theorem State.useFree_eng (s : State) : (s.useFree).eng = s.eng := rfl
@[simp] theorem State.useFree_scr (s : State) : (s.useFree).scr = s.scr := rfl
@[simp] theorem State.useFree_home (s : State) : (s.useFree).home = s.home := rfl
@[simp] theorem State.useFree_links (s : State) : (s.useFree).links = s.links := rfl
@[simp] theorem State.useFree_conns (s : State) : (s.useFree).conns = s.conns := rfl
@[simp] theorem State.useFree_connShadow (s : State) : (s.useFree).connShadow = s.connShadow := rfl
@[simp] theorem State.useFree_connSt (s : State) : (s.useFree).connSt = s.connSt := rfl
@[simp] theorem State.useFree_tiles (s : State) : (s.useFree).tiles = s.tiles := rfl
@[simp] theorem State.useFree_gens (s : State) : (s.useFree).gens = s.gens := rfl
@[simp] theorem State.useFree_pwr (s : State) : (s.useFree).pwr = s.pwr := rfl
@[simp] theorem State.useFree_boot (s : State) : (s.useFree).boot = s.boot := rfl
@[simp] theorem State.useFree_mgmt (s : State) : (s.useFree).mgmt = s.mgmt := rfl
@[simp] theorem State.useFree_blanket (s : State) : (s.useFree).blanket = s.blanket := rfl
@[simp] theorem State.useFree_sec (s : State) : (s.useFree).sec = s.sec := rfl
@[simp] theorem State.useFree_coll (s : State) : (s.useFree).coll = s.coll := rfl
@[simp] theorem State.useFree_strm (s : State) : (s.useFree).strm = s.strm := rfl
@[simp] theorem State.useFree_fab (s : State) : (s.useFree).fab = s.fab := rfl
@[simp] theorem State.useFree_hier (s : State) : (s.useFree).hier = s.hier := rfl
@[simp] theorem State.useFree_time (s : State) : (s.useFree).time = s.time := rfl

/-! ### State.sat -/

@[simp] theorem State.sat_pending (s : State) (f : Fld) (k : Nat) : (s.sat f k).pending = s.pending := rfl
@[simp] theorem State.sat_free (s : State) (f : Fld) (k : Nat) : (s.sat f k).free = s.free := rfl
@[simp] theorem State.sat_out (s : State) (f : Fld) (k : Nat) : (s.sat f k).out = s.out := rfl
@[simp] theorem State.sat_shadow (s : State) (f : Fld) (k : Nat) : (s.sat f k).shadow = s.shadow := rfl
@[simp] theorem State.sat_held (s : State) (f : Fld) (k : Nat) : (s.sat f k).held = s.held := rfl
@[simp] theorem State.sat_captured (s : State) (f : Fld) (k : Nat) : (s.sat f k).captured = s.captured := rfl
@[simp] theorem State.sat_evt (s : State) (f : Fld) (k : Nat) : (s.sat f k).evt = s.evt := rfl
@[simp] theorem State.sat_fuse (s : State) (f : Fld) (k : Nat) : (s.sat f k).fuse = s.fuse := rfl
@[simp] theorem State.sat_mram (s : State) (f : Fld) (k : Nat) : (s.sat f k).mram = s.mram := rfl
@[simp] theorem State.sat_sag (s : State) (f : Fld) (k : Nat) : (s.sat f k).sag = s.sag := rfl
@[simp] theorem State.sat_host (s : State) (f : Fld) (k : Nat) : (s.sat f k).host = s.host := rfl
@[simp] theorem State.sat_glb (s : State) (f : Fld) (k : Nat) : (s.sat f k).glb = s.glb := rfl
@[simp] theorem State.sat_sites (s : State) (f : Fld) (k : Nat) : (s.sat f k).sites = s.sites := rfl
@[simp] theorem State.sat_hbm (s : State) (f : Fld) (k : Nat) : (s.sat f k).hbm = s.hbm := rfl
@[simp] theorem State.sat_regul (s : State) (f : Fld) (k : Nat) : (s.sat f k).regul = s.regul := rfl
@[simp] theorem State.sat_xlat (s : State) (f : Fld) (k : Nat) : (s.sat f k).xlat = s.xlat := rfl
@[simp] theorem State.sat_noc (s : State) (f : Fld) (k : Nat) : (s.sat f k).noc = s.noc := rfl
@[simp] theorem State.sat_acc (s : State) (f : Fld) (k : Nat) : (s.sat f k).acc = s.acc := rfl
@[simp] theorem State.sat_rings (s : State) (f : Fld) (k : Nat) : (s.sat f k).rings = s.rings := rfl
@[simp] theorem State.sat_eng (s : State) (f : Fld) (k : Nat) : (s.sat f k).eng = s.eng := rfl
@[simp] theorem State.sat_scr (s : State) (f : Fld) (k : Nat) : (s.sat f k).scr = s.scr := rfl
@[simp] theorem State.sat_home (s : State) (f : Fld) (k : Nat) : (s.sat f k).home = s.home := rfl
@[simp] theorem State.sat_links (s : State) (f : Fld) (k : Nat) : (s.sat f k).links = s.links := rfl
@[simp] theorem State.sat_conns (s : State) (f : Fld) (k : Nat) : (s.sat f k).conns = s.conns := rfl
@[simp] theorem State.sat_connShadow (s : State) (f : Fld) (k : Nat) : (s.sat f k).connShadow = s.connShadow := rfl
@[simp] theorem State.sat_connSt (s : State) (f : Fld) (k : Nat) : (s.sat f k).connSt = s.connSt := rfl
@[simp] theorem State.sat_tiles (s : State) (f : Fld) (k : Nat) : (s.sat f k).tiles = s.tiles := rfl
@[simp] theorem State.sat_gens (s : State) (f : Fld) (k : Nat) : (s.sat f k).gens = s.gens := rfl
@[simp] theorem State.sat_pwr (s : State) (f : Fld) (k : Nat) : (s.sat f k).pwr = s.pwr := rfl
@[simp] theorem State.sat_boot (s : State) (f : Fld) (k : Nat) : (s.sat f k).boot = s.boot := rfl
@[simp] theorem State.sat_mgmt (s : State) (f : Fld) (k : Nat) : (s.sat f k).mgmt = s.mgmt := rfl
@[simp] theorem State.sat_blanket (s : State) (f : Fld) (k : Nat) : (s.sat f k).blanket = s.blanket := rfl
@[simp] theorem State.sat_sec (s : State) (f : Fld) (k : Nat) : (s.sat f k).sec = s.sec := rfl
@[simp] theorem State.sat_coll (s : State) (f : Fld) (k : Nat) : (s.sat f k).coll = s.coll := rfl
@[simp] theorem State.sat_strm (s : State) (f : Fld) (k : Nat) : (s.sat f k).strm = s.strm := rfl
@[simp] theorem State.sat_fab (s : State) (f : Fld) (k : Nat) : (s.sat f k).fab = s.fab := rfl
@[simp] theorem State.sat_hier (s : State) (f : Fld) (k : Nat) : (s.sat f k).hier = s.hier := rfl
@[simp] theorem State.sat_time (s : State) (f : Fld) (k : Nat) : (s.sat f k).time = s.time := rfl

/-! ### State.wrap -/

@[simp] theorem State.wrap_pending (s : State) (f : Fld) (k : Nat) : (s.wrap f k).pending = s.pending := rfl
@[simp] theorem State.wrap_free (s : State) (f : Fld) (k : Nat) : (s.wrap f k).free = s.free := rfl
@[simp] theorem State.wrap_out (s : State) (f : Fld) (k : Nat) : (s.wrap f k).out = s.out := rfl
@[simp] theorem State.wrap_shadow (s : State) (f : Fld) (k : Nat) : (s.wrap f k).shadow = s.shadow := rfl
@[simp] theorem State.wrap_held (s : State) (f : Fld) (k : Nat) : (s.wrap f k).held = s.held := rfl
@[simp] theorem State.wrap_captured (s : State) (f : Fld) (k : Nat) : (s.wrap f k).captured = s.captured := rfl
@[simp] theorem State.wrap_evt (s : State) (f : Fld) (k : Nat) : (s.wrap f k).evt = s.evt := rfl
@[simp] theorem State.wrap_fuse (s : State) (f : Fld) (k : Nat) : (s.wrap f k).fuse = s.fuse := rfl
@[simp] theorem State.wrap_mram (s : State) (f : Fld) (k : Nat) : (s.wrap f k).mram = s.mram := rfl
@[simp] theorem State.wrap_sag (s : State) (f : Fld) (k : Nat) : (s.wrap f k).sag = s.sag := rfl
@[simp] theorem State.wrap_host (s : State) (f : Fld) (k : Nat) : (s.wrap f k).host = s.host := rfl
@[simp] theorem State.wrap_glb (s : State) (f : Fld) (k : Nat) : (s.wrap f k).glb = s.glb := rfl
@[simp] theorem State.wrap_sites (s : State) (f : Fld) (k : Nat) : (s.wrap f k).sites = s.sites := rfl
@[simp] theorem State.wrap_hbm (s : State) (f : Fld) (k : Nat) : (s.wrap f k).hbm = s.hbm := rfl
@[simp] theorem State.wrap_regul (s : State) (f : Fld) (k : Nat) : (s.wrap f k).regul = s.regul := rfl
@[simp] theorem State.wrap_xlat (s : State) (f : Fld) (k : Nat) : (s.wrap f k).xlat = s.xlat := rfl
@[simp] theorem State.wrap_noc (s : State) (f : Fld) (k : Nat) : (s.wrap f k).noc = s.noc := rfl
@[simp] theorem State.wrap_acc (s : State) (f : Fld) (k : Nat) : (s.wrap f k).acc = s.acc := rfl
@[simp] theorem State.wrap_rings (s : State) (f : Fld) (k : Nat) : (s.wrap f k).rings = s.rings := rfl
@[simp] theorem State.wrap_eng (s : State) (f : Fld) (k : Nat) : (s.wrap f k).eng = s.eng := rfl
@[simp] theorem State.wrap_scr (s : State) (f : Fld) (k : Nat) : (s.wrap f k).scr = s.scr := rfl
@[simp] theorem State.wrap_home (s : State) (f : Fld) (k : Nat) : (s.wrap f k).home = s.home := rfl
@[simp] theorem State.wrap_links (s : State) (f : Fld) (k : Nat) : (s.wrap f k).links = s.links := rfl
@[simp] theorem State.wrap_conns (s : State) (f : Fld) (k : Nat) : (s.wrap f k).conns = s.conns := rfl
@[simp] theorem State.wrap_connShadow (s : State) (f : Fld) (k : Nat) : (s.wrap f k).connShadow = s.connShadow := rfl
@[simp] theorem State.wrap_connSt (s : State) (f : Fld) (k : Nat) : (s.wrap f k).connSt = s.connSt := rfl
@[simp] theorem State.wrap_tiles (s : State) (f : Fld) (k : Nat) : (s.wrap f k).tiles = s.tiles := rfl
@[simp] theorem State.wrap_gens (s : State) (f : Fld) (k : Nat) : (s.wrap f k).gens = s.gens := rfl
@[simp] theorem State.wrap_pwr (s : State) (f : Fld) (k : Nat) : (s.wrap f k).pwr = s.pwr := rfl
@[simp] theorem State.wrap_boot (s : State) (f : Fld) (k : Nat) : (s.wrap f k).boot = s.boot := rfl
@[simp] theorem State.wrap_mgmt (s : State) (f : Fld) (k : Nat) : (s.wrap f k).mgmt = s.mgmt := rfl
@[simp] theorem State.wrap_blanket (s : State) (f : Fld) (k : Nat) : (s.wrap f k).blanket = s.blanket := rfl
@[simp] theorem State.wrap_sec (s : State) (f : Fld) (k : Nat) : (s.wrap f k).sec = s.sec := rfl
@[simp] theorem State.wrap_coll (s : State) (f : Fld) (k : Nat) : (s.wrap f k).coll = s.coll := rfl
@[simp] theorem State.wrap_strm (s : State) (f : Fld) (k : Nat) : (s.wrap f k).strm = s.strm := rfl
@[simp] theorem State.wrap_fab (s : State) (f : Fld) (k : Nat) : (s.wrap f k).fab = s.fab := rfl
@[simp] theorem State.wrap_hier (s : State) (f : Fld) (k : Nat) : (s.wrap f k).hier = s.hier := rfl
@[simp] theorem State.wrap_time (s : State) (f : Fld) (k : Nat) : (s.wrap f k).time = s.time := rfl

/-! ### State.commitReg -/

@[simp] theorem State.commitReg_pending (s : State) (off : Nat) : (s.commitReg off).pending = s.pending := rfl
@[simp] theorem State.commitReg_free (s : State) (off : Nat) : (s.commitReg off).free = s.free := rfl
@[simp] theorem State.commitReg_out (s : State) (off : Nat) : (s.commitReg off).out = s.out := rfl
@[simp] theorem State.commitReg_shadow (s : State) (off : Nat) : (s.commitReg off).shadow = s.shadow := rfl
@[simp] theorem State.commitReg_held (s : State) (off : Nat) : (s.commitReg off).held = s.held := rfl
@[simp] theorem State.commitReg_captured (s : State) (off : Nat) : (s.commitReg off).captured = s.captured := rfl
@[simp] theorem State.commitReg_evt (s : State) (off : Nat) : (s.commitReg off).evt = s.evt := rfl
@[simp] theorem State.commitReg_fuse (s : State) (off : Nat) : (s.commitReg off).fuse = s.fuse := rfl
@[simp] theorem State.commitReg_mram (s : State) (off : Nat) : (s.commitReg off).mram = s.mram := rfl
@[simp] theorem State.commitReg_sag (s : State) (off : Nat) : (s.commitReg off).sag = s.sag := rfl
@[simp] theorem State.commitReg_host (s : State) (off : Nat) : (s.commitReg off).host = s.host := rfl
@[simp] theorem State.commitReg_glb (s : State) (off : Nat) : (s.commitReg off).glb = s.glb := rfl
@[simp] theorem State.commitReg_sites (s : State) (off : Nat) : (s.commitReg off).sites = s.sites := rfl
@[simp] theorem State.commitReg_hbm (s : State) (off : Nat) : (s.commitReg off).hbm = s.hbm := rfl
@[simp] theorem State.commitReg_regul (s : State) (off : Nat) : (s.commitReg off).regul = s.regul := rfl
@[simp] theorem State.commitReg_xlat (s : State) (off : Nat) : (s.commitReg off).xlat = s.xlat := rfl
@[simp] theorem State.commitReg_noc (s : State) (off : Nat) : (s.commitReg off).noc = s.noc := rfl
@[simp] theorem State.commitReg_acc (s : State) (off : Nat) : (s.commitReg off).acc = s.acc := rfl
@[simp] theorem State.commitReg_rings (s : State) (off : Nat) : (s.commitReg off).rings = s.rings := rfl
@[simp] theorem State.commitReg_eng (s : State) (off : Nat) : (s.commitReg off).eng = s.eng := rfl
@[simp] theorem State.commitReg_scr (s : State) (off : Nat) : (s.commitReg off).scr = s.scr := rfl
@[simp] theorem State.commitReg_home (s : State) (off : Nat) : (s.commitReg off).home = s.home := rfl
@[simp] theorem State.commitReg_links (s : State) (off : Nat) : (s.commitReg off).links = s.links := rfl
@[simp] theorem State.commitReg_conns (s : State) (off : Nat) : (s.commitReg off).conns = s.conns := rfl
@[simp] theorem State.commitReg_connShadow (s : State) (off : Nat) : (s.commitReg off).connShadow = s.connShadow := rfl
@[simp] theorem State.commitReg_connSt (s : State) (off : Nat) : (s.commitReg off).connSt = s.connSt := rfl
@[simp] theorem State.commitReg_tiles (s : State) (off : Nat) : (s.commitReg off).tiles = s.tiles := rfl
@[simp] theorem State.commitReg_gens (s : State) (off : Nat) : (s.commitReg off).gens = s.gens := rfl
@[simp] theorem State.commitReg_pwr (s : State) (off : Nat) : (s.commitReg off).pwr = s.pwr := rfl
@[simp] theorem State.commitReg_boot (s : State) (off : Nat) : (s.commitReg off).boot = s.boot := rfl
@[simp] theorem State.commitReg_mgmt (s : State) (off : Nat) : (s.commitReg off).mgmt = s.mgmt := rfl
@[simp] theorem State.commitReg_blanket (s : State) (off : Nat) : (s.commitReg off).blanket = s.blanket := rfl
@[simp] theorem State.commitReg_sec (s : State) (off : Nat) : (s.commitReg off).sec = s.sec := rfl
@[simp] theorem State.commitReg_coll (s : State) (off : Nat) : (s.commitReg off).coll = s.coll := rfl
@[simp] theorem State.commitReg_strm (s : State) (off : Nat) : (s.commitReg off).strm = s.strm := rfl
@[simp] theorem State.commitReg_fab (s : State) (off : Nat) : (s.commitReg off).fab = s.fab := rfl
@[simp] theorem State.commitReg_hier (s : State) (off : Nat) : (s.commitReg off).hier = s.hier := rfl
@[simp] theorem State.commitReg_time (s : State) (off : Nat) : (s.commitReg off).time = s.time := rfl

/-! ### State.commitDone -/

@[simp] theorem State.commitDone_pending (s : State) (off : Nat) : (s.commitDone off).pending = s.pending := rfl
@[simp] theorem State.commitDone_free (s : State) (off : Nat) : (s.commitDone off).free = s.free := rfl
@[simp] theorem State.commitDone_out (s : State) (off : Nat) : (s.commitDone off).out = s.out := rfl
@[simp] theorem State.commitDone_shadow (s : State) (off : Nat) : (s.commitDone off).shadow = s.shadow := rfl
@[simp] theorem State.commitDone_held (s : State) (off : Nat) : (s.commitDone off).held = s.held := rfl
@[simp] theorem State.commitDone_captured (s : State) (off : Nat) : (s.commitDone off).captured = s.captured := rfl
@[simp] theorem State.commitDone_evt (s : State) (off : Nat) : (s.commitDone off).evt = s.evt := rfl
@[simp] theorem State.commitDone_fuse (s : State) (off : Nat) : (s.commitDone off).fuse = s.fuse := rfl
@[simp] theorem State.commitDone_mram (s : State) (off : Nat) : (s.commitDone off).mram = s.mram := rfl
@[simp] theorem State.commitDone_sag (s : State) (off : Nat) : (s.commitDone off).sag = s.sag := rfl
@[simp] theorem State.commitDone_host (s : State) (off : Nat) : (s.commitDone off).host = s.host := rfl
@[simp] theorem State.commitDone_glb (s : State) (off : Nat) : (s.commitDone off).glb = s.glb := rfl
@[simp] theorem State.commitDone_sites (s : State) (off : Nat) : (s.commitDone off).sites = s.sites := rfl
@[simp] theorem State.commitDone_hbm (s : State) (off : Nat) : (s.commitDone off).hbm = s.hbm := rfl
@[simp] theorem State.commitDone_regul (s : State) (off : Nat) : (s.commitDone off).regul = s.regul := rfl
@[simp] theorem State.commitDone_xlat (s : State) (off : Nat) : (s.commitDone off).xlat = s.xlat := rfl
@[simp] theorem State.commitDone_noc (s : State) (off : Nat) : (s.commitDone off).noc = s.noc := rfl
@[simp] theorem State.commitDone_acc (s : State) (off : Nat) : (s.commitDone off).acc = s.acc := rfl
@[simp] theorem State.commitDone_rings (s : State) (off : Nat) : (s.commitDone off).rings = s.rings := rfl
@[simp] theorem State.commitDone_eng (s : State) (off : Nat) : (s.commitDone off).eng = s.eng := rfl
@[simp] theorem State.commitDone_scr (s : State) (off : Nat) : (s.commitDone off).scr = s.scr := rfl
@[simp] theorem State.commitDone_home (s : State) (off : Nat) : (s.commitDone off).home = s.home := rfl
@[simp] theorem State.commitDone_links (s : State) (off : Nat) : (s.commitDone off).links = s.links := rfl
@[simp] theorem State.commitDone_conns (s : State) (off : Nat) : (s.commitDone off).conns = s.conns := rfl
@[simp] theorem State.commitDone_connShadow (s : State) (off : Nat) : (s.commitDone off).connShadow = s.connShadow := rfl
@[simp] theorem State.commitDone_connSt (s : State) (off : Nat) : (s.commitDone off).connSt = s.connSt := rfl
@[simp] theorem State.commitDone_tiles (s : State) (off : Nat) : (s.commitDone off).tiles = s.tiles := rfl
@[simp] theorem State.commitDone_gens (s : State) (off : Nat) : (s.commitDone off).gens = s.gens := rfl
@[simp] theorem State.commitDone_pwr (s : State) (off : Nat) : (s.commitDone off).pwr = s.pwr := rfl
@[simp] theorem State.commitDone_boot (s : State) (off : Nat) : (s.commitDone off).boot = s.boot := rfl
@[simp] theorem State.commitDone_mgmt (s : State) (off : Nat) : (s.commitDone off).mgmt = s.mgmt := rfl
@[simp] theorem State.commitDone_blanket (s : State) (off : Nat) : (s.commitDone off).blanket = s.blanket := rfl
@[simp] theorem State.commitDone_sec (s : State) (off : Nat) : (s.commitDone off).sec = s.sec := rfl
@[simp] theorem State.commitDone_coll (s : State) (off : Nat) : (s.commitDone off).coll = s.coll := rfl
@[simp] theorem State.commitDone_strm (s : State) (off : Nat) : (s.commitDone off).strm = s.strm := rfl
@[simp] theorem State.commitDone_fab (s : State) (off : Nat) : (s.commitDone off).fab = s.fab := rfl
@[simp] theorem State.commitDone_hier (s : State) (off : Nat) : (s.commitDone off).hier = s.hier := rfl
@[simp] theorem State.commitDone_time (s : State) (off : Nat) : (s.commitDone off).time = s.time := rfl

/-! ### State.commitRefused -/

@[simp] theorem State.commitRefused_pending (s : State) (off code : Nat) : (s.commitRefused off code).pending = s.pending := rfl
@[simp] theorem State.commitRefused_free (s : State) (off code : Nat) : (s.commitRefused off code).free = s.free := rfl
@[simp] theorem State.commitRefused_out (s : State) (off code : Nat) : (s.commitRefused off code).out = s.out := rfl
@[simp] theorem State.commitRefused_shadow (s : State) (off code : Nat) : (s.commitRefused off code).shadow = s.shadow := rfl
@[simp] theorem State.commitRefused_held (s : State) (off code : Nat) : (s.commitRefused off code).held = s.held := rfl
@[simp] theorem State.commitRefused_captured (s : State) (off code : Nat) : (s.commitRefused off code).captured = s.captured := rfl
@[simp] theorem State.commitRefused_evt (s : State) (off code : Nat) : (s.commitRefused off code).evt = s.evt := rfl
@[simp] theorem State.commitRefused_fuse (s : State) (off code : Nat) : (s.commitRefused off code).fuse = s.fuse := rfl
@[simp] theorem State.commitRefused_mram (s : State) (off code : Nat) : (s.commitRefused off code).mram = s.mram := rfl
@[simp] theorem State.commitRefused_sag (s : State) (off code : Nat) : (s.commitRefused off code).sag = s.sag := rfl
@[simp] theorem State.commitRefused_host (s : State) (off code : Nat) : (s.commitRefused off code).host = s.host := rfl
@[simp] theorem State.commitRefused_glb (s : State) (off code : Nat) : (s.commitRefused off code).glb = s.glb := rfl
@[simp] theorem State.commitRefused_sites (s : State) (off code : Nat) : (s.commitRefused off code).sites = s.sites := rfl
@[simp] theorem State.commitRefused_hbm (s : State) (off code : Nat) : (s.commitRefused off code).hbm = s.hbm := rfl
@[simp] theorem State.commitRefused_regul (s : State) (off code : Nat) : (s.commitRefused off code).regul = s.regul := rfl
@[simp] theorem State.commitRefused_xlat (s : State) (off code : Nat) : (s.commitRefused off code).xlat = s.xlat := rfl
@[simp] theorem State.commitRefused_noc (s : State) (off code : Nat) : (s.commitRefused off code).noc = s.noc := rfl
@[simp] theorem State.commitRefused_acc (s : State) (off code : Nat) : (s.commitRefused off code).acc = s.acc := rfl
@[simp] theorem State.commitRefused_rings (s : State) (off code : Nat) : (s.commitRefused off code).rings = s.rings := rfl
@[simp] theorem State.commitRefused_eng (s : State) (off code : Nat) : (s.commitRefused off code).eng = s.eng := rfl
@[simp] theorem State.commitRefused_scr (s : State) (off code : Nat) : (s.commitRefused off code).scr = s.scr := rfl
@[simp] theorem State.commitRefused_home (s : State) (off code : Nat) : (s.commitRefused off code).home = s.home := rfl
@[simp] theorem State.commitRefused_links (s : State) (off code : Nat) : (s.commitRefused off code).links = s.links := rfl
@[simp] theorem State.commitRefused_conns (s : State) (off code : Nat) : (s.commitRefused off code).conns = s.conns := rfl
@[simp] theorem State.commitRefused_connShadow (s : State) (off code : Nat) : (s.commitRefused off code).connShadow = s.connShadow := rfl
@[simp] theorem State.commitRefused_connSt (s : State) (off code : Nat) : (s.commitRefused off code).connSt = s.connSt := rfl
@[simp] theorem State.commitRefused_tiles (s : State) (off code : Nat) : (s.commitRefused off code).tiles = s.tiles := rfl
@[simp] theorem State.commitRefused_gens (s : State) (off code : Nat) : (s.commitRefused off code).gens = s.gens := rfl
@[simp] theorem State.commitRefused_pwr (s : State) (off code : Nat) : (s.commitRefused off code).pwr = s.pwr := rfl
@[simp] theorem State.commitRefused_boot (s : State) (off code : Nat) : (s.commitRefused off code).boot = s.boot := rfl
@[simp] theorem State.commitRefused_mgmt (s : State) (off code : Nat) : (s.commitRefused off code).mgmt = s.mgmt := rfl
@[simp] theorem State.commitRefused_blanket (s : State) (off code : Nat) : (s.commitRefused off code).blanket = s.blanket := rfl
@[simp] theorem State.commitRefused_sec (s : State) (off code : Nat) : (s.commitRefused off code).sec = s.sec := rfl
@[simp] theorem State.commitRefused_coll (s : State) (off code : Nat) : (s.commitRefused off code).coll = s.coll := rfl
@[simp] theorem State.commitRefused_strm (s : State) (off code : Nat) : (s.commitRefused off code).strm = s.strm := rfl
@[simp] theorem State.commitRefused_fab (s : State) (off code : Nat) : (s.commitRefused off code).fab = s.fab := rfl
@[simp] theorem State.commitRefused_hier (s : State) (off code : Nat) : (s.commitRefused off code).hier = s.hier := rfl
@[simp] theorem State.commitRefused_time (s : State) (off code : Nat) : (s.commitRefused off code).time = s.time := rfl

/-! ### State.resetRwc -/

@[simp] theorem State.resetRwc_pending (s : State) (off : Nat) : (s.resetRwc off).pending = s.pending := rfl
@[simp] theorem State.resetRwc_free (s : State) (off : Nat) : (s.resetRwc off).free = s.free := rfl
@[simp] theorem State.resetRwc_out (s : State) (off : Nat) : (s.resetRwc off).out = s.out := rfl
@[simp] theorem State.resetRwc_held (s : State) (off : Nat) : (s.resetRwc off).held = s.held := rfl
@[simp] theorem State.resetRwc_captured (s : State) (off : Nat) : (s.resetRwc off).captured = s.captured := rfl
@[simp] theorem State.resetRwc_evt (s : State) (off : Nat) : (s.resetRwc off).evt = s.evt := rfl
@[simp] theorem State.resetRwc_fuse (s : State) (off : Nat) : (s.resetRwc off).fuse = s.fuse := rfl
@[simp] theorem State.resetRwc_mram (s : State) (off : Nat) : (s.resetRwc off).mram = s.mram := rfl
@[simp] theorem State.resetRwc_sag (s : State) (off : Nat) : (s.resetRwc off).sag = s.sag := rfl
@[simp] theorem State.resetRwc_host (s : State) (off : Nat) : (s.resetRwc off).host = s.host := rfl
@[simp] theorem State.resetRwc_glb (s : State) (off : Nat) : (s.resetRwc off).glb = s.glb := rfl
@[simp] theorem State.resetRwc_sites (s : State) (off : Nat) : (s.resetRwc off).sites = s.sites := rfl
@[simp] theorem State.resetRwc_hbm (s : State) (off : Nat) : (s.resetRwc off).hbm = s.hbm := rfl
@[simp] theorem State.resetRwc_regul (s : State) (off : Nat) : (s.resetRwc off).regul = s.regul := rfl
@[simp] theorem State.resetRwc_xlat (s : State) (off : Nat) : (s.resetRwc off).xlat = s.xlat := rfl
@[simp] theorem State.resetRwc_noc (s : State) (off : Nat) : (s.resetRwc off).noc = s.noc := rfl
@[simp] theorem State.resetRwc_acc (s : State) (off : Nat) : (s.resetRwc off).acc = s.acc := rfl
@[simp] theorem State.resetRwc_rings (s : State) (off : Nat) : (s.resetRwc off).rings = s.rings := rfl
@[simp] theorem State.resetRwc_eng (s : State) (off : Nat) : (s.resetRwc off).eng = s.eng := rfl
@[simp] theorem State.resetRwc_scr (s : State) (off : Nat) : (s.resetRwc off).scr = s.scr := rfl
@[simp] theorem State.resetRwc_home (s : State) (off : Nat) : (s.resetRwc off).home = s.home := rfl
@[simp] theorem State.resetRwc_links (s : State) (off : Nat) : (s.resetRwc off).links = s.links := rfl
@[simp] theorem State.resetRwc_conns (s : State) (off : Nat) : (s.resetRwc off).conns = s.conns := rfl
@[simp] theorem State.resetRwc_connShadow (s : State) (off : Nat) : (s.resetRwc off).connShadow = s.connShadow := rfl
@[simp] theorem State.resetRwc_connSt (s : State) (off : Nat) : (s.resetRwc off).connSt = s.connSt := rfl
@[simp] theorem State.resetRwc_tiles (s : State) (off : Nat) : (s.resetRwc off).tiles = s.tiles := rfl
@[simp] theorem State.resetRwc_gens (s : State) (off : Nat) : (s.resetRwc off).gens = s.gens := rfl
@[simp] theorem State.resetRwc_pwr (s : State) (off : Nat) : (s.resetRwc off).pwr = s.pwr := rfl
@[simp] theorem State.resetRwc_boot (s : State) (off : Nat) : (s.resetRwc off).boot = s.boot := rfl
@[simp] theorem State.resetRwc_mgmt (s : State) (off : Nat) : (s.resetRwc off).mgmt = s.mgmt := rfl
@[simp] theorem State.resetRwc_blanket (s : State) (off : Nat) : (s.resetRwc off).blanket = s.blanket := rfl
@[simp] theorem State.resetRwc_sec (s : State) (off : Nat) : (s.resetRwc off).sec = s.sec := rfl
@[simp] theorem State.resetRwc_coll (s : State) (off : Nat) : (s.resetRwc off).coll = s.coll := rfl
@[simp] theorem State.resetRwc_strm (s : State) (off : Nat) : (s.resetRwc off).strm = s.strm := rfl
@[simp] theorem State.resetRwc_fab (s : State) (off : Nat) : (s.resetRwc off).fab = s.fab := rfl
@[simp] theorem State.resetRwc_hier (s : State) (off : Nat) : (s.resetRwc off).hier = s.hier := rfl
@[simp] theorem State.resetRwc_time (s : State) (off : Nat) : (s.resetRwc off).time = s.time := rfl

/-! ### State.setRing -/

@[simp] theorem State.setRing_pending (s : State) (r : Nat) (g : RingSt) : (s.setRing r g).pending = s.pending := rfl
@[simp] theorem State.setRing_free (s : State) (r : Nat) (g : RingSt) : (s.setRing r g).free = s.free := rfl
@[simp] theorem State.setRing_out (s : State) (r : Nat) (g : RingSt) : (s.setRing r g).out = s.out := rfl
@[simp] theorem State.setRing_regs (s : State) (r : Nat) (g : RingSt) : (s.setRing r g).regs = s.regs := rfl
@[simp] theorem State.setRing_shadow (s : State) (r : Nat) (g : RingSt) : (s.setRing r g).shadow = s.shadow := rfl
@[simp] theorem State.setRing_held (s : State) (r : Nat) (g : RingSt) : (s.setRing r g).held = s.held := rfl
@[simp] theorem State.setRing_captured (s : State) (r : Nat) (g : RingSt) : (s.setRing r g).captured = s.captured := rfl
@[simp] theorem State.setRing_evt (s : State) (r : Nat) (g : RingSt) : (s.setRing r g).evt = s.evt := rfl
@[simp] theorem State.setRing_fuse (s : State) (r : Nat) (g : RingSt) : (s.setRing r g).fuse = s.fuse := rfl
@[simp] theorem State.setRing_mram (s : State) (r : Nat) (g : RingSt) : (s.setRing r g).mram = s.mram := rfl
@[simp] theorem State.setRing_sag (s : State) (r : Nat) (g : RingSt) : (s.setRing r g).sag = s.sag := rfl
@[simp] theorem State.setRing_host (s : State) (r : Nat) (g : RingSt) : (s.setRing r g).host = s.host := rfl
@[simp] theorem State.setRing_glb (s : State) (r : Nat) (g : RingSt) : (s.setRing r g).glb = s.glb := rfl
@[simp] theorem State.setRing_sites (s : State) (r : Nat) (g : RingSt) : (s.setRing r g).sites = s.sites := rfl
@[simp] theorem State.setRing_hbm (s : State) (r : Nat) (g : RingSt) : (s.setRing r g).hbm = s.hbm := rfl
@[simp] theorem State.setRing_regul (s : State) (r : Nat) (g : RingSt) : (s.setRing r g).regul = s.regul := rfl
@[simp] theorem State.setRing_xlat (s : State) (r : Nat) (g : RingSt) : (s.setRing r g).xlat = s.xlat := rfl
@[simp] theorem State.setRing_noc (s : State) (r : Nat) (g : RingSt) : (s.setRing r g).noc = s.noc := rfl
@[simp] theorem State.setRing_acc (s : State) (r : Nat) (g : RingSt) : (s.setRing r g).acc = s.acc := rfl
@[simp] theorem State.setRing_eng (s : State) (r : Nat) (g : RingSt) : (s.setRing r g).eng = s.eng := rfl
@[simp] theorem State.setRing_scr (s : State) (r : Nat) (g : RingSt) : (s.setRing r g).scr = s.scr := rfl
@[simp] theorem State.setRing_home (s : State) (r : Nat) (g : RingSt) : (s.setRing r g).home = s.home := rfl
@[simp] theorem State.setRing_links (s : State) (r : Nat) (g : RingSt) : (s.setRing r g).links = s.links := rfl
@[simp] theorem State.setRing_conns (s : State) (r : Nat) (g : RingSt) : (s.setRing r g).conns = s.conns := rfl
@[simp] theorem State.setRing_connShadow (s : State) (r : Nat) (g : RingSt) : (s.setRing r g).connShadow = s.connShadow := rfl
@[simp] theorem State.setRing_connSt (s : State) (r : Nat) (g : RingSt) : (s.setRing r g).connSt = s.connSt := rfl
@[simp] theorem State.setRing_tiles (s : State) (r : Nat) (g : RingSt) : (s.setRing r g).tiles = s.tiles := rfl
@[simp] theorem State.setRing_gens (s : State) (r : Nat) (g : RingSt) : (s.setRing r g).gens = s.gens := rfl
@[simp] theorem State.setRing_pwr (s : State) (r : Nat) (g : RingSt) : (s.setRing r g).pwr = s.pwr := rfl
@[simp] theorem State.setRing_boot (s : State) (r : Nat) (g : RingSt) : (s.setRing r g).boot = s.boot := rfl
@[simp] theorem State.setRing_mgmt (s : State) (r : Nat) (g : RingSt) : (s.setRing r g).mgmt = s.mgmt := rfl
@[simp] theorem State.setRing_blanket (s : State) (r : Nat) (g : RingSt) : (s.setRing r g).blanket = s.blanket := rfl
@[simp] theorem State.setRing_sec (s : State) (r : Nat) (g : RingSt) : (s.setRing r g).sec = s.sec := rfl
@[simp] theorem State.setRing_coll (s : State) (r : Nat) (g : RingSt) : (s.setRing r g).coll = s.coll := rfl
@[simp] theorem State.setRing_strm (s : State) (r : Nat) (g : RingSt) : (s.setRing r g).strm = s.strm := rfl
@[simp] theorem State.setRing_fab (s : State) (r : Nat) (g : RingSt) : (s.setRing r g).fab = s.fab := rfl
@[simp] theorem State.setRing_hier (s : State) (r : Nat) (g : RingSt) : (s.setRing r g).hier = s.hier := rfl
@[simp] theorem State.setRing_time (s : State) (r : Nat) (g : RingSt) : (s.setRing r g).time = s.time := rfl

/-! ### State.setSite -/

@[simp] theorem State.setSite_pending (s : State) (n : Nat) (x : SiteSt) : (s.setSite n x).pending = s.pending := rfl
@[simp] theorem State.setSite_free (s : State) (n : Nat) (x : SiteSt) : (s.setSite n x).free = s.free := rfl
@[simp] theorem State.setSite_out (s : State) (n : Nat) (x : SiteSt) : (s.setSite n x).out = s.out := rfl
@[simp] theorem State.setSite_regs (s : State) (n : Nat) (x : SiteSt) : (s.setSite n x).regs = s.regs := rfl
@[simp] theorem State.setSite_shadow (s : State) (n : Nat) (x : SiteSt) : (s.setSite n x).shadow = s.shadow := rfl
@[simp] theorem State.setSite_held (s : State) (n : Nat) (x : SiteSt) : (s.setSite n x).held = s.held := rfl
@[simp] theorem State.setSite_captured (s : State) (n : Nat) (x : SiteSt) : (s.setSite n x).captured = s.captured := rfl
@[simp] theorem State.setSite_evt (s : State) (n : Nat) (x : SiteSt) : (s.setSite n x).evt = s.evt := rfl
@[simp] theorem State.setSite_fuse (s : State) (n : Nat) (x : SiteSt) : (s.setSite n x).fuse = s.fuse := rfl
@[simp] theorem State.setSite_mram (s : State) (n : Nat) (x : SiteSt) : (s.setSite n x).mram = s.mram := rfl
@[simp] theorem State.setSite_sag (s : State) (n : Nat) (x : SiteSt) : (s.setSite n x).sag = s.sag := rfl
@[simp] theorem State.setSite_host (s : State) (n : Nat) (x : SiteSt) : (s.setSite n x).host = s.host := rfl
@[simp] theorem State.setSite_glb (s : State) (n : Nat) (x : SiteSt) : (s.setSite n x).glb = s.glb := rfl
@[simp] theorem State.setSite_hbm (s : State) (n : Nat) (x : SiteSt) : (s.setSite n x).hbm = s.hbm := rfl
@[simp] theorem State.setSite_regul (s : State) (n : Nat) (x : SiteSt) : (s.setSite n x).regul = s.regul := rfl
@[simp] theorem State.setSite_xlat (s : State) (n : Nat) (x : SiteSt) : (s.setSite n x).xlat = s.xlat := rfl
@[simp] theorem State.setSite_noc (s : State) (n : Nat) (x : SiteSt) : (s.setSite n x).noc = s.noc := rfl
@[simp] theorem State.setSite_acc (s : State) (n : Nat) (x : SiteSt) : (s.setSite n x).acc = s.acc := rfl
@[simp] theorem State.setSite_rings (s : State) (n : Nat) (x : SiteSt) : (s.setSite n x).rings = s.rings := rfl
@[simp] theorem State.setSite_eng (s : State) (n : Nat) (x : SiteSt) : (s.setSite n x).eng = s.eng := rfl
@[simp] theorem State.setSite_scr (s : State) (n : Nat) (x : SiteSt) : (s.setSite n x).scr = s.scr := rfl
@[simp] theorem State.setSite_home (s : State) (n : Nat) (x : SiteSt) : (s.setSite n x).home = s.home := rfl
@[simp] theorem State.setSite_links (s : State) (n : Nat) (x : SiteSt) : (s.setSite n x).links = s.links := rfl
@[simp] theorem State.setSite_conns (s : State) (n : Nat) (x : SiteSt) : (s.setSite n x).conns = s.conns := rfl
@[simp] theorem State.setSite_connShadow (s : State) (n : Nat) (x : SiteSt) : (s.setSite n x).connShadow = s.connShadow := rfl
@[simp] theorem State.setSite_connSt (s : State) (n : Nat) (x : SiteSt) : (s.setSite n x).connSt = s.connSt := rfl
@[simp] theorem State.setSite_tiles (s : State) (n : Nat) (x : SiteSt) : (s.setSite n x).tiles = s.tiles := rfl
@[simp] theorem State.setSite_gens (s : State) (n : Nat) (x : SiteSt) : (s.setSite n x).gens = s.gens := rfl
@[simp] theorem State.setSite_pwr (s : State) (n : Nat) (x : SiteSt) : (s.setSite n x).pwr = s.pwr := rfl
@[simp] theorem State.setSite_boot (s : State) (n : Nat) (x : SiteSt) : (s.setSite n x).boot = s.boot := rfl
@[simp] theorem State.setSite_mgmt (s : State) (n : Nat) (x : SiteSt) : (s.setSite n x).mgmt = s.mgmt := rfl
@[simp] theorem State.setSite_blanket (s : State) (n : Nat) (x : SiteSt) : (s.setSite n x).blanket = s.blanket := rfl
@[simp] theorem State.setSite_sec (s : State) (n : Nat) (x : SiteSt) : (s.setSite n x).sec = s.sec := rfl
@[simp] theorem State.setSite_coll (s : State) (n : Nat) (x : SiteSt) : (s.setSite n x).coll = s.coll := rfl
@[simp] theorem State.setSite_strm (s : State) (n : Nat) (x : SiteSt) : (s.setSite n x).strm = s.strm := rfl
@[simp] theorem State.setSite_fab (s : State) (n : Nat) (x : SiteSt) : (s.setSite n x).fab = s.fab := rfl
@[simp] theorem State.setSite_hier (s : State) (n : Nat) (x : SiteSt) : (s.setSite n x).hier = s.hier := rfl
@[simp] theorem State.setSite_time (s : State) (n : Nat) (x : SiteSt) : (s.setSite n x).time = s.time := rfl

/-! ### State.setTile -/

@[simp] theorem State.setTile_pending (s : State) (t : Nat) (x : TileSt) : (s.setTile t x).pending = s.pending := rfl
@[simp] theorem State.setTile_free (s : State) (t : Nat) (x : TileSt) : (s.setTile t x).free = s.free := rfl
@[simp] theorem State.setTile_out (s : State) (t : Nat) (x : TileSt) : (s.setTile t x).out = s.out := rfl
@[simp] theorem State.setTile_regs (s : State) (t : Nat) (x : TileSt) : (s.setTile t x).regs = s.regs := rfl
@[simp] theorem State.setTile_shadow (s : State) (t : Nat) (x : TileSt) : (s.setTile t x).shadow = s.shadow := rfl
@[simp] theorem State.setTile_held (s : State) (t : Nat) (x : TileSt) : (s.setTile t x).held = s.held := rfl
@[simp] theorem State.setTile_captured (s : State) (t : Nat) (x : TileSt) : (s.setTile t x).captured = s.captured := rfl
@[simp] theorem State.setTile_evt (s : State) (t : Nat) (x : TileSt) : (s.setTile t x).evt = s.evt := rfl
@[simp] theorem State.setTile_fuse (s : State) (t : Nat) (x : TileSt) : (s.setTile t x).fuse = s.fuse := rfl
@[simp] theorem State.setTile_mram (s : State) (t : Nat) (x : TileSt) : (s.setTile t x).mram = s.mram := rfl
@[simp] theorem State.setTile_sag (s : State) (t : Nat) (x : TileSt) : (s.setTile t x).sag = s.sag := rfl
@[simp] theorem State.setTile_host (s : State) (t : Nat) (x : TileSt) : (s.setTile t x).host = s.host := rfl
@[simp] theorem State.setTile_glb (s : State) (t : Nat) (x : TileSt) : (s.setTile t x).glb = s.glb := rfl
@[simp] theorem State.setTile_sites (s : State) (t : Nat) (x : TileSt) : (s.setTile t x).sites = s.sites := rfl
@[simp] theorem State.setTile_hbm (s : State) (t : Nat) (x : TileSt) : (s.setTile t x).hbm = s.hbm := rfl
@[simp] theorem State.setTile_regul (s : State) (t : Nat) (x : TileSt) : (s.setTile t x).regul = s.regul := rfl
@[simp] theorem State.setTile_xlat (s : State) (t : Nat) (x : TileSt) : (s.setTile t x).xlat = s.xlat := rfl
@[simp] theorem State.setTile_noc (s : State) (t : Nat) (x : TileSt) : (s.setTile t x).noc = s.noc := rfl
@[simp] theorem State.setTile_acc (s : State) (t : Nat) (x : TileSt) : (s.setTile t x).acc = s.acc := rfl
@[simp] theorem State.setTile_rings (s : State) (t : Nat) (x : TileSt) : (s.setTile t x).rings = s.rings := rfl
@[simp] theorem State.setTile_eng (s : State) (t : Nat) (x : TileSt) : (s.setTile t x).eng = s.eng := rfl
@[simp] theorem State.setTile_scr (s : State) (t : Nat) (x : TileSt) : (s.setTile t x).scr = s.scr := rfl
@[simp] theorem State.setTile_home (s : State) (t : Nat) (x : TileSt) : (s.setTile t x).home = s.home := rfl
@[simp] theorem State.setTile_links (s : State) (t : Nat) (x : TileSt) : (s.setTile t x).links = s.links := rfl
@[simp] theorem State.setTile_conns (s : State) (t : Nat) (x : TileSt) : (s.setTile t x).conns = s.conns := rfl
@[simp] theorem State.setTile_connShadow (s : State) (t : Nat) (x : TileSt) : (s.setTile t x).connShadow = s.connShadow := rfl
@[simp] theorem State.setTile_connSt (s : State) (t : Nat) (x : TileSt) : (s.setTile t x).connSt = s.connSt := rfl
@[simp] theorem State.setTile_gens (s : State) (t : Nat) (x : TileSt) : (s.setTile t x).gens = s.gens := rfl
@[simp] theorem State.setTile_pwr (s : State) (t : Nat) (x : TileSt) : (s.setTile t x).pwr = s.pwr := rfl
@[simp] theorem State.setTile_boot (s : State) (t : Nat) (x : TileSt) : (s.setTile t x).boot = s.boot := rfl
@[simp] theorem State.setTile_mgmt (s : State) (t : Nat) (x : TileSt) : (s.setTile t x).mgmt = s.mgmt := rfl
@[simp] theorem State.setTile_blanket (s : State) (t : Nat) (x : TileSt) : (s.setTile t x).blanket = s.blanket := rfl
@[simp] theorem State.setTile_sec (s : State) (t : Nat) (x : TileSt) : (s.setTile t x).sec = s.sec := rfl
@[simp] theorem State.setTile_coll (s : State) (t : Nat) (x : TileSt) : (s.setTile t x).coll = s.coll := rfl
@[simp] theorem State.setTile_strm (s : State) (t : Nat) (x : TileSt) : (s.setTile t x).strm = s.strm := rfl
@[simp] theorem State.setTile_fab (s : State) (t : Nat) (x : TileSt) : (s.setTile t x).fab = s.fab := rfl
@[simp] theorem State.setTile_hier (s : State) (t : Nat) (x : TileSt) : (s.setTile t x).hier = s.hier := rfl
@[simp] theorem State.setTile_time (s : State) (t : Nat) (x : TileSt) : (s.setTile t x).time = s.time := rfl

/-! ### State.setSlot -/

@[simp] theorem State.setSlot_pending (s : State) (p : Nat) (x : SlotSt) : (s.setSlot p x).pending = s.pending := rfl
@[simp] theorem State.setSlot_free (s : State) (p : Nat) (x : SlotSt) : (s.setSlot p x).free = s.free := rfl
@[simp] theorem State.setSlot_out (s : State) (p : Nat) (x : SlotSt) : (s.setSlot p x).out = s.out := rfl
@[simp] theorem State.setSlot_regs (s : State) (p : Nat) (x : SlotSt) : (s.setSlot p x).regs = s.regs := rfl
@[simp] theorem State.setSlot_shadow (s : State) (p : Nat) (x : SlotSt) : (s.setSlot p x).shadow = s.shadow := rfl
@[simp] theorem State.setSlot_held (s : State) (p : Nat) (x : SlotSt) : (s.setSlot p x).held = s.held := rfl
@[simp] theorem State.setSlot_captured (s : State) (p : Nat) (x : SlotSt) : (s.setSlot p x).captured = s.captured := rfl
@[simp] theorem State.setSlot_evt (s : State) (p : Nat) (x : SlotSt) : (s.setSlot p x).evt = s.evt := rfl
@[simp] theorem State.setSlot_fuse (s : State) (p : Nat) (x : SlotSt) : (s.setSlot p x).fuse = s.fuse := rfl
@[simp] theorem State.setSlot_mram (s : State) (p : Nat) (x : SlotSt) : (s.setSlot p x).mram = s.mram := rfl
@[simp] theorem State.setSlot_sag (s : State) (p : Nat) (x : SlotSt) : (s.setSlot p x).sag = s.sag := rfl
@[simp] theorem State.setSlot_host (s : State) (p : Nat) (x : SlotSt) : (s.setSlot p x).host = s.host := rfl
@[simp] theorem State.setSlot_glb (s : State) (p : Nat) (x : SlotSt) : (s.setSlot p x).glb = s.glb := rfl
@[simp] theorem State.setSlot_sites (s : State) (p : Nat) (x : SlotSt) : (s.setSlot p x).sites = s.sites := rfl
@[simp] theorem State.setSlot_hbm (s : State) (p : Nat) (x : SlotSt) : (s.setSlot p x).hbm = s.hbm := rfl
@[simp] theorem State.setSlot_regul (s : State) (p : Nat) (x : SlotSt) : (s.setSlot p x).regul = s.regul := rfl
@[simp] theorem State.setSlot_xlat (s : State) (p : Nat) (x : SlotSt) : (s.setSlot p x).xlat = s.xlat := rfl
@[simp] theorem State.setSlot_noc (s : State) (p : Nat) (x : SlotSt) : (s.setSlot p x).noc = s.noc := rfl
@[simp] theorem State.setSlot_acc (s : State) (p : Nat) (x : SlotSt) : (s.setSlot p x).acc = s.acc := rfl
@[simp] theorem State.setSlot_rings (s : State) (p : Nat) (x : SlotSt) : (s.setSlot p x).rings = s.rings := rfl
@[simp] theorem State.setSlot_eng (s : State) (p : Nat) (x : SlotSt) : (s.setSlot p x).eng = s.eng := rfl
@[simp] theorem State.setSlot_home (s : State) (p : Nat) (x : SlotSt) : (s.setSlot p x).home = s.home := rfl
@[simp] theorem State.setSlot_links (s : State) (p : Nat) (x : SlotSt) : (s.setSlot p x).links = s.links := rfl
@[simp] theorem State.setSlot_conns (s : State) (p : Nat) (x : SlotSt) : (s.setSlot p x).conns = s.conns := rfl
@[simp] theorem State.setSlot_connShadow (s : State) (p : Nat) (x : SlotSt) : (s.setSlot p x).connShadow = s.connShadow := rfl
@[simp] theorem State.setSlot_connSt (s : State) (p : Nat) (x : SlotSt) : (s.setSlot p x).connSt = s.connSt := rfl
@[simp] theorem State.setSlot_tiles (s : State) (p : Nat) (x : SlotSt) : (s.setSlot p x).tiles = s.tiles := rfl
@[simp] theorem State.setSlot_gens (s : State) (p : Nat) (x : SlotSt) : (s.setSlot p x).gens = s.gens := rfl
@[simp] theorem State.setSlot_pwr (s : State) (p : Nat) (x : SlotSt) : (s.setSlot p x).pwr = s.pwr := rfl
@[simp] theorem State.setSlot_boot (s : State) (p : Nat) (x : SlotSt) : (s.setSlot p x).boot = s.boot := rfl
@[simp] theorem State.setSlot_mgmt (s : State) (p : Nat) (x : SlotSt) : (s.setSlot p x).mgmt = s.mgmt := rfl
@[simp] theorem State.setSlot_blanket (s : State) (p : Nat) (x : SlotSt) : (s.setSlot p x).blanket = s.blanket := rfl
@[simp] theorem State.setSlot_sec (s : State) (p : Nat) (x : SlotSt) : (s.setSlot p x).sec = s.sec := rfl
@[simp] theorem State.setSlot_coll (s : State) (p : Nat) (x : SlotSt) : (s.setSlot p x).coll = s.coll := rfl
@[simp] theorem State.setSlot_strm (s : State) (p : Nat) (x : SlotSt) : (s.setSlot p x).strm = s.strm := rfl
@[simp] theorem State.setSlot_fab (s : State) (p : Nat) (x : SlotSt) : (s.setSlot p x).fab = s.fab := rfl
@[simp] theorem State.setSlot_hier (s : State) (p : Nat) (x : SlotSt) : (s.setSlot p x).hier = s.hier := rfl
@[simp] theorem State.setSlot_time (s : State) (p : Nat) (x : SlotSt) : (s.setSlot p x).time = s.time := rfl

/-! ### State.setLink -/

@[simp] theorem State.setLink_pending (s : State) (n : Nat) (x : LinkSt) : (s.setLink n x).pending = s.pending := rfl
@[simp] theorem State.setLink_free (s : State) (n : Nat) (x : LinkSt) : (s.setLink n x).free = s.free := rfl
@[simp] theorem State.setLink_out (s : State) (n : Nat) (x : LinkSt) : (s.setLink n x).out = s.out := rfl
@[simp] theorem State.setLink_regs (s : State) (n : Nat) (x : LinkSt) : (s.setLink n x).regs = s.regs := rfl
@[simp] theorem State.setLink_shadow (s : State) (n : Nat) (x : LinkSt) : (s.setLink n x).shadow = s.shadow := rfl
@[simp] theorem State.setLink_held (s : State) (n : Nat) (x : LinkSt) : (s.setLink n x).held = s.held := rfl
@[simp] theorem State.setLink_captured (s : State) (n : Nat) (x : LinkSt) : (s.setLink n x).captured = s.captured := rfl
@[simp] theorem State.setLink_evt (s : State) (n : Nat) (x : LinkSt) : (s.setLink n x).evt = s.evt := rfl
@[simp] theorem State.setLink_fuse (s : State) (n : Nat) (x : LinkSt) : (s.setLink n x).fuse = s.fuse := rfl
@[simp] theorem State.setLink_mram (s : State) (n : Nat) (x : LinkSt) : (s.setLink n x).mram = s.mram := rfl
@[simp] theorem State.setLink_sag (s : State) (n : Nat) (x : LinkSt) : (s.setLink n x).sag = s.sag := rfl
@[simp] theorem State.setLink_host (s : State) (n : Nat) (x : LinkSt) : (s.setLink n x).host = s.host := rfl
@[simp] theorem State.setLink_glb (s : State) (n : Nat) (x : LinkSt) : (s.setLink n x).glb = s.glb := rfl
@[simp] theorem State.setLink_sites (s : State) (n : Nat) (x : LinkSt) : (s.setLink n x).sites = s.sites := rfl
@[simp] theorem State.setLink_hbm (s : State) (n : Nat) (x : LinkSt) : (s.setLink n x).hbm = s.hbm := rfl
@[simp] theorem State.setLink_regul (s : State) (n : Nat) (x : LinkSt) : (s.setLink n x).regul = s.regul := rfl
@[simp] theorem State.setLink_xlat (s : State) (n : Nat) (x : LinkSt) : (s.setLink n x).xlat = s.xlat := rfl
@[simp] theorem State.setLink_noc (s : State) (n : Nat) (x : LinkSt) : (s.setLink n x).noc = s.noc := rfl
@[simp] theorem State.setLink_acc (s : State) (n : Nat) (x : LinkSt) : (s.setLink n x).acc = s.acc := rfl
@[simp] theorem State.setLink_rings (s : State) (n : Nat) (x : LinkSt) : (s.setLink n x).rings = s.rings := rfl
@[simp] theorem State.setLink_eng (s : State) (n : Nat) (x : LinkSt) : (s.setLink n x).eng = s.eng := rfl
@[simp] theorem State.setLink_scr (s : State) (n : Nat) (x : LinkSt) : (s.setLink n x).scr = s.scr := rfl
@[simp] theorem State.setLink_home (s : State) (n : Nat) (x : LinkSt) : (s.setLink n x).home = s.home := rfl
@[simp] theorem State.setLink_conns (s : State) (n : Nat) (x : LinkSt) : (s.setLink n x).conns = s.conns := rfl
@[simp] theorem State.setLink_connShadow (s : State) (n : Nat) (x : LinkSt) : (s.setLink n x).connShadow = s.connShadow := rfl
@[simp] theorem State.setLink_connSt (s : State) (n : Nat) (x : LinkSt) : (s.setLink n x).connSt = s.connSt := rfl
@[simp] theorem State.setLink_tiles (s : State) (n : Nat) (x : LinkSt) : (s.setLink n x).tiles = s.tiles := rfl
@[simp] theorem State.setLink_gens (s : State) (n : Nat) (x : LinkSt) : (s.setLink n x).gens = s.gens := rfl
@[simp] theorem State.setLink_pwr (s : State) (n : Nat) (x : LinkSt) : (s.setLink n x).pwr = s.pwr := rfl
@[simp] theorem State.setLink_boot (s : State) (n : Nat) (x : LinkSt) : (s.setLink n x).boot = s.boot := rfl
@[simp] theorem State.setLink_mgmt (s : State) (n : Nat) (x : LinkSt) : (s.setLink n x).mgmt = s.mgmt := rfl
@[simp] theorem State.setLink_blanket (s : State) (n : Nat) (x : LinkSt) : (s.setLink n x).blanket = s.blanket := rfl
@[simp] theorem State.setLink_sec (s : State) (n : Nat) (x : LinkSt) : (s.setLink n x).sec = s.sec := rfl
@[simp] theorem State.setLink_coll (s : State) (n : Nat) (x : LinkSt) : (s.setLink n x).coll = s.coll := rfl
@[simp] theorem State.setLink_strm (s : State) (n : Nat) (x : LinkSt) : (s.setLink n x).strm = s.strm := rfl
@[simp] theorem State.setLink_fab (s : State) (n : Nat) (x : LinkSt) : (s.setLink n x).fab = s.fab := rfl
@[simp] theorem State.setLink_hier (s : State) (n : Nat) (x : LinkSt) : (s.setLink n x).hier = s.hier := rfl
@[simp] theorem State.setLink_time (s : State) (n : Nat) (x : LinkSt) : (s.setLink n x).time = s.time := rfl

/-! ### State.setModule -/

@[simp] theorem State.setModule_pending (s : State) (n m : Nat) (x : ModSt) : (s.setModule n m x).pending = s.pending := rfl
@[simp] theorem State.setModule_free (s : State) (n m : Nat) (x : ModSt) : (s.setModule n m x).free = s.free := rfl
@[simp] theorem State.setModule_out (s : State) (n m : Nat) (x : ModSt) : (s.setModule n m x).out = s.out := rfl
@[simp] theorem State.setModule_regs (s : State) (n m : Nat) (x : ModSt) : (s.setModule n m x).regs = s.regs := rfl
@[simp] theorem State.setModule_shadow (s : State) (n m : Nat) (x : ModSt) : (s.setModule n m x).shadow = s.shadow := rfl
@[simp] theorem State.setModule_held (s : State) (n m : Nat) (x : ModSt) : (s.setModule n m x).held = s.held := rfl
@[simp] theorem State.setModule_captured (s : State) (n m : Nat) (x : ModSt) : (s.setModule n m x).captured = s.captured := rfl
@[simp] theorem State.setModule_evt (s : State) (n m : Nat) (x : ModSt) : (s.setModule n m x).evt = s.evt := rfl
@[simp] theorem State.setModule_fuse (s : State) (n m : Nat) (x : ModSt) : (s.setModule n m x).fuse = s.fuse := rfl
@[simp] theorem State.setModule_mram (s : State) (n m : Nat) (x : ModSt) : (s.setModule n m x).mram = s.mram := rfl
@[simp] theorem State.setModule_sag (s : State) (n m : Nat) (x : ModSt) : (s.setModule n m x).sag = s.sag := rfl
@[simp] theorem State.setModule_host (s : State) (n m : Nat) (x : ModSt) : (s.setModule n m x).host = s.host := rfl
@[simp] theorem State.setModule_glb (s : State) (n m : Nat) (x : ModSt) : (s.setModule n m x).glb = s.glb := rfl
@[simp] theorem State.setModule_sites (s : State) (n m : Nat) (x : ModSt) : (s.setModule n m x).sites = s.sites := rfl
@[simp] theorem State.setModule_hbm (s : State) (n m : Nat) (x : ModSt) : (s.setModule n m x).hbm = s.hbm := rfl
@[simp] theorem State.setModule_regul (s : State) (n m : Nat) (x : ModSt) : (s.setModule n m x).regul = s.regul := rfl
@[simp] theorem State.setModule_xlat (s : State) (n m : Nat) (x : ModSt) : (s.setModule n m x).xlat = s.xlat := rfl
@[simp] theorem State.setModule_noc (s : State) (n m : Nat) (x : ModSt) : (s.setModule n m x).noc = s.noc := rfl
@[simp] theorem State.setModule_acc (s : State) (n m : Nat) (x : ModSt) : (s.setModule n m x).acc = s.acc := rfl
@[simp] theorem State.setModule_rings (s : State) (n m : Nat) (x : ModSt) : (s.setModule n m x).rings = s.rings := rfl
@[simp] theorem State.setModule_eng (s : State) (n m : Nat) (x : ModSt) : (s.setModule n m x).eng = s.eng := rfl
@[simp] theorem State.setModule_scr (s : State) (n m : Nat) (x : ModSt) : (s.setModule n m x).scr = s.scr := rfl
@[simp] theorem State.setModule_home (s : State) (n m : Nat) (x : ModSt) : (s.setModule n m x).home = s.home := rfl
@[simp] theorem State.setModule_conns (s : State) (n m : Nat) (x : ModSt) : (s.setModule n m x).conns = s.conns := rfl
@[simp] theorem State.setModule_connShadow (s : State) (n m : Nat) (x : ModSt) : (s.setModule n m x).connShadow = s.connShadow := rfl
@[simp] theorem State.setModule_connSt (s : State) (n m : Nat) (x : ModSt) : (s.setModule n m x).connSt = s.connSt := rfl
@[simp] theorem State.setModule_tiles (s : State) (n m : Nat) (x : ModSt) : (s.setModule n m x).tiles = s.tiles := rfl
@[simp] theorem State.setModule_gens (s : State) (n m : Nat) (x : ModSt) : (s.setModule n m x).gens = s.gens := rfl
@[simp] theorem State.setModule_pwr (s : State) (n m : Nat) (x : ModSt) : (s.setModule n m x).pwr = s.pwr := rfl
@[simp] theorem State.setModule_boot (s : State) (n m : Nat) (x : ModSt) : (s.setModule n m x).boot = s.boot := rfl
@[simp] theorem State.setModule_mgmt (s : State) (n m : Nat) (x : ModSt) : (s.setModule n m x).mgmt = s.mgmt := rfl
@[simp] theorem State.setModule_blanket (s : State) (n m : Nat) (x : ModSt) : (s.setModule n m x).blanket = s.blanket := rfl
@[simp] theorem State.setModule_sec (s : State) (n m : Nat) (x : ModSt) : (s.setModule n m x).sec = s.sec := rfl
@[simp] theorem State.setModule_coll (s : State) (n m : Nat) (x : ModSt) : (s.setModule n m x).coll = s.coll := rfl
@[simp] theorem State.setModule_strm (s : State) (n m : Nat) (x : ModSt) : (s.setModule n m x).strm = s.strm := rfl
@[simp] theorem State.setModule_fab (s : State) (n m : Nat) (x : ModSt) : (s.setModule n m x).fab = s.fab := rfl
@[simp] theorem State.setModule_hier (s : State) (n m : Nat) (x : ModSt) : (s.setModule n m x).hier = s.hier := rfl
@[simp] theorem State.setModule_time (s : State) (n m : Nat) (x : ModSt) : (s.setModule n m x).time = s.time := rfl

/-! ### State.setOwn -/

@[simp] theorem State.setOwn_pending (s : State) (g : Nat) (e : OwnEntry) : (s.setOwn g e).pending = s.pending := rfl
@[simp] theorem State.setOwn_free (s : State) (g : Nat) (e : OwnEntry) : (s.setOwn g e).free = s.free := rfl
@[simp] theorem State.setOwn_out (s : State) (g : Nat) (e : OwnEntry) : (s.setOwn g e).out = s.out := rfl
@[simp] theorem State.setOwn_regs (s : State) (g : Nat) (e : OwnEntry) : (s.setOwn g e).regs = s.regs := rfl
@[simp] theorem State.setOwn_shadow (s : State) (g : Nat) (e : OwnEntry) : (s.setOwn g e).shadow = s.shadow := rfl
@[simp] theorem State.setOwn_held (s : State) (g : Nat) (e : OwnEntry) : (s.setOwn g e).held = s.held := rfl
@[simp] theorem State.setOwn_captured (s : State) (g : Nat) (e : OwnEntry) : (s.setOwn g e).captured = s.captured := rfl
@[simp] theorem State.setOwn_evt (s : State) (g : Nat) (e : OwnEntry) : (s.setOwn g e).evt = s.evt := rfl
@[simp] theorem State.setOwn_fuse (s : State) (g : Nat) (e : OwnEntry) : (s.setOwn g e).fuse = s.fuse := rfl
@[simp] theorem State.setOwn_mram (s : State) (g : Nat) (e : OwnEntry) : (s.setOwn g e).mram = s.mram := rfl
@[simp] theorem State.setOwn_sag (s : State) (g : Nat) (e : OwnEntry) : (s.setOwn g e).sag = s.sag := rfl
@[simp] theorem State.setOwn_host (s : State) (g : Nat) (e : OwnEntry) : (s.setOwn g e).host = s.host := rfl
@[simp] theorem State.setOwn_glb (s : State) (g : Nat) (e : OwnEntry) : (s.setOwn g e).glb = s.glb := rfl
@[simp] theorem State.setOwn_sites (s : State) (g : Nat) (e : OwnEntry) : (s.setOwn g e).sites = s.sites := rfl
@[simp] theorem State.setOwn_regul (s : State) (g : Nat) (e : OwnEntry) : (s.setOwn g e).regul = s.regul := rfl
@[simp] theorem State.setOwn_xlat (s : State) (g : Nat) (e : OwnEntry) : (s.setOwn g e).xlat = s.xlat := rfl
@[simp] theorem State.setOwn_noc (s : State) (g : Nat) (e : OwnEntry) : (s.setOwn g e).noc = s.noc := rfl
@[simp] theorem State.setOwn_acc (s : State) (g : Nat) (e : OwnEntry) : (s.setOwn g e).acc = s.acc := rfl
@[simp] theorem State.setOwn_rings (s : State) (g : Nat) (e : OwnEntry) : (s.setOwn g e).rings = s.rings := rfl
@[simp] theorem State.setOwn_eng (s : State) (g : Nat) (e : OwnEntry) : (s.setOwn g e).eng = s.eng := rfl
@[simp] theorem State.setOwn_scr (s : State) (g : Nat) (e : OwnEntry) : (s.setOwn g e).scr = s.scr := rfl
@[simp] theorem State.setOwn_home (s : State) (g : Nat) (e : OwnEntry) : (s.setOwn g e).home = s.home := rfl
@[simp] theorem State.setOwn_links (s : State) (g : Nat) (e : OwnEntry) : (s.setOwn g e).links = s.links := rfl
@[simp] theorem State.setOwn_conns (s : State) (g : Nat) (e : OwnEntry) : (s.setOwn g e).conns = s.conns := rfl
@[simp] theorem State.setOwn_connShadow (s : State) (g : Nat) (e : OwnEntry) : (s.setOwn g e).connShadow = s.connShadow := rfl
@[simp] theorem State.setOwn_connSt (s : State) (g : Nat) (e : OwnEntry) : (s.setOwn g e).connSt = s.connSt := rfl
@[simp] theorem State.setOwn_tiles (s : State) (g : Nat) (e : OwnEntry) : (s.setOwn g e).tiles = s.tiles := rfl
@[simp] theorem State.setOwn_gens (s : State) (g : Nat) (e : OwnEntry) : (s.setOwn g e).gens = s.gens := rfl
@[simp] theorem State.setOwn_pwr (s : State) (g : Nat) (e : OwnEntry) : (s.setOwn g e).pwr = s.pwr := rfl
@[simp] theorem State.setOwn_boot (s : State) (g : Nat) (e : OwnEntry) : (s.setOwn g e).boot = s.boot := rfl
@[simp] theorem State.setOwn_mgmt (s : State) (g : Nat) (e : OwnEntry) : (s.setOwn g e).mgmt = s.mgmt := rfl
@[simp] theorem State.setOwn_blanket (s : State) (g : Nat) (e : OwnEntry) : (s.setOwn g e).blanket = s.blanket := rfl
@[simp] theorem State.setOwn_sec (s : State) (g : Nat) (e : OwnEntry) : (s.setOwn g e).sec = s.sec := rfl
@[simp] theorem State.setOwn_coll (s : State) (g : Nat) (e : OwnEntry) : (s.setOwn g e).coll = s.coll := rfl
@[simp] theorem State.setOwn_strm (s : State) (g : Nat) (e : OwnEntry) : (s.setOwn g e).strm = s.strm := rfl
@[simp] theorem State.setOwn_fab (s : State) (g : Nat) (e : OwnEntry) : (s.setOwn g e).fab = s.fab := rfl
@[simp] theorem State.setOwn_hier (s : State) (g : Nat) (e : OwnEntry) : (s.setOwn g e).hier = s.hier := rfl
@[simp] theorem State.setOwn_time (s : State) (g : Nat) (e : OwnEntry) : (s.setOwn g e).time = s.time := rfl

/-! ### State.setCrc -/

@[simp] theorem State.setCrc_pending (s : State) (u : Nat) (c : CrcSt) : (s.setCrc u c).pending = s.pending := rfl
@[simp] theorem State.setCrc_free (s : State) (u : Nat) (c : CrcSt) : (s.setCrc u c).free = s.free := rfl
@[simp] theorem State.setCrc_out (s : State) (u : Nat) (c : CrcSt) : (s.setCrc u c).out = s.out := rfl
@[simp] theorem State.setCrc_regs (s : State) (u : Nat) (c : CrcSt) : (s.setCrc u c).regs = s.regs := rfl
@[simp] theorem State.setCrc_shadow (s : State) (u : Nat) (c : CrcSt) : (s.setCrc u c).shadow = s.shadow := rfl
@[simp] theorem State.setCrc_held (s : State) (u : Nat) (c : CrcSt) : (s.setCrc u c).held = s.held := rfl
@[simp] theorem State.setCrc_captured (s : State) (u : Nat) (c : CrcSt) : (s.setCrc u c).captured = s.captured := rfl
@[simp] theorem State.setCrc_evt (s : State) (u : Nat) (c : CrcSt) : (s.setCrc u c).evt = s.evt := rfl
@[simp] theorem State.setCrc_fuse (s : State) (u : Nat) (c : CrcSt) : (s.setCrc u c).fuse = s.fuse := rfl
@[simp] theorem State.setCrc_mram (s : State) (u : Nat) (c : CrcSt) : (s.setCrc u c).mram = s.mram := rfl
@[simp] theorem State.setCrc_sag (s : State) (u : Nat) (c : CrcSt) : (s.setCrc u c).sag = s.sag := rfl
@[simp] theorem State.setCrc_host (s : State) (u : Nat) (c : CrcSt) : (s.setCrc u c).host = s.host := rfl
@[simp] theorem State.setCrc_glb (s : State) (u : Nat) (c : CrcSt) : (s.setCrc u c).glb = s.glb := rfl
@[simp] theorem State.setCrc_sites (s : State) (u : Nat) (c : CrcSt) : (s.setCrc u c).sites = s.sites := rfl
@[simp] theorem State.setCrc_hbm (s : State) (u : Nat) (c : CrcSt) : (s.setCrc u c).hbm = s.hbm := rfl
@[simp] theorem State.setCrc_regul (s : State) (u : Nat) (c : CrcSt) : (s.setCrc u c).regul = s.regul := rfl
@[simp] theorem State.setCrc_xlat (s : State) (u : Nat) (c : CrcSt) : (s.setCrc u c).xlat = s.xlat := rfl
@[simp] theorem State.setCrc_noc (s : State) (u : Nat) (c : CrcSt) : (s.setCrc u c).noc = s.noc := rfl
@[simp] theorem State.setCrc_acc (s : State) (u : Nat) (c : CrcSt) : (s.setCrc u c).acc = s.acc := rfl
@[simp] theorem State.setCrc_rings (s : State) (u : Nat) (c : CrcSt) : (s.setCrc u c).rings = s.rings := rfl
@[simp] theorem State.setCrc_scr (s : State) (u : Nat) (c : CrcSt) : (s.setCrc u c).scr = s.scr := rfl
@[simp] theorem State.setCrc_home (s : State) (u : Nat) (c : CrcSt) : (s.setCrc u c).home = s.home := rfl
@[simp] theorem State.setCrc_links (s : State) (u : Nat) (c : CrcSt) : (s.setCrc u c).links = s.links := rfl
@[simp] theorem State.setCrc_conns (s : State) (u : Nat) (c : CrcSt) : (s.setCrc u c).conns = s.conns := rfl
@[simp] theorem State.setCrc_connShadow (s : State) (u : Nat) (c : CrcSt) : (s.setCrc u c).connShadow = s.connShadow := rfl
@[simp] theorem State.setCrc_connSt (s : State) (u : Nat) (c : CrcSt) : (s.setCrc u c).connSt = s.connSt := rfl
@[simp] theorem State.setCrc_tiles (s : State) (u : Nat) (c : CrcSt) : (s.setCrc u c).tiles = s.tiles := rfl
@[simp] theorem State.setCrc_gens (s : State) (u : Nat) (c : CrcSt) : (s.setCrc u c).gens = s.gens := rfl
@[simp] theorem State.setCrc_pwr (s : State) (u : Nat) (c : CrcSt) : (s.setCrc u c).pwr = s.pwr := rfl
@[simp] theorem State.setCrc_boot (s : State) (u : Nat) (c : CrcSt) : (s.setCrc u c).boot = s.boot := rfl
@[simp] theorem State.setCrc_mgmt (s : State) (u : Nat) (c : CrcSt) : (s.setCrc u c).mgmt = s.mgmt := rfl
@[simp] theorem State.setCrc_blanket (s : State) (u : Nat) (c : CrcSt) : (s.setCrc u c).blanket = s.blanket := rfl
@[simp] theorem State.setCrc_sec (s : State) (u : Nat) (c : CrcSt) : (s.setCrc u c).sec = s.sec := rfl
@[simp] theorem State.setCrc_coll (s : State) (u : Nat) (c : CrcSt) : (s.setCrc u c).coll = s.coll := rfl
@[simp] theorem State.setCrc_strm (s : State) (u : Nat) (c : CrcSt) : (s.setCrc u c).strm = s.strm := rfl
@[simp] theorem State.setCrc_fab (s : State) (u : Nat) (c : CrcSt) : (s.setCrc u c).fab = s.fab := rfl
@[simp] theorem State.setCrc_hier (s : State) (u : Nat) (c : CrcSt) : (s.setCrc u c).hier = s.hier := rfl
@[simp] theorem State.setCrc_time (s : State) (u : Nat) (c : CrcSt) : (s.setCrc u c).time = s.time := rfl

end Sys2Proof.Machine
end

