-- ==== Sys2Proof/Laws/Writes.lean ====
section
/-! SUPPORT. What a line of a write leaves in the write-combining buffer and the write queue, and what memory then reads (R163, R165, R166). -/
namespace Sys2Proof.Machine

theorem Sparse.get_filterMap {α : Type} (d : α) (f : Nat → Option α) (l : List Nat) (i : Nat) :
    Sparse.get d (l.filterMap (fun k => (f k).map (fun v => (k, v)))) i = if i ∈ l then (f i).getD d else d := by
  induction l with
  | nil => simp [Sparse.get]
  | cons k t ih =>
    by_cases h : i = k
    · subst h
      cases hf : f i with
      | none =>
        rw [List.filterMap_cons_none (by simp [hf]), ih]; simp [hf]
      | some v => rw [List.filterMap_cons_some (by simp [hf]; rfl)]; simp [Sparse.get, hf]
    · cases hf : f k with
      | none => rw [List.filterMap_cons_none (by simp [hf]), ih]; simp [h]
      | some v => rw [List.filterMap_cons_some (by simp [hf]; rfl)]; simp [Sparse.get, h, ih]

/-- The enabled byte of a write at an offset of a line. -/
def lineAt (addr line : Nat) (data : List (Option Byte)) (i : Nat) : Option Byte :=
  if 64 * line + i < addr then none else (data[64 * line + i - addr]?).getD none

theorem lineBytes_eq (addr line : Nat) (data : List (Option Byte)) :
    lineBytes addr line data = (List.range 64).filterMap (fun k => (lineAt addr line data k).map (fun v => (k, v))) := by
  unfold lineBytes lineAt
  congr 1; funext i
  split
  · rfl
  · rcases data[64 * line + i - addr]? with _ | (_ | b) <;> rfl

theorem Sparse.length_put {α : Type} (t : Sparse α) (a : Nat) (v : α) : (Sparse.put t a v).length ≤ t.length + 1 := by
  induction t with
  | nil => simp [Sparse.put]
  | cons p t ih => simp only [Sparse.put]; split <;> (try split) <;> simp <;> omega

theorem Sparse.length_foldl_put {α : Type} (bs : List (Nat × α)) (m : Sparse α) :
    (bs.foldl (fun (m : Sparse α) (b : Nat × α) => m.put b.1 b.2) m).length ≤ m.length + bs.length := by
  induction bs generalizing m with
  | nil => simp
  | cons b t ih => rw [List.foldl_cons]; have := ih (m.put b.1 b.2); have := Sparse.length_put m b.1 b.2; simp; omega

theorem Sparse.get_foldl_put {α : Type} (d : α) (bs : List (Nat × α)) (m : Sparse α) (i : Nat) (h : (bs.map Prod.fst).Nodup) :
    (bs.foldl (fun (m : Sparse α) (b : Nat × α) => m.put b.1 b.2) m).get d i = Sparse.get (m.get d i) bs i := by
  induction bs generalizing m with
  | nil => rfl
  | cons b t ih =>
    simp only [List.map_cons, List.nodup_cons] at h
    rw [List.foldl_cons, ih _ h.2, Sparse.get_put]
    obtain ⟨k, v⟩ := b
    simp only [Sparse.get]
    by_cases e : i = k
    · subst e
      rw [if_pos rfl, if_pos rfl]
      have : ∀ (l : List (Nat × α)), i ∉ l.map Prod.fst → Sparse.get v l i = v := by
        intro l; induction l with
        | nil => intro _; rfl
        | cons p t ih => intro hn; simp only [List.map_cons, List.mem_cons, not_or] at hn; simp only [Sparse.get]; rw [if_neg hn.1, ih hn.2]
      exact this t h.1
    · rw [if_neg e, if_neg e]

theorem lineBytes_nodup (addr line : Nat) (data : List (Option Byte)) : ((lineBytes addr line data).map Prod.fst).Nodup := by
  rw [lineBytes_eq, List.map_filterMap]
  have : ∀ (l : List Nat), l.Nodup → (l.filterMap (fun k => ((lineAt addr line data k).map (fun v => (k, v))).map Prod.fst)).Nodup := by
    intro l; induction l with
    | nil => simp
    | cons k t ih =>
      intro h
      rw [List.nodup_cons] at h
      cases hf : lineAt addr line data k with
      | none => rw [List.filterMap_cons_none (by simp [hf])]; exact ih h.2
      | some v =>
        rw [List.filterMap_cons_some (by simp [hf]; rfl), List.nodup_cons]
        refine ⟨?_, ih h.2⟩
        rw [List.mem_filterMap]
        rintro ⟨x, hx, e⟩
        cases hv : lineAt addr line data x <;> simp [hv] at e
        subst e; exact h.1 hx
  exact this _ List.nodup_range
theorem foldl_keep {α β : Type} (f : β → α → β) (l : List α) (b : β) (h : ∀ x ∈ l, ∀ c, f c x = c) : l.foldl f b = b := by
  induction l generalizing b with
  | nil => rfl
  | cons x t ih => rw [List.foldl_cons, h x (by simp), ih b (fun y hy => h y (by simp [hy]))]

theorem foldl_filter_keep {α β : Type} (f : β → α → β) (p : α → Bool) (l : List α) (b : β) (h : ∀ x ∈ l, p x = false → ∀ c, f c x = c) :
    (l.filter p).foldl f b = l.foldl f b := by
  induction l generalizing b with
  | nil => rfl
  | cons x t ih =>
    cases hp : p x with
    | true => rw [List.filter_cons_of_pos hp, List.foldl_cons, List.foldl_cons, ih _ (fun y hy => h y (by simp [hy]))]
    | false =>
      rw [List.filter_cons_of_neg (by simp [hp]), List.foldl_cons, h x (by simp) hp, ih _ (fun y hy => h y (by simp [hy]))]

/-- Every buffered or queued write lies in a line below one. -/
def State.buffersBelow (s : State) (line : Nat) : Prop := (∀ e ∈ s.hbm.wcb, e.line < line) ∧ ∀ e ∈ s.hbm.wq, e.sector / 2 < line

theorem State.wcbOf_none (s : State) (line : Nat) (h : ∀ e ∈ s.hbm.wcb, e.line ≠ line) : s.wcbOf line = none := by
  unfold State.wcbOf
  rw [List.find?_eq_none]
  intro e he; simpa using h e he

theorem State.memByte_wqPut (s : State) (k : Nat) (bs : List Byte) (p : Bool) (cls c : Nat) (h : ∀ e ∈ s.hbm.wcb, e.line ≠ k / 2) (n : bs.length = 32) :
    (s.wqPut k bs p cls).memByte c = if c / 32 = k then (bs[c % 32]?).getD 0 else s.memByte c := by
  simp only [State.memByte, State.wqPut, List.foldl_append, List.foldl_cons, List.foldl_nil]
  by_cases e : c / 32 = k
  · rw [if_pos e, if_pos e.symm, foldl_keep]
    · rw [List.getElem?_eq_getElem (by omega)]; rfl
    · intro x hx b
      rw [if_neg]; intro hl
      exact h x hx (by omega)
  · rw [if_neg e, if_neg (fun g => e g.symm), foldl_filter_keep]
    intro x _ hp b
    rw [if_neg]; intro g
    simp only [bne_eq_false_iff_eq] at hp
    exact e (by omega)

theorem range64 : List.range 64 = List.range 32 ++ (List.range 32).map (· + 32) := by decide

/-- The bytes of a line's lower half, and those of its upper half. -/
def lowBytes (addr line : Nat) (data : List (Option Byte)) : List (Nat × Byte) :=
  (List.range 32).filterMap (fun k => (lineAt addr line data k).map (fun v => (k, v)))
def highBytes (addr line : Nat) (data : List (Option Byte)) : List (Nat × Byte) :=
  (List.range 32).filterMap (fun k => (lineAt addr line data (k + 32)).map (fun v => (k + 32, v)))

theorem lineBytes_split (addr line : Nat) (data : List (Option Byte)) : lineBytes addr line data = lowBytes addr line data ++ highBytes addr line data := by
  rw [lineBytes_eq, range64, List.filterMap_append, List.filterMap_map]; rfl

theorem lowBytes_lt (addr line : Nat) (data : List (Option Byte)) : ∀ b ∈ lowBytes addr line data, b.1 < 32 := by
  intro b hb
  simp only [lowBytes, List.mem_filterMap, List.mem_range, Option.map_eq_some_iff] at hb
  obtain ⟨k, hk, v, _, rfl⟩ := hb; exact hk

theorem highBytes_ge (addr line : Nat) (data : List (Option Byte)) : ∀ b ∈ highBytes addr line data, 32 ≤ b.1 := by
  intro b hb
  simp only [highBytes, List.mem_filterMap, List.mem_range, Option.map_eq_some_iff] at hb
  obtain ⟨k, hk, v, _, rfl⟩ := hb; exact Nat.le_add_left 32 k

theorem lineBytes_low (addr line : Nat) (data : List (Option Byte)) : (lineBytes addr line data).filter (fun b => b.1 < 32) = lowBytes addr line data := by
  rw [lineBytes_split, List.filter_append, List.filter_eq_self.mpr, List.filter_eq_nil_iff.mpr, List.append_nil]
  · intro b hb; have := highBytes_ge addr line data b hb; simp; omega
  · intro b hb; simpa using lowBytes_lt addr line data b hb

theorem lineBytes_high (addr line : Nat) (data : List (Option Byte)) : (lineBytes addr line data).filter (fun b => 32 ≤ b.1) = highBytes addr line data := by
  rw [lineBytes_split, List.filter_append, List.filter_eq_nil_iff.mpr, List.filter_eq_self.mpr, List.nil_append]
  · intro b hb; simpa using highBytes_ge addr line data b hb
  · intro b hb; have := lowBytes_lt addr line data b hb; simp; omega

theorem filterMap_full {α β : Type} (f : α → Option β) (l : List α) (h : (l.filterMap f).length = l.length) :
    ∀ i, i < l.length → (l.filterMap f)[i]? = (l[i]?).bind f := by
  induction l with
  | nil => simp
  | cons x t ih =>
    cases hf : f x with
    | none =>
      rw [List.filterMap_cons_none hf] at h
      have := List.length_filterMap_le f t
      simp at h; omega
    | some v =>
      rw [List.filterMap_cons_some hf] at h ⊢
      intro i hi
      cases i with
      | zero => simp [hf]
      | succ i => simpa using ih (by simpa using h) i (by simpa using hi)

theorem filterMap_full_some {α β : Type} (f : α → Option β) (l : List α) (h : (l.filterMap f).length = l.length) : ∀ x ∈ l, (f x).isSome = true := by
  induction l with
  | nil => simp
  | cons x t ih =>
    cases hf : f x with
    | none =>
      rw [List.filterMap_cons_none hf] at h
      have := List.length_filterMap_le f t
      simp at h; omega
    | some v =>
      rw [List.filterMap_cons_some hf] at h
      intro y hy
      rcases List.mem_cons.mp hy with rfl | hy
      · simp [hf]
      · exact ih (by simpa using h) y hy

theorem half_value (f : Nat → Option Byte) (g : Nat → Nat) (i : Nat) (hi : i < 32) (d : Byte)
    (h : ((List.range 32).filterMap (fun k => (f k).map (fun v => (g k, v)))).length = 32) :
    ((((List.range 32).filterMap (fun k => (f k).map (fun v => (g k, v)))).map Prod.snd)[i]?).getD 0 = (f i).getD d := by
  rw [List.getElem?_map, filterMap_full _ _ (by simpa using h) i (by simpa using hi)]
  have w := filterMap_full_some _ (List.range 32) (h.trans (List.length_range).symm) i (by simpa using hi)
  rw [List.getElem?_range hi]
  cases hf : f i with
  | none => simp [hf] at w
  | some v => simp [hf]

theorem none_value (f : Nat → Option Byte) (g : Nat → Nat) (i : Nat) (hi : i < 32)
    (h : ((List.range 32).filterMap (fun k => (f k).map (fun v => (g k, v)))).length = 0) : f i = none := by
  rw [List.length_eq_zero_iff, List.filterMap_eq_nil_iff] at h
  simpa using h i (by simpa using hi)

theorem State.memByte_wqPut2 (s : State) (x y : List Byte) (p q : Bool) (cls line c : Nat) (h : ∀ e ∈ s.hbm.wcb, e.line ≠ line) (n : x.length = 32) (m : y.length = 32) :
    ((s.wqPut (2 * line) x p cls).wqPut (2 * line + 1) y q cls).memByte c =
      if c / 64 = line then (if c % 64 < 32 then (x[c % 64]?).getD 0 else (y[c % 64 - 32]?).getD 0) else s.memByte c := by
  rw [State.memByte_wqPut _ _ _ _ _ _ (by intro e he; have := h e he; omega) m, State.memByte_wqPut _ _ _ _ _ _ (by intro e he; have := h e he; omega) n]
  by_cases e : c / 64 = line
  · rw [if_pos e]
    by_cases g : c % 64 < 32
    · rw [if_neg (by omega), if_pos (by omega), if_pos g, show c % 32 = c % 64 by omega]
    · rw [if_pos (by omega), if_neg g, show c % 32 = c % 64 - 32 by omega]
  · rw [if_neg e, if_neg (by omega), if_neg (by omega)]

theorem State.wqPut_wcb (s : State) (k : Nat) (bs : List Byte) (p : Bool) (cls : Nat) : (s.wqPut k bs p cls).hbm.wcb = s.hbm.wcb := rfl
theorem State.wqPut_wq (s : State) (k : Nat) (bs : List Byte) (p : Bool) (cls : Nat) :
    ∀ e ∈ (s.wqPut k bs p cls).hbm.wq, e ∈ s.hbm.wq ∨ e.sector = k := by
  intro e he
  simp only [State.wqPut, List.mem_append, List.mem_filter, List.mem_singleton] at he
  rcases he with he | he
  · exact .inl he.1
  · right; rw [he]

/-- What one line of a write leaves: in a state whose buffers hold only lower lines and have room, memory then reads its enabled bytes and nothing
else differs, and the buffers hold no higher line. -/
theorem State.writeLine_low (s : State) (cls a : Nat) (data : List (Option Byte)) (bad : Nat → Bool) (line : Nat)
    (h : s.buffersBelow line) (room : s.hbm.wcb.length < 480) :
    (∀ c, (s.writeLine cls a data bad line).memByte c = if c / 64 = line then (lineAt a line data (c % 64)).getD (s.memByte c) else s.memByte c) ∧
    (s.writeLine cls a data bad line).buffersBelow (line + 1) ∧ (s.writeLine cls a data bad line).hbm.wcb.length ≤ s.hbm.wcb.length + 1 := by
  have hne : ∀ e ∈ s.hbm.wcb, e.line ≠ line := fun e he => Nat.ne_of_lt (h.1 e he)
  have up : s.buffersBelow (line + 1) := ⟨fun e he => Nat.lt_succ_of_lt (h.1 e he), fun e he => Nat.lt_succ_of_lt (h.2 e he)⟩
  have low : lineBytes a line data = lowBytes a line data ++ highBytes a line data := lineBytes_split a line data
  have val : ∀ i, i < 64 → ∀ d, Sparse.get d (lineBytes a line data) i = (lineAt a line data i).getD d := by
    intro i hi d
    rw [lineBytes_eq, Sparse.get_filterMap, if_pos (by simpa using hi)]
  unfold State.writeLine
  simp only [lineBytes_low, lineBytes_high, s.wcbOf_none line hne, Option.isNone_none, Bool.and_true]
  by_cases he : (lineBytes a line data).isEmpty = true
  · rw [if_pos he]
    refine ⟨fun c => ?_, up, Nat.le_succ _⟩
    split
    · have := val (c % 64) (Nat.mod_lt _ (by decide)) (s.memByte c)
      rw [List.isEmpty_iff.mp he] at this
      exact this
    · rfl
  rw [if_neg he]
  by_cases hw : (((lowBytes a line data).length == 0 || (lowBytes a line data).length == 32) && ((highBytes a line data).length == 0 || (highBytes a line data).length == 32)) = true
  · rw [if_pos hw]
    have hl : (lowBytes a line data).length = 32 ∨ (lowBytes a line data).length = 0 := by simp only [Bool.and_eq_true, Bool.or_eq_true, beq_iff_eq] at hw; omega
    have hh : (highBytes a line data).length = 32 ∨ (highBytes a line data).length = 0 := by simp only [Bool.and_eq_true, Bool.or_eq_true, beq_iff_eq] at hw; omega
    have lv : (lowBytes a line data).length = 32 → ∀ i, i < 32 → ∀ d, (((lowBytes a line data).map Prod.snd)[i]?).getD 0 = (lineAt a line data i).getD d :=
      fun q i hi d => half_value (lineAt a line data) id i hi d q
    have hv : (highBytes a line data).length = 32 → ∀ i, i < 32 → ∀ d, (((highBytes a line data).map Prod.snd)[i]?).getD 0 = (lineAt a line data (i + 32)).getD d :=
      fun q i hi d => half_value (fun k => lineAt a line data (k + 32)) (· + 32) i hi d q
    have ln : (lowBytes a line data).length = 0 → ∀ i, i < 32 → lineAt a line data i = none := fun q i hi => none_value (lineAt a line data) id i hi q
    have hn : (highBytes a line data).length = 0 → ∀ i, i < 32 → lineAt a line data (i + 32) = none :=
      fun q i hi => none_value (fun k => lineAt a line data (k + 32)) (· + 32) i hi q
    have wqb : ∀ (u : State) (k : Nat) (bs : List Byte) (p : Bool), u.buffersBelow (line + 1) → k / 2 = line → (u.wqPut k bs p cls).buffersBelow (line + 1) := by
      intro u k bs p hu hk
      refine ⟨hu.1, fun e he => ?_⟩
      rcases u.wqPut_wq k bs p cls e he with he | he
      · exact hu.2 e he
      · omega
    rcases hl with hl | hl <;> rcases hh with hh | hh
    · rw [if_pos hl, if_pos hh, low, List.take_left' hl, List.drop_left' rfl]
      refine ⟨fun c => ?_, wqb _ _ _ _ (wqb _ _ _ _ up (by omega)) (by omega), Nat.le_succ _⟩
      rw [State.memByte_wqPut2 s _ _ _ _ cls line c hne (by simpa using hl) (by simpa using hh)]
      split
      · split
        · exact lv hl _ (by assumption) _
        · have := hv hh (c % 64 - 32) (by omega) (s.memByte c)
          rw [show c % 64 - 32 + 32 = c % 64 by omega] at this; exact this
      · rfl
    · rw [if_pos hl, if_neg (show ¬ (highBytes a line data).length = 32 by omega), low, List.take_left' hl]
      refine ⟨fun c => ?_, wqb _ _ _ _ up (by omega), Nat.le_succ _⟩
      rw [State.memByte_wqPut _ _ _ _ _ _ (by intro e he; have := hne e he; omega) (by simpa using hl)]
      by_cases e : c / 64 = line
      · rw [if_pos e]
        by_cases g : c % 64 < 32
        · rw [if_pos (by omega), show c % 32 = c % 64 by omega]; exact lv hl _ g _
        · rw [if_neg (by omega)]
          have := hn hh (c % 64 - 32) (by omega)
          rw [show c % 64 - 32 + 32 = c % 64 by omega] at this; rw [this]; rfl
      · rw [if_neg e, if_neg (by omega)]
    · rw [if_neg (show ¬ (lowBytes a line data).length = 32 by omega), if_pos hh, low, List.drop_left' rfl]
      refine ⟨fun c => ?_, wqb _ _ _ _ up (by omega), Nat.le_succ _⟩
      rw [State.memByte_wqPut _ _ _ _ _ _ (by intro e he; have := hne e he; omega) (by simpa using hh)]
      by_cases e : c / 64 = line
      · rw [if_pos e]
        by_cases g : c % 64 < 32
        · rw [if_neg (by omega), ln hl _ g]; rfl
        · rw [if_pos (by omega), show c % 32 = c % 64 - 32 by omega]
          have := hv hh (c % 64 - 32) (by omega) (s.memByte c)
          rw [show c % 64 - 32 + 32 = c % 64 by omega] at this; exact this
      · rw [if_neg e, if_neg (by omega)]
    · exfalso; apply he
      rw [low, List.length_eq_zero_iff.mp hl, List.length_eq_zero_iff.mp hh]; rfl
  · rw [if_neg hw]
    have roomy : s.wcbRoom (s.place (64 * line)).1 (cls == 44) = s := by
      unfold State.wcbRoom
      rw [if_neg]
      have n1 := List.length_filter_le (fun e => e.ctl == (s.place (64 * line)).1) s.hbm.wcb
      have n2 := List.length_filter_le (fun e : WcbEntry => !e.stream) (s.hbm.wcb.filter (fun e => e.ctl == (s.place (64 * line)).1))
      rintro (g | ⟨_, g⟩) <;> omega
    have short : (lineBytes a line data).length < 64 := by
      have l1 := List.length_filterMap_le (fun k => (lineAt a line data k).map (fun v => (k, v))) (List.range 32)
      have l2 := List.length_filterMap_le (fun k => (lineAt a line data (k + 32)).map (fun v => (k + 32, v))) (List.range 32)
      rw [low, List.length_append]
      simp only [Bool.and_eq_true, Bool.or_eq_true, beq_iff_eq] at hw
      simp only [List.length_range] at l1 l2
      simp only [lowBytes, highBytes] at hw ⊢
      omega
    have short2 := Sparse.length_foldl_put (lineBytes a line data) ([] : Sparse Byte)
    unfold State.wcbMerge
    simp only [s.wcbOf_none line hne, roomy]
    unfold State.wcbAdd
    have keep : s.hbm.wcb.map (fun (e : WcbEntry) => if e.line = line then { e with bytes := (lineBytes a line data).foldl (fun (m : Sparse Byte) (b : Nat × Byte) => m.put b.1 b.2) e.bytes, bad := e.bad.filter (fun o => !((lineBytes a line data).map Prod.fst).contains o) ++ ((lineBytes a line data).map Prod.fst).filter bad } else e) = s.hbm.wcb := by
      conv => rhs; rw [← List.map_id s.hbm.wcb]
      exact List.map_congr_left (fun e he => if_neg (hne e he))
    simp only [List.map_append, keep, List.map_cons, List.map_nil, if_true, State.wcbOf, List.find?_append]
    have nf : s.hbm.wcb.find? (fun e => e.line == line) = none := s.wcbOf_none line hne
    simp only [nf, List.find?_cons, beq_self_eq_true, Option.none_or]
    rw [if_neg (by simp only [List.length_nil, Nat.zero_add] at short2; omega)]
    refine ⟨fun c => ?_, ⟨fun e he => ?_, fun e he => Nat.lt_succ_of_lt (h.2 e he)⟩, by simp⟩
    · simp only [State.memByte, List.foldl_append, List.foldl_cons, List.foldl_nil]
      by_cases e : c / 64 = line
      · rw [if_pos e, if_pos e.symm, Sparse.get_foldl_put _ _ _ _ (lineBytes_nodup a line data), val _ (Nat.mod_lt _ (by decide))]; rfl
      · rw [if_neg e, if_neg (fun g => e g.symm)]
    · rcases List.mem_append.mp he with he | he
      · exact Nat.lt_succ_of_lt (h.1 e he)
      · rw [List.mem_singleton.mp he]; exact Nat.lt_succ_self line

end Sys2Proof.Machine
end

