-- ==== Sys2Proof/Tests/Slice0.lean ====
section
/-! SUPPORT. The author's tests: a state and operands that meet the hypotheses of each statement, terms that each check of well-formedness refuses, and worked numbers of the spec. -/
open Sys2Proof Sys2Proof.Machine
set_option maxRecDepth 100000
set_option linter.all false
set_option Elab.async false

/-! ### States that the tests share -/
/-- A populated entry of a record, and a record with it at every site. -/
def aSite : PopSite :=
  { populated := true, coherent := false, protocol := 1, modules := 9, powerLimitW := 200, makerId := 0, partId := 0, revisionMajor := 0,
    tempLimitC := 90, coherentCacheKib := 0, rootDigest := 0 }
def aPop : PopRecord :=
  { format := 1, reworkCount := 0, partnerCode := [65, 66, 67], populationCode := [48, 49], sites := List.replicate 8 aSite, certDigest := 0, signature := 0 }
def withPop (s : State) : State := { s with boot := { s.boot with pop := some aPop }, mram := { s.mram with pop := some aPop } }
/-- The identity block that matches it: nine modules, protocol 1. -/
def aBlock : IdentityBlock := { lo := BitVec.ofNat 64 (9 * 2 ^ 48 + 2 ^ 56), hi := 0 }
/-- A state with one cluster of tiles, whose quad runs. -/
def withTiles : State :=
  (({ State.reset with glb := { State.reset.glb with tileCount := 16 }, noc := { NocSt.reset with clusterMap := [0] } }).setReg Reg.PWR_QUADS 0xFFFF)
/-- A dispatch on a tile, and tile 0 at an instruction word of its kernel. -/
def aDisp : TileDisp := { ring := 0, seq := 1, ctx := 0, entry := 0, arg := 0, seed := 0, limitUs := 0, gpos := 0 }
def coreAt (w : Nat) : State := withTiles.setTile 0 { TileSt.idle with run := some aDisp, ibuf := [(0, leBytes 8 w)] }
/-- Tile 0 waiting for something. -/
def waiting (x : TileWait) : State := withTiles.setTile 0 { TileSt.idle with run := some aDisp, wait := x }
/-- A state whose stacks are all present and operating. -/
def withMem : State := (List.range 8).foldl (fun (s : State) n => s.wr (Reg.HBM_STACK_STATUS_state n) 0) (State.reset.wr Reg.HBM_STATUS_present 0xFF)
/-- A read of 8 bytes at an address by a hub unit. -/
def aReq (a : Nat) : MemReq :=
  { tag := 5, origin := .ctx 0, port := .engine 32, cls := 0, addr := a, len := 8, data := none, poison := false, ecc := .clean }
def aRepair (x : BrStage) : BrRepair := { granule := 3, ctl := 1, stage := x, assist := false }
/-- A descriptor that has issued on ring 0 and has no status yet. -/
def aRunRec : Run :=
  { seq := 1, bytes := [], phys := false, held := [], subs := [], subHeld := [], sub := 64, ends := [], pos := 0, allIssued := false, first := none,
    oversub := false, aux := 0, crcUnit := none, buf := none, placed := false, liveTiles := [], errTile := 0, errTiles := 0, tend := 0,
    status := none, check := 0, info := 0, time := 0 }
def aRun : State := State.reset.setRing 0 { RingSt.empty with issued := [aRunRec] }
def withHbmShadow : State := State.reset.setShd Reg.HBM_CFG 0x1818
def aRow : RowErr := { row := 5, cell := 5, time := 0 }
/-- A descriptor of 64 bytes from its first words. -/
def descOf (ws : List Nat) : List Byte := (ws ++ List.replicate (8 - ws.length) 0).flatMap (fun (w : Nat) => leBytes 8 w)
def aDesc (ws : List Nat) : QDesc := { seq := 1, bytes := descOf ws, phys := true, held := [], subs := [], subHeld := [], fail := none }
/-- An active ring 0 of a class of engines, with one descriptor fetched. -/
def withRing (cls : Nat) : State := (withMem.wr (Reg.QM_RING_STATE_state 0) ringActive).wr (Reg.QM_RING_CFG_class 0) cls
def ringAt (cls : Nat) (ws : List Nat) : State := (withRing cls).setRing 0 { RingSt.empty with fetched := [aDesc ws] }
def legacyAt (ws : List Nat) : State := ((withRing 1).wr (Reg.QM_RING_CFG_legacy 0) 1).setRing 0 { RingSt.empty with fetched := [aDesc ws] }
/-- Context 1 with one coherent segment over the first 2 MiB of memory, and site 2 active, coherent and bound to it. -/
def withSite : State :=
  let s := ((withMem.wr (Reg.XLAT_CTX_enable 1) 1).wr (Reg.SEG_LIMIT_limit 1 0) 0x200000).wr (Reg.SEG_ATTR_valid 1 0) 1
  let s := ((s.wr (Reg.SEG_ATTR_coherent 1 0) 1).wr (Reg.SEG_ATTR_read 1 0) 1).wr (Reg.SEG_ATTR_write 1 0) 1
  let s := (s.wr (siteBound 2) 1).wr (siteCtx 2) 1
  let p : PopRecord := { aPop with sites := List.replicate 8 { aSite with coherent := true } }
  let s := (s.wr (Reg.SITE_STATE_state 2) 5).setSite 2 { SiteSt.off with pwren := true, pgood := true, sclk := true, aperture := true }
  { s with boot := { s.boot with pop := some p }, mram := { MramSt.bare with pop := some p } }
def aMsg : SysMsg := { module := 0, tag := 7, va := some 0x40, bad := false }
/-- Module 1 of site 2 in a state. -/
def withModule (x : Nat) : State := withSite.setModState 2 1 x
def aHomeReq : HomeReq :=
  { site := 2, op := .rdShared, cxl := false, goOnly := false, tag := 7, line := 1, va := 64, ctx := 1, seg := 0, bytes := [], poison := false }
def aTxn : HomeTxn := { id := 0, line := 1, why := .site aHomeReq, snoops := [(2, .share, 7)], data := none, waitAck := true, got := false, others := false }
def withTxn : State := { withSite with home := { HomeSt.reset with txns := [aTxn] } }
def aOut (x : Target) : OutReq := { id := 7, who := .run 0 1, tgt := x, write := false, len := 8, ctx := 0, seg := none, bytes := [], lines := [], ans := none }
/-- A host that has enumerated a package that is ready. -/
def withHost : State :=
  let s := (withMem.wr Reg.HOST_STATUS_link_up 1).wr Reg.HUB_READY_ready 1
  { s with boot := { s.boot with vaon := true, perst := false, plan := 0, stage := 5 }, host := { s.host with retryStatus := false, memEnable := true, busMaster := true } }
/-- A host that lets the link enter L1 and L1.2. -/
def withL1 : State := { withHost with host := { withHost.host with cfgSpace := (withHost.host.cfgSpace.put 0x070 2).put 0x248 4 } }
def withSession : State := { withHost with host := { withHost.host with session := true } }
/-- The interface can be locked: the blanket has wiped and stream 0 holds a key and is secure. -/
def withKeyed : State :=
  { (withSession.setReg (Reg.SEC_SLOT 1) 64).wr Reg.HOST_STATUS_ide_secure 1 with blanket := { withSession.blanket with wiped := true } }
/-- Connection 2 open to device 65, and a header of its next message. -/
def withConn : State :=
  let s := (withMem.wr Reg.FAB_IDENT_configured 1).setReg (Reg.SEC_SLOT 11) 64
  let s := ((s.connWr 2 Reg.FAB_CONN_DATA_state 2).connWr 2 Reg.FAB_CONN_DATA_peer 65).connWr 2 Reg.FAB_CONN_DATA_key_slot 11
  s.setConn 2 ConnSt.closed
def aHdr : FabHdr := { conn := 2, src := 65, seq := 0, tag := 0, addr := 0, poison := false, err := false, authentic := true }
def aCairn : Cairn :=
  { kind := 2, device := 65, seq := 0, health := 0, epoch := 0, manager := 0, deputy := 0, flags := 0, slowDelay := 0, timeTx := 0, timeOffset := 0,
    tiles := 0, stackCount := 0, sites := 0, ports := 0, fatal := 0, neighbours := [], maskA := 0, maskB := 0, roster := 0, slowDevice := 0, slowSeq := 0 }
/-- A member with a role, enrolled beside member 3, that has heard nothing for long. -/
def claimant (r : Nat) : State :=
  let e : RosterEntry := { digest := 0, serial := 0, enrolled := true }
  let s := (withConn.wr Reg.FAB_GROUP_role r).setReg Reg.TIME_NOW 0x10000000000
  { s with hier := { s.hier with roster := [(s.me, e), (s.me + 3, e)] } }
def aColl : CollRun :=
  { ring := 0, seq := 1, ctx := 0, phys := true, op := 0, fmt := 0, redop := 0, count := 0, root := 0, xsExp := 0, src := 0, dst := 0, commVa := 0, cseq := 0,
    deadline := 0, ready := false, rec_ := [], comm := 0, k := 0, g := 0, slot := 0, rank := 0, members := [], extended := 0, steps := [], done := 0,
    begun := false, released := false, byFirmware := false, work := [], loaded := 0, part_ := [], got := [], granted := [], sent := [], credits := [], saturated := false,
    poison := false, extSeq := [], written := 0, stepped := false }
/-- A flow with one record that has not been written out, and a state that holds it as entry 3 with port 0 in stream mode. -/
def aFlowRec : FlowRec :=
  { n := 0, marker := false, seq := 0, arrival := 0, event := 0, len := 8, late := false, bytes := leBytes 8 5, mac := 0, hdr := false, inbox := none,
    asked := false, decided := none, valid := true, released := false }
def aFlow : FlowSt :=
  { words := [BitVec.ofNat 64 (1 + 2 ^ 8 + 3 * 2 ^ 32), 0, 0, BitVec.ofNat 64 (4096 + 4 * 2 ^ 48 + 8 * 2 ^ 53), BitVec.ofNat 64 (1 + 2 ^ 20),
      BitVec.ofNat 64 (2 ^ 11), 0, 0], next := none, marker := none, tokens := 0, tokensAt := 0, missing := [], recs := [aFlowRec], rr := 0, pool := 0,
    idle := 0, lastAt := 0, woke := false, fault := 0, drop := false }
def flowing (s : State) (f : FlowSt) : State := (((s.wr (Reg.FAB_PORT_STATUS_state 0) 7).wr Reg.STRM_STATUS_ports 1).setFlow 3 f)
def withFlow : State := flowing (withMem.setReg Reg.PWR_QUADS 0xFFFF) aFlow
def doneFlow : FlowSt := { aFlow with recs := [{ aFlowRec with hdr := true }] }
def foreignFlow : FlowSt := { aFlow with words := aFlow.words.set 0 (BitVec.ofNat 64 (1 + 2 ^ 8 + 2 ^ 24 + 3 * 2 ^ 32)) }
def learnedFlow : FlowSt := { aFlow with words := aFlow.words.set 0 (BitVec.ofNat 64 (1 + 2 ^ 8 + 2 ^ 11 + 3 * 2 ^ 32)), idle := 1 }
def imaged (ws : List Nat) : State := ws.zipIdx.foldl (fun (s : State) p => s.setReg (Reg.STRM_CTX_DATA p.2) p.1) withFlow
def inboxState : State :=
  flowing ((List.range 8).foldl (fun (s : State) n => s.wr (Reg.HBM_STACK_STATUS_state n) 0) ((withTiles.setReg Reg.PWR_QUADS 0xFFFF).wr Reg.HBM_STATUS_present 0xFF)) doneFlow
def aSystini : List Byte :=
  let b : List Byte := [1, 0, 0, 0, 3, 0, 0, 0] ++ List.replicate 24 0
  b ++ leBytes 4 (crcOf 0 0 0 b)
/-- A member of a group whose time is in a state (0 no source, 1 acquire, 2 settle, 3 locked, 4 holdover) from a source, with port 3 up to its neighbour. -/
def timed (st src : Nat) : State :=
  let s := ((State.reset.setPortState 3 2).setReg (Reg.SEC_SLOT 9) 64).setReg (Reg.SEC_SLOT 10) 64
  let s := (s.wr Reg.TIME_STATUS_parent_port 3).wr (Reg.FAB_PORT_STATUS_neighbour 3) 5
  (s.wr Reg.TIME_STATUS_source src).toTime st
def bringing (n : Nat) : State := { State.reset with boot := { State.reset.boot with vaon := true, perst := false, trip := false, stage := n, plan := 0 } }
def aManifest : Manifest := { granuleCount := 1, imageVersion := 1, contentId := 1, ownerKeyDigest := 0, crcs := [0], digest := 0, signature := 0 }
def genuineCopy : FwCopy := { valid := true, svn := 3, major := 1, minor := 0, digest := 0 }
/-- A package in its product life whose management interface takes commands, and the same at the end of its life. -/
def managed : State := { withHost with boot := { withHost.boot with lc := .production, recovery := false } }
def ended : State := { managed with boot := { managed.boot with lc := .endOfLife } }
def aRecord : PopRecord := { aPop with sites := List.replicate 8 { aSite with populated := false, modules := 0, powerLimitW := 0 } }
/-- A package whose granule 0 is bedrock that waits for its block `data`, asked of the manager. -/
def bedded (data : List Byte) : State :=
  { withMem with hbm := { withMem.hbm with repairs := [{ aRepair .manager with granule := 0 }] }
                 mram := { withMem.mram with manifest := some { aManifest with crcs := [crcOf 2 1 0 data] } } }
def beddedBare : State := { withMem with hbm := { withMem.hbm with repairs := [{ aRepair .manager with granule := 0 }] } }
theorem bedded_ok (data : List Byte) (h : data.length = granuleBytes) : (bedded data).bedrockOk 0 data = true := by
  have b : (bedded data).rd Reg.HBM_BEDROCK_base = 0 := by
    show withMem.rd Reg.HBM_BEDROCK_base = 0
    decide +kernel
  have e : (bedded data).mram.manifest = some { aManifest with crcs := [crcOf 2 1 0 data] } := rfl
  simp [State.bedrockOk, e, b, h]
/-- A roster that a manager sends, and a member that asked for it. -/
def rosterList : List RosterEntry := List.replicate 64 { digest := 0, serial := 0, enrolled := true }
def askedRoster : State :=
  let s := ((withConn.wr Reg.FAB_GROUP_role 1).connWr 1 Reg.FAB_CONN_DATA_state 2).connWr 1 Reg.FAB_CONN_DATA_peer 64
  { s with hier := { s.hier with rosterSeen := digestHead (rosterDigest ((rosterList.take 64).zipIdx.map (fun p => (p.2, p.1)))) } }
theorem memBytes_congr (x y : State) (a n : Nat) (h : x.hbm.mem = y.hbm.mem) (q : x.hbm.wq = y.hbm.wq) (c : x.hbm.wcb = y.hbm.wcb) :
    x.memBytes a n = y.memBytes a n := by simp only [State.memBytes, State.memByte, h, q, c]
theorem memBytes_wr (s : State) (f : Fld) (v a n : Nat) : (s.wr f v).memBytes a n = s.memBytes a n := rfl

/-! ### Well-formedness: for each check a term that it refuses, and the last one that it takes -/
theorem test_wf_ring : (Instr.descriptorFetch 8192).wf = false ∧ (Instr.descriptorFetch 8191).wf = true := by decide
theorem test_wf_tile : (Instr.dispatchStart 2048).wf = false ∧ (Instr.dispatchStart 2047).wf = true := by decide
theorem test_wf_site : (Instr.sitePgoodRise 8).wf = false ∧ (Instr.sitePgoodRise 7).wf = true := by decide
theorem test_wf_module : (Instr.sidebandUp 4 8).wf = false ∧ (Instr.sidebandUp 3 8).wf = true := by decide
theorem test_wf_port : (Instr.portRetrain 16).wf = false ∧ (Instr.portRetrain 15).wf = true := by decide
theorem test_wf_conn : (Instr.ackTimer 65536).wf = false ∧ (Instr.ackTimer 65535).wf = true := by decide
theorem test_wf_stack : (Instr.stackTempRead 8 40).wf = false ∧ (Instr.stackTempRead 7 40).wf = true := by decide
theorem test_wf_ctl : (Instr.writeBurstRelease 16 0 0).wf = false ∧ (Instr.writeBurstRelease 15 0 0).wf = true := by decide
theorem test_wf_quad : (Instr.quadSleep 32).wf = false ∧ (Instr.quadSleep 31).wf = true := by decide
theorem test_wf_mover : (Instr.moverParityError 64).wf = false ∧ (Instr.moverParityError 63).wf = true := by decide
theorem test_wf_unit : (Instr.crcUnitClaim 32).wf = false ∧ (Instr.crcUnitClaim 31).wf = true := by decide
theorem test_wf_cluster : (Instr.routerLoss 128).wf = false ∧ (Instr.routerLoss 127).wf = true := by decide
theorem test_wf_ctx : (Instr.quiescentPoint 64).wf = false ∧ (Instr.quiescentPoint 63).wf = true := by decide
theorem test_wf_granule : (Instr.zeroingPass 385024).wf = false ∧ (Instr.zeroingPass 385023).wf = true := by decide
theorem test_wf_member : (Instr.memberSilent 64).wf = false ∧ (Instr.memberSilent 63).wf = true := by decide
theorem test_wf_stream : (Instr.ideKmProgram 8 0).wf = false ∧ (Instr.ideKmProgram 7 0).wf = true := by decide
theorem test_wf_vector : (Instr.msixUnmask 2048).wf = false ∧ (Instr.msixUnmask 2047).wf = true := by decide
theorem test_wf_pin : (Instr.toutSchedule 4 0).wf = false ∧ (Instr.toutSchedule 3 0).wf = true := by decide
theorem test_wf_flow : (Instr.spillWriteAck 65536).wf = false ∧ (Instr.spillWriteAck 65535).wf = true := by decide
theorem test_wf_tag : (Instr.wake 256).wf = false ∧ (Instr.wake 255).wf = true := by decide
theorem test_wf_engine : (Instr.collDeadline 16 0).wf = false ∧ (Instr.collDeadline 15 4).wf = false ∧ (Instr.collDeadline 15 3).wf = true := by decide
theorem test_wf_mirror : (Instr.mirrorBlockCopy 64).wf = false ∧ (Instr.mirrorBlockCopy 63).wf = true := by decide
theorem test_wf_record : (Instr.faultResume 64).wf = false ∧ (Instr.faultResume 63).wf = true := by decide
theorem test_wf_link : (Instr.flitReplay 256 0 false).wf = false ∧ (Instr.flitReplay 255 0 false).wf = true := by decide
theorem test_wf_device : (Instr.openMsg 65536 0 0 0).wf = false ∧ (Instr.openMsg 65535 0 0 0).wf = true := by decide

/-! ### Worked numbers of the spec -/
/-- R158's example address: H8, channel 12, pseudo-channel 0, unit 11 in FULL-STRIPE. -/
theorem test_fullstripe : ctlOf 0 37282 0x167AC0 = 8 ∧ channelOf 0 0x167AC0 = 12 ∧ pcOf 0 0x167AC0 = 0 ∧ unitOf 0 0x167AC0 = 11 := by decide +kernel
/-- The same byte in NEAR-FIRST: H8, channel 2, pseudo-channel 1, unit 12. -/
theorem test_nearfirst : ctlOf 1 37282 0x167AC0 = 8 ∧ channelOf 1 0x167AC0 = 2 ∧ pcOf 1 0x167AC0 = 1 ∧ unitOf 1 0x167AC0 = 12 := by decide +kernel
/-- The same byte in PER-STACK: H10, channel 4, pseudo-channel 1, unit 9. -/
theorem test_perstack : ctlOf 2 37282 0x167AC0 = 10 ∧ channelOf 2 0x167AC0 = 4 ∧ pcOf 2 0x167AC0 = 1 ∧ unitOf 2 0x167AC0 = 9 := by decide +kernel
/-- R159's example on a CM3-X672 : H8 at row 42,608, what H14 would hold on H0 at 42,622, what H15 would hold on H7 at 42,623. -/
def sevenStacks : State := (withMem.wr Reg.HBM_STATUS_layout7 1).wr (Reg.HBM_STACK_STATUS_state 7) 6
theorem test_seven_stacks : sevenStacks.place 0x001234567AC0 = (8, 42608) ∧
    sevenStacks.place (0x91A2 * 2 ^ 21 + (14 ^^^ 2) * 256) = (0, 42622) ∧ sevenStacks.place (0x91A2 * 2 ^ 21 + (15 ^^^ 2) * 256) = (7, 42623) := by decide +kernel
/-- R145's example route from cluster 17 to cluster 98, and the one that avoids router 18. -/
theorem test_route : firmwareRoute [] [] 17 98 = 0x000001F00001B6C9 := by decide +kernel
theorem test_route_round_loss : firmwareRoute [18] [] 17 98 = 2 ^ 40 + 1 * 2 ^ 36 + (3 + 1 * 2 ^ 3 + 1 * 2 ^ 6 + 3 * 2 ^ 9 + 3 * 2 ^ 12 + 3 * 2 ^ 15) := by decide +kernel
/-- The order that R135 lists: 5 follows 7 in the + direction, 0 follows 1, 14 and 15 are neighbours. -/
theorem test_ring : hopTo 1 7 = 5 ∧ hopTo 2 7 = 9 ∧ hopTo 1 1 = 0 ∧ hopTo 1 14 = 15 := by decide +kernel
/-- The check values of R245's table, of the ASCII digits 1 to 9. -/
theorem test_crc : (List.range 4).map (fun code => crcReport code (crcFeed code ((List.range 9).map (fun i => BitVec.ofNat 8 (0x31 + i))) (crcInit code))) =
    [0xE3069283, 0xCBF43926, 0x6C40DF5F0B497347, 0x29B1] := by decide +kernel
/-- R320's example: candidate 165 % 2 of the entry 0x0005_0073 is P7, and P3 alone once P7 is down. -/
def twoPorts : State := { (State.reset.setPortState 3 2).setPortState 7 2 with fab := { FabSt.none with fwd := [(1024 + 5, 0x00050073)] } }
theorem test_next_port : twoPorts.nextPort 5 165 = some 7 ∧ (twoPorts.setPortState 7 0).nextPort 5 165 = some 3 ∧ twoPorts.nextPort 6 165 = none := by decide +kernel
/-- The population of R38's example: two sites of 280 W and four of 45 W leave 1,440 W of 2,600 W. -/
def sixSites : List PopSite := [280, 280, 0, 0, 45, 45, 45, 45].map (fun w => { aSite with populated := decide (w ≠ 0), powerLimitW := w })
theorem test_pop_sum : popSum { aPop with sites := sixSites } = 740 := by decide +kernel
/-- R480's decoding of three offsets, and the identity of R483. -/
theorem test_offsets : Reg.SITE_REC_CMD 1 = 0x1080084 ∧ Reg.QM_RING_CFG 40 = 0x580A10 ∧ findReg 0x3441834 = none := by decide +kernel
theorem test_glb_id : (State.reset.loadFuses).reg Reg.GLB_ID = 0x0C0301B1 := by decide +kernel
/-- A shift of every 0.5: the FP64 codes of 1, the least subnormal and the largest finite value. -/
theorem test_fp64 : fltFp64.encode false 1 1 0 = 0x3FF0000000000000 ∧ fltFp64.encode false 1 1 (-1074) = 1 ∧ fltFp64.encode false 1 1 1024 = 0x7FF0000000000000 := by decide +kernel
/-- Nearest even (R90): 2.5 goes to 2 and 3.5 to 4, and E4M3 saturates at 448. -/
theorem test_nearest : drainInt .nearest 5 (-1) = 2 ∧ drainInt .nearest 7 (-1) = 4 ∧ (drainFlt fltE4m3 .nearest 1000 1 0) = (0x7E, true) := by decide +kernel
/-- R92: one step of the state 1 gives the mask. -/
theorem test_lfsr : lfsrStep 1 = 0x80200003 ∧ lfsrStep 2 = 1 := by decide +kernel
/-- The queue is taken first in, first out. -/
theorem test_queue : (match step { State.reset with pending := [.wakeHoldExpiry 0, .wakeHoldExpiry 1] } with | .next t => t.pending | _ => []) = [.wakeHoldExpiry 1] := by decide +kernel
/-- RAS_ALERT.fatal pulls ALERT_N low at once. -/
theorem test_alert : (State.reset.alert Reg.RAS_ALERT_fatal).out = [.pin .alertN false] := by decide +kernel

/-! ### The hypotheses of each statement can be met -/
theorem witness_GlbAndSubstitutionCommandsTakeEffect_glbCommit : (let s : State := State.reset; let v : Word := 1; decide ((bits v.toNat 0 0 = 1) ∧ (s.shf Reg.DUTY_MODE_desc_translation = 0) ∧ (s.shf Reg.GLB_DRV_INFO_drv_api ≤ 2))) = true := by decide +kernel
theorem witness_GlbAndSubstitutionCommandsTakeEffect_glbSubstCmd : (let s : State := State.reset.wr ⟨Reg.DUTY_ACTIVE, 5, 5⟩ 1; decide ((s.duty 5 = true))) = true := by decide +kernel
theorem witness_GlbAndSubstitutionCommandsTakeEffect_quiescentPoint : (let s : State := State.reset; let ctx : Nat := 3; decide ((ctx < 64) ∧ (s.ctxIdle ctx = true) ∧ (s.duty 5 = false))) = true := by decide +kernel
theorem witness_GlbAndSubstitutionCommandsTakeEffect_substitutionsEnd : (let s : State := { State.reset with glb := { State.reset.glb with armed := [64 + 3] } }; let ctx : Nat := 3; decide ((ctx < 64) ∧ (s.glb.armed.contains (64 + ctx) = true))) = true := by decide +kernel
theorem witness_SitePowerAndTemperatureCommandsTakeEffect_sitePowerTelemetry_0 : (let s : State := (((State.reset.wr (Reg.SITE_STATE_state 2) 5).wr (Reg.SITE_POP_populated 2) 1).wr (Reg.SITE_POP_power_limit_w 2) 200).wr (Reg.SITE_PWR_LIMIT_pwr_limit_w 2) 200; let n : Nat := 2; decide ((n < 8) ∧ (s.siteDraws n = true) ∧ ((s.takeLimit n).on (Reg.SITE_PWR_STATUS_unmonitored n) = false))) = true := by decide +kernel
theorem witness_SitePowerAndTemperatureCommandsTakeEffect_sitePowerTelemetry_1 : (let s : State := (((State.reset.wr (Reg.SITE_STATE_state 2) 5).wr (Reg.SITE_POP_populated 2) 1).wr (Reg.SITE_POP_power_limit_w 2) 200).wr (Reg.SITE_PWR_LIMIT_pwr_limit_w 2) 200; let n : Nat := 2; let w : Nat := 100; decide ((n < 8) ∧ (s.siteDraws n = true) ∧ (((s.takeLimit n).site n).readings.length + 1 < 100) ∧ (w ≤ (s.takeLimit n).rd (Reg.SITE_PWR_LIMIT_pwr_limit_w n)))) = true := by decide +kernel
theorem witness_SitePowerAndTemperatureCommandsTakeEffect_powerOverrunTimeout : (let s : State := ((((State.reset.wr (Reg.SITE_STATE_state 2) 5).wr (Reg.SITE_POP_populated 2) 1).wr (Reg.SITE_POP_power_limit_w 2) 200).wr (Reg.SITE_PWR_LIMIT_pwr_limit_w 2) 200).setSite 2 { SiteSt.off with overrun := 1 }; let n : Nat := 2; decide ((n < 8) ∧ ((s.site n).overrun = 1))) = true := by decide +kernel
theorem witness_SitePowerAndTemperatureCommandsTakeEffect_powerCapDeadline : (let s : State := ((((State.reset.wr (Reg.SITE_STATE_state 2) 5).wr (Reg.SITE_POP_populated 2) 1).wr (Reg.SITE_POP_power_limit_w 2) 200).wr (Reg.SITE_PWR_LIMIT_pwr_limit_w 2) 200).setSite 2 { SiteSt.off with overrun := 2 }; let n : Nat := 2; decide ((n < 8) ∧ ((s.site n).overrun = 2))) = true := by decide +kernel
theorem witness_SitePowerAndTemperatureCommandsTakeEffect_temperatureReport : (let s : State := withPop (((((State.reset.wr (Reg.SITE_STATE_state 2) 5).wr (Reg.SITE_POP_populated 2) 1).wr (Reg.SITE_POP_power_limit_w 2) 200).wr (Reg.SITE_PWR_LIMIT_pwr_limit_w 2) 200).setSite 2 { SiteSt.off with tempReports := 9 }); let n : Nat := 2; let tempC : Nat := 70; let p : PopSite := aSite; decide ((n < 8) ∧ (s.siteDark n = false) ∧ ((s.site n).tempReports = 9) ∧ (s.popSite n = some p) ∧ (tempC < p.tempLimitC))) = true := by decide +kernel
theorem witness_SitePowerAndTemperatureCommandsTakeEffect_temperatureSilence : (let s : State := ((((State.reset.wr (Reg.SITE_STATE_state 2) 5).wr (Reg.SITE_POP_populated 2) 1).wr (Reg.SITE_POP_power_limit_w 2) 200).wr (Reg.SITE_PWR_LIMIT_pwr_limit_w 2) 200).setSite 2 { SiteSt.off with tempAsked := true }; let n : Nat := 2; decide ((n < 8) ∧ ((s.site n).tempAsked = true))) = true := by decide +kernel
theorem witness_SitePowerAndTemperatureCommandsTakeEffect_thermalTripMessage : (let s : State := State.reset; let n : Nat := 2; decide ((n < 8))) = true := by decide +kernel
theorem witness_SiteBringUpCommandsTakeEffect_sitePwrenAssert : (let s : State := { State.reset with boot := { State.reset.boot with perst := false, stage := 1 } }; decide ((s.boot.perst = false) ∧ (s.boot.trip = false) ∧ (s.boot.sysref = true) ∧ (s.boot.stage ≠ 0) ∧ (s.boot.plan < 3))) = true := by decide +kernel
theorem witness_SiteBringUpCommandsTakeEffect_sitePgoodRise : (let s : State := (State.reset.wr (Reg.SITE_STATE_state 2) 1).setSite 2 { SiteSt.off with pwren := true }; let n : Nat := 2; decide ((n < 8) ∧ ((s.site n).pwren = true) ∧ (s.siteState n = 1))) = true := by decide +kernel
theorem witness_SiteBringUpCommandsTakeEffect_sitePgoodTimeout : (let s : State := State.reset.wr (Reg.SITE_STATE_state 2) 1; let n : Nat := 2; decide ((n < 8) ∧ (s.siteState n = 1) ∧ ((s.site n).pgood = false) ∧ ((s.site n).cycling = false))) = true := by decide +kernel
theorem witness_SiteBringUpCommandsTakeEffect_sidebandUp : (let s : State := State.reset.wr (Reg.SITE_MOD_STATUS_state 2 1) 2; let n : Nat := 2; let m : Nat := 1; decide ((Machine.moduleOk n m = true) ∧ (s.modState n m = 2))) = true := by decide +kernel
theorem witness_SiteBringUpCommandsTakeEffect_sidebandTimeout : (let s : State := State.reset.wr (Reg.SITE_STATE_state 2) 2; let n : Nat := 2; decide ((n < 8) ∧ (s.siteState n = 2))) = true := by decide +kernel
theorem witness_SiteBringUpCommandsTakeEffect_identityBlockRead : (let s : State := withPop (State.reset.wr (Reg.SITE_STATE_state 2) 3); let n : Nat := 2; let block : IdentityBlock := aBlock; let p : PopSite := aSite; decide ((n < 8) ∧ (s.siteState n = 3) ∧ (bits block.hi.toNat 31 0 ≤ 16384) ∧ (s.popSite n = some p) ∧ (identityMatches p block = true))) = true := by decide +kernel
theorem witness_SiteBringUpCommandsTakeEffect_identityTimeout : (let s : State := State.reset.wr (Reg.SITE_STATE_state 2) 3; let n : Nat := 2; decide ((n < 8) ∧ (s.siteState n = 3) ∧ ((s.site n).resetPending = false))) = true := by decide +kernel
theorem witness_SiteBringUpCommandsTakeEffect_spdmResponse : (let s : State := State.reset.setSite 2 { SiteSt.off with spdmStep := 1 }; let n : Nat := 2; let answer : SpdmAnswer := { refused := false, rootDigest := 0, nonce := 0, measurement := 0, signature := 0 }; decide ((n < 8) ∧ (0 < (s.site n).spdmStep) ∧ ((s.site n).spdmStep < 7) ∧ (s.spdmBad n answer = false))) = true := by decide +kernel
theorem witness_SiteBringUpCommandsTakeEffect_spdmTimeout : (let s : State := State.reset.setSite 2 { SiteSt.off with spdmStep := 3 }; let n : Nat := 2; decide ((n < 8) ∧ ((s.site n).spdmStep ≠ 0))) = true := by decide +kernel
theorem witness_SiteBringUpCommandsTakeEffect_sitePgoodFall : (let s : State := State.reset.setSite 2 { SiteSt.off with pgood := true }; let n : Nat := 2; decide ((n < 8) ∧ ((s.site n).pgood = true) ∧ ((s.site n).cycling = false))) = true := by decide +kernel
theorem witness_SiteBringUpCommandsTakeEffect_siteResetTimeout : (let s : State := State.reset.setSite 2 { SiteSt.off with resetPending := true }; let n : Nat := 2; decide ((n < 8) ∧ ((s.site n).resetPending = true))) = true := by decide +kernel
theorem witness_SiteBringUpCommandsTakeEffect_sitePowerCycleEnd : (let s : State := State.reset.setSite 2 { SiteSt.off with cycling := true }; let n : Nat := 2; decide ((n < 8) ∧ ((s.site n).cycling = true))) = true := by decide +kernel
theorem witness_SiteBringUpCommandsTakeEffect_siteCommit : (let s : State := State.reset; let n : Nat := 2; let v : Word := 1; decide ((n < 8) ∧ (bits v.toNat 0 0 = 1) ∧ (s.shf (Reg.SITE_PWR_LIMIT_pwr_limit_w n) ≤ s.rd (Reg.SITE_POP_power_limit_w n)) ∧ (s.shf (Reg.SITE_LINK_CFG_max_rate n) ≤ 4) ∧ (s.shf (Reg.SITE_LINK_CFG_retry_limit n) ≠ 0))) = true := by decide +kernel
theorem witness_VectorInstructionsExecute_vld : (let s : State := coreAt 3149995; let tile : Nat := 0; let w : Nat := 3149995; let u : State := ((coreAt 3149995).fetchInst 0).2; let v : State := ((coreAt 3149995).fetchInst 0).2; let bs : List Byte := List.replicate 64 0; decide ((s.coreRuns tile = true) ∧ (s.fetchInst tile = (.inst w 4, u)) ∧ (opOfInst w 4 = .vec 0) ∧ (accessTrap (u.rs1 tile w) 64 cLoadAlign cLoadAccess = none) ∧ (u.tileRead tile agVector (u.rs1 tile w) 64 = (some bs, v)) ∧ ((v.tile tile).run.isSome = true))) = true := by decide +kernel
theorem witness_VectorInstructionsExecute_vst : (let s : State := coreAt 36704427; let tile : Nat := 0; let w : Nat := 36704427; let u : State := ((coreAt 36704427).fetchInst 0).2; decide ((s.coreRuns tile = true) ∧ (s.fetchInst tile = (.inst w 4, u)) ∧ (opOfInst w 4 = .vec 1) ∧ (accessTrap (u.rs1 tile w) 64 cStoreAlign cStoreAccess = none))) = true := by decide +kernel
theorem witness_VectorInstructionsExecute_vadd : (let s : State := coreAt 70324395; let tile : Nat := 0; let w : Nat := 70324395; let u : State := ((coreAt 70324395).fetchInst 0).2; decide ((s.coreRuns tile = true) ∧ (s.fetchInst tile = (.inst w 4, u)) ∧ (opOfInst w 4 = .vec 2))) = true := by decide +kernel
theorem witness_VectorInstructionsExecute_vsub : (let s : State := coreAt 103878827; let tile : Nat := 0; let w : Nat := 103878827; let u : State := ((coreAt 103878827).fetchInst 0).2; decide ((s.coreRuns tile = true) ∧ (s.fetchInst tile = (.inst w 4, u)) ∧ (opOfInst w 4 = .vec 3))) = true := by decide +kernel
theorem witness_VectorInstructionsExecute_vmul : (let s : State := coreAt 137433259; let tile : Nat := 0; let w : Nat := 137433259; let u : State := ((coreAt 137433259).fetchInst 0).2; decide ((s.coreRuns tile = true) ∧ (s.fetchInst tile = (.inst w 4, u)) ∧ (opOfInst w 4 = .vec 4))) = true := by decide +kernel
theorem witness_VectorInstructionsExecute_vfma : (let s : State := coreAt 170987691; let tile : Nat := 0; let w : Nat := 170987691; let u : State := ((coreAt 170987691).fetchInst 0).2; decide ((s.coreRuns tile = true) ∧ (s.fetchInst tile = (.inst w 4, u)) ∧ (opOfInst w 4 = .vec 5))) = true := by decide +kernel
theorem witness_VectorInstructionsExecute_vmax : (let s : State := coreAt 204542123; let tile : Nat := 0; let w : Nat := 204542123; let u : State := ((coreAt 204542123).fetchInst 0).2; decide ((s.coreRuns tile = true) ∧ (s.fetchInst tile = (.inst w 4, u)) ∧ (opOfInst w 4 = .vec 6))) = true := by decide +kernel
theorem witness_VectorInstructionsExecute_vmin : (let s : State := coreAt 238096555; let tile : Nat := 0; let w : Nat := 238096555; let u : State := ((coreAt 238096555).fetchInst 0).2; decide ((s.coreRuns tile = true) ∧ (s.fetchInst tile = (.inst w 4, u)) ∧ (opOfInst w 4 = .vec 7))) = true := by decide +kernel
theorem witness_VectorInstructionsExecute_vcvt : (let s : State := coreAt 271650987; let tile : Nat := 0; let w : Nat := 271650987; let u : State := ((coreAt 271650987).fetchInst 0).2; decide ((s.coreRuns tile = true) ∧ (s.fetchInst tile = (.inst w 4, u)) ∧ (opOfInst w 4 = .vec 8))) = true := by decide +kernel
theorem witness_VectorInstructionsExecute_vredsum : (let s : State := coreAt 305205419; let tile : Nat := 0; let w : Nat := 305205419; let u : State := ((coreAt 305205419).fetchInst 0).2; decide ((s.coreRuns tile = true) ∧ (s.fetchInst tile = (.inst w 4, u)) ∧ (opOfInst w 4 = .vec 9))) = true := by decide +kernel
theorem witness_VectorInstructionsExecute_vbcast : (let s : State := coreAt 338759851; let tile : Nat := 0; let w : Nat := 338759851; let u : State := ((coreAt 338759851).fetchInst 0).2; decide ((s.coreRuns tile = true) ∧ (s.fetchInst tile = (.inst w 4, u)) ∧ (opOfInst w 4 = .vec 10))) = true := by decide +kernel
theorem witness_VectorInstructionsExecute_vmvx : (let s : State := coreAt 372314283; let tile : Nat := 0; let w : Nat := 372314283; let u : State := ((coreAt 372314283).fetchInst 0).2; decide ((s.coreRuns tile = true) ∧ (s.fetchInst tile = (.inst w 4, u)) ∧ (opOfInst w 4 = .vec 11))) = true := by decide +kernel
theorem witness_VectorInstructionsExecute_vexp2 : (let s : State := coreAt 405868715; let tile : Nat := 0; let w : Nat := 405868715; let u : State := ((coreAt 405868715).fetchInst 0).2; decide ((s.coreRuns tile = true) ∧ (s.fetchInst tile = (.inst w 4, u)) ∧ (opOfInst w 4 = .vec 12))) = true := by decide +kernel
theorem witness_VectorInstructionsExecute_vrecip : (let s : State := coreAt 439423147; let tile : Nat := 0; let w : Nat := 439423147; let u : State := ((coreAt 439423147).fetchInst 0).2; decide ((s.coreRuns tile = true) ∧ (s.fetchInst tile = (.inst w 4, u)) ∧ (opOfInst w 4 = .vec 13))) = true := by decide +kernel
theorem witness_VectorInstructionsExecute_vside : (let s : State := coreAt 536870955; let tile : Nat := 0; let w : Nat := 536870955; let u : State := ((coreAt 536870955).fetchInst 0).2; decide ((s.coreRuns tile = true) ∧ (s.fetchInst tile = (.inst w 4, u)) ∧ (opOfInst w 4 = .vec 16) ∧ (cfgSlice (u.tile tile).cfg = false) ∧ (u.rs1 tile w / 2 ^ 28 = 0) ∧ (u.rs2 tile w / 2 ^ 40 = 0) ∧ (bits (u.rs1 tile w) 19 0 % 8 = 0) ∧ (cfgForm (u.tile tile).cfg = 0 ∨ u.rs2 tile w = 0) ∧ (cfgForm (u.tile tile).cfg ≠ 0 ∨ fmtBlock (cfgA (u.tile tile).cfg) = true ∨ bits (u.rs2 tile w) 39 20 = 0) ∧ (bits (u.rs1 tile w) 19 0 + (if cfgForm (u.tile tile).cfg = 1 then 2048 else 512) ≤ scratchBytes) ∧ (cfgForm (u.tile tile).cfg ≠ 0 ∨ bits (u.rs2 tile w) 19 0 + 32 ≤ scratchBytes))) = true := by decide +kernel
theorem witness_MatrixAndDmaInstructionsExecute_mcfg : (let s : State := coreAt 0xb; let tile : Nat := 0; let w : Nat := 0xb; let u : State := ((coreAt 0xb).fetchInst 0).2; decide ((s.coreRuns tile = true) ∧ (s.fetchInst tile = (.inst w 4, u)) ∧ (opOfInst w 4 = .mcfg) ∧ (cfgOk (u.rs1 tile w) = true))) = true := by decide +kernel
theorem witness_MatrixAndDmaInstructionsExecute_mloadb : (let s : State := coreAt 0x100b; let tile : Nat := 0; let w : Nat := 0x100b; let u : State := ((coreAt 0x100b).fetchInst 0).2; decide ((s.coreRuns tile = true) ∧ (s.fetchInst tile = (.inst w 4, u)) ∧ (opOfInst w 4 = .mloadb) ∧ (bits (u.rs1 tile w) 19 0 % (if cfgForm (u.tile tile).cfg = 0 then 2048 else 128) = 0) ∧ (bits (u.rs1 tile w) 19 0 + statBytes (u.tile tile).cfg ≤ scratchBytes))) = true := by decide +kernel
theorem witness_MatrixAndDmaInstructionsExecute_mstream : (let s : State := coreAt 0x200b; let tile : Nat := 0; let w : Nat := 0x200b; let u : State := ((coreAt 0x200b).fetchInst 0).2; decide ((s.coreRuns tile = true) ∧ (s.fetchInst tile = (.inst w 4, u)) ∧ (opOfInst w 4 = .mstream) ∧ (u.rs1 tile w / 2 ^ 36 = 0) ∧ (bits (u.rs1 tile w) 35 28 + bits (u.rs1 tile w) 27 20 + 1 ≤ (if cfgForm (u.tile tile).cfg = 1 then 256 else 64)) ∧ (bits (u.rs1 tile w) 19 0 % streamBytes (u.tile tile).cfg = 0) ∧ (cfgSlice (u.tile tile).cfg = false ∨ bit w 31 = false) ∧ (bit w 28 = false ∨ cfgA (u.tile tile).cfg < 4 ∧ cfgB (u.tile tile).cfg < 4) ∧ (bits (u.rs1 tile w) 19 0 + streamBytes (u.tile tile).cfg * (bits (u.rs1 tile w) 27 20 + 1) ≤ scratchBytes))) = true := by decide +kernel
theorem witness_MatrixAndDmaInstructionsExecute_mdrain : (let s : State := (coreAt (0x300B + 1 * 2 ^ 20)).setX 0 1 256; let tile : Nat := 0; let w : Nat := (0x300B + 1 * 2 ^ 20); let u : State := (((coreAt (0x300B + 1 * 2 ^ 20)).setX 0 1 256).fetchInst 0).2; decide ((s.coreRuns tile = true) ∧ (s.fetchInst tile = (.inst w 4, u)) ∧ (opOfInst w 4 = .mdrain) ∧ (u.rs1 tile w / 2 ^ 32 = 0) ∧ (bits (u.rs1 tile w) 19 0 % 32 = 0) ∧ (bits (u.rs1 tile w) 25 20 + bits (u.rs1 tile w) 31 26 < 64) ∧ (bits (u.rs2 tile w) 19 0 % 32 = 0) ∧ (imageBytes (bits w 28 25) ≤ bits (u.rs2 tile w) 19 0) ∧ (bits (u.rs1 tile w) 19 0 + bits (u.rs1 tile w) 31 26 * bits (u.rs2 tile w) 19 0 + imageBytes (bits w 28 25) ≤ scratchBytes) ∧ (bits w 28 25 < 12) ∧ (cfgSlice (u.tile tile).cfg = false ∨ bit w 31 = false ∧ (bits w 28 25 < 4 ∨ bits w 28 25 = 11)))) = true := by decide +kernel
theorem witness_MatrixAndDmaInstructionsExecute_mzero : (let s : State := coreAt 0x400b; let tile : Nat := 0; let w : Nat := 0x400b; let u : State := ((coreAt 0x400b).fetchInst 0).2; decide ((s.coreRuns tile = true) ∧ (s.fetchInst tile = (.inst w 4, u)) ∧ (opOfInst w 4 = .mzero) ∧ (cfgSlice (u.tile tile).cfg = false ∨ bit w 31 = false))) = true := by decide +kernel
theorem witness_MatrixAndDmaInstructionsExecute_mfence : (let s : State := coreAt 0x500b; let tile : Nat := 0; let w : Nat := 0x500b; let u : State := ((coreAt 0x500b).fetchInst 0).2; decide ((s.coreRuns tile = true) ∧ (s.fetchInst tile = (.inst w 4, u)) ∧ (opOfInst w 4 = .mfence))) = true := by decide +kernel
theorem witness_MatrixAndDmaInstructionsExecute_tdma : (let s : State := (coreAt (0x600B + 1 * 2 ^ 20)).setX 0 1 (BitVec.ofNat 64 (8 * 2 ^ 20)); let tile : Nat := 0; let w : Nat := (0x600B + 1 * 2 ^ 20); let u : State := (((coreAt (0x600B + 1 * 2 ^ 20)).setX 0 1 (BitVec.ofNat 64 (8 * 2 ^ 20))).fetchInst 0).2; decide ((s.coreRuns tile = true) ∧ (s.fetchInst tile = (.inst w 4, u)) ∧ (opOfInst w 4 = .tdma) ∧ (tdmaOk (u.rs1 tile w) (u.rs2 tile w) = true) ∧ (u.glb.stop = 0) ∧ ((u.tile tile).tdma.length < 16) ∧ ((u.tile tile).tdma.any (fun c => c.tag == bits (u.rs2 tile w) 43 40) = false))) = true := by decide +kernel
theorem witness_MatrixAndDmaInstructionsExecute_tdmaf : (let s : State := (coreAt (0x600B + 2 ^ 25 + 1 * 2 ^ 20)).setX 0 1 (BitVec.ofNat 64 (8 * 2 ^ 20)); let tile : Nat := 0; let w : Nat := (0x600B + 2 ^ 25 + 1 * 2 ^ 20); let u : State := (((coreAt (0x600B + 2 ^ 25 + 1 * 2 ^ 20)).setX 0 1 (BitVec.ofNat 64 (8 * 2 ^ 20))).fetchInst 0).2; decide ((s.coreRuns tile = true) ∧ (s.fetchInst tile = (.inst w 4, u)) ∧ (opOfInst w 4 = .tdmaf) ∧ (tdmaOk (u.rs1 tile w) (u.rs2 tile w) = true) ∧ (u.glb.stop = 0) ∧ ((u.tile tile).tdma = []))) = true := by decide +kernel
theorem witness_MatrixAndDmaInstructionsExecute_twait : (let s : State := coreAt 0x400600b; let tile : Nat := 0; let w : Nat := 0x400600b; let u : State := ((coreAt 0x400600b).fetchInst 0).2; decide ((s.coreRuns tile = true) ∧ (s.fetchInst tile = (.inst w 4, u)) ∧ (opOfInst w 4 = .twait))) = true := by decide +kernel
theorem witness_MatrixAndDmaInstructionsExecute_tpoll : (let s : State := coreAt 0x600600b; let tile : Nat := 0; let w : Nat := 0x600600b; let u : State := ((coreAt 0x600600b).fetchInst 0).2; decide ((s.coreRuns tile = true) ∧ (s.fetchInst tile = (.inst w 4, u)) ∧ (opOfInst w 4 = .tpoll) ∧ (accessTrap (u.rs1 tile w) 8 cLoadAlign cLoadAccess = none))) = true := by decide +kernel
theorem witness_MatrixAndDmaInstructionsExecute_tend : (let s : State := coreAt 0x700b; let tile : Nat := 0; let w : Nat := 0x700b; let u : State := ((coreAt 0x700b).fetchInst 0).2; decide ((s.coreRuns tile = true) ∧ (s.fetchInst tile = (.inst w 4, u)) ∧ (opOfInst w 4 = .tend) ∧ ((u.tile tile).tdma = []))) = true := by decide +kernel
theorem witness_MatrixAndDmaInstructionsExecute_fenceI : (let s : State := coreAt 0x100f; let tile : Nat := 0; let w : Nat := 0x100f; let u : State := ((coreAt 0x100f).fetchInst 0).2; decide ((s.coreRuns tile = true) ∧ (s.fetchInst tile = (.inst w 4, u)) ∧ (opOfInst w 4 = .fenceI))) = true := by decide +kernel
theorem witness_MatrixAndDmaInstructionsExecute_controlCoreInstruction : (let s : State := coreAt 0x00000013; let tile : Nat := 0; let w : Nat := 0x13; let len : Nat := 4; let u : State := ((coreAt 0x00000013).fetchInst 0).2; decide ((s.coreRuns tile = true) ∧ (s.fetchInst tile = (.inst w len, u)) ∧ (opOfInst w len = .std))) = true := by decide +kernel
theorem witness_MatrixAndDmaInstructionsExecute_mfenceRelease : (let s : State := waiting .fence; let tile : Nat := 0; decide (((s.tile tile).wait = .fence))) = true := by decide +kernel
theorem witness_MatrixAndDmaInstructionsExecute_twaitRelease : (let s : State := waiting (.tags 5); let tile : Nat := 0; let m : Nat := 5; decide (((s.tile tile).wait = .tags m) ∧ ((s.tile tile).tdma.any (fun c => bit m c.tag) = false))) = true := by decide +kernel
theorem witness_MatrixAndDmaInstructionsExecute_tpollRelease : (let s : State := waiting (.poll 8 5); let tile : Nat := 0; let a : Nat := 8; let v : Nat := 5; let bs : List Byte := List.replicate 8 0; let u : State := (waiting (.poll 8 5)); decide (((s.tile tile).wait = .poll a v) ∧ (s.tileRead tile agCore a 8 = (some bs, u)) ∧ (leValue bs ≠ v))) = true := by decide +kernel
theorem witness_MatrixAndDmaInstructionsExecute_tdmaComplete : (let s : State := withTiles.setTile 0 { TileSt.idle with run := some aDisp, tdma := [{ tag := 2, toMem := true, va := 0, scr := 0, len := 8, pos := 8, held := none, buf := none, bad := false }] }; let tile : Nat := 0; let tag : Nat := 2; let d : TileDisp := aDisp; decide (((s.tile tile).run = some d) ∧ ((s.tdmaOf tile tag).isSome = true) ∧ (s.tilePaused tile = false) ∧ (s.quadRuns (s.quadOf tile) = true))) = true := by decide +kernel
theorem witness_KernelAndScratchEventsTakeEffect_dispatchStart : (let s : State := withTiles.setTile 0 { TileSt.idle with queue := [aDisp] }; let tile : Nat := 0; let d : TileDisp := aDisp; let rest : List TileDisp := []; decide (((s.tile tile).run = none) ∧ ((s.tile tile).queue = d :: rest) ∧ (s.glb.stop = 0) ∧ (s.tileFenced tile = false) ∧ (s.quadRuns (s.quadOf tile) = true))) = true := by decide +kernel
theorem witness_KernelAndScratchEventsTakeEffect_kernelTrap_1 : (let s : State := coreAt 0x700000B; let tile : Nat := 0; let w : Nat := 0x700000B; let len : Nat := 4; let cause : Nat := cIllegal; let u : State := ((coreAt 0x700000B).fetchInst 0).2; let v : State := ((coreAt 0x700000B).fetchInst 0).2; decide ((s.coreRuns tile = true) ∧ (s.fetchInst tile = (.inst w len, u)) ∧ (u.opInst tile w len (opOfInst w len) = .trap cause v))) = true := by decide +kernel
theorem witness_KernelAndScratchEventsTakeEffect_kernelTrap_2 : (let s : State := withTiles.setTile 0 { TileSt.idle with run := some aDisp, pc := 0xA0000 }; let tile : Nat := 0; let cause : Nat := cIAccess; let u : State := (withTiles.setTile 0 { TileSt.idle with run := some aDisp, pc := 0xA0000 }); decide ((s.coreRuns tile = true) ∧ (s.fetchInst tile = (.fault cause, u)))) = true := by decide +kernel
theorem witness_KernelAndScratchEventsTakeEffect_kernelTimeout : (let s : State := (withTiles.setTile 0 { TileSt.idle with run := some { aDisp with limitUs := 5 } }).setReg Reg.TIME_NOW 0x100000; let tile : Nat := 0; let d : TileDisp := { aDisp with limitUs := 5 }; decide (((s.tile tile).run = some d) ∧ (d.limitUs ≠ 0) ∧ (d.limitUs * 2 ^ 32 / 1000000 ≤ s.now - (s.tile tile).startedAt))) = true := by decide +kernel
theorem witness_KernelAndScratchEventsTakeEffect_tileFailure : (let s : State := State.reset; let cause : Nat := 0x11; decide ((cause = 0x10 ∨ cause = 0x11 ∨ cause = 0x13))) = true := by decide +kernel
theorem witness_KernelAndScratchEventsTakeEffect_perfCounterWrap_6 : (let s : State := withTiles.wr (Reg.TILE_CFG_perf_run 0 0) 1; let tile : Nat := 0; let which : Nat := 0; decide ((s.tileUnmapped tile = false) ∧ (s.on (Reg.TILE_CFG_perf_run (tile / 16) (tile % 16)) = true) ∧ (which = 0))) = true := by decide +kernel
theorem witness_KernelAndScratchEventsTakeEffect_perfCounterWrap_7 : (let s : State := withTiles.wr (Reg.TILE_CFG_perf_run 0 0) 1; let tile : Nat := 0; let which : Nat := 1; decide ((s.tileUnmapped tile = false) ∧ (s.on (Reg.TILE_CFG_perf_run (tile / 16) (tile % 16)) = true) ∧ (which ≠ 0))) = true := by decide +kernel
theorem witness_NetworkCommandsTakeEffect_nocRequestTimeout_4 : (let s : State := withTiles.setTile 0 { TileSt.idle with run := some aDisp, tdma := [{ tag := 2, toMem := true, va := 0, scr := 0, len := 8, pos := 8, held := none, buf := none, bad := false }] }; let t : Nat := 0; decide (((s.tile t).run.isSome = true) ∧ ((s.tile t).tdma.any (fun c => s.endsByTimeout (.tile t c.tag)) = true))) = true := by decide +kernel
theorem witness_NetworkCommandsTakeEffect_nocRequestTimeout_5 : (let s : State := aRun; let r : Nat := 0; let seq : Nat := 1; let d : Run := aRunRec; decide ((s.runOf r seq = some d) ∧ (d.status = none) ∧ (s.endsByTimeout (.run r seq) = true))) = true := by decide +kernel
theorem witness_NetworkCommandsTakeEffect_nocCommit : (let s : State := State.reset; let v : Word := 1; decide ((bit v.toNat 0 = true) ∧ (100 ≤ s.shf Reg.NOC_CFG_timeout_us) ∧ (s.shf Reg.NOC_CFG_timeout_us ≤ 10000) ∧ (s.badRoute = none))) = true := by decide +kernel
theorem witness_MemoryCommandsTakeEffect_wcbAgeExpiry : (let s : State := { withMem with hbm := { withMem.hbm with wcb := [{ line := 4, ctl := 0, stream := false, bytes := [], bad := [] }] } }; let line : Nat := 4; let e : WcbEntry := { line := 4, ctl := 0, stream := false, bytes := [], bad := [] }; decide ((s.wcbOf line = some e))) = true := by decide +kernel
theorem witness_MemoryCommandsTakeEffect_scrubVisit_5 : (let s : State := withMem; let addr : Nat := 64; let ecc : Ecc := .corrected; decide ((addr < s.memTop) ∧ (s.serves addr = true) ∧ (s.injected addr 32 ecc = .corrected))) = true := by decide +kernel
theorem witness_MemoryCommandsTakeEffect_scrubVisit_6 : (let s : State := withMem; let addr : Nat := 64; let ecc : Ecc := .uncorrectable; decide ((addr < s.memTop) ∧ (s.serves addr = true) ∧ (s.injected addr 32 ecc = .uncorrectable) ∧ ((s.own (addr / granuleBytes)).bedrock = false) ∧ ((s.useInjection addr 32).sectorPoisoned (addr / 32) = false))) = true := by decide +kernel
theorem witness_MemoryCommandsTakeEffect_pprRepair : (let s : State := { withMem with hbm := { withMem.hbm with rowList := [aRow] } }; let r : RowErr := aRow; let t : List RowErr := []; decide ((s.hbm.rowList = r :: t))) = true := by decide +kernel
theorem witness_MemoryCommandsTakeEffect_pprDismiss : (let s : State := { withMem with hbm := { withMem.hbm with rowList := [aRow] } }; let r : RowErr := aRow; let t : List RowErr := []; decide ((s.hbm.rowList = r :: t))) = true := by decide +kernel
theorem witness_MemoryCommandsTakeEffect_stackTempRead : (let s : State := withMem; let stack : Nat := 2; decide ((stack < 8) ∧ (s.rd (Reg.HBM_STACK_STATUS_state stack) < 5) ∧ (s.fuse.part ≠ Part.x672 ∨ stack ≠ 7))) = true := by decide +kernel
theorem witness_MemoryCommandsTakeEffect_granSet : (let s : State := withMem; decide ((s.on Reg.HBM_GRAN_STATUS_busy = false) ∧ (s.rd Reg.HBM_GRAN_RANGE_first + s.rd Reg.HBM_GRAN_RANGE_count_m1 + 1 ≤ s.granules) ∧ (s.rd Reg.HBM_GRAN_ATTR_mode ≠ 3))) = true := by decide +kernel
theorem witness_MemoryCommandsTakeEffect_granSetZero : (let s : State := withMem; decide ((s.on Reg.HBM_GRAN_STATUS_busy = false) ∧ (s.rd Reg.HBM_GRAN_RANGE_first + s.rd Reg.HBM_GRAN_RANGE_count_m1 + 1 ≤ s.granules) ∧ (s.rd Reg.HBM_GRAN_ATTR_mode ≠ 3))) = true := by decide +kernel
theorem witness_MemoryCommandsTakeEffect_granDrainDone : (let s : State := { withMem with hbm := { withMem.hbm with gran := some { zero := false, next := 3, last := 3, owner := 2, mode := 0 } } }; let op : GranOp := { zero := false, next := 3, last := 3, owner := 2, mode := 0 }; decide ((s.hbm.gran = some op) ∧ (s.rangeHeld (op.next * granuleBytes) granuleBytes = false))) = true := by decide +kernel
theorem witness_MemoryCommandsTakeEffect_zeroingPass : (let s : State := withMem; let granule : Nat := 3; decide (((s.own granule).fresh = true))) = true := by decide +kernel
theorem witness_MemoryCommandsTakeEffect_bedrockBlock_16 : (let s : State := withMem.wr Reg.HBM_BEDROCK_state 1; decide ((s.rd Reg.HBM_BEDROCK_state = 1))) = true := by decide +kernel
theorem witness_MemoryCommandsTakeEffect_bedrockFetchTimeout : (let s : State := { withMem with hbm := { withMem.hbm with repairs := [aRepair .manager] } }; let granule : Nat := 3; let rep : BrRepair := aRepair .manager; decide ((s.repairOf granule = some rep) ∧ (rep.stage = .manager ∨ rep.stage = .deputy))) = true := by decide +kernel
theorem witness_MemoryCommandsTakeEffect_bedrockSupplyTimeout : (let s : State := { withMem with hbm := { withMem.hbm with repairs := [aRepair .driver] } }; let granule : Nat := 3; let rep : BrRepair := aRepair .driver; decide ((s.repairOf granule = some rep) ∧ (rep.stage = .driver))) = true := by decide +kernel
theorem witness_MemoryCommandsTakeEffect_hbmCommit : (let s : State := withHbmShadow; let v : Word := 1; decide ((bits v.toNat 0 0 = 1) ∧ (1 ≤ s.shf Reg.HBM_CFG_scrub_hours) ∧ (s.shf Reg.HBM_CFG_scrub_hours ≤ 48) ∧ (1 ≤ s.shf Reg.HBM_CFG_wcb_age_us) ∧ (s.shf Reg.HBM_CFG_wcb_age_us ≤ 64))) = true := by decide +kernel
theorem witness_MemoryCommandsTakeEffect_regCommit : (let s : State := State.reset; let v : Word := 1; decide ((bits v.toNat 0 0 = 1) ∧ ((s.showCheck (fun c => s.shd (Reg.REG_CLASS_FLOOR c))).badClassField = none) ∧ ((s.showCheck (fun c => s.shd (Reg.REG_CLASS_FLOOR c))).overload (fun c => s.shd (Reg.REG_CLASS_FLOOR c)) = none))) = true := by decide +kernel
theorem witness_MemoryCommandsTakeEffect_creditSend : (let s : State := { withMem with hbm := { withMem.hbm with credWait := [aReq 64] } }; let cls : Nat := 0; let ctl : Nat := (withMem.place 64).1; let r : MemReq := aReq 64; decide ((s.hasCredit cls ctl = true) ∧ (s.hbm.credWait.find? (fun r => r.cls == cls && (s.place r.addr).1 == ctl) = some r))) = true := by decide +kernel
theorem witness_MemoryCommandsTakeEffect_bedrockBlock : ∃ (granule : Nat) (data : List Byte) (digest : Nat) (rep : BrRepair) (s : State),
    s.rd Reg.HBM_BEDROCK_state ≠ 1 ∧ s.repairOf granule = some rep ∧ (rep.stage = .manager ∨ rep.stage = .deputy) ∧
    (s.mram.manifest.map Manifest.digest) = some digest ∧ s.bedrockOk granule data = true := by
  have h : ∀ d : List Byte, d.length = granuleBytes → ∃ (granule : Nat) (data : List Byte) (digest : Nat) (rep : BrRepair) (s : State),
      s.rd Reg.HBM_BEDROCK_state ≠ 1 ∧ s.repairOf granule = some rep ∧ (rep.stage = .manager ∨ rep.stage = .deputy) ∧
      (s.mram.manifest.map Manifest.digest) = some digest ∧ s.bedrockOk granule data = true := by
    intro d hd
    refine ⟨0, d, 0, { aRepair .manager with granule := 0 }, bedded d, ?_, rfl, .inl rfl, rfl, bedded_ok d hd⟩
    show withMem.rd Reg.HBM_BEDROCK_state ≠ 1
    decide +kernel
  exact h _ (List.length_replicate (n := granuleBytes) (a := (0 : Byte)))
theorem witness_MemoryCommandsTakeEffect_bedrockSupply : ∃ (v : DWord) (s : State),
    s.on Reg.HBM_BR_PEND_pending = true ∧ s.brStaging (bits v.toNat 47 0) = true ∧
    s.bedrockOk (s.rd Reg.HBM_BR_PEND_granule) (s.memBytes (bits v.toNat 47 0) granuleBytes) = true := by
  have h : ∀ d : List Byte, d.length = granuleBytes → withMem.memBytes 0 granuleBytes = d →
      ∃ (v : DWord) (s : State), s.on Reg.HBM_BR_PEND_pending = true ∧ s.brStaging (bits v.toNat 47 0) = true ∧
        s.bedrockOk (s.rd Reg.HBM_BR_PEND_granule) (s.memBytes (bits v.toNat 47 0) granuleBytes) = true := by
    intro d hd e
    have g : ((bedded d).wr Reg.HBM_BR_PEND_pending 1).rd Reg.HBM_BR_PEND_granule = 0 := by
      rw [State.rd_wr_disjoint _ Reg.HBM_BR_PEND_pending Reg.HBM_BR_PEND_granule _ rfl (by decide) (by decide) (by decide)]
      show withMem.rd Reg.HBM_BR_PEND_granule = 0
      decide +kernel
    have m : ((bedded d).wr Reg.HBM_BR_PEND_pending 1).memBytes (bits (0 : DWord).toNat 47 0) granuleBytes = d := by
      rw [← e, show bits (0 : DWord).toNat 47 0 = 0 by decide]
      rw [memBytes_wr]; exact memBytes_congr _ _ 0 granuleBytes rfl rfl rfl
    have k : ((bedded d).wr Reg.HBM_BR_PEND_pending 1).bedrockOk 0 d = (bedded d).bedrockOk 0 d := by
      have b : ((bedded d).wr Reg.HBM_BR_PEND_pending 1).rd Reg.HBM_BEDROCK_base = (bedded d).rd Reg.HBM_BEDROCK_base := State.rd_wr_other _ _ _ _ (by decide)
      unfold State.bedrockOk; rw [b, show ((bedded d).wr Reg.HBM_BR_PEND_pending 1).mram = (bedded d).mram from rfl]
    have p : ((bedded d).wr Reg.HBM_BR_PEND_pending 1).on Reg.HBM_BR_PEND_pending = true := by
      rw [State.on_wr_same _ _ _ (by decide) (by decide)]; decide
    have q : ((bedded d).wr Reg.HBM_BR_PEND_pending 1).brStaging 0 = true := by
      have r : ∀ x y : State, x.hbm = y.hbm → x.regs = y.regs → x.fuse = y.fuse → x.brStaging 0 = y.brStaging 0 := by
        intro x y a b c
        simp only [State.brStaging, State.own, State.serves, State.place, State.stackServes, State.memTop, State.granules, State.absentStack, State.on, State.rd, State.reg, a, b, c] <;> rfl
      rw [r ((bedded d).wr Reg.HBM_BR_PEND_pending 1) (beddedBare.wr Reg.HBM_BR_PEND_pending 1) rfl rfl rfl]
      decide +kernel
    refine ⟨0, (bedded d).wr Reg.HBM_BR_PEND_pending 1, p, by rw [show bits (0 : DWord).toNat 47 0 = 0 by decide]; exact q, ?_⟩
    rw [g, m, k]; exact bedded_ok d hd
  exact h _ (by rw [State.memBytes, List.length_map, List.length_range]) rfl
theorem witness_TranslationCommandsTakeEffect_xlatInv_0 : (let s : State := State.reset; let v : Word := 0; let internal : Bool := false; let f : Nat := 5; decide ((s.xlatRefusal v.toNat internal = some f))) = true := by decide +kernel
theorem witness_TranslationCommandsTakeEffect_xlatInv_1 : (let s : State := State.reset; let v : Word := 1; let internal : Bool := false; decide ((s.xlatRefusal v.toNat internal = none))) = true := by decide +kernel
theorem witness_TranslationCommandsTakeEffect_faultResume : (let s : State := State.reset.wr (Reg.XLAT_FAULT_INFO_state 2) 1; let index : Nat := 2; decide ((s.rd (Reg.XLAT_FAULT_INFO_state (index % 64)) ≠ 0))) = true := by decide +kernel
theorem witness_TranslationCommandsTakeEffect_faultAbort : (let s : State := State.reset.wr (Reg.XLAT_FAULT_INFO_state 2) 1; let index : Nat := 2; decide ((s.rd (Reg.XLAT_FAULT_INFO_state (index % 64)) ≠ 0))) = true := by decide +kernel
theorem witness_QueueCommandsTakeEffect_doorbell : (let s : State := State.reset; let src : BusSrc := .firmware; let write : Bool := true; let off : Nat := 0; let size : Nat := 4; decide ((s.barOk src = true) ∧ (write = true) ∧ (size = 4) ∧ (off % 4096 = 0))) = true := by decide +kernel
theorem witness_QueueCommandsTakeEffect_descriptorFetch : (let s : State := withRing clsMover; let ring : Nat := 0; decide ((s.glb.stop = 0) ∧ (s.rd (Reg.QM_RING_STATE_state ring) = ringActive) ∧ (s.rd Reg.HOST_STATUS_dstate ≠ 3) ∧ (s.glb.armed.contains (64 + s.ringCtx ring) = false))) = true := by decide +kernel
theorem witness_QueueCommandsTakeEffect_hamper : (let s : State := ringAt clsMover [0x2000001 + 0x10000, 0x1000]; let ring : Nat := 0; let q : QDesc := aDesc [0x2000001 + 0x10000, 0x1000]; decide (((s.ring ring).fetched.head? = some q) ∧ (s.glb.stop = 0) ∧ (s.rd (Reg.QM_RING_STATE_state ring) = ringActive) ∧ (s.mayIssue ring (s.fenceOf ring q.bytes) = true) ∧ (s.knownOp ring q.bytes = true) ∧ (s.isOp ring 1 q.bytes = true) ∧ ((s.ringCls ring ≠ clsCrc ∧ s.ringCls ring ≠ clsStream) ∨ s.streamBusy ring = false))) = true := by decide +kernel
theorem witness_QueueCommandsTakeEffect_hamperNextSub : (let s : State := (withRing clsMover).setRing 0 { RingSt.empty with issued := [{ aRunRec with subs := [descOf [0x2000010]] }] }; let ring : Nat := 0; let d : Run := { aRunRec with subs := [descOf [0x2000010]] }; decide ((s.glb.stop = 0) ∧ (s.ringWaits ring = false) ∧ (s.rd (Reg.QM_RING_STATE_state ring) ≠ ringDisabled) ∧ (s.restingHamper ring = some d))) = true := by decide +kernel
theorem witness_QueueCommandsTakeEffect_completionWrite : (let s : State := State.reset; decide ((s.glb.stop = 0))) = true := by decide +kernel
theorem witness_QueueCommandsTakeEffect_moderationTimeout : (let s : State := (((withRing clsMover).wr (Reg.QM_RING_IRQ_irq_en 0) 1).wr (Reg.QM_RING_IRQ_mod_us 0) 5).setRing 0 { RingSt.empty with unsig := 1 }; let ring : Nat := 0; decide ((s.on (Reg.QM_RING_IRQ_irq_en ring) = true) ∧ (s.rd (Reg.QM_RING_IRQ_mod_us ring) ≠ 0) ∧ ((s.ring ring).unsig ≠ 0))) = true := by decide +kernel
theorem witness_QueueCommandsTakeEffect_qmCommit : (let s : State := State.reset; let v : Word := 0x80000000; decide ((bit v.toNat 31 = true) ∧ (s.ringMoved (bits v.toNat 12 0) = false ∨ (s.ringIdle (bits v.toNat 12 0) = true ∧ s.ringFault0 (bits v.toNat 12 0) = 0)) ∧ (s.on (Reg.QM_RING_CFG_enable (bits v.toNat 12 0)) = false ∨ s.shf (Reg.QM_RING_CFG_enable (bits v.toNat 12 0)) = 1 ∨ s.ringIdle (bits v.toNat 12 0) = true) ∧ (s.on (Reg.QM_RING_CFG_enable (bits v.toNat 12 0)) = true ∨ s.shf (Reg.QM_RING_CFG_enable (bits v.toNat 12 0)) ≠ 1 ∨ s.ringFault0 (bits v.toNat 12 0) = 0))) = true := by decide +kernel
theorem witness_QueueCommandsTakeEffect_restart : (let s : State := State.reset.wr (Reg.QM_RING_STATE_state 0) ringHalted; let ring : Nat := 0; decide ((s.rd (Reg.QM_RING_STATE_state ring) = ringHalted))) = true := by decide +kernel
theorem witness_QueueCommandsTakeEffect_abort : (let s : State := State.reset.wr (Reg.QM_RING_STATE_state 0) ringHalted; let ring : Nat := 0; decide ((s.rd (Reg.QM_RING_STATE_state ring) = ringHalted))) = true := by decide +kernel
theorem witness_MoverAndDispatchDescriptorsIssue_nop : (let s : State := ringAt clsMover [33554432]; let ring : Nat := 0; let q : QDesc := aDesc [33554432]; let held : Held := (match (ringAt clsMover [33554432]).checkFields 0 true ((ringAt clsMover [33554432]).strictOf 0 (descOf [33554432])) ((ringAt clsMover [33554432]).addrFields 0 (descOf [33554432])) [] with | .ok h => h | _ => []); decide (((s.ring ring).fetched.head? = some q) ∧ (s.glb.stop = 0) ∧ (s.rd (Reg.QM_RING_STATE_state ring) = ringActive) ∧ (s.mayIssue ring (s.fenceOf ring q.bytes) = true) ∧ (s.knownOp ring q.bytes = true) ∧ (s.isOp ring 0 q.bytes = true) ∧ (nopOk q.bytes = true) ∧ (s.checkFields ring q.phys (s.strictOf ring q.bytes) (s.addrFields ring q.bytes) q.held = .ok held) ∧ (s.engineGone ring = false))) = true := by decide +kernel
theorem witness_MoverAndDispatchDescriptorsIssue_copy : (let s : State := ringAt clsMover [33554448, 0, 4096, 64]; let ring : Nat := 0; let q : QDesc := aDesc [33554448, 0, 4096, 64]; let held : Held := (match (ringAt clsMover [33554448, 0, 4096, 64]).checkFields 0 true ((ringAt clsMover [33554448, 0, 4096, 64]).strictOf 0 (descOf [33554448, 0, 4096, 64])) ((ringAt clsMover [33554448, 0, 4096, 64]).addrFields 0 (descOf [33554448, 0, 4096, 64])) [] with | .ok h => h | _ => []); decide (((s.ring ring).fetched.head? = some q) ∧ (s.glb.stop = 0) ∧ (s.rd (Reg.QM_RING_STATE_state ring) = ringActive) ∧ (s.mayIssue ring (s.fenceOf ring q.bytes) = true) ∧ (s.knownOp ring q.bytes = true) ∧ (s.isOp ring 0x10 q.bytes = true) ∧ (copyOk q.bytes = true) ∧ (s.checkFields ring q.phys (s.strictOf ring q.bytes) (s.addrFields ring q.bytes) q.held = .ok held) ∧ (s.engineGone ring = false))) = true := by decide +kernel
theorem witness_MoverAndDispatchDescriptorsIssue_fill : (let s : State := ringAt clsMover [33554449, 0, 4096, 64]; let ring : Nat := 0; let q : QDesc := aDesc [33554449, 0, 4096, 64]; let held : Held := (match (ringAt clsMover [33554449, 0, 4096, 64]).checkFields 0 true ((ringAt clsMover [33554449, 0, 4096, 64]).strictOf 0 (descOf [33554449, 0, 4096, 64])) ((ringAt clsMover [33554449, 0, 4096, 64]).addrFields 0 (descOf [33554449, 0, 4096, 64])) [] with | .ok h => h | _ => []); decide (((s.ring ring).fetched.head? = some q) ∧ (s.glb.stop = 0) ∧ (s.rd (Reg.QM_RING_STATE_state ring) = ringActive) ∧ (s.mayIssue ring (s.fenceOf ring q.bytes) = true) ∧ (s.knownOp ring q.bytes = true) ∧ (s.isOp ring 0x11 q.bytes = true) ∧ (fillOk q.bytes = true) ∧ (s.checkFields ring q.phys (s.strictOf ring q.bytes) (s.addrFields ring q.bytes) q.held = .ok held) ∧ (s.engineGone ring = false))) = true := by decide +kernel
theorem witness_MoverAndDispatchDescriptorsIssue_writeImm : (let s : State := ringAt clsMover [33554450, 0, 4096, 8]; let ring : Nat := 0; let q : QDesc := aDesc [33554450, 0, 4096, 8]; let held : Held := (match (ringAt clsMover [33554450, 0, 4096, 8]).checkFields 0 true ((ringAt clsMover [33554450, 0, 4096, 8]).strictOf 0 (descOf [33554450, 0, 4096, 8])) ((ringAt clsMover [33554450, 0, 4096, 8]).addrFields 0 (descOf [33554450, 0, 4096, 8])) [] with | .ok h => h | _ => []); decide (((s.ring ring).fetched.head? = some q) ∧ (s.glb.stop = 0) ∧ (s.rd (Reg.QM_RING_STATE_state ring) = ringActive) ∧ (s.mayIssue ring (s.fenceOf ring q.bytes) = true) ∧ (s.knownOp ring q.bytes = true) ∧ (s.isOp ring 0x12 q.bytes = true) ∧ (s.undrained ring = false) ∧ (writeImmOk q.bytes = true) ∧ (s.checkFields ring q.phys (s.strictOf ring q.bytes) (s.addrFields ring q.bytes) q.held = .ok held) ∧ (s.engineGone ring = false))) = true := by decide +kernel
theorem witness_MoverAndDispatchDescriptorsIssue_legacyNop : (let s : State := legacyAt [0]; let ring : Nat := 0; let q : QDesc := aDesc [0]; let held : Held := (match (legacyAt [0]).checkFields 0 true ((legacyAt [0]).strictOf 0 (descOf [0])) ((legacyAt [0]).addrFields 0 (descOf [0])) [] with | .ok h => h | _ => []); decide (((s.ring ring).fetched.head? = some q) ∧ (s.glb.stop = 0) ∧ (s.rd (Reg.QM_RING_STATE_state ring) = ringActive) ∧ (s.mayIssue ring (s.fenceOf ring q.bytes) = true) ∧ (s.knownOp ring q.bytes = true) ∧ (s.isLegacyOp ring 0 q.bytes = true) ∧ (legacyOk q.bytes 0 = true) ∧ (s.checkFields ring q.phys (s.strictOf ring q.bytes) (s.addrFields ring q.bytes) q.held = .ok held) ∧ (s.engineGone ring = false))) = true := by decide +kernel
theorem witness_MoverAndDispatchDescriptorsIssue_legacyCopy : (let s : State := legacyAt [274877906945, 0, 4096]; let ring : Nat := 0; let q : QDesc := aDesc [274877906945, 0, 4096]; let held : Held := (match (legacyAt [274877906945, 0, 4096]).checkFields 0 true ((legacyAt [274877906945, 0, 4096]).strictOf 0 (descOf [274877906945, 0, 4096])) ((legacyAt [274877906945, 0, 4096]).addrFields 0 (descOf [274877906945, 0, 4096])) [] with | .ok h => h | _ => []); decide (((s.ring ring).fetched.head? = some q) ∧ (s.glb.stop = 0) ∧ (s.rd (Reg.QM_RING_STATE_state ring) = ringActive) ∧ (s.mayIssue ring (s.fenceOf ring q.bytes) = true) ∧ (s.knownOp ring q.bytes = true) ∧ (s.isLegacyOp ring 1 q.bytes = true) ∧ (legacyOk q.bytes 1 = true) ∧ (s.checkFields ring q.phys (s.strictOf ring q.bytes) (s.addrFields ring q.bytes) q.held = .ok held) ∧ (s.engineGone ring = false))) = true := by decide +kernel
theorem witness_MoverAndDispatchDescriptorsIssue_legacyFill : (let s : State := legacyAt [274877906946, 0, 4096]; let ring : Nat := 0; let q : QDesc := aDesc [274877906946, 0, 4096]; let held : Held := (match (legacyAt [274877906946, 0, 4096]).checkFields 0 true ((legacyAt [274877906946, 0, 4096]).strictOf 0 (descOf [274877906946, 0, 4096])) ((legacyAt [274877906946, 0, 4096]).addrFields 0 (descOf [274877906946, 0, 4096])) [] with | .ok h => h | _ => []); decide (((s.ring ring).fetched.head? = some q) ∧ (s.glb.stop = 0) ∧ (s.rd (Reg.QM_RING_STATE_state ring) = ringActive) ∧ (s.mayIssue ring (s.fenceOf ring q.bytes) = true) ∧ (s.knownOp ring q.bytes = true) ∧ (s.isLegacyOp ring 2 q.bytes = true) ∧ (legacyOk q.bytes 2 = true) ∧ (s.checkFields ring q.phys (s.strictOf ring q.bytes) (s.addrFields ring q.bytes) q.held = .ok held) ∧ (s.engineGone ring = false))) = true := by decide +kernel
theorem witness_MoverAndDispatchDescriptorsIssue_dispatch : (let s : State := { ringAt clsCompute [0x2000020, 17592186044416] with glb := withTiles.glb, noc := withTiles.noc }; let ring : Nat := 0; let q : QDesc := aDesc [0x2000020, 17592186044416]; let held : Held := (match ({ ringAt clsCompute [0x2000020, 17592186044416] with glb := withTiles.glb, noc := withTiles.noc }).checkFields 0 true (({ ringAt clsCompute [0x2000020, 17592186044416] with glb := withTiles.glb, noc := withTiles.noc }).strictOf 0 (descOf [0x2000020, 17592186044416])) (({ ringAt clsCompute [0x2000020, 17592186044416] with glb := withTiles.glb, noc := withTiles.noc }).addrFields 0 (descOf [0x2000020, 17592186044416])) [] with | .ok h => h | _ => []); decide (((s.ring ring).fetched.head? = some q) ∧ (s.glb.stop = 0) ∧ (s.rd (Reg.QM_RING_STATE_state ring) = ringActive) ∧ (s.mayIssue ring (s.fenceOf ring q.bytes) = true) ∧ (s.knownOp ring q.bytes = true) ∧ (s.isOp ring 0x20 q.bytes = true) ∧ (s.genBusy q.bytes = false) ∧ (dispatchOk s q.bytes = true) ∧ (s.checkFields ring q.phys (s.strictOf ring q.bytes) (s.addrFields ring q.bytes) q.held = .ok held) ∧ (s.engineGone ring = false))) = true := by decide +kernel
theorem witness_MoverAndDispatchDescriptorsIssue_moverTransfer : (let s : State := (withRing clsMover).setRing 0 { RingSt.empty with issued := [{ aRunRec with bytes := descOf [0x2000010, 0, 4096, 64] }] }; let ring : Nat := 0; let d : Run := { aRunRec with bytes := descOf [0x2000010, 0, 4096, 64] }; decide ((s.glb.stop = 0) ∧ (s.ringCls ring = clsMover) ∧ (s.ringWaits ring = false) ∧ (s.rd (Reg.QM_RING_STATE_state ring) ≠ ringDisabled) ∧ (s.moving ring = some d) ∧ (s.on (Reg.QM_RING_CFG_legacy ring) = true ∨ opOf d.cur ≠ 0) ∧ (s.moveLen ring d.cur ≠ 0))) = true := by decide +kernel
theorem witness_MoverAndDispatchDescriptorsIssue_dispatchPlacement : (let s : State := { (withRing clsCompute).setRing 0 { RingSt.empty with issued := [{ aRunRec with bytes := descOf [0x2000020, 1] }] } with glb := withTiles.glb, noc := withTiles.noc }; let ring : Nat := 0; let d : Run := { aRunRec with bytes := descOf [0x2000020, 1] }; decide ((s.glb.stop = 0) ∧ (s.unplaced ring = some d) ∧ ((dispTiles d.cur).find? s.tileFenced = none) ∧ ((dispTiles d.cur).all (fun t => decide ((s.tile t).queue.length < tileQueue)) = true))) = true := by decide +kernel
theorem witness_CrcCommandsTakeEffect_crcData_0 : (let s : State := ringAt clsCrc [0x2000030, 4096, 64]; let ring : Nat := 0; let q : QDesc := aDesc [0x2000030, 4096, 64]; let held : Held := (match (ringAt clsCrc [0x2000030, 4096, 64]).checkFields 0 true ((ringAt clsCrc [0x2000030, 4096, 64]).strictOf 0 (descOf [0x2000030, 4096, 64])) ((ringAt clsCrc [0x2000030, 4096, 64]).addrFields 0 (descOf [0x2000030, 4096, 64])) [] with | .ok h => h | _ => []); decide (((s.ring ring).fetched.head? = some q) ∧ (s.glb.stop = 0) ∧ (s.rd (Reg.QM_RING_STATE_state ring) = ringActive) ∧ (s.mayIssue ring (s.fenceOf ring q.bytes) = true) ∧ (s.knownOp ring q.bytes = true) ∧ (s.isOp ring 0x30 q.bytes = true) ∧ (crcDataOk q.bytes = true) ∧ (s.checkFields ring q.phys (s.strictOf ring q.bytes) (s.addrFields ring q.bytes) q.held = .ok held) ∧ (s.engineGone ring = false) ∧ ((s.ring ring).issued.find? (fun d => !d.allIssued && (d.subs.isEmpty || d.ends.length == d.sub)) = none) ∧ ((s.ring ring).issued.any (fun d => d.status.isNone) = false))) = true := by decide +kernel
theorem witness_CrcCommandsTakeEffect_crcBlocks_1 : (let s : State := ringAt clsCrc [0x2000031, 4096, 0, 16777280]; let ring : Nat := 0; let q : QDesc := aDesc [0x2000031, 4096, 0, 16777280]; let held : Held := (match (ringAt clsCrc [0x2000031, 4096, 0, 16777280]).checkFields 0 true ((ringAt clsCrc [0x2000031, 4096, 0, 16777280]).strictOf 0 (descOf [0x2000031, 4096, 0, 16777280])) ((ringAt clsCrc [0x2000031, 4096, 0, 16777280]).addrFields 0 (descOf [0x2000031, 4096, 0, 16777280])) [] with | .ok h => h | _ => []); decide (((s.ring ring).fetched.head? = some q) ∧ (s.glb.stop = 0) ∧ (s.rd (Reg.QM_RING_STATE_state ring) = ringActive) ∧ (s.mayIssue ring (s.fenceOf ring q.bytes) = true) ∧ (s.knownOp ring q.bytes = true) ∧ (s.isOp ring 0x31 q.bytes = true) ∧ (crcBlocksOk q.bytes = true) ∧ (s.checkFields ring q.phys (s.strictOf ring q.bytes) (s.addrFields ring q.bytes) q.held = .ok held) ∧ (s.engineGone ring = false) ∧ ((s.ring ring).issued.find? (fun d => !d.allIssued && (d.subs.isEmpty || d.ends.length == d.sub)) = none) ∧ ((s.ring ring).issued.any (fun d => d.status.isNone) = false))) = true := by decide +kernel
theorem witness_CrcCommandsTakeEffect_crcSave_2 : (let s : State := ringAt clsCrc [0x2000032, 0, 4096]; let ring : Nat := 0; let q : QDesc := aDesc [0x2000032, 0, 4096]; let held : Held := (match (ringAt clsCrc [0x2000032, 0, 4096]).checkFields 0 true ((ringAt clsCrc [0x2000032, 0, 4096]).strictOf 0 (descOf [0x2000032, 0, 4096])) ((ringAt clsCrc [0x2000032, 0, 4096]).addrFields 0 (descOf [0x2000032, 0, 4096])) [] with | .ok h => h | _ => []); decide (((s.ring ring).fetched.head? = some q) ∧ (s.glb.stop = 0) ∧ (s.rd (Reg.QM_RING_STATE_state ring) = ringActive) ∧ (s.mayIssue ring (s.fenceOf ring q.bytes) = true) ∧ (s.knownOp ring q.bytes = true) ∧ (s.isOp ring 0x32 q.bytes = true) ∧ (crcSaveOk q.bytes = true) ∧ (s.checkFields ring q.phys (s.strictOf ring q.bytes) (s.addrFields ring q.bytes) q.held = .ok held) ∧ (s.engineGone ring = false) ∧ ((s.ring ring).issued.find? (fun d => !d.allIssued && (d.subs.isEmpty || d.ends.length == d.sub)) = none) ∧ ((s.ring ring).issued.any (fun d => d.status.isNone) = false))) = true := by decide +kernel
theorem witness_CrcCommandsTakeEffect_crcLoad_3 : (let s : State := ringAt clsCrc [0x2000033, 4096]; let ring : Nat := 0; let q : QDesc := aDesc [0x2000033, 4096]; let held : Held := (match (ringAt clsCrc [0x2000033, 4096]).checkFields 0 true ((ringAt clsCrc [0x2000033, 4096]).strictOf 0 (descOf [0x2000033, 4096])) ((ringAt clsCrc [0x2000033, 4096]).addrFields 0 (descOf [0x2000033, 4096])) [] with | .ok h => h | _ => []); decide (((s.ring ring).fetched.head? = some q) ∧ (s.glb.stop = 0) ∧ (s.rd (Reg.QM_RING_STATE_state ring) = ringActive) ∧ (s.mayIssue ring (s.fenceOf ring q.bytes) = true) ∧ (s.knownOp ring q.bytes = true) ∧ (s.isOp ring 0x33 q.bytes = true) ∧ (crcLoadOk q.bytes = true) ∧ (s.checkFields ring q.phys (s.strictOf ring q.bytes) (s.addrFields ring q.bytes) q.held = .ok held) ∧ (s.engineGone ring = false) ∧ ((s.ring ring).issued.find? (fun d => !d.allIssued && (d.subs.isEmpty || d.ends.length == d.sub)) = none) ∧ ((s.ring ring).issued.any (fun d => d.status.isNone) = false))) = true := by decide +kernel
theorem witness_CrcCommandsTakeEffect_crcData_4 : (let s : State := (((withRing clsCrc).setRing 0 { RingSt.empty with issued := [{ aRunRec with sub := 0, bytes := descOf [0x2000030, 4096, 64], crcUnit := some 0 }] }).setCrc 0 { CrcSt.free with holder := some (0, 1) }); let ring : Nat := 0; let d : Run := { aRunRec with sub := 0, bytes := descOf [0x2000030, 4096, 64], crcUnit := some 0 }; decide (((s.ring ring).issued.find? (fun d => !d.allIssued && (d.subs.isEmpty || d.ends.length == d.sub)) = some d) ∧ (opOf d.cur = 0x30) ∧ (s.glb.stop = 0) ∧ (s.holdsUnit (s.ringUnit ring) ring d.seq = true) ∧ (s.ringWaits ring = false))) = true := by decide +kernel
theorem witness_CrcCommandsTakeEffect_crcBlocks_5 : (let s : State := (((withRing clsCrc).setRing 0 { RingSt.empty with issued := [{ aRunRec with sub := 0, bytes := descOf [0x2000031, 4096, 0, 16777280], crcUnit := some 0 }] }).setCrc 0 { CrcSt.free with holder := some (0, 1) }); let ring : Nat := 0; let d : Run := { aRunRec with sub := 0, bytes := descOf [0x2000031, 4096, 0, 16777280], crcUnit := some 0 }; decide (((s.ring ring).issued.find? (fun d => !d.allIssued && (d.subs.isEmpty || d.ends.length == d.sub)) = some d) ∧ (opOf d.cur = 0x31) ∧ (s.glb.stop = 0) ∧ (s.holdsUnit (s.ringUnit ring) ring d.seq = true) ∧ (s.ringWaits ring = false))) = true := by decide +kernel
theorem witness_CrcCommandsTakeEffect_crcSave_6 : (let s : State := (((withRing clsCrc).setRing 0 { RingSt.empty with issued := [{ aRunRec with sub := 0, bytes := descOf [0x2000032, 0, 4096], crcUnit := some 0 }] }).setCrc 0 { CrcSt.free with holder := some (0, 1) }); let ring : Nat := 0; let d : Run := { aRunRec with sub := 0, bytes := descOf [0x2000032, 0, 4096], crcUnit := some 0 }; decide (((s.ring ring).issued.find? (fun d => !d.allIssued && (d.subs.isEmpty || d.ends.length == d.sub)) = some d) ∧ (opOf d.cur = 0x32) ∧ (s.glb.stop = 0) ∧ (s.holdsUnit (s.ringUnit ring) ring d.seq = true) ∧ (s.ringWaits ring = false))) = true := by decide +kernel
theorem witness_CrcCommandsTakeEffect_crcLoad_7 : (let s : State := (((withRing clsCrc).setRing 0 { RingSt.empty with issued := [{ aRunRec with sub := 0, bytes := descOf [0x2000033, 4096], crcUnit := some 0 }] }).setCrc 0 { CrcSt.free with holder := some (0, 1) }); let ring : Nat := 0; let d : Run := { aRunRec with sub := 0, bytes := descOf [0x2000033, 4096], crcUnit := some 0 }; decide (((s.ring ring).issued.find? (fun d => !d.allIssued && (d.subs.isEmpty || d.ends.length == d.sub)) = some d) ∧ (opOf d.cur = 0x33) ∧ (s.glb.stop = 0) ∧ (s.holdsUnit (s.ringUnit ring) ring d.seq = true) ∧ (s.ringWaits ring = false))) = true := by decide +kernel
theorem witness_CrcCommandsTakeEffect_crcUnitClaim : (let s : State := State.reset.setCrc 3 { CrcSt.free with waiting := [(0, 1)] }; let unit : Nat := 3; let r : Nat := 0; let seq : Nat := 1; let t : List (Nat × Nat) := []; decide (((s.crc unit).holder = none) ∧ ((s.crc unit).waiting = (r, seq) :: t))) = true := by decide +kernel
theorem witness_CrcCommandsTakeEffect_crcCtlWrite : (let s : State := State.reset; let src : BusSrc := .firmware; decide ((s.barOk src = true))) = true := by decide +kernel
theorem witness_CrcCommandsTakeEffect_crcValWrite : (let s : State := State.reset; let src : BusSrc := .firmware; decide ((s.barOk src = true))) = true := by decide +kernel
theorem witness_ModuleAndLinkCommandsTakeEffect_moduleTrained : (let s : State := withModule 3; let n : Nat := 2; let m : Nat := 1; let rate : Nat := 0; let version : Nat := 1; decide ((Machine.moduleOk n m = true) ∧ (3 ≤ s.modState n m ∧ s.modState n m ≤ 5 ∨ s.modState n m = 9) ∧ (version = 1 ∨ version = 2) ∧ (rate ≤ 4) ∧ (s.searches n m = false ∨ rate ≤ s.rd (Reg.SITE_MOD_STATUS_rate n m)))) = true := by decide +kernel
theorem witness_ModuleAndLinkCommandsTakeEffect_rateAttemptTimeout_1 : (let s : State := withModule 9; let n : Nat := 2; let m : Nat := 1; decide ((Machine.moduleOk n m = true) ∧ (2 ≤ s.modState n m ∧ s.modState n m ≤ 5 ∨ s.modState n m = 9) ∧ (s.searches n m = false ∨ s.rd (Reg.SITE_MOD_STATUS_rate n m) = 0))) = true := by decide +kernel
theorem witness_ModuleAndLinkCommandsTakeEffect_rateAttemptTimeout_2 : (let s : State := (withModule 3).wr (Reg.SITE_MOD_STATUS_rate 2 1) 3; let n : Nat := 2; let m : Nat := 1; decide ((Machine.moduleOk n m = true) ∧ (s.searches n m = true) ∧ (s.rd (Reg.SITE_MOD_STATUS_rate n m) ≠ 0))) = true := by decide +kernel
theorem witness_ModuleAndLinkCommandsTakeEffect_widthCheckAnswer_3 : (let s : State := withModule 6; let n : Nat := 2; let m : Nat := 1; let half : Bool := false; let rate : Nat := 0; let version : Nat := 0; let lanesMatch : Bool := true; decide ((Machine.moduleOk n m = true) ∧ (s.modState n m = 6) ∧ (half = s.on (Reg.SITE_MOD_STATUS_half n m)) ∧ (rate = s.rd (Reg.SITE_MOD_STATUS_rate n m)) ∧ (version = (s.module n m).version) ∧ (lanesMatch = true))) = true := by decide +kernel
theorem witness_ModuleAndLinkCommandsTakeEffect_widthCheckAnswer_4 : (let s : State := withModule 6; let n : Nat := 2; let m : Nat := 1; let lanesMatch : Bool := false; decide ((Machine.moduleOk n m = true) ∧ (s.modState n m = 6) ∧ (lanesMatch = false))) = true := by decide +kernel
theorem witness_ModuleAndLinkCommandsTakeEffect_widthCheckTimeout : (let s : State := withModule 6; let n : Nat := 2; let m : Nat := 1; decide ((Machine.moduleOk n m = true) ∧ (s.modState n m = 6))) = true := by decide +kernel
theorem witness_ModuleAndLinkCommandsTakeEffect_moduleRetrain : (let s : State := withModule 7; let n : Nat := 2; let m : Nat := 1; decide ((Machine.moduleOk n m = true) ∧ (s.inService n m = true))) = true := by decide +kernel
theorem witness_ModuleAndLinkCommandsTakeEffect_moduleLinkDown : (let s : State := State.reset; let n : Nat := 2; let m : Nat := 1; decide ((Machine.moduleOk n m = true))) = true := by decide +kernel
theorem witness_ModuleAndLinkCommandsTakeEffect_spreadAnswer : (let s : State := withSite.setLink 2 { LinkSt.off with exch := some { lmap := 0, entries := [], sent := 1 } }; let n : Nat := 2; let epoch : Nat := 1; let e : SpreadExch := { lmap := 0, entries := [], sent := 1 }; decide (((s.link n).exch = some e) ∧ (epoch = (s.rd (Reg.SITE_SPREAD_EPOCH_epoch n) + 1) % 256) ∧ (e.sent ≠ 0))) = true := by decide +kernel
theorem witness_ModuleAndLinkCommandsTakeEffect_spreadTimeout_9 : (let s : State := withSite.setLink 2 { LinkSt.off with exch := some { lmap := 0, entries := [], sent := 1 } }; let n : Nat := 2; let e : SpreadExch := { lmap := 0, entries := [], sent := 1 }; decide (((s.link n).exch = some e) ∧ (e.sent ≠ 0) ∧ (e.sent < 3))) = true := by decide +kernel
theorem witness_ModuleAndLinkCommandsTakeEffect_spreadTimeout_10 : (let s : State := withSite.setLink 2 { LinkSt.off with exch := some { lmap := 0, entries := [], sent := 3 } }; let n : Nat := 2; let e : SpreadExch := { lmap := 0, entries := [], sent := 3 }; decide (((s.link n).exch = some e) ∧ (3 ≤ e.sent))) = true := by decide +kernel
theorem witness_ModuleAndLinkCommandsTakeEffect_entryLend : (let s : State := ((withModule 9).setModule 2 1 { ModSt.off with heldAt := some 0 }).setReg Reg.TIME_NOW 0x40000000; let n : Nat := 2; let m : Nat := 1; let t : Nat := 0; decide (((s.module n m).heldAt = some t) ∧ (Machine.moduleOk n m = true) ∧ (s.inService n m = false) ∧ (lendUnits ≤ s.now - t))) = true := by decide +kernel
theorem witness_ModuleAndLinkCommandsTakeEffect_moduleL1Entry : (let s : State := (withModule 7).wr (Reg.SITE_LINK_CFG_l1_enable 2) 1; let n : Nat := 2; let m : Nat := 1; decide ((Machine.moduleOk n m = true) ∧ (s.modState n m = 7) ∧ (s.on (Reg.SITE_LINK_CFG_l1_enable n) = true))) = true := by decide +kernel
theorem witness_ModuleAndLinkCommandsTakeEffect_siteRecRetry : (let s : State := withSite.setReg (Reg.SITE_REC_PEND 2) (2 ^ 31 + 2 ^ 24 + 30); let n : Nat := 2; let m : Nat := 1; decide ((bit (s.reg (Reg.SITE_REC_PEND n)) 31 = true) ∧ (bits (s.reg (Reg.SITE_REC_PEND n)) 27 24 = m) ∧ (bit (bits (s.reg (Reg.SITE_REC_PEND n)) 4 1) 0 = true))) = true := by decide +kernel
theorem witness_ModuleAndLinkCommandsTakeEffect_siteRecSpare : (let s : State := withSite.setReg (Reg.SITE_REC_PEND 2) (2 ^ 31 + 2 ^ 24 + 30); let n : Nat := 2; let m : Nat := 1; decide ((bit (s.reg (Reg.SITE_REC_PEND n)) 31 = true) ∧ (bits (s.reg (Reg.SITE_REC_PEND n)) 27 24 = m) ∧ (bit (bits (s.reg (Reg.SITE_REC_PEND n)) 4 1) 1 = true))) = true := by decide +kernel
theorem witness_ModuleAndLinkCommandsTakeEffect_siteRecHalf : (let s : State := withSite.setReg (Reg.SITE_REC_PEND 2) (2 ^ 31 + 2 ^ 24 + 30); let n : Nat := 2; let m : Nat := 1; decide ((bit (s.reg (Reg.SITE_REC_PEND n)) 31 = true) ∧ (bits (s.reg (Reg.SITE_REC_PEND n)) 27 24 = m) ∧ (bit (bits (s.reg (Reg.SITE_REC_PEND n)) 4 1) 2 = true))) = true := by decide +kernel
theorem witness_ModuleAndLinkCommandsTakeEffect_siteRecRetire : (let s : State := withSite.setReg (Reg.SITE_REC_PEND 2) (2 ^ 31 + 2 ^ 24 + 30); let n : Nat := 2; let m : Nat := 1; decide ((bit (s.reg (Reg.SITE_REC_PEND n)) 31 = true) ∧ (bits (s.reg (Reg.SITE_REC_PEND n)) 27 24 = m) ∧ (bit (bits (s.reg (Reg.SITE_REC_PEND n)) 4 1) 3 = true))) = true := by decide +kernel
theorem witness_ModuleAndLinkCommandsTakeEffect_siteRecRetrain : (let s : State := withModule 7; let n : Nat := 2; let m : Nat := 1; decide ((Machine.moduleOk n m = true) ∧ (s.inService n m = true))) = true := by decide +kernel
theorem witness_ModuleAndLinkCommandsTakeEffect_siteAwaitTimeout : (let s : State := (withModule 11).setReg Reg.TIME_NOW 0x100000000; let n : Nat := 2; let m : Nat := 1; decide ((Machine.moduleOk n m = true) ∧ (s.modState n m = 11) ∧ (100 * msUnits ≤ s.now - (s.module n m).awaitAt))) = true := by decide +kernel
theorem witness_ModuleAndLinkCommandsTakeEffect_sbRead : (let s : State := withSite; let n : Nat := 2; decide (((s.link n).sb = none))) = true := by decide +kernel
theorem witness_ModuleAndLinkCommandsTakeEffect_sbWrite : (let s : State := withSite; let n : Nat := 2; decide (((s.link n).sb = none))) = true := by decide +kernel
theorem witness_ModuleAndLinkCommandsTakeEffect_sbResponse : (let s : State := withSite.setLink 2 { LinkSt.off with sb := some (false, 0, 8) }; let n : Nat := 2; let write : Bool := false; let addr : Nat := 0; let size : Nat := 8; decide (((s.link n).sb = some (write, addr, size)))) = true := by decide +kernel
theorem witness_CoherenceCommandsTakeEffect_rdshared : (let s : State := withSite; let site : Nat := 2; let m : SysMsg := aMsg; let a : Nat := 64; let left : Nat := (0x200000 - 64); let coh : Bool := true; let seg : Option (Nat × Nat) := some (0, 0); decide (((s.leaveL1 site m.module).siteOpen site = true) ∧ ((s.leaveL1 site m.module).msgOk site m = true) ∧ (((s.leaveL1 site m.module).askedAgain { site := site, op := .rdShared, cxl := false, goOnly := false, tag := m.tag, line := 0, va := m.va.getD 0 / lineSize * lineSize, ctx := s.rd (siteCtx site), seg := 0, bytes := [], poison := false }).isNone = true) ∧ ((s.leaveL1 site m.module).siteXlat site (m.va.getD 0 / lineSize * lineSize) false = .ok (.mem a coh) seg left) ∧ (coh = true) ∧ ((s.leaveL1 site m.module).siteCoherent site = true))) = true := by decide +kernel
theorem witness_CoherenceCommandsTakeEffect_rdown : (let s : State := withSite; let site : Nat := 2; let m : SysMsg := aMsg; let a : Nat := 64; let left : Nat := (0x200000 - 64); let coh : Bool := true; let seg : Option (Nat × Nat) := some (0, 0); decide (((s.leaveL1 site m.module).siteOpen site = true) ∧ ((s.leaveL1 site m.module).msgOk site m = true) ∧ (((s.leaveL1 site m.module).askedAgain { site := site, op := .rdOwn, cxl := false, goOnly := false, tag := m.tag, line := 0, va := m.va.getD 0 / lineSize * lineSize, ctx := s.rd (siteCtx site), seg := 0, bytes := [], poison := false }).isNone = true) ∧ ((s.leaveL1 site m.module).siteXlat site (m.va.getD 0 / lineSize * lineSize) true = .ok (.mem a coh) seg left) ∧ (coh = true) ∧ ((s.leaveL1 site m.module).siteCoherent site = true) ∧ (((s.leaveL1 site m.module).own (a / granuleBytes)).bedrock = false) ∧ ((s.leaveL1 site m.module).segPermits (s.rd (siteCtx site)) ((seg.map Prod.fst).getD 0) .read = true))) = true := by decide +kernel
theorem witness_CoherenceCommandsTakeEffect_upgrade : (let s : State := withSite; let site : Nat := 2; let m : SysMsg := aMsg; let a : Nat := 64; let left : Nat := (0x200000 - 64); let coh : Bool := true; let seg : Option (Nat × Nat) := some (0, 0); decide (((s.leaveL1 site m.module).siteOpen site = true) ∧ ((s.leaveL1 site m.module).msgOk site m = true) ∧ (((s.leaveL1 site m.module).askedAgain { site := site, op := .upgrade, cxl := false, goOnly := false, tag := m.tag, line := 0, va := m.va.getD 0 / lineSize * lineSize, ctx := s.rd (siteCtx site), seg := 0, bytes := [], poison := false }).isNone = true) ∧ ((s.leaveL1 site m.module).siteXlat site (m.va.getD 0 / lineSize * lineSize) true = .ok (.mem a coh) seg left) ∧ (coh = true) ∧ ((s.leaveL1 site m.module).siteCoherent site = true) ∧ (((s.leaveL1 site m.module).own (a / granuleBytes)).bedrock = false) ∧ ((s.leaveL1 site m.module).segPermits (s.rd (siteCtx site)) ((seg.map Prod.fst).getD 0) .read = true))) = true := by decide +kernel
theorem witness_CoherenceCommandsTakeEffect_rdcurr : (let s : State := withSite; let site : Nat := 2; let m : SysMsg := aMsg; let a : Nat := 64; let left : Nat := (0x200000 - 64); let coh : Bool := true; let seg : Option (Nat × Nat) := some (0, 0); decide (((s.leaveL1 site m.module).siteOpen site = true) ∧ ((s.leaveL1 site m.module).msgOk site m = true) ∧ (((s.leaveL1 site m.module).askedAgain { site := site, op := .rdCurr, cxl := false, goOnly := false, tag := m.tag, line := 0, va := m.va.getD 0 / lineSize * lineSize, ctx := s.rd (siteCtx site), seg := 0, bytes := [], poison := false }).isNone = true) ∧ ((s.leaveL1 site m.module).siteXlat site (m.va.getD 0 / lineSize * lineSize) false = .ok (.mem a coh) seg left))) = true := by decide +kernel
theorem witness_CoherenceCommandsTakeEffect_wrline : (let s : State := withSite; let site : Nat := 2; let m : SysMsg := aMsg; let bytes : List Byte := []; let poison : Bool := true; let a : Nat := 64; let left : Nat := (0x200000 - 64); let coh : Bool := true; let seg : Option (Nat × Nat) := some (0, 0); decide (((s.leaveL1 site m.module).siteOpen site = true) ∧ ((s.leaveL1 site m.module).msgOk site m = true) ∧ (((s.leaveL1 site m.module).askedAgain { site := site, op := .wrLine, cxl := false, goOnly := false, tag := m.tag, line := 0, va := m.va.getD 0 / lineSize * lineSize, ctx := s.rd (siteCtx site), seg := 0, bytes := wholeLine bytes, poison := poison }).isNone = true) ∧ ((s.leaveL1 site m.module).siteXlat site (m.va.getD 0 / lineSize * lineSize) true = .ok (.mem a coh) seg left))) = true := by decide +kernel
theorem witness_CoherenceCommandsTakeEffect_wrpartial : (let s : State := withSite; let site : Nat := 2; let m : SysMsg := aMsg; let bytes : List (Option Byte) := []; let poison : Bool := true; let a : Nat := 64; let left : Nat := (0x200000 - 64); let coh : Bool := true; let seg : Option (Nat × Nat) := some (0, 0); decide (((s.leaveL1 site m.module).siteOpen site = true) ∧ ((s.leaveL1 site m.module).msgOk site m = true) ∧ (((s.leaveL1 site m.module).askedAgain { site := site, op := .wrPartial, cxl := false, goOnly := false, tag := m.tag, line := 0, va := m.va.getD 0 / lineSize * lineSize, ctx := s.rd (siteCtx site), seg := 0, bytes := bytes.take lineSize, poison := poison }).isNone = true) ∧ ((s.leaveL1 site m.module).siteXlat site (m.va.getD 0 / lineSize * lineSize) true = .ok (.mem a coh) seg left))) = true := by decide +kernel
theorem witness_CoherenceCommandsTakeEffect_wbdirty : (let s : State := withSite; let site : Nat := 2; let m : SysMsg := aMsg; let bytes : List Byte := []; let poison : Bool := true; let a : Nat := 64; let left : Nat := (0x200000 - 64); let coh : Bool := true; let seg : Option (Nat × Nat) := some (0, 0); decide (((s.leaveL1 site m.module).siteOpen site = true) ∧ ((s.leaveL1 site m.module).msgOk site m = true) ∧ (((s.leaveL1 site m.module).askedAgain { site := site, op := .wbDirty, cxl := false, goOnly := false, tag := m.tag, line := 0, va := m.va.getD 0 / lineSize * lineSize, ctx := s.rd (siteCtx site), seg := 0, bytes := wholeLine bytes, poison := poison }).isNone = true) ∧ ((s.leaveL1 site m.module).siteXlat site (m.va.getD 0 / lineSize * lineSize) true = .ok (.mem a coh) seg left))) = true := by decide +kernel
theorem witness_CoherenceCommandsTakeEffect_evictclean : (let s : State := withSite; let site : Nat := 2; let m : SysMsg := aMsg; let a : Nat := 64; let left : Nat := (0x200000 - 64); let coh : Bool := true; let seg : Option (Nat × Nat) := some (0, 0); decide (((s.leaveL1 site m.module).siteOpen site = true) ∧ ((s.leaveL1 site m.module).msgOk site m = true) ∧ (((s.leaveL1 site m.module).askedAgain { site := site, op := .evictClean, cxl := false, goOnly := false, tag := m.tag, line := 0, va := m.va.getD 0 / lineSize * lineSize, ctx := s.rd (siteCtx site), seg := 0, bytes := [], poison := false }).isNone = true) ∧ ((s.leaveL1 site m.module).siteXlat site (m.va.getD 0 / lineSize * lineSize) false = .ok (.mem a coh) seg left))) = true := by decide +kernel
theorem witness_CoherenceCommandsTakeEffect_cxlRdshared : (let s : State := withSite; let site : Nat := 2; let m : SysMsg := aMsg; let a : Nat := 64; let left : Nat := (0x200000 - 64); let coh : Bool := true; let seg : Option (Nat × Nat) := some (0, 0); decide (((s.leaveL1 site m.module).siteOpen site = true) ∧ ((s.leaveL1 site m.module).msgOk site m = true) ∧ (((s.leaveL1 site m.module).askedAgain { site := site, op := .rdShared, cxl := true, goOnly := true, tag := m.tag, line := 0, va := m.va.getD 0 / lineSize * lineSize, ctx := s.rd (siteCtx site), seg := 0, bytes := [], poison := false }).isNone = true) ∧ ((s.leaveL1 site m.module).siteXlat site (m.va.getD 0 / lineSize * lineSize) false = .ok (.mem a coh) seg left) ∧ (coh = true) ∧ ((s.leaveL1 site m.module).siteCoherent site = true))) = true := by decide +kernel
theorem witness_CoherenceCommandsTakeEffect_cxlRdany : (let s : State := withSite; let site : Nat := 2; let m : SysMsg := aMsg; let a : Nat := 64; let left : Nat := (0x200000 - 64); let coh : Bool := true; let seg : Option (Nat × Nat) := some (0, 0); decide (((s.leaveL1 site m.module).siteOpen site = true) ∧ ((s.leaveL1 site m.module).msgOk site m = true) ∧ (((s.leaveL1 site m.module).askedAgain { site := site, op := .rdShared, cxl := true, goOnly := false, tag := m.tag, line := 0, va := m.va.getD 0 / lineSize * lineSize, ctx := s.rd (siteCtx site), seg := 0, bytes := [], poison := false }).isNone = true) ∧ ((s.leaveL1 site m.module).siteXlat site (m.va.getD 0 / lineSize * lineSize) false = .ok (.mem a coh) seg left) ∧ (coh = true) ∧ ((s.leaveL1 site m.module).siteCoherent site = true))) = true := by decide +kernel
theorem witness_CoherenceCommandsTakeEffect_cxlRdown : (let s : State := withSite; let site : Nat := 2; let m : SysMsg := aMsg; let a : Nat := 64; let left : Nat := (0x200000 - 64); let coh : Bool := true; let seg : Option (Nat × Nat) := some (0, 0); decide (((s.leaveL1 site m.module).siteOpen site = true) ∧ ((s.leaveL1 site m.module).msgOk site m = true) ∧ (((s.leaveL1 site m.module).askedAgain { site := site, op := .rdOwn, cxl := true, goOnly := false, tag := m.tag, line := 0, va := m.va.getD 0 / lineSize * lineSize, ctx := s.rd (siteCtx site), seg := 0, bytes := [], poison := false }).isNone = true) ∧ ((s.leaveL1 site m.module).siteXlat site (m.va.getD 0 / lineSize * lineSize) true = .ok (.mem a coh) seg left) ∧ (coh = true) ∧ ((s.leaveL1 site m.module).siteCoherent site = true) ∧ (((s.leaveL1 site m.module).own (a / granuleBytes)).bedrock = false) ∧ ((s.leaveL1 site m.module).segPermits (s.rd (siteCtx site)) ((seg.map Prod.fst).getD 0) .read = true))) = true := by decide +kernel
theorem witness_CoherenceCommandsTakeEffect_cxlRdownnodata : (let s : State := withSite; let site : Nat := 2; let m : SysMsg := aMsg; let a : Nat := 64; let left : Nat := (0x200000 - 64); let coh : Bool := true; let seg : Option (Nat × Nat) := some (0, 0); decide (((s.leaveL1 site m.module).siteOpen site = true) ∧ ((s.leaveL1 site m.module).msgOk site m = true) ∧ (((s.leaveL1 site m.module).askedAgain { site := site, op := .upgrade, cxl := true, goOnly := false, tag := m.tag, line := 0, va := m.va.getD 0 / lineSize * lineSize, ctx := s.rd (siteCtx site), seg := 0, bytes := [], poison := false }).isNone = true) ∧ ((s.leaveL1 site m.module).siteXlat site (m.va.getD 0 / lineSize * lineSize) true = .ok (.mem a coh) seg left) ∧ (coh = true) ∧ ((s.leaveL1 site m.module).siteCoherent site = true) ∧ (((s.leaveL1 site m.module).own (a / granuleBytes)).bedrock = false) ∧ ((s.leaveL1 site m.module).segPermits (s.rd (siteCtx site)) ((seg.map Prod.fst).getD 0) .read = true))) = true := by decide +kernel
theorem witness_CoherenceCommandsTakeEffect_cxlRdcurr : (let s : State := withSite; let site : Nat := 2; let m : SysMsg := aMsg; let a : Nat := 64; let left : Nat := (0x200000 - 64); let coh : Bool := true; let seg : Option (Nat × Nat) := some (0, 0); decide (((s.leaveL1 site m.module).siteOpen site = true) ∧ ((s.leaveL1 site m.module).msgOk site m = true) ∧ (((s.leaveL1 site m.module).askedAgain { site := site, op := .rdCurr, cxl := true, goOnly := false, tag := m.tag, line := 0, va := m.va.getD 0 / lineSize * lineSize, ctx := s.rd (siteCtx site), seg := 0, bytes := [], poison := false }).isNone = true) ∧ ((s.leaveL1 site m.module).siteXlat site (m.va.getD 0 / lineSize * lineSize) false = .ok (.mem a coh) seg left))) = true := by decide +kernel
theorem witness_CoherenceCommandsTakeEffect_cxlWrinv : (let s : State := withSite; let site : Nat := 2; let m : SysMsg := aMsg; let bytes : List Byte := []; let poison : Bool := true; let a : Nat := 64; let left : Nat := (0x200000 - 64); let coh : Bool := true; let seg : Option (Nat × Nat) := some (0, 0); decide (((s.leaveL1 site m.module).siteOpen site = true) ∧ ((s.leaveL1 site m.module).msgOk site m = true) ∧ (((s.leaveL1 site m.module).askedAgain { site := site, op := .wrLine, cxl := true, goOnly := false, tag := m.tag, line := 0, va := m.va.getD 0 / lineSize * lineSize, ctx := s.rd (siteCtx site), seg := 0, bytes := wholeLine bytes, poison := poison }).isNone = true) ∧ ((s.leaveL1 site m.module).siteXlat site (m.va.getD 0 / lineSize * lineSize) true = .ok (.mem a coh) seg left))) = true := by decide +kernel
theorem witness_CoherenceCommandsTakeEffect_cxlCleanevict : (let s : State := withSite; let site : Nat := 2; let m : SysMsg := aMsg; let a : Nat := 64; let left : Nat := (0x200000 - 64); let coh : Bool := true; let seg : Option (Nat × Nat) := some (0, 0); decide (((s.leaveL1 site m.module).siteOpen site = true) ∧ ((s.leaveL1 site m.module).msgOk site m = true) ∧ (((s.leaveL1 site m.module).askedAgain { site := site, op := .evictClean, cxl := true, goOnly := false, tag := m.tag, line := 0, va := m.va.getD 0 / lineSize * lineSize, ctx := s.rd (siteCtx site), seg := 0, bytes := [], poison := false }).isNone = true) ∧ ((s.leaveL1 site m.module).siteXlat site (m.va.getD 0 / lineSize * lineSize) false = .ok (.mem a coh) seg left))) = true := by decide +kernel
theorem witness_CoherenceCommandsTakeEffect_cxlDirtyevict : (let s : State := withSite; let site : Nat := 2; let m : SysMsg := aMsg; let bytes : List Byte := []; let poison : Bool := true; let a : Nat := 64; let left : Nat := (0x200000 - 64); let coh : Bool := true; let seg : Option (Nat × Nat) := some (0, 0); decide (((s.leaveL1 site m.module).siteOpen site = true) ∧ ((s.leaveL1 site m.module).msgOk site m = true) ∧ (((s.leaveL1 site m.module).askedAgain { site := site, op := .wbDirty, cxl := true, goOnly := false, tag := m.tag, line := 0, va := m.va.getD 0 / lineSize * lineSize, ctx := s.rd (siteCtx site), seg := 0, bytes := wholeLine bytes, poison := poison }).isNone = true) ∧ ((s.leaveL1 site m.module).siteXlat site (m.va.getD 0 / lineSize * lineSize) true = .ok (.mem a coh) seg left))) = true := by decide +kernel
theorem witness_CoherenceCommandsTakeEffect_cxlClflush : (let s : State := withSite; let site : Nat := 2; let m : SysMsg := aMsg; let a : Nat := 64; let left : Nat := (0x200000 - 64); let coh : Bool := true; let seg : Option (Nat × Nat) := some (0, 0); decide (((s.leaveL1 site m.module).siteOpen site = true) ∧ ((s.leaveL1 site m.module).msgOk site m = true) ∧ (((s.leaveL1 site m.module).askedAgain { site := site, op := .clFlush, cxl := true, goOnly := false, tag := m.tag, line := 0, va := m.va.getD 0 / lineSize * lineSize, ctx := s.rd (siteCtx site), seg := 0, bytes := [], poison := false }).isNone = true) ∧ ((s.leaveL1 site m.module).siteXlat site (m.va.getD 0 / lineSize * lineSize) false = .ok (.mem a coh) seg left))) = true := by decide +kernel
theorem witness_CoherenceCommandsTakeEffect_systiniAck : (let s : State := withTxn; let site : Nat := 2; let m : SysMsg := { aMsg with va := none }; let t : HomeTxn := aTxn; decide (((s.leaveL1 site m.module).siteOpen site = true) ∧ ((s.leaveL1 site m.module).msgOk site m = true) ∧ ((s.leaveL1 site m.module).grantOf site m.tag = some t))) = true := by decide +kernel
theorem witness_CoherenceCommandsTakeEffect_snprsp : (let s : State := withTxn; let site : Nat := 2; let m : SysMsg := { aMsg with va := none }; let t : HomeTxn := aTxn; let kind : SnoopKind := .share; decide (((s.leaveL1 site m.module).siteOpen site = true) ∧ ((s.leaveL1 site m.module).msgOk site m = true) ∧ ((s.leaveL1 site m.module).snoopOf site m.tag = some (t, kind)))) = true := by decide +kernel
theorem witness_CoherenceCommandsTakeEffect_aprsp : (let s : State := { withSite with acc := { withSite.acc with outq := [{ aOut (.site (siteBase + 2 * siteSpan)) with lines := [none] }] } }; let site : Nat := 2; let m : SysMsg := { aMsg with va := none }; let o : OutReq := { aOut (.site (siteBase + 2 * siteSpan)) with lines := [none] }; let i : Nat := 0; decide (((s.leaveL1 site m.module).siteOpen site = true) ∧ ((s.leaveL1 site m.module).msgOk site m = true) ∧ ((s.leaveL1 site m.module).acc.outq.findSome? (fun (o : OutReq) => (o.lineOf site m.tag).map (fun i => (o, i))) = some (o, i)))) = true := by decide +kernel
theorem witness_CoherenceCommandsTakeEffect_snoopLimitExpiry : (let s : State := withTxn; let site : Nat := 2; let tag : Nat := 7; let t : HomeTxn := aTxn; let kind : SnoopKind := .share; decide ((s.snoopOf site tag = some (t, kind)))) = true := by decide +kernel
theorem witness_CoherenceCommandsTakeEffect_ackLimitExpiry : (let s : State := withTxn; let site : Nat := 2; let tag : Nat := 7; let t : HomeTxn := aTxn; decide ((s.grantOf site tag = some t))) = true := by decide +kernel
theorem witness_CoherenceCommandsTakeEffect_cohCommit : (let s : State := State.reset; let v : Word := 1; decide ((bits v.toNat 0 0 = 1) ∧ (50 ≤ s.shf Reg.COH_CFG_snoop_limit_us) ∧ (s.shf Reg.COH_CFG_snoop_limit_us ≤ 1000))) = true := by decide +kernel
theorem witness_HostInterfaceCommandsTakeEffect_configRequest_0 : (let s : State := withHost; let write : Bool := true; decide ((s.reached = true) ∧ (s.cfgRetry = false) ∧ (write = true))) = true := by decide +kernel
theorem witness_HostInterfaceCommandsTakeEffect_configRequest_1 : (let s : State := withHost; let write : Bool := false; decide ((s.reached = true) ∧ (s.cfgRetry = false) ∧ (write = false))) = true := by decide +kernel
theorem witness_HostInterfaceCommandsTakeEffect_bar4Access : (let s : State := withHost; let len : Nat := 8; let write : Bool := false; let data : List (Option Byte) := []; let tee : Option Nat := none; decide ((s.barOk (.host tee) = true) ∧ ((if write then data.length else len) ≠ 0))) = true := by decide +kernel
theorem witness_HostInterfaceCommandsTakeEffect_outboundCompletion_4 : (let s : State := { withHost with acc := { withHost.acc with outq := [aOut (.host 4096 0)] } }; let tag : Nat := 7; let ok : Bool := true; let o : OutReq := aOut (.host 4096 0); decide ((s.outRead tag = some o) ∧ (ok = true))) = true := by decide +kernel
theorem witness_HostInterfaceCommandsTakeEffect_outboundCompletion_5 : (let s : State := { withHost with acc := { withHost.acc with outq := [aOut (.host 4096 0)] } }; let tag : Nat := 7; let ok : Bool := false; let o : OutReq := aOut (.host 4096 0); decide ((s.outRead tag = some o) ∧ (ok = false))) = true := by decide +kernel
theorem witness_HostInterfaceCommandsTakeEffect_outboundTimeout : (let s : State := { withHost with acc := { withHost.acc with outq := [aOut (.host 4096 0)] } }; let tag : Nat := 7; let o : OutReq := aOut (.host 4096 0); decide ((s.outRead tag = some o) ∧ (s.rd Reg.HOST_STATUS_dstate ≠ 3))) = true := by decide +kernel
theorem witness_HostInterfaceCommandsTakeEffect_msixUnmask : (let s : State := State.reset; let vector : Nat := 5; decide ((vector < 2048))) = true := by decide +kernel
theorem witness_HostInterfaceCommandsTakeEffect_l0pEntry : (let s : State := withHost.wr Reg.HOST_CFG_l0p_en 1; decide ((s.on Reg.HOST_STATUS_link_up = true) ∧ (s.on Reg.HOST_CFG_l0p_en = true) ∧ (s.rd Reg.HOST_LINK_STATUS_pstate = 0))) = true := by decide +kernel
theorem witness_HostInterfaceCommandsTakeEffect_l0pExit : (let s : State := withHost.wr Reg.HOST_LINK_STATUS_pstate 1; decide ((s.rd Reg.HOST_LINK_STATUS_pstate = 1))) = true := by decide +kernel
theorem witness_HostInterfaceCommandsTakeEffect_linkL1Entry : (let s : State := withL1; decide ((s.on Reg.HOST_STATUS_link_up = true) ∧ (s.rd Reg.HOST_LINK_STATUS_pstate ≤ 1) ∧ (s.linkBusy = false) ∧ (s.l1Enabled = true))) = true := by decide +kernel
theorem witness_HostInterfaceCommandsTakeEffect_l12Entry : (let s : State := withL1.wr Reg.HOST_LINK_STATUS_pstate 2; decide ((s.on Reg.HOST_STATUS_link_up = true) ∧ (s.rd Reg.HOST_LINK_STATUS_pstate = 2) ∧ (s.l12Enabled = true))) = true := by decide +kernel
theorem witness_HostInterfaceCommandsTakeEffect_linkStateExit : (let s : State := withHost.wr Reg.HOST_LINK_STATUS_pstate 3; decide ((2 ≤ s.rd Reg.HOST_LINK_STATUS_pstate))) = true := by decide +kernel
theorem witness_HostInterfaceCommandsTakeEffect_flr : (let s : State := withHost; decide ((s.reached = true))) = true := by decide +kernel
theorem witness_HostInterfaceCommandsTakeEffect_hotReset : (let s : State := withHost; decide ((s.reached = true))) = true := by decide +kernel
theorem witness_HostInterfaceCommandsTakeEffect_linkDisable : (let s : State := withHost; decide ((s.reached = true))) = true := by decide +kernel
theorem witness_HostInterfaceCommandsTakeEffect_linkLoss : (let s : State := withHost; decide ((s.reached = true))) = true := by decide +kernel
theorem witness_HostInterfaceCommandsTakeEffect_linkRetrained : (let s : State := withHost; decide ((s.endpointUp = true))) = true := by decide +kernel
theorem witness_HostInterfaceCommandsTakeEffect_hostCommit : (let s : State := (withHost.setShd Reg.HOST_CFG 0).setShd Reg.HOST_CFG ((State.reset.setShd Reg.HOST_CFG 0).reg Reg.HOST_CFG); let v : Word := 1; decide ((bits v.toNat 0 0 = 1) ∧ (s.hostRefusal = none))) = true := by decide +kernel
theorem witness_SecurityMessagesTakeEffect_getVersion : (let s : State := withHost; decide ((s.doeUp = true))) = true := by decide +kernel
theorem witness_SecurityMessagesTakeEffect_getCapabilities : (let s : State := withHost; decide ((s.doeUp = true))) = true := by decide +kernel
theorem witness_SecurityMessagesTakeEffect_negotiateAlgorithms : (let s : State := withHost; decide ((s.doeUp = true))) = true := by decide +kernel
theorem witness_SecurityMessagesTakeEffect_getDigests : (let s : State := withHost; decide ((s.doeUp = true))) = true := by decide +kernel
theorem witness_SecurityMessagesTakeEffect_getCertificate : (let s : State := withHost; decide ((s.doeUp = true))) = true := by decide +kernel
theorem witness_SecurityMessagesTakeEffect_challenge : (let s : State := withHost; decide ((s.doeUp = true))) = true := by decide +kernel
theorem witness_SecurityMessagesTakeEffect_getMeasurements_6 : (let s : State := withHost; let index : Nat := 3; decide ((s.doeUp = true) ∧ (index ≠ 0) ∧ (index ≠ 0xFF) ∧ (index ≤ 6))) = true := by decide +kernel
theorem witness_SecurityMessagesTakeEffect_getMeasurements_7 : (let s : State := withHost; let index : Nat := 0; decide ((s.doeUp = true) ∧ (index = 0))) = true := by decide +kernel
theorem witness_SecurityMessagesTakeEffect_getMeasurements_8 : (let s : State := withHost; let index : Nat := 0xFF; decide ((s.doeUp = true) ∧ (index = 0xFF))) = true := by decide +kernel
theorem witness_SecurityMessagesTakeEffect_keyExchange : (let s : State := withHost; decide ((s.doeUp = true) ∧ (s.host.session = false))) = true := by decide +kernel
theorem witness_SecurityMessagesTakeEffect_finish_10 : (let s : State := { withHost with host := { withHost.host with handshake := true } }; let genuine : Bool := true; decide ((s.doeUp = true) ∧ (s.host.handshake = true) ∧ (genuine = true))) = true := by decide +kernel
theorem witness_SecurityMessagesTakeEffect_finish_11 : (let s : State := { withHost with host := { withHost.host with handshake := true } }; let genuine : Bool := false; decide ((s.doeUp = true) ∧ (s.host.handshake = true) ∧ (genuine = false))) = true := by decide +kernel
theorem witness_SecurityMessagesTakeEffect_keyUpdate : (let s : State := withSession; decide ((s.doeUp = true) ∧ (s.host.session = true))) = true := by decide +kernel
theorem witness_SecurityMessagesTakeEffect_heartbeat : (let s : State := withSession; decide ((s.doeUp = true) ∧ (s.host.session = true))) = true := by decide +kernel
theorem witness_SecurityMessagesTakeEffect_endSession : (let s : State := withSession; decide ((s.doeUp = true) ∧ (s.host.session = true))) = true := by decide +kernel
theorem witness_SecurityMessagesTakeEffect_keySet : (let s : State := withSession.wr Reg.FAB_GROUP_role 1; let slot : Nat := 12; decide ((s.host.session = true) ∧ (11 ≤ slot) ∧ (slot ≤ 15) ∧ (s.role ≠ 0) ∧ (s.role ≠ 4) ∧ (s.rd Reg.HOST_STATUS_tdisp ≠ 3))) = true := by decide +kernel
theorem witness_SecurityMessagesTakeEffect_keyClear : (let s : State := withSession.wr Reg.FAB_GROUP_role 1; let slot : Nat := 12; decide ((s.host.session = true) ∧ (11 ≤ slot) ∧ (slot ≤ 15) ∧ (s.role ≠ 0) ∧ (s.role ≠ 4) ∧ (s.rd Reg.HOST_STATUS_tdisp ≠ 3))) = true := by decide +kernel
theorem witness_SecurityMessagesTakeEffect_ideKmProgram : (let s : State := withSession; let stream : Nat := 2; decide ((s.doeUp = true) ∧ (s.host.session = true) ∧ (stream < 8))) = true := by decide +kernel
theorem witness_SecurityMessagesTakeEffect_ideTlpFailure : (let s : State := withHost; let stream : Nat := 2; decide ((stream < 8) ∧ (s.reached = true))) = true := by decide +kernel
theorem witness_SecurityMessagesTakeEffect_lockInterface : (let s : State := withKeyed; decide ((s.doeUp = true) ∧ (s.rd Reg.HOST_STATUS_tdisp = 0) ∧ (s.blanket.row = 0) ∧ (s.host.lockPend = false) ∧ (s.blanket.wiped = true) ∧ (s.streamsKeyed = true))) = true := by decide +kernel
theorem witness_SecurityMessagesTakeEffect_startInterface : (let s : State := withHost.wr Reg.HOST_STATUS_tdisp 1; decide ((s.doeUp = true) ∧ (s.rd Reg.HOST_STATUS_tdisp = 1))) = true := by decide +kernel
theorem witness_SecurityMessagesTakeEffect_stopInterface : (let s : State := withHost.wr Reg.HOST_STATUS_tdisp 2; decide ((s.doeUp = true) ∧ (s.rd Reg.HOST_STATUS_tdisp ≠ 0))) = true := by decide +kernel
theorem witness_FabricPortCommandsTakeEffect_portTrained : (let s : State := State.reset.setPortState 3 1; let port : Nat := 3; let neighbour : Nat := 1; let version : Nat := 2; decide ((s.portState port = 1) ∧ (port < 16) ∧ (s.on Reg.FAB_IDENT_configured = false ∨ neighbour ≠ s.deviceId) ∧ (version = 2 ∨ (version = 1 ∧ (s.port port).mode = 2)))) = true := by decide +kernel
theorem witness_FabricPortCommandsTakeEffect_portTrainingMismatch : (let s : State := State.reset.setPortState 3 1; let port : Nat := 3; decide ((s.portState port = 1) ∧ (port < 16))) = true := by decide +kernel
theorem witness_FabricPortCommandsTakeEffect_portRetrain : (let s : State := State.reset.setPortState 3 2; let port : Nat := 3; decide ((s.portUp port = true) ∧ (port < 16))) = true := by decide +kernel
theorem witness_FabricPortCommandsTakeEffect_portRetrainResult_3 : (let s : State := State.reset.setPortState 3 4; let port : Nat := 3; let ok : Bool := true; decide ((s.portState port = 4) ∧ (port < 16) ∧ (ok = true))) = true := by decide +kernel
theorem witness_FabricPortCommandsTakeEffect_portRetrainResult_4 : (let s : State := State.reset.setPortState 3 4; let port : Nat := 3; let ok : Bool := false; decide ((s.portState port = 4) ∧ (port < 16) ∧ (ok = false))) = true := by decide +kernel
theorem witness_FabricPortCommandsTakeEffect_portRecRetry : (let s : State := ((State.reset.wr (Reg.FAB_PORT_REC_pending 3) 1).wr (Reg.FAB_PORT_REC_offered 3) 14); let port : Nat := 3; decide ((port < 16) ∧ (s.on (Reg.FAB_PORT_REC_pending port) = true) ∧ (bit (s.rd (Reg.FAB_PORT_REC_offered port)) 1 = true))) = true := by decide +kernel
theorem witness_FabricPortCommandsTakeEffect_portRecHalf : (let s : State := ((State.reset.wr (Reg.FAB_PORT_REC_pending 3) 1).wr (Reg.FAB_PORT_REC_offered 3) 14); let port : Nat := 3; decide ((port < 16) ∧ (s.on (Reg.FAB_PORT_REC_pending port) = true) ∧ (bit (s.rd (Reg.FAB_PORT_REC_offered port)) 2 = true))) = true := by decide +kernel
theorem witness_FabricPortCommandsTakeEffect_portRecDown : (let s : State := ((State.reset.wr (Reg.FAB_PORT_REC_pending 3) 1).wr (Reg.FAB_PORT_REC_offered 3) 14); let port : Nat := 3; decide ((port < 16) ∧ (s.on (Reg.FAB_PORT_REC_pending port) = true) ∧ (bit (s.rd (Reg.FAB_PORT_REC_offered port)) 3 = true))) = true := by decide +kernel
theorem witness_FabricPortCommandsTakeEffect_portAwaitTimeout : (let s : State := State.reset.setPortState 3 5; let port : Nat := 3; decide ((s.portState port = 5) ∧ (port < 16))) = true := by decide +kernel
theorem witness_FabricPortCommandsTakeEffect_linkBlockReceive_9 : (let s : State := State.reset.setPortState 3 2; let port : Nat := 3; let crcOk : Bool := false; decide ((s.portUp port = true) ∧ (port < 16) ∧ (crcOk = false))) = true := by decide +kernel
theorem witness_FabricPortCommandsTakeEffect_linkBlockReceive_10 : (let s : State := State.reset.setPortState 3 2; let port : Nat := 3; let crcOk : Bool := true; decide ((s.portUp port = true) ∧ (port < 16) ∧ (crcOk = true))) = true := by decide +kernel
theorem witness_FabricPortCommandsTakeEffect_linkResendTimer : (let s : State := State.reset.setPortState 3 2; let port : Nat := 3; decide ((s.portUp port = true) ∧ (port < 16))) = true := by decide +kernel
theorem witness_FabricPortCommandsTakeEffect_fabCommit : (let s : State := State.reset; let v : Word := 1; decide ((bits v.toNat 0 0 = 1) ∧ (s.fabRefusal = none))) = true := by decide +kernel
theorem witness_ConnectionCommandsTakeEffect_write : (let s : State := withConn; let h : FabHdr := aHdr; let bytes : List Byte := []; decide ((s.connLive h = true) ∧ ((s.connState h.conn).v1 = false) ∧ (h.seq % 2 ^ 24 = (s.connState h.conn).recvSeq) ∧ (s.acceptable h.conn (hdrMsg h 1 (bytes.take 2048).length (bytes.take 2048)) = true))) = true := by decide +kernel
theorem witness_ConnectionCommandsTakeEffect_read : (let s : State := withConn; let h : FabHdr := aHdr; let len : Nat := 0; decide ((s.connLive h = true) ∧ ((s.connState h.conn).v1 = false) ∧ (h.seq % 2 ^ 24 = (s.connState h.conn).recvSeq) ∧ (s.acceptable h.conn (hdrMsg h 2 (min len 2048) []) = true))) = true := by decide +kernel
theorem witness_ConnectionCommandsTakeEffect_atomic : (let s : State := withConn; let h : FabHdr := aHdr; let kind : Nat := 0; let a : Nat := 0; let b : Nat := 0; decide ((s.connLive h = true) ∧ ((s.connState h.conn).v1 = false) ∧ (h.seq % 2 ^ 24 = (s.connState h.conn).recvSeq) ∧ (s.acceptable h.conn (hdrMsg h 4 8 (leBytes 1 kind ++ leBytes 8 a ++ leBytes 8 b)) = true))) = true := by decide +kernel
theorem witness_ConnectionCommandsTakeEffect_readRsp : (let s : State := withConn; let h : FabHdr := aHdr; let bytes : List Byte := []; decide ((s.connLive h = true) ∧ ((s.connState h.conn).v1 = false) ∧ (h.seq % 2 ^ 24 = (s.connState h.conn).recvSeq) ∧ (s.acceptable h.conn (hdrMsg h 3 bytes.length bytes) = true))) = true := by decide +kernel
theorem witness_ConnectionCommandsTakeEffect_atomicRsp : (let s : State := withConn; let h : FabHdr := aHdr; let old : Nat := 0; decide ((s.connLive h = true) ∧ ((s.connState h.conn).v1 = false) ∧ (h.seq % 2 ^ 24 = (s.connState h.conn).recvSeq) ∧ (s.acceptable h.conn (hdrMsg h 5 8 (leBytes 8 old)) = true))) = true := by decide +kernel
theorem witness_ConnectionCommandsTakeEffect_ack : (let s : State := withConn; let h : FabHdr := aHdr; decide ((s.connLive h = true))) = true := by decide +kernel
theorem witness_ConnectionCommandsTakeEffect_ackTimer : (let s : State := withConn.setConn 2 { ConnSt.closed with toAck := 1 }; let conn : Nat := 2; decide ((((s.connKick conn (s.connState conn).held.length).connState conn).toAck ≠ 0))) = true := by decide +kernel
theorem witness_ConnectionCommandsTakeEffect_openMsg : (let s : State := withConn.connWr 2 Reg.FAB_CONN_DATA_enable 1; let src : Nat := 65; let slot : Nat := 11; let e : Nat := 2; decide ((s.connFor src slot = some e) ∧ (s.connHeld e = false) ∧ (s.slotLoaded slot = true) ∧ (s.connRd e Reg.FAB_CONN_DATA_state ≠ 4))) = true := by decide +kernel
theorem witness_ConnectionCommandsTakeEffect_openAck : (let s : State := withConn.connWr 2 Reg.FAB_CONN_DATA_state 1; let conn : Nat := 2; let src : Nat := 65; decide ((s.connRd conn Reg.FAB_CONN_DATA_state = 1 ∨ s.connRd conn Reg.FAB_CONN_DATA_state = 3) ∧ (s.connRd conn Reg.FAB_CONN_DATA_peer = src))) = true := by decide +kernel
theorem witness_ConnectionCommandsTakeEffect_openRetryTimer : (let s : State := withConn.connWr 2 Reg.FAB_CONN_DATA_state 1; let conn : Nat := 2; decide ((s.connRd conn Reg.FAB_CONN_DATA_state = 1 ∨ s.connRd conn Reg.FAB_CONN_DATA_state = 3))) = true := by decide +kernel
theorem witness_ConnectionCommandsTakeEffect_close : (let s : State := withConn; let h : FabHdr := aHdr; decide ((s.connLive h = true))) = true := by decide +kernel
theorem witness_ConnectionCommandsTakeEffect_rekey : (let s : State := withConn; let h : FabHdr := aHdr; decide ((s.connLive h = true) ∧ ((s.connState h.conn).v1 = false))) = true := by decide +kernel
theorem witness_ConnectionCommandsTakeEffect_rekeyThreshold : (let s : State := withConn; let conn : Nat := 2; decide ((s.connRd conn Reg.FAB_CONN_DATA_state = 2) ∧ ((s.connState conn).v1 = false))) = true := by decide +kernel
theorem witness_ConnectionCommandsTakeEffect_sessionLimitV1 : (let s : State := withConn.setConn 2 { ConnSt.closed with v1 := true }; let conn : Nat := 2; decide ((s.connRd conn Reg.FAB_CONN_DATA_state = 2) ∧ ((s.connState conn).v1 = true))) = true := by decide +kernel
theorem witness_ConnectionCommandsTakeEffect_peerLimitExpiry : (let s : State := (withConn.setConn 2 { ConnSt.closed with unacked := [hdrMsg aHdr 1 0 []] }).setReg Reg.TIME_NOW 0x10000000000; let conn : Nat := 2; decide ((s.peerLate conn = true))) = true := by decide +kernel
theorem witness_ConnectionCommandsTakeEffect_ready : (let s : State := withConn; let h : FabHdr := aHdr; let comm : Nat := 0; let cseq : Nat := 0; let step : Nat := 0; let credit : Nat := 0; let op : Nat := 0; let count : Nat := 0; let fmt : Nat := 0; let redop : Nat := 0; let xsExp : Nat := 0; let root : Nat := 0; decide ((s.connLive h = true) ∧ ((s.connState h.conn).v1 = false) ∧ (h.seq % 2 ^ 24 = (s.connState h.conn).recvSeq) ∧ (s.acceptable h.conn (hdrMsg h 0x40 32 (collSub comm cseq step credit ++ readyBody op count fmt redop xsExp root)) = true))) = true := by decide +kernel
theorem witness_ConnectionCommandsTakeEffect_data : (let s : State := withConn; let h : FabHdr := aHdr; let comm : Nat := 0; let cseq : Nat := 0; let step : Nat := 0; let offset : Nat := 0; let data : List Byte := []; decide ((s.connLive h = true) ∧ ((s.connState h.conn).v1 = false) ∧ (h.seq % 2 ^ 24 = (s.connState h.conn).recvSeq) ∧ (s.acceptable h.conn (hdrMsg h 0x41 (16 + (data.take 2032).length) (collSub comm cseq step offset ++ data.take 2032)) = true))) = true := by decide +kernel
theorem witness_ConnectionCommandsTakeEffect_collAbort : (let s : State := withConn; let h : FabHdr := aHdr; let comm : Nat := 0; let cseq : Nat := 0; let status : Nat := 0; let device : Nat := 0; let rank : Nat := 0; decide ((s.connLive h = true) ∧ ((s.connState h.conn).v1 = false) ∧ (h.seq % 2 ^ 24 = (s.connState h.conn).recvSeq) ∧ (s.acceptable h.conn (hdrMsg h 0x42 24 (collSub comm cseq 0 0 ++ leBytes 2 status ++ leBytes 2 device ++ leBytes 4 rank)) = true))) = true := by decide +kernel
theorem witness_ConnectionCommandsTakeEffect_extend : (let s : State := withConn; let h : FabHdr := aHdr; let device : Nat := 0; let delay : Nat := 0; let cairnSeq : Nat := 0; decide ((s.connLive h = true) ∧ ((s.connState h.conn).v1 = false) ∧ (h.seq % 2 ^ 24 = (s.connState h.conn).recvSeq) ∧ (s.acceptable h.conn (hdrMsg h 0x43 25 (collSub 0 0 0 0 ++ extendBody device delay cairnSeq)) = true))) = true := by decide +kernel
theorem witness_ConnectionCommandsTakeEffect_lost : (let s : State := withConn; let h : FabHdr := aHdr; let device : Nat := 0; decide ((s.connLive h = true) ∧ ((s.connState h.conn).v1 = false) ∧ (h.seq % 2 ^ 24 = (s.connState h.conn).recvSeq) ∧ (s.acceptable h.conn (hdrMsg h 0x44 18 (collSub 0 0 0 0 ++ lostBody device)) = true))) = true := by decide +kernel
theorem witness_HierarchyCommandsTakeEffect_cairnSend : (let s : State := withConn; decide ((s.on Reg.FAB_IDENT_configured = true) ∧ (s.glb.stop ≠ 2))) = true := by decide +kernel
theorem witness_HierarchyCommandsTakeEffect_cairn : (let s : State := withConn; let h : FabHdr := aHdr; let c : Cairn := aCairn; decide ((c.device = h.src) ∧ (h.conn < 2048) ∧ (s.connLive h = true) ∧ ((s.connState h.conn).v1 = false))) = true := by decide +kernel
theorem witness_HierarchyCommandsTakeEffect_memberSilent : (let s : State := (withConn.wr Reg.FAB_GROUP_role 3).setSeen 5 { PeerSeen.never with joined := true } |>.setReg Reg.TIME_NOW 0x10000000000; let member : Nat := 5; decide ((s.role = 2 ∨ s.role = 3) ∧ ((s.seen (member % 64)).joined = true) ∧ ((s.seen (member % 64)).lost = false) ∧ (member % 64 ≠ s.me) ∧ (s.silentFor (s.seen (member % 64)).at_ 31 = true))) = true := by decide +kernel
theorem witness_HierarchyCommandsTakeEffect_deputyClaim : (let s : State := claimant 2; decide ((s.role = 2) ∧ (s.silentFor s.hier.heardAt 31 = true) ∧ (s.mayClaim = true))) = true := by decide +kernel
theorem witness_HierarchyCommandsTakeEffect_workerClaimTimer : (let s : State := claimant 1; decide ((s.role = 1) ∧ (s.silentFor s.hier.heardAt (60 + 10 * s.me) = true) ∧ (s.mayClaim = true))) = true := by decide +kernel
theorem witness_HierarchyCommandsTakeEffect_topClaimTimer : (let s : State := claimant 3; decide ((s.role = 3) ∧ (s.on Reg.FAB_GROUP_top = false) ∧ (s.silentFor s.hier.topAt (if s.on Reg.FAB_GROUP_top_deputy then 31 else 60 + 10 * (s.group % 64)) = true) ∧ (s.mayClaim = true))) = true := by decide +kernel
theorem witness_HierarchyCommandsTakeEffect_managerListenExpiry : (let s : State := withConn.wr Reg.HUB_READY_ready 1; decide ((s.on Reg.FAB_IDENT_configured = true) ∧ (s.on Reg.HUB_READY_ready = true) ∧ (s.role = 0) ∧ (s.rd Reg.FAB_IDENT_manager_member = s.me) ∧ (s.hier.heard = false))) = true := by decide +kernel
theorem witness_HierarchyCommandsTakeEffect_claim_7 : (let s : State := claimant 1; let h : FabHdr := { aHdr with src := 3 }; let top : Bool := false; let epoch : Nat := 1; decide ((h.authentic = true) ∧ (s.role ≠ 0) ∧ (top = false) ∧ (h.src / 64 = s.group) ∧ (h.src % 64 ≠ s.me) ∧ (wins epoch (h.src % 64) s.epoch s.manager = true) ∧ (s.enrolled (h.src % 64) = true))) = true := by decide +kernel
theorem witness_HierarchyCommandsTakeEffect_claim_8 : (let s : State := claimant 3; let h : FabHdr := { aHdr with src := 64 }; let top : Bool := true; let epoch : Nat := 1; decide ((h.authentic = true) ∧ (s.role = 3) ∧ (top = true) ∧ (wins epoch (h.src / 64) s.hier.topEpoch (s.rd Reg.FAB_TOP_top_group) = true) ∧ (h.src / 64 ≠ s.group))) = true := by decide +kernel
theorem witness_HierarchyCommandsTakeEffect_join_9 : (let s : State := claimant 3; let src : Nat := 5; let id : Identity := { digest := 0, serial := 0, cm2 := false, genuine := true }; decide ((id.genuine = true) ∧ (src ≠ s.deviceId) ∧ (src / 64 = s.group) ∧ (s.role = 2 ∨ s.role = 3))) = true := by decide +kernel
theorem witness_HierarchyCommandsTakeEffect_join_10 : (let s : State := (claimant 3).wr Reg.FAB_GROUP_top 1; let src : Nat := 65; let id : Identity := { digest := 0, serial := 0, cm2 := false, genuine := true }; decide ((id.genuine = true) ∧ (src ≠ s.deviceId) ∧ (src / 64 ≠ s.group) ∧ (s.on Reg.FAB_GROUP_top = true ∨ s.on Reg.FAB_GROUP_top_deputy = true))) = true := by decide +kernel
theorem witness_HierarchyCommandsTakeEffect_joinAck : (let s : State := { claimant 0 with hier := { (claimant 0).hier with joining := true } }; let src : Nat := 5; let top : Bool := false; decide ((top = false) ∧ (src / 64 = s.group) ∧ (s.role ≠ 3) ∧ (s.hier.joining = true))) = true := by decide +kernel
theorem witness_HierarchyCommandsTakeEffect_joinRetry : (let s : State := { (withConn.wr Reg.HUB_READY_ready 1) with hier := { withConn.hier with joining := true } }; decide ((s.on Reg.FAB_IDENT_configured = true) ∧ (s.on Reg.HUB_READY_ready = true) ∧ (s.hier.joining = true))) = true := by decide +kernel
theorem witness_HierarchyCommandsTakeEffect_roster_13 : (let s : State := withConn.wr Reg.FAB_GROUP_role 3; let h : FabHdr := aHdr; let reply : Option (List RosterEntry) := none; decide ((s.connLive h = true) ∧ (h.conn < 2048) ∧ ((s.connState h.conn).v1 = false) ∧ (reply = none) ∧ (s.role = 2 ∨ s.role = 3) ∧ (s.quarantined h.src = false))) = true := by decide +kernel
theorem witness_HierarchyCommandsTakeEffect_map : (let s : State := withConn; let h : FabHdr := aHdr; decide ((s.connLive h = true) ∧ (h.conn < 2048) ∧ ((s.connState h.conn).v1 = false))) = true := by decide +kernel
theorem witness_HierarchyCommandsTakeEffect_fwdRecompute : (let s : State := withConn; decide ((s.on Reg.FAB_IDENT_configured = true) ∧ (s.isManager = false))) = true := by decide +kernel
theorem witness_HierarchyCommandsTakeEffect_roster : ∃ (h : FabHdr) (reply : Option (List RosterEntry)) (l : List RosterEntry) (s : State),
    s.connLive h = true ∧ (s.connState h.conn).v1 = false ∧ reply = some l ∧ h.conn ≤ 1 ∧ (s.role = 1 ∨ s.role = 2) ∧
    digestHead (rosterDigest ((l.take 64).zipIdx.map (fun p => (p.2, p.1)))) = s.hier.rosterSeen := by
  refine ⟨{ aHdr with conn := 1, src := 64 }, some rosterList, rosterList, askedRoster, ?_, ?_, rfl, ?_, ?_, rfl⟩ <;> decide +kernel
theorem witness_CollectiveCommandsTakeEffect_allreduce : (let s : State := ringAt clsColl [0x2000040, 0, 4096, 64, 8192]; let ring : Nat := 0; let q : QDesc := aDesc [0x2000040, 0, 4096, 64, 8192]; let held : Held := (match (ringAt clsColl [0x2000040, 0, 4096, 64, 8192]).checkFields 0 true ((ringAt clsColl [0x2000040, 0, 4096, 64, 8192]).strictOf 0 (descOf [0x2000040, 0, 4096, 64, 8192])) ((ringAt clsColl [0x2000040, 0, 4096, 64, 8192]).addrFields 0 (descOf [0x2000040, 0, 4096, 64, 8192])) [] with | .ok h => h | _ => []); decide (((s.ring ring).fetched.head? = some q) ∧ (s.glb.stop = 0) ∧ (s.rd (Reg.QM_RING_STATE_state ring) = ringActive) ∧ (s.mayIssue ring (s.fenceOf ring q.bytes) = true) ∧ (s.knownOp ring q.bytes = true) ∧ (s.isOp ring 0x40 q.bytes = true) ∧ ((s.freeSlot (s.ringEngine ring)).isNone = false) ∧ (collOk q.bytes = true) ∧ (s.checkFields ring q.phys (s.strictOf ring q.bytes) (s.addrFields ring q.bytes) q.held = .ok held) ∧ (s.engineGone ring = false))) = true := by decide +kernel
theorem witness_CollectiveCommandsTakeEffect_reduceScatter : (let s : State := ringAt clsColl [0x2000041, 0, 4096, 64, 8192]; let ring : Nat := 0; let q : QDesc := aDesc [0x2000041, 0, 4096, 64, 8192]; let held : Held := (match (ringAt clsColl [0x2000041, 0, 4096, 64, 8192]).checkFields 0 true ((ringAt clsColl [0x2000041, 0, 4096, 64, 8192]).strictOf 0 (descOf [0x2000041, 0, 4096, 64, 8192])) ((ringAt clsColl [0x2000041, 0, 4096, 64, 8192]).addrFields 0 (descOf [0x2000041, 0, 4096, 64, 8192])) [] with | .ok h => h | _ => []); decide (((s.ring ring).fetched.head? = some q) ∧ (s.glb.stop = 0) ∧ (s.rd (Reg.QM_RING_STATE_state ring) = ringActive) ∧ (s.mayIssue ring (s.fenceOf ring q.bytes) = true) ∧ (s.knownOp ring q.bytes = true) ∧ (s.isOp ring 0x41 q.bytes = true) ∧ ((s.freeSlot (s.ringEngine ring)).isNone = false) ∧ (collOk q.bytes = true) ∧ (s.checkFields ring q.phys (s.strictOf ring q.bytes) (s.addrFields ring q.bytes) q.held = .ok held) ∧ (s.engineGone ring = false))) = true := by decide +kernel
theorem witness_CollectiveCommandsTakeEffect_allgather : (let s : State := ringAt clsColl [0x2000042, 0, 4096, 64, 8192]; let ring : Nat := 0; let q : QDesc := aDesc [0x2000042, 0, 4096, 64, 8192]; let held : Held := (match (ringAt clsColl [0x2000042, 0, 4096, 64, 8192]).checkFields 0 true ((ringAt clsColl [0x2000042, 0, 4096, 64, 8192]).strictOf 0 (descOf [0x2000042, 0, 4096, 64, 8192])) ((ringAt clsColl [0x2000042, 0, 4096, 64, 8192]).addrFields 0 (descOf [0x2000042, 0, 4096, 64, 8192])) [] with | .ok h => h | _ => []); decide (((s.ring ring).fetched.head? = some q) ∧ (s.glb.stop = 0) ∧ (s.rd (Reg.QM_RING_STATE_state ring) = ringActive) ∧ (s.mayIssue ring (s.fenceOf ring q.bytes) = true) ∧ (s.knownOp ring q.bytes = true) ∧ (s.isOp ring 0x42 q.bytes = true) ∧ ((s.freeSlot (s.ringEngine ring)).isNone = false) ∧ (collOk q.bytes = true) ∧ (s.checkFields ring q.phys (s.strictOf ring q.bytes) (s.addrFields ring q.bytes) q.held = .ok held) ∧ (s.engineGone ring = false))) = true := by decide +kernel
theorem witness_CollectiveCommandsTakeEffect_broadcast : (let s : State := ringAt clsColl [0x2000043, 0, 4096, 64, 8192]; let ring : Nat := 0; let q : QDesc := aDesc [0x2000043, 0, 4096, 64, 8192]; let held : Held := (match (ringAt clsColl [0x2000043, 0, 4096, 64, 8192]).checkFields 0 true ((ringAt clsColl [0x2000043, 0, 4096, 64, 8192]).strictOf 0 (descOf [0x2000043, 0, 4096, 64, 8192])) ((ringAt clsColl [0x2000043, 0, 4096, 64, 8192]).addrFields 0 (descOf [0x2000043, 0, 4096, 64, 8192])) [] with | .ok h => h | _ => []); decide (((s.ring ring).fetched.head? = some q) ∧ (s.glb.stop = 0) ∧ (s.rd (Reg.QM_RING_STATE_state ring) = ringActive) ∧ (s.mayIssue ring (s.fenceOf ring q.bytes) = true) ∧ (s.knownOp ring q.bytes = true) ∧ (s.isOp ring 0x43 q.bytes = true) ∧ ((s.freeSlot (s.ringEngine ring)).isNone = false) ∧ (collOk q.bytes = true) ∧ (s.checkFields ring q.phys (s.strictOf ring q.bytes) (s.addrFields ring q.bytes) q.held = .ok held) ∧ (s.engineGone ring = false))) = true := by decide +kernel
theorem witness_CollectiveCommandsTakeEffect_barrier : (let s : State := ringAt clsColl [0x2000044, 0, 0, 0, 8192]; let ring : Nat := 0; let q : QDesc := aDesc [0x2000044, 0, 0, 0, 8192]; let held : Held := (match (ringAt clsColl [0x2000044, 0, 0, 0, 8192]).checkFields 0 true ((ringAt clsColl [0x2000044, 0, 0, 0, 8192]).strictOf 0 (descOf [0x2000044, 0, 0, 0, 8192])) ((ringAt clsColl [0x2000044, 0, 0, 0, 8192]).addrFields 0 (descOf [0x2000044, 0, 0, 0, 8192])) [] with | .ok h => h | _ => []); decide (((s.ring ring).fetched.head? = some q) ∧ (s.glb.stop = 0) ∧ (s.rd (Reg.QM_RING_STATE_state ring) = ringActive) ∧ (s.mayIssue ring (s.fenceOf ring q.bytes) = true) ∧ (s.knownOp ring q.bytes = true) ∧ (s.isOp ring 0x44 q.bytes = true) ∧ ((s.freeSlot (s.ringEngine ring)).isNone = false) ∧ (collOk q.bytes = true) ∧ (s.checkFields ring q.phys (s.strictOf ring q.bytes) (s.addrFields ring q.bytes) q.held = .ok held) ∧ (s.engineGone ring = false))) = true := by decide +kernel
theorem witness_CollectiveCommandsTakeEffect_collStep : (let s : State := (withMem.setColl 0 aColl).wr Reg.COLL_PEND_waiting 1; let v : Word := 0; let x : CollRun := aColl; decide ((s.collRun (collKey (bits v.toNat 3 0 % 16) (bits v.toNat 5 4 % 4)) = some x) ∧ (bit (s.rd Reg.COLL_PEND_waiting) (collKey (bits v.toNat 3 0 % 16) (bits v.toNat 5 4 % 4)) = true))) = true := by decide +kernel
theorem witness_CollectiveCommandsTakeEffect_collDeadline : (let s : State := withMem.setColl 0 aColl; let engine : Nat := 0; let slot : Nat := 0; let x : CollRun := aColl; decide ((s.collRun (collKey engine slot) = some x) ∧ (x.deadline ≤ s.now))) = true := by decide +kernel
theorem witness_CollectiveCommandsTakeEffect_mirrorSet : (let s : State := ringAt clsColl [0x2000050, 0, 2097152, blockBytes]; let ring : Nat := 0; let q : QDesc := aDesc [0x2000050, 0, 2097152, blockBytes]; let held : Held := (match (ringAt clsColl [0x2000050, 0, 2097152, blockBytes]).checkFields 0 true ((ringAt clsColl [0x2000050, 0, 2097152, blockBytes]).strictOf 0 (descOf [0x2000050, 0, 2097152, blockBytes])) ((ringAt clsColl [0x2000050, 0, 2097152, blockBytes]).addrFields 0 (descOf [0x2000050, 0, 2097152, blockBytes])) [] with | .ok h => h | _ => []); decide (((s.ring ring).fetched.head? = some q) ∧ (s.glb.stop = 0) ∧ (s.rd (Reg.QM_RING_STATE_state ring) = ringActive) ∧ (s.mayIssue ring (s.fenceOf ring q.bytes) = true) ∧ (s.knownOp ring q.bytes = true) ∧ (s.isOp ring 0x50 q.bytes = true) ∧ (mirrorOk q.bytes = true) ∧ (s.checkFields ring q.phys (s.strictOf ring q.bytes) (s.addrFields ring q.bytes) q.held = .ok held) ∧ (s.engineGone ring = false))) = true := by decide +kernel
theorem witness_CollectiveCommandsTakeEffect_mirrorSync : (let s : State := ringAt clsColl [0x2000051, 0, 0, 0, 4096]; let ring : Nat := 0; let q : QDesc := aDesc [0x2000051, 0, 0, 0, 4096]; let held : Held := (match (ringAt clsColl [0x2000051, 0, 0, 0, 4096]).checkFields 0 true ((ringAt clsColl [0x2000051, 0, 0, 0, 4096]).strictOf 0 (descOf [0x2000051, 0, 0, 0, 4096])) ((ringAt clsColl [0x2000051, 0, 0, 0, 4096]).addrFields 0 (descOf [0x2000051, 0, 0, 0, 4096])) [] with | .ok h => h | _ => []); decide (((s.ring ring).fetched.head? = some q) ∧ (s.glb.stop = 0) ∧ (s.rd (Reg.QM_RING_STATE_state ring) = ringActive) ∧ (s.mayIssue ring (s.fenceOf ring q.bytes) = true) ∧ (s.knownOp ring q.bytes = true) ∧ (s.isOp ring 0x51 q.bytes = true) ∧ (((s.mirror (mirEntry q.bytes)).bind MirSt.sync) = none) ∧ (mirrorOk q.bytes = true) ∧ (s.checkFields ring q.phys (s.strictOf ring q.bytes) (s.addrFields ring q.bytes) q.held = .ok held) ∧ (s.engineGone ring = false))) = true := by decide +kernel
theorem witness_CollectiveCommandsTakeEffect_mirrorClear : (let s : State := ringAt clsColl [0x2000052]; let ring : Nat := 0; let q : QDesc := aDesc [0x2000052]; let held : Held := (match (ringAt clsColl [0x2000052]).checkFields 0 true ((ringAt clsColl [0x2000052]).strictOf 0 (descOf [0x2000052])) ((ringAt clsColl [0x2000052]).addrFields 0 (descOf [0x2000052])) [] with | .ok h => h | _ => []); decide (((s.ring ring).fetched.head? = some q) ∧ (s.glb.stop = 0) ∧ (s.rd (Reg.QM_RING_STATE_state ring) = ringActive) ∧ (s.mayIssue ring (s.fenceOf ring q.bytes) = true) ∧ (s.knownOp ring q.bytes = true) ∧ (s.isOp ring 0x52 q.bytes = true) ∧ (s.mirrorBusy (mirEntry q.bytes) = false) ∧ (mirrorOk q.bytes = true) ∧ (s.checkFields ring q.phys (s.strictOf ring q.bytes) (s.addrFields ring q.bytes) q.held = .ok held) ∧ (s.engineGone ring = false))) = true := by decide +kernel
theorem witness_CollectiveCommandsTakeEffect_collCommit : (let s : State := State.reset; let v : Word := 1; decide ((bits v.toNat 0 0 = 1) ∧ (10 ≤ s.shf Reg.COLL_CFG_default_timeout_ms) ∧ (s.shf Reg.COLL_CFG_mirror_gbps ≤ 200) ∧ (s.shf Reg.COLL_CFG_ext_limit_s ≠ 0))) = true := by decide +kernel
theorem witness_StreamCommandsTakeEffect_streamFrame_0 : (let s : State := withFlow; let port : Nat := 0; let frame : StreamFrame := { fcsOk := false, ownMac := true, srcMac := 0, supported := true, vlan := none, v6 := false, src := 0, dst := 0, udpPort := 0, udp := [], full := false }; decide ((s.streamUp port = true) ∧ (s.glb.stop ≠ 2) ∧ (s.frameFate port frame = .checkFail))) = true := by decide +kernel
theorem witness_StreamCommandsTakeEffect_streamFrame_1 : (let s : State := ((flowing withMem aFlow).setReg (Reg.STRM_PORT_IP6_LO 0) 9).wr (Reg.STRM_PORT_CFG_udp_port 0) 7; let port : Nat := 0; let frame : StreamFrame := { fcsOk := true, ownMac := true, srcMac := 0, supported := true, vlan := none, v6 := true, src := 0, dst := 9, udpPort := 7, udp := aSystini, full := false }; let k : Nat := 3; decide ((s.streamUp port = true) ∧ (s.glb.stop ≠ 2) ∧ (s.frameFate port frame = .good) ∧ (s.flowFor port (frameSource frame) (frameField frame 4 4) = some k))) = true := by decide +kernel
theorem witness_StreamCommandsTakeEffect_streamFrame_2 : (let s : State := State.reset; let port : Nat := 0; decide ((s.streamUp port = false))) = true := by decide +kernel
theorem witness_StreamCommandsTakeEffect_endOfFlowFrame : (let s : State := ((flowing withMem aFlow).setReg (Reg.STRM_PORT_IP6_LO 0) 9).wr (Reg.STRM_PORT_CFG_udp_port 0) 7; let port : Nat := 0; let frame : StreamFrame := { fcsOk := true, ownMac := true, srcMac := 0, supported := true, vlan := none, v6 := true, src := 0, dst := 9, udpPort := 7, udp := aSystini, full := false }; let k : Nat := 3; decide ((s.streamUp port = true) ∧ (s.glb.stop ≠ 2) ∧ (s.frameFate port frame = .good) ∧ (s.flowFor port (frameSource frame) (frameField frame 4 4) = some k))) = true := by decide +kernel
theorem witness_StreamCommandsTakeEffect_arpRequest : (let s : State := withFlow.setReg (Reg.STRM_PORT_IP4 0) 9; let port : Nat := 0; let addr : Nat := 9; decide ((s.streamUp port = true) ∧ (s.ownAddress port false addr = true))) = true := by decide +kernel
theorem witness_StreamCommandsTakeEffect_neighborSolicitation : (let s : State := withFlow.setReg (Reg.STRM_PORT_IP6_LO 0) 9; let port : Nat := 0; let addr : Nat := 9; decide ((s.streamUp port = true) ∧ (s.ownAddress port true addr = true))) = true := by decide +kernel
theorem witness_StreamCommandsTakeEffect_streamPortLink : (let s : State := withFlow; let port : Nat := 0; decide ((s.streamPort port = true))) = true := by decide +kernel
theorem witness_StreamCommandsTakeEffect_spillWriteAck_7 : (let s : State := withFlow; let flow : Nat := 3; let f : FlowSt := aFlow; let r : FlowRec := aFlowRec; let u : State := (withFlow.spillBody aFlow aFlowRec).2; let t : State := ((withFlow.spillBody aFlow aFlowRec).2.spill 0 (aFlow.slotAt 0) (aFlow.recHeader 3 aFlowRec)).2; decide ((s.flow flow = some f) ∧ (f.recs.find? (fun (x : FlowRec) => x.valid && !x.hdr) = some r) ∧ (f.fault = 0) ∧ (s.spillBody f r = (.done, u)) ∧ (u.spill f.ctx (f.slotAt r.n) (f.recHeader flow r) = (.done, t)))) = true := by decide +kernel
theorem witness_StreamCommandsTakeEffect_spillWriteAck_8 : (let s : State := flowing (withMem.setReg Reg.PWR_QUADS 0xFFFF) foreignFlow; let flow : Nat := 3; let f : FlowSt := foreignFlow; let r : FlowRec := aFlowRec; let st : Nat := stOwnerFault; let t : State := ((flowing (withMem.setReg Reg.PWR_QUADS 0xFFFF) foreignFlow).spillBody foreignFlow aFlowRec).2; decide ((s.flow flow = some f) ∧ (f.recs.find? (fun (x : FlowRec) => x.valid && !x.hdr) = some r) ∧ (f.fault = 0) ∧ (s.spillBody f r = (.fail st, t)))) = true := by decide +kernel
theorem witness_StreamCommandsTakeEffect_inboxDelivery : (let s : State := inboxState; let flow : Nat := 3; let f : FlowSt := doneFlow; let r : FlowRec := { aFlowRec with hdr := true }; let i : Nat := 0; let t : Nat := 0; let sl : Nat := 0; let bs : List PByte := (match s.recordRead 3 doneFlow { aFlowRec with hdr := true } with | (some b, _) => b | _ => []); let u : State := (s.recordRead 3 doneFlow { aFlowRec with hdr := true }).2; decide ((s.flow flow = some f) ∧ (f.recs.find? (fun (x : FlowRec) => x.valid && x.hdr && !x.asked) = some r) ∧ (s.filterTile f = some (i, t, sl)) ∧ (s.quadRuns (s.quadOf t) = true) ∧ (s.recordRead flow f r = (some bs, u)))) = true := by decide +kernel
theorem witness_StreamCommandsTakeEffect_decisionWord : (let s : State := { withFlow with strm := { withFlow.strm with fwd := [(3, 0)] } }; let k : Nat := 3; let word : Nat := 0; let rest : List (Nat × Nat) := []; decide ((s.strm.fwd = (k, word) :: rest) ∧ (s.on Reg.STRM_STATUS_engine_fenced = false))) = true := by decide +kernel
theorem witness_StreamCommandsTakeEffect_flowIdleTimeout : (let s : State := (flowing withMem learnedFlow).setReg Reg.TIME_NOW 0x10000000000; let flow : Nat := 3; let f : FlowSt := learnedFlow; decide ((s.flow flow = some f) ∧ (f.learned = true) ∧ (f.idle ≠ 0) ∧ (f.state ≠ flowClosing) ∧ (f.lastAt + msTime f.idle ≤ s.now))) = true := by decide +kernel
theorem witness_StreamCommandsTakeEffect_install_13 : (let s : State := imaged [2 + 2 ^ 24, 2 ^ 24]; decide (((s.ctxImage.headD 0) % 256 = 2) ∧ (s.flow (s.rd Reg.STRM_CTX_SEL_entry) = none) ∧ (genOk s.ctxImage = true) ∧ (s.genInFlight (s.rd Reg.STRM_CTX_SEL_entry) = false))) = true := by decide +kernel
theorem witness_StreamCommandsTakeEffect_install_14 : (let s : State := (imaged [1 + 2 ^ 32 * 9, 0, 0, 8192 + 4 * 2 ^ 48 + 8 * 2 ^ 53, 1 + 2 ^ 20, 0]).wr (Reg.XLAT_CTX_enable 0) 1 |> fun (x : State) => x.wr (Reg.REG_CLASS_FLOOR_wr_floor 44) 1; let src : BusSrc := .firmware; let f : FlowSt := { words := ([putBits (putBits (s.ctxImage.headD 0) 11 8 flowOpen) 23 20 0] ++ (s.ctxImage.drop 1).take 5 ++ [0, 0]).map (BitVec.ofNat 64), next := none, marker := none, tokens := 0, tokensAt := 0, missing := [], recs := [], rr := 0, pool := 0, idle := 0, lastAt := 0, woke := false, fault := 0, drop := false }; decide (((s.ctxImage.headD 0) % 256 = 1) ∧ (f = { words := ([putBits (putBits (s.ctxImage.headD 0) 11 8 flowOpen) 23 20 0] ++ (s.ctxImage.drop 1).take 5 ++ [0, 0]).map (BitVec.ofNat 64), next := none, marker := none, tokens := 0, tokensAt := 0, missing := [], recs := [], rr := 0, pool := 0, idle := 0, lastAt := 0, woke := false, fault := 0, drop := false }) ∧ (s.flowRefused src (s.rd Reg.STRM_CTX_SEL_entry) s.ctxImage f = 0))) = true := by decide +kernel
theorem witness_StreamCommandsTakeEffect_free : (let s : State := withFlow.wr Reg.STRM_CTX_SEL_entry 3; let src : BusSrc := .firmware; let f : FlowSt := aFlow; decide ((s.flow (s.rd Reg.STRM_CTX_SEL_entry) = some f) ∧ (f.ctx ≠ 0 ∨ isFirmware src = true))) = true := by decide +kernel
theorem witness_StreamCommandsTakeEffect_ctxRead : (let s : State := withFlow.wr Reg.STRM_CTX_SEL_entry 3; let src : BusSrc := .firmware; let f : FlowSt := aFlow; decide ((s.flow (s.rd Reg.STRM_CTX_SEL_entry) = some f) ∧ (f.ctx ≠ 0 ∨ isFirmware src = true))) = true := by decide +kernel
theorem witness_StreamCommandsTakeEffect_strmRelease : (let s : State := flowing (ringAt clsStream [0x2000060, 3]) aFlow; let ring : Nat := 0; let q : QDesc := aDesc [0x2000060, 3]; let held : Held := (match (flowing (ringAt clsStream [0x2000060, 3]) aFlow).checkFields 0 true ((flowing (ringAt clsStream [0x2000060, 3]) aFlow).strictOf 0 (descOf [0x2000060, 3])) ((flowing (ringAt clsStream [0x2000060, 3]) aFlow).addrFields 0 (descOf [0x2000060, 3])) [] with | .ok h => h | _ => []); decide (((s.ring ring).fetched.head? = some q) ∧ (s.glb.stop = 0) ∧ (s.rd (Reg.QM_RING_STATE_state ring) = ringActive) ∧ (s.mayIssue ring (s.fenceOf ring q.bytes) = true) ∧ (s.knownOp ring q.bytes = true) ∧ (s.isOp ring 0x60 q.bytes = true) ∧ (s.streamBusy ring = false) ∧ (s.streamBodyOk ring q.bytes = true) ∧ (s.checkFields ring q.phys (s.strictOf ring q.bytes) (s.addrFields ring q.bytes) q.held = .ok held) ∧ (s.engineGone ring = false))) = true := by decide +kernel
theorem witness_StreamCommandsTakeEffect_strmWatch : (let s : State := flowing (ringAt clsStream [0x2000061, 3, 1]) aFlow; let ring : Nat := 0; let q : QDesc := aDesc [0x2000061, 3, 1]; let held : Held := (match (flowing (ringAt clsStream [0x2000061, 3, 1]) aFlow).checkFields 0 true ((flowing (ringAt clsStream [0x2000061, 3, 1]) aFlow).strictOf 0 (descOf [0x2000061, 3, 1])) ((flowing (ringAt clsStream [0x2000061, 3, 1]) aFlow).addrFields 0 (descOf [0x2000061, 3, 1])) [] with | .ok h => h | _ => []); decide (((s.ring ring).fetched.head? = some q) ∧ (s.glb.stop = 0) ∧ (s.rd (Reg.QM_RING_STATE_state ring) = ringActive) ∧ (s.mayIssue ring (s.fenceOf ring q.bytes) = true) ∧ (s.knownOp ring q.bytes = true) ∧ (s.isOp ring 0x61 q.bytes = true) ∧ (s.streamBusy ring = false) ∧ (s.streamBodyOk ring q.bytes = true) ∧ (s.checkFields ring q.phys (s.strictOf ring q.bytes) (s.addrFields ring q.bytes) q.held = .ok held) ∧ (s.engineGone ring = false))) = true := by decide +kernel
theorem witness_StreamCommandsTakeEffect_strmCommit : (let s : State := State.reset; let v : Word := 1; decide ((bits v.toNat 0 0 = 1) ∧ ((List.range 16).any (fun p => s.shf (Reg.STRM_PORT_CFG_vlan p) == 0xFFF) = false) ∧ ((List.range 16).find? s.templateBad = none))) = true := by decide +kernel
theorem witness_TimeCommandsTakeEffect_ppsInEdge_0 : (let s : State := (timed 3 1).wr Reg.FAB_GROUP_role 3; let falling : Bool := false; let age : Nat := 0; decide ((falling = s.on Reg.TIME_CFG_pps_falling) ∧ (s.isManager = true) ∧ (s.timeState = 3) ∧ (s.rd Reg.TIME_STATUS_source = 1) ∧ ((signed 32 ((s.now - age) % 2 ^ 32)).natAbs ≤ ppsSlack))) = true := by decide +kernel
theorem witness_TimeCommandsTakeEffect_ppsInEdge_1 : (let s : State := { ((timed 3 1).wr Reg.FAB_GROUP_role 3).setReg Reg.TIME_NOW 0x70000000 with time := { (timed 3 1).time with ignored := 2 } }; let falling : Bool := false; let age : Nat := 0; decide ((falling = s.on Reg.TIME_CFG_pps_falling) ∧ (s.isManager = true) ∧ (s.timeState = 3) ∧ (s.rd Reg.TIME_STATUS_source = 1) ∧ (ppsSlack < (signed 32 ((s.now - age) % 2 ^ 32)).natAbs) ∧ (2 ≤ s.time.ignored))) = true := by decide +kernel
theorem witness_TimeCommandsTakeEffect_ppsInEdge_2 : (let s : State := (timed 2 1).wr Reg.FAB_GROUP_role 3; let falling : Bool := false; decide ((falling = s.on Reg.TIME_CFG_pps_falling) ∧ (s.isManager = true) ∧ (s.timeState = 2) ∧ (s.rd Reg.TIME_STATUS_source = 1) ∧ (s.time.slew = false))) = true := by decide +kernel
theorem witness_TimeCommandsTakeEffect_ppsInEdge_3 : (let s : State := (timed 1 0).wr Reg.FAB_GROUP_role 3; let falling : Bool := false; decide ((falling = s.on Reg.TIME_CFG_pps_falling) ∧ (s.isManager = true) ∧ (s.timeState = 1))) = true := by decide +kernel
theorem witness_TimeCommandsTakeEffect_ppsLossTimeout : (let s : State := (timed 3 1).setReg Reg.TIME_NOW 0x300000000; decide ((s.rd Reg.TIME_STATUS_source = 1) ∧ (s.time.ppsAt + 3 * 2 ^ 31 ≤ s.now))) = true := by decide +kernel
theorem witness_TimeCommandsTakeEffect_timeExchangeTimer : (let s : State := timed 3 2; decide ((s.glb.stop ≠ 2) ∧ (s.rd Reg.TIME_STATUS_source = 2) ∧ (s.portUp (s.rd Reg.TIME_STATUS_parent_port) = true) ∧ (s.slotLoaded (s.timeSlot (s.rd (Reg.FAB_PORT_STATUS_neighbour (s.rd Reg.TIME_STATUS_parent_port)))) = true))) = true := by decide +kernel
theorem witness_TimeCommandsTakeEffect_timeReq : (let s : State := timed 3 2; let port : Nat := 3; let authentic : Bool := true; decide ((s.glb.stop ≠ 2) ∧ (s.portUp port = true) ∧ (authentic = true) ∧ (s.rd (Reg.FAB_PORT_STATUS_version port) ≠ 1) ∧ (s.slotLoaded (s.timeSlot (s.rd (Reg.FAB_PORT_STATUS_neighbour port))) = true))) = true := by decide +kernel
theorem witness_TimeCommandsTakeEffect_timeRsp : (let s : State := { timed 3 2 with time := { (timed 3 2).time with req := some 9 } }; let port : Nat := 3; let t1 : Nat := 9; let authentic : Bool := true; decide ((port = s.rd Reg.TIME_STATUS_parent_port) ∧ (s.rd Reg.TIME_STATUS_source = 2) ∧ (s.time.req = some t1) ∧ (authentic = true) ∧ (s.portUp port = true) ∧ (s.rd (Reg.FAB_PORT_STATUS_version port) ≠ 1))) = true := by decide +kernel
theorem witness_TimeCommandsTakeEffect_parentServoUpdate_8 : (let s : State := { timed 3 2 with time := { (timed 3 2).time with exch := [(4, 9)] } }; let off : Int := 4; let d : Int := 9; decide ((bestExchange s.time.exch = some (off, d)) ∧ ((s.timeErr (-off)).rd Reg.TIME_STATUS_source = 2) ∧ ((s.timeErr (-off)).timeState = 3))) = true := by decide +kernel
theorem witness_TimeCommandsTakeEffect_parentServoUpdate_9 : (let s : State := { timed 4 2 with time := { (timed 4 2).time with exch := [(4, 9)] } }; let off : Int := 4; let d : Int := 9; decide ((bestExchange s.time.exch = some (off, d)) ∧ ((s.timeErr (-off)).rd Reg.TIME_STATUS_source = 2) ∧ ((s.timeErr (-off)).timeState = 1 ∨ (s.timeErr (-off)).timeState = 4))) = true := by decide +kernel
theorem witness_TimeCommandsTakeEffect_parentReselect_10 : (let s : State := (timed 3 2).setPortState 3 0; decide ((s.rd Reg.TIME_STATUS_source = 2) ∧ (s.parents = []))) = true := by decide +kernel
theorem witness_TimeCommandsTakeEffect_parentReselect_11 : (let s : State := ((timed 3 0).wr Reg.FAB_GROUP_role 1).wr Reg.FAB_GROUP_manager 5; let p : Nat := 3; let d : Nat := 0; decide ((s.role ≠ 0) ∧ (s.on Reg.FAB_GROUP_top = false) ∧ (s.rd Reg.TIME_STATUS_source = 0) ∧ (s.parents = [(p, d)]) ∧ (s.timeState ≠ 0))) = true := by decide +kernel
theorem witness_TimeCommandsTakeEffect_sysrefLoss : (let s : State := { State.reset with boot := { State.reset.boot with sysref := true } }; decide ((s.boot.sysref = true))) = true := by decide +kernel
theorem witness_TimeCommandsTakeEffect_sysrefReturn : (let s : State := { State.reset with boot := { State.reset.boot with sysref := false } }; decide ((s.boot.sysref = false))) = true := by decide +kernel
theorem witness_TimeCommandsTakeEffect_timeSteer : (let s : State := State.reset.wr Reg.DUTY_ACTIVE_duty_active 512; decide ((s.duty 9 = true))) = true := by decide +kernel
theorem witness_TimeCommandsTakeEffect_steerTimeout : (let s : State := ((timed 3 0).wr Reg.DUTY_ACTIVE_duty_active 512).setReg Reg.TIME_NOW 0x300000000; decide ((s.duty 9 = true) ∧ (s.timeState = 3) ∧ (s.time.steerAt + 2 ^ 32 ≤ s.now))) = true := by decide +kernel
theorem witness_TimeCommandsTakeEffect_timeSecNext : (let s : State := State.reset; let src : BusSrc := .firmware; decide ((isFirmware src = true))) = true := by decide +kernel
theorem witness_TimeCommandsTakeEffect_timeCommit : (let s : State := State.reset; let src : BusSrc := .firmware; let v : Word := 1; decide ((isFirmware src = true) ∧ (bits v.toNat 0 0 = 1) ∧ (s.shf Reg.TIME_CFG_pps_out_ms ≠ 0) ∧ (s.shf Reg.TIME_CFG_pps_out_ms ≤ 200) ∧ (s.shf Reg.TIME_CFG_step_limit_us ≠ 0) ∧ ((List.range 4).all (fun (o : Nat) => decide (4 ≤ bits (s.shd Reg.TIME_TOUT_CFG) (8 * o + 4) (8 * o)) && decide (bits (s.shd Reg.TIME_TOUT_CFG) (8 * o + 4) (8 * o) ≤ 16)) = true))) = true := by decide +kernel
theorem witness_TimeCommandsTakeEffect_trigInEdge : (let s : State := State.reset.wr Reg.TIME_TIN_CFG_input 1; let k : Nat := 0; let falling : Bool := false; decide ((k < 4) ∧ (bit (bits (s.rd Reg.TIME_TIN_CFG_input) (4 * k + 2) (4 * k)) 0 = true) ∧ (falling = bit (bits (s.rd Reg.TIME_TIN_CFG_input) (4 * k + 2) (4 * k)) 1))) = true := by decide +kernel
theorem witness_TimeCommandsTakeEffect_tinPop : (let s : State := State.reset; let k : Nat := 2; decide ((k < 4))) = true := by decide +kernel
theorem witness_TimeCommandsTakeEffect_toutSchedule : (let s : State := State.reset; let o : Nat := 2; decide ((o < 4))) = true := by decide +kernel
theorem witness_TimeCommandsTakeEffect_trigOutEdge : (let s : State := State.reset.setEdges 1 [{ due := 0, driver := true, ctx := 0 }]; let o : Nat := 1; let e : Edge := { due := 0, driver := true, ctx := 0 }; let t : List Edge := []; decide ((s.edges o = e :: t) ∧ (e.due ≤ s.now))) = true := by decide +kernel
theorem witness_TimeCommandsTakeEffect_ppsOutPulse : (let s : State := withHost.setReg Reg.TIME_NOW 0x300000000; decide ((s.now / 2 ^ 32 ≠ s.time.pulse) ∧ (s.pinsLive = true))) = true := by decide +kernel
theorem witness_PowerCommandsTakeEffect_quadSleep : (let s : State := (withHost.setReg Reg.PWR_QUADS 0xFFFF).wr Reg.PWR_SLEEP_sleep_idle_us 100; let quad : Nat := 0; decide ((s.quadRuns (quad % 32) = true) ∧ (s.quadBusy (quad % 32) = false) ∧ (s.quadHeld (quad % 32) = false) ∧ (s.quadFilters (quad % 32) = false) ∧ (s.noc.eject.any (fun (p : Packet) => p.quad == quad % 32) = false) ∧ (s.pwr.stalled.any (fun (a : RegWait) => a.quad == quad % 32) = false) ∧ (s.braking = false) ∧ (s.on Reg.HUB_READY_ready = true) ∧ (s.rd Reg.PWR_SLEEP_sleep_idle_us ≠ 0))) = true := by decide +kernel
theorem witness_PowerCommandsTakeEffect_quadPllLock : (let s : State := { withTiles with pwr := { withTiles.pwr with waking := [2] } }; let quad : Nat := 2; decide ((s.pwr.waking.contains (quad % 32) = true))) = true := by decide +kernel
theorem witness_PowerCommandsTakeEffect_quadPllLockTimeout_3 : (let s : State := { withTiles with pwr := { withTiles.pwr with waking := [2] } }; let quad : Nat := 2; decide ((s.pwr.waking.contains (quad % 32) = true) ∧ (s.pwr.restarted.contains (quad % 32) = false))) = true := by decide +kernel
theorem witness_PowerCommandsTakeEffect_quadPllLockTimeout_4 : (let s : State := { withTiles with pwr := { withTiles.pwr with waking := [2], restarted := [2] } }; let quad : Nat := 2; decide ((s.pwr.waking.contains (quad % 32) = true) ∧ (s.pwr.restarted.contains (quad % 32) = true))) = true := by decide +kernel
theorem witness_PowerCommandsTakeEffect_registerPathTimeout : (let s : State := { withTiles with pwr := { withTiles.pwr with stalled := [{ quad := 0, src := .firmware, off := 0x20000, size := 4, write := none }] } }; let a : RegWait := { quad := 0, src := .firmware, off := 0x20000, size := 4, write := none }; let t : List RegWait := []; decide ((s.pwr.stalled = a :: t) ∧ (a.write = none))) = true := by decide +kernel
theorem witness_PowerCommandsTakeEffect_railTelemetry_6 : (let s : State := State.reset; decide ((s.pwr.readings.length < 99))) = true := by decide +kernel
theorem witness_PowerCommandsTakeEffect_railTelemetry_7 : (let s : State := { State.reset with pwr := { State.reset.pwr with readings := List.replicate 99 (1, 2, 3) } }; decide ((99 ≤ s.pwr.readings.length))) = true := by decide +kernel
theorem witness_PowerCommandsTakeEffect_cappingPeriod : (let s : State := withHost; decide ((s.on Reg.HUB_READY_ready = true) ∧ (s.boot.trip = false))) = true := by decide +kernel
theorem witness_PowerCommandsTakeEffect_pwrSetpoint : (let s : State := State.reset.wr Reg.DUTY_ACTIVE_duty_active 128; let v : Word := 500; decide ((s.duty 7 = true) ∧ (250 ≤ bits v.toNat 11 0) ∧ (bits v.toNat 11 0 % 25 = 0))) = true := by decide +kernel
theorem witness_PowerCommandsTakeEffect_cappingFallback : (let s : State := ({ State.reset with pwr := { State.reset.pwr with missed := 2 } }).wr Reg.DUTY_ACTIVE_duty_active 128; decide ((s.duty 7 = true) ∧ (2 ≤ s.pwr.missed))) = true := by decide +kernel
theorem witness_PowerCommandsTakeEffect_pwrCommit : (let s : State := ((((State.reset.setShd Reg.PWR_ENVELOPE 1500).setShd Reg.PWR_CTL (putBits (putBits (putBits 0 Reg.PWR_CTL_tj_target_c.hi Reg.PWR_CTL_tj_target_c.lo 80) Reg.PWR_CTL_period_ms.hi Reg.PWR_CTL_period_ms.lo 10) 11 0 500)))) ; let v : Word := 1; decide ((bits v.toNat 0 0 = 1) ∧ (400 ≤ s.worstShare (s.shf Reg.PWR_ENVELOPE_envelope_w)) ∧ (s.shf Reg.PWR_ENVELOPE_envelope_w ≤ partCapW s.fuse.part) ∧ (70 ≤ s.shf Reg.PWR_CTL_tj_target_c) ∧ (s.shf Reg.PWR_CTL_tj_target_c ≤ 95) ∧ (s.shf Reg.PWR_CTL_period_ms ≠ 0) ∧ (s.shf Reg.PWR_CTL_period_ms ≤ 100) ∧ (250 ≤ s.shf Reg.PWR_CTL_tile_mhz) ∧ (s.shf Reg.PWR_CTL_tile_mhz ≤ partMhz s.fuse.part) ∧ (s.shf Reg.PWR_CTL_tile_mhz % 25 = 0))) = true := by decide +kernel
theorem witness_PowerCommandsTakeEffect_pwrbrakeAssert : (let s : State := withHost; decide ((s.boot.trip = false) ∧ (s.boot.perst = false) ∧ (s.on Reg.HUB_READY_ready = true) ∧ (s.on Reg.PWR_STATUS_brake = false))) = true := by decide +kernel
theorem witness_PowerCommandsTakeEffect_dieTempRead_14 : (let s : State := withHost; let hubC : Nat := 60; decide ((s.boot.trip = false) ∧ (hubC < 100))) = true := by decide +kernel
theorem witness_PowerCommandsTakeEffect_dieTempRead_15 : (let s : State := withHost; let hubC : Nat := 120; decide ((s.boot.trip = false) ∧ (115 ≤ hubC))) = true := by decide +kernel
theorem witness_PowerCommandsTakeEffect_sagDetect : (let s : State := State.reset; let vaon : Bool := true; let v1p8 : Bool := false; decide (((vaon || v1p8) = true))) = true := by decide +kernel
theorem witness_PowerCommandsTakeEffect_railOutOfRange : (let s : State := withHost; let rail : Nat := 1; decide ((rail < 5) ∧ (s.boot.perst = false) ∧ (s.pwr.railAt.find? (fun p => p.1 == rail) = none))) = true := by decide +kernel
theorem witness_BringUpCommandsTakeEffect_vaonPowerOn_0 : (let s : State := { State.reset with boot := { State.reset.boot with vaon := false }, fuse := { State.reset.fuse with lc := .lost } }; decide ((s.boot.vaon = false) ∧ (s.fuse.lc = .lost ∨ s.fuse.lc = .blank))) = true := by decide +kernel
theorem witness_BringUpCommandsTakeEffect_vaonPowerOn_1 : (let s : State := { State.reset with boot := { State.reset.boot with vaon := false }, fuse := { State.reset.fuse with lc := .production } }; decide ((s.boot.vaon = false) ∧ (s.fuse.lc = .production ∨ s.fuse.lc = .test))) = true := by decide +kernel
theorem witness_BringUpCommandsTakeEffect_vaonPowerOff : (let s : State := managed; decide ((s.boot.vaon = true))) = true := by decide +kernel
theorem witness_BringUpCommandsTakeEffect_perstNAssert : (let s : State := managed; decide ((s.boot.vaon = true) ∧ (s.boot.perst = false))) = true := by decide +kernel
theorem witness_BringUpCommandsTakeEffect_perstNRelease : (let s : State := State.reset; decide ((s.boot.vaon = true) ∧ (s.boot.perst = true))) = true := by decide +kernel
theorem witness_BringUpCommandsTakeEffect_routeFlintEnd : (let s : State := bringing 1; let nocPll : Bool := true; decide ((s.bringUp 1 = true) ∧ (nocPll = true))) = true := by decide +kernel
theorem witness_BringUpCommandsTakeEffect_tileFlintEnd : (let s : State := bringing 2; let core : Bool := false; decide ((s.bringUp 2 = true) ∧ (core = false))) = true := by decide +kernel
theorem witness_BringUpCommandsTakeEffect_stackTrainingEnd : (let s : State := bringing 3; decide ((s.bringUp 3 = true))) = true := by decide +kernel
theorem witness_BringUpCommandsTakeEffect_clusterBinding : (let s : State := bringing 4; decide ((s.bringUp 4 = true))) = true := by decide +kernel
theorem witness_BringUpCommandsTakeEffect_hubReadySet : (let s : State := bringing 5; decide ((s.boot.perst = false) ∧ (s.boot.trip = false) ∧ (s.boot.stage = 5))) = true := by decide +kernel
theorem witness_BlanketAndLifeCycleCommandsTakeEffect_blanket : (let s : State := managed; decide ((s.boot.vaon = true) ∧ (s.mgmt.running = none) ∧ (s.mgAvailable 0x10 (false) = true) ∧ (s.sag = none))) = true := by decide +kernel
theorem witness_BlanketAndLifeCycleCommandsTakeEffect_secBlanket : (let s : State := managed; let src : BusSrc := .firmware; let v : Word := 1; decide ((bit v.toNat 0 = true) ∧ (s.rd Reg.HOST_STATUS_tdisp ≠ 2 ∨ teeOk src = true))) = true := by decide +kernel
theorem witness_BlanketAndLifeCycleCommandsTakeEffect_blanketDrained : (let s : State := { managed with blanket := { managed.blanket with row := 1 } }; decide ((s.blanket.row = 1) ∧ (s.glb.stop = 0) ∧ (s.blanketIdle = true))) = true := by decide +kernel
theorem witness_BlanketAndLifeCycleCommandsTakeEffect_blanketAttested : (let s : State := { managed with blanket := { managed.blanket with row := 2 } }; decide ((s.blanket.row = 2) ∧ (s.glb.stop = 0))) = true := by decide +kernel
theorem witness_BlanketAndLifeCycleCommandsTakeEffect_secSlotCmd : (let s : State := managed; let src : BusSrc := .firmware; let v : Word := 0x10B; decide ((11 ≤ bits v.toNat 3 0) ∧ (s.rd Reg.HOST_STATUS_tdisp ≠ 2 ∨ teeOk src = true) ∧ (bit v.toNat 8 = true))) = true := by decide +kernel
theorem witness_BlanketAndLifeCycleCommandsTakeEffect_lcNonce : (let s : State := managed; decide ((s.boot.vaon = true) ∧ (s.mgmt.running = none) ∧ (s.mgAvailable 0x43 (false) = true) ∧ (s.sag = none) ∧ (s.blanket.row = 0))) = true := by decide +kernel
theorem witness_BlanketAndLifeCycleCommandsTakeEffect_lcEol : (let s : State := managed; let nonce : Nat := 0; let genuine : Bool := true; let t : State := (managed.beginEol 0 true).1; let ok : Bool := (managed.beginEol 0 true).2; decide ((s.boot.vaon = true) ∧ (s.mgmt.running = none) ∧ (s.mgAvailable 0x44 false = true) ∧ (s.sag = none) ∧ (s.blanket.row = 0) ∧ (s.beginEol nonce genuine = (t, ok)))) = true := by decide +kernel
theorem witness_BlanketAndLifeCycleCommandsTakeEffect_svnCommit : (let s : State := { managed with mram := { managed.mram with fwA := some genuineCopy } }; let f : FwCopy := genuineCopy; decide ((s.boot.vaon = true) ∧ (s.mgmt.running = none) ∧ (s.mgAvailable 0x41 false = true) ∧ (s.sag = none) ∧ (s.fwRunning = some f) ∧ (s.fuse.svn < f.svn) ∧ (f.svn ≤ 64))) = true := by decide +kernel
theorem witness_BlanketAndLifeCycleCommandsTakeEffect_fwWrite_9 : (let s : State := { managed with boot := { managed.boot with runB := true } }; decide ((s.boot.vaon = true) ∧ (s.mgmt.running = none) ∧ (s.mgAvailable 0x40 false = true) ∧ (s.sag = none) ∧ ((s.boot.recovery || s.boot.runB) = true))) = true := by decide +kernel
theorem witness_BlanketAndLifeCycleCommandsTakeEffect_fwWrite_10 : (let s : State := managed; decide ((s.boot.vaon = true) ∧ (s.mgmt.running = none) ∧ (s.mgAvailable 0x40 false = true) ∧ (s.sag = none) ∧ ((s.boot.recovery || s.boot.runB) = false))) = true := by decide +kernel
theorem witness_BlanketAndLifeCycleCommandsTakeEffect_bedrockInstall : (let s : State := managed; decide ((s.boot.vaon = true) ∧ (s.mgmt.running = none) ∧ (s.mgAvailable 0x30 (false) = true) ∧ (s.sag = none) ∧ (s.blanket.row = 0))) = true := by decide +kernel
theorem witness_BlanketAndLifeCycleCommandsTakeEffect_bedrockRemove : (let s : State := managed; decide ((s.boot.vaon = true) ∧ (s.mgmt.running = none) ∧ (s.mgAvailable 0x31 (false) = true) ∧ (s.sag = none) ∧ (s.blanket.row = 0))) = true := by decide +kernel
theorem witness_ReliabilityCommandsTakeEffect_heartbeatLoss : (let s : State := managed; decide ((s.running = true) ∧ (s.glb.stop ≠ 2))) = true := by decide +kernel
theorem witness_ReliabilityCommandsTakeEffect_fatalParity : (let s : State := managed; decide ((s.running = true))) = true := by decide +kernel
theorem witness_ReliabilityCommandsTakeEffect_eventCoalesceTimer : (let s : State := managed; decide ((s.boot.vaon = true))) = true := by decide +kernel
theorem witness_ReliabilityCommandsTakeEffect_rasInject_3 : (let s : State := withMem; let v : DWord := 0x8003000000000000; decide ((bit v.toNat 63 = true) ∧ (1 ≤ bits v.toNat 51 48) ∧ (bits v.toNat 51 48 ≤ 4) ∧ (s.evt.inject = none) ∧ (s.injectable (bits v.toNat 51 48) (bits v.toNat 57 52) (bits v.toNat 47 0) = true))) = true := by decide +kernel
theorem witness_ReliabilityCommandsTakeEffect_rasInject_4 : (let s : State := State.reset; let v : DWord := 0x8001000000000000; decide ((bit v.toNat 63 = true) ∧ (1 ≤ bits v.toNat 51 48) ∧ (bits v.toNat 51 48 ≤ 4) ∧ (s.evt.inject.isSome = true ∨ s.injectable (bits v.toNat 51 48) (bits v.toNat 57 52) (bits v.toNat 47 0) = false))) = true := by decide +kernel
theorem witness_ReliabilityCommandsTakeEffect_expressLinkLoss_6 : (let s : State := State.reset; let segment : Nat := 0; decide ((s.noc.segLost.get 0 segment = 0))) = true := by decide +kernel
theorem witness_ReliabilityCommandsTakeEffect_expressLinkLoss_7 : (let s : State := { State.reset with noc := { NocSt.reset with segLost := [(0, 1)] } }; let segment : Nat := 0; decide ((s.noc.segLost.get 0 segment = 1))) = true := by decide +kernel
theorem witness_ReliabilityCommandsTakeEffect_lcTestTransition_8 : (let s : State := { State.reset with boot := { State.reset.boot with lc := .blank }, fuse := { State.reset.fuse with lc := .blank } }; decide ((s.sag = none) ∧ (s.boot.vaon = true) ∧ (s.boot.lc = s.fuse.lc) ∧ (s.fuse.lc = .blank))) = true := by decide +kernel
theorem witness_ReliabilityCommandsTakeEffect_lcTestTransition_9 : (let s : State := { managed with boot := { managed.boot with lc := .test }, fuse := { managed.fuse with lc := .test }, mram := { managed.mram with fwA := some genuineCopy } }; let f : FwCopy := genuineCopy; decide ((s.sag = none) ∧ (s.boot.vaon = true) ∧ (s.boot.lc = s.fuse.lc) ∧ (s.fuse.lc = .test) ∧ (s.fwRunning = some f))) = true := by decide +kernel
theorem witness_ManagementAndRegisterCommandsTakeEffect_fatalClear : (let s : State := managed; decide ((s.boot.vaon = true) ∧ (s.mgmt.running = none) ∧ (s.mgAvailable 0x42 (false) = true) ∧ (s.sag = none))) = true := by decide +kernel
theorem witness_ManagementAndRegisterCommandsTakeEffect_mgmtRead : (let s : State := managed; let off : Nat := 0; let len : Nat := 8; decide ((s.boot.vaon = true) ∧ (s.mgmt.running = none) ∧ (s.mgAvailable 0x01 (off == Reg.SEC_STATUS && len == 4) = true) ∧ (s.sag = none) ∧ (len ≠ 0) ∧ (len ≤ 240) ∧ (len % 4 = 0) ∧ (off % 4 = 0) ∧ (off + len ≤ 67108864))) = true := by decide +kernel
theorem witness_ManagementAndRegisterCommandsTakeEffect_mgmtWrite_2 : (let s : State := managed; let off : Nat := Reg.RAS_ALERT_EN; decide ((s.boot.vaon = true) ∧ (s.mgmt.running = none) ∧ (s.mgAvailable 0x02 (false) = true) ∧ (s.sag = none) ∧ (off = Reg.RAS_ALERT_EN))) = true := by decide +kernel
theorem witness_ManagementAndRegisterCommandsTakeEffect_mgmtWrite_3 : (let s : State := managed; let off : Nat := Reg.RAS_ALERT; decide ((s.boot.vaon = true) ∧ (s.mgmt.running = none) ∧ (s.mgAvailable 0x02 (false) = true) ∧ (s.sag = none) ∧ (off = Reg.RAS_ALERT))) = true := by decide +kernel
theorem witness_ManagementAndRegisterCommandsTakeEffect_evtAck : (let s : State := managed; decide ((s.boot.vaon = true) ∧ (s.mgmt.running = none) ∧ (s.mgAvailable 0x03 (false) = true) ∧ (s.sag = none))) = true := by decide +kernel
theorem witness_ManagementAndRegisterCommandsTakeEffect_wake : (let s : State := managed; decide ((s.boot.vaon = true) ∧ (s.mgmt.running = none) ∧ (s.mgAvailable 0x11 (false) = true) ∧ (s.sag = none))) = true := by decide +kernel
theorem witness_ManagementAndRegisterCommandsTakeEffect_config_6 : (let s : State := managed; let item : Nat := 4; let sub : Nat := 0; let vals : List Nat := [1, 2, 3, 4, 5]; decide ((s.boot.vaon = true) ∧ (s.mgmt.running = none) ∧ (s.mgAvailable 0x12 false = true) ∧ (s.sag = none) ∧ (configForm item sub vals = true) ∧ (item ≠ 2 ∨ s.portFused sub = false) ∧ (configRefused item sub (vals.headD 0) = false) ∧ (item = 4 ∨ s.configNow = false))) = true := by decide +kernel
theorem witness_ManagementAndRegisterCommandsTakeEffect_config_7 : (let s : State := { managed with mram := { managed.mram with fwA := some genuineCopy } }; let item : Nat := 2; let sub : Nat := 3; let vals : List Nat := [1]; let t : State := (s.configWrite 2 3 1).1; let st : Option Nat := (s.configWrite 2 3 1).2; decide ((s.boot.vaon = true) ∧ (s.mgmt.running = none) ∧ (s.mgAvailable 0x12 false = true) ∧ (s.sag = none) ∧ (configForm item sub vals = true) ∧ (item ≠ 2 ∨ s.portFused sub = false) ∧ (configRefused item sub (vals.headD 0) = false) ∧ (item ≠ 4) ∧ (s.configNow = true) ∧ (s.configWrite item sub (vals.headD 0) = (t, st)) ∧ (st.all (fun (o : Nat) => t.rd ⟨o, 0, 0⟩ != 1) = true))) = true := by decide +kernel
theorem witness_ManagementAndRegisterCommandsTakeEffect_popWrite : (let s : State := { managed with mram := { managed.mram with pop := none } }; let record : PopRecord := aRecord; let genuine : Bool := true; decide ((s.boot.vaon = true) ∧ (s.mgmt.running = none) ∧ (s.mgAvailable 0x20 (false) = true) ∧ (s.sag = none) ∧ (s.mram.pop = none) ∧ (genuine = true) ∧ (record.reworkCount = 0) ∧ (popOk s.fuse.part record = true))) = true := by decide +kernel
theorem witness_ManagementAndRegisterCommandsTakeEffect_rework : (let s : State := { managed with mram := { managed.mram with pop := some aPop } }; let record : PopRecord := aRecord; let genuine : Bool := true; let old : PopRecord := aPop; decide ((s.boot.vaon = true) ∧ (s.mgmt.running = none) ∧ (s.mgAvailable 0x21 (false) = true) ∧ (s.sag = none) ∧ (s.mram.pop = some old) ∧ (genuine = true) ∧ (old.reworkCount < 2) ∧ (popOk s.fuse.part record = true))) = true := by decide +kernel
theorem witness_ManagementAndRegisterCommandsTakeEffect_fenceClear : (let s : State := managed; decide ((s.boot.vaon = true) ∧ (s.mgmt.running = none) ∧ (s.mgAvailable 0x22 (false) = true) ∧ (s.sag = none))) = true := by decide +kernel
theorem witness_ManagementAndRegisterCommandsTakeEffect_rosterCmd_11 : (let s : State := managed.wr Reg.FAB_GROUP_role 3; let op : Nat := 0; let m : Nat := 5; let e : RosterEntry := { digest := 7, serial := 0, enrolled := true }; let cm2 : Bool := false; decide ((s.boot.vaon = true) ∧ (s.mgmt.running = none) ∧ (s.mgAvailable 0x23 (false) = true) ∧ (s.sag = none) ∧ (op = 0) ∧ (m < 64) ∧ (s.isManager = true) ∧ (s.mayEnrol m e cm2 = true))) = true := by decide +kernel
theorem witness_ManagementAndRegisterCommandsTakeEffect_rosterCmd_12 : (let s : State := managed.wr Reg.FAB_GROUP_role 3; let op : Nat := 1; let m : Nat := 5; decide ((s.boot.vaon = true) ∧ (s.mgmt.running = none) ∧ (s.mgAvailable 0x23 (false) = true) ∧ (s.sag = none) ∧ (op = 1) ∧ (m < 64) ∧ (s.isManager = true))) = true := by decide +kernel
theorem witness_ManagementAndRegisterCommandsTakeEffect_flint : (let s : State := ended; decide ((s.boot.vaon = true) ∧ (s.mgmt.running = none) ∧ (s.mgAvailable 0x50 (false) = true) ∧ (s.sag = none) ∧ (s.boot.lc = .endOfLife))) = true := by decide +kernel
theorem witness_ManagementAndRegisterCommandsTakeEffect_mgmtResponseRead_14 : (let s : State := managed; decide ((s.boot.vaon = true) ∧ (s.mgmt.running = none))) = true := by decide +kernel
theorem witness_ManagementAndRegisterCommandsTakeEffect_mgmtResponseRead_15 : (let s : State := { managed with mgmt := { managed.mgmt with running := some (1, 2) } }; let c : Nat := 1; let t : Nat := 2; decide ((s.boot.vaon = true) ∧ (s.mgmt.running = some (c, t)) ∧ (s.mgmt.bounced = none))) = true := by decide +kernel
theorem witness_ManagementAndRegisterCommandsTakeEffect_i3cEntdaa : (let s : State := managed; decide ((s.boot.vaon = true) ∧ (s.mgmt.i3c = none))) = true := by decide +kernel
theorem witness_ManagementAndRegisterCommandsTakeEffect_i3cSetdasa : (let s : State := managed; let target : Nat := 0x58; decide ((s.boot.vaon = true) ∧ (s.mgmt.i3c = none) ∧ (target = 0x58 + s.mgmt.maddr))) = true := by decide +kernel
theorem witness_ManagementAndRegisterCommandsTakeEffect_i3cRstdaa : (let s : State := managed; decide ((s.boot.vaon = true))) = true := by decide +kernel
theorem witness_ManagementAndRegisterCommandsTakeEffect_registerWrite_19 : (let s : State := managed; let src : BusSrc := .firmware; let off : Nat := 0; let size : Nat := 4; decide ((s.barOk src = true) ∧ (accessOk off size = true))) = true := by decide +kernel
theorem witness_ManagementAndRegisterCommandsTakeEffect_registerWrite_20 : (let s : State := managed; let src : BusSrc := .firmware; let off : Nat := 0; let size : Nat := 2; decide ((s.barOk src = true) ∧ (accessOk off size = false))) = true := by decide +kernel
theorem witness_ManagementAndRegisterCommandsTakeEffect_registerRead_21 : (let s : State := managed; let src : BusSrc := .firmware; let off : Nat := 0; let size : Nat := 4; decide ((s.barOk src = true) ∧ (accessOk off size = true))) = true := by decide +kernel
theorem witness_ManagementAndRegisterCommandsTakeEffect_registerRead_22 : (let s : State := managed; let src : BusSrc := .firmware; let off : Nat := 0; let size : Nat := 2; decide ((s.barOk src = true) ∧ (accessOk off size = false))) = true := by decide +kernel
theorem witness_StepRunsTheCommandAtTheFront_1 : State.reset.pending = [] := by decide +kernel
theorem witness_StepRunsTheCommandAtTheFront_2 : ({ State.reset with boot := { State.reset.boot with vaon := false } } : State).pending = [] ∧ ({ State.reset with boot := { State.reset.boot with vaon := false } } : State).boot.vaon = false := by decide +kernel
theorem witness_EveryStepKeepsMemoryCanonical_1 : ∃ (t : State), Canonical State.reset ∧ exec (.wakeHoldExpiry 0) State.reset = .next t ∧ step State.reset = .next State.reset.idle := ⟨_, ⟨rfl, rfl⟩, rfl, rfl⟩
theorem witness_CommandsAreTakenInOrder_1 : ∃ (t : State), QueueWellFormed { State.reset with pending := [.wakeHoldExpiry 0] } ∧ step { State.reset with pending := [.wakeHoldExpiry 0] } = .next t := ⟨_, by intro c m; simp only [List.mem_singleton] at m; subst m; decide +kernel, rfl⟩
theorem witness_FreeValuesAreNeverUsedTwice_1 : ∃ (t : State), exec (.wakeHoldExpiry 0) State.reset = .next t ∧ runSteps 2 State.reset = .next (State.reset.idle.idle) := ⟨_, rfl, by simp only [runSteps]; rfl⟩
theorem witness_GlbCommitRefusedWhileInterfaceIsHeld_1 : (let s : State := (State.reset.setShd Reg.DUTY_MODE 1).wr Reg.HOST_STATUS_tdisp 1; decide ((1 : Word).toNat % 2 = 1 ∧ s.shf Reg.DUTY_MODE_desc_translation = 1 ∧ (s.rd Reg.HOST_STATUS_tdisp = 1 ∨ s.rd Reg.HOST_STATUS_tdisp = 2))) = true := by decide +kernel
theorem witness_GlbCommitRefusedWhileInterfaceIsHeld_2 : (let s : State := State.reset.setShd Reg.DUTY_MODE 0x3FF; decide ((1 : Word).toNat % 2 = 1 ∧ (s.shf Reg.DUTY_MODE_desc_translation = 0 ∨ (s.rd Reg.HOST_STATUS_tdisp ≠ 1 ∧ s.rd Reg.HOST_STATUS_tdisp ≠ 2)) ∧ s.shf Reg.GLB_DRV_INFO_drv_api ≤ 2)) = true := by decide +kernel
theorem witness_StagedWritesWaitForTheirCommit_1 : (let s : State := State.reset; decide (∀ f ∈ (findReg Reg.DUTY_MODE).toList.flatMap RegDesc.fields, f.acc = Access.rwc ∨ f.acc = Access.ro) && (findReg Reg.DUTY_MODE).isSome && decide (63 < 64) && decide (Reg.GLB_ID ≠ Reg.DUTY_MODE) && s.boot.vaon) = true := by decide +kernel
theorem witness_ReservedBitsReadZeroAndDiscardOnes_1 : ((findReg Reg.DUTY_MODE).map (fun (d : RegDesc) => decide (State.reset.viewOf Reg.DUTY_MODE = none ∧ (∀ f ∈ d.fields, 40 < f.lo ∨ f.hi < 40) ∧ ∀ f ∈ d.fields, bits (2 ^ 40) f.hi f.lo = bits 0 f.hi f.lo))) = some true := by decide +kernel
theorem witness_MemoryReadsBackWhatWasWritten_1 : Canonical State.reset ∧ State.reset.hbm.wcb = [] ∧ State.reset.hbm.wq = [] ∧ [((1 : Byte), false)].length ≤ 2048 ∧ 4 + [((1 : Byte), false)].length ≤ 2 ^ 20 := ⟨⟨rfl, rfl⟩, rfl, rfl, by decide, by decide⟩
theorem witness_EveryCellCarriesOneGranule_1 : (0 : Nat) < State.reset.memTop ∧ 336895 * 2 ^ 21 < (withMem.wr Reg.HBM_STATUS_layout7 1).memTop ∧ (withMem.wr Reg.HBM_STATUS_layout7 1).on Reg.HBM_STATUS_layout7 = true := by decide +kernel
theorem witness_PerstKeepsOnlyTheAlwaysOnDomain_1 : (let s : State := withHost; decide (s.boot.vaon = true ∧ s.boot.perst = false ∧ s.sag = none)) = true := by decide +kernel
theorem witness_VaonLossKeepsFusesAndStoreAlone_1 : State.reset.boot.vaon = true := by decide +kernel
theorem witness_AlertPinIsLowWhileAnEnabledBitIsSet_1 : (let s : State := State.reset; decide ((s.wr Reg.RAS_ALERT_fatal 1).alertLevel ≠ s.alertLevel)) = true := by decide +kernel
theorem witness_EventsOfAPairAreCountedForAMillisecond_1 : (let s : State := { State.reset with evt := { State.reset.evt with windows := [{ code := 1, unit := 2, held := 1, last := some { Event.make 0 0 0 2 9 with code := 1 } }] } }; let e : Event := { Event.make 0 0 0 2 9 with code := 1 }; decide (e.cls < 2 ∧ (s.evt.windows.find? (fun (x : EvtWindow) => x.code == e.code && x.unit == e.unit)).isSome = true ∧ s.boot.vaon = true ∧ s.on Reg.QM_EVT_CFG_enable = false ∧ (s.evt.windows.find? (fun (x : EvtWindow) => x.code == 1 && x.unit == 2)).bind EvtWindow.last = some e ∧ (s.evt.windows.find? (fun (x : EvtWindow) => x.code == 1 && x.unit == 2)).map EvtWindow.held = some 1)) = true := by decide +kernel
theorem witness_EventsOfAPairAreCountedForAMillisecond_2 : (let e : Event := Event.make 1 2 1 3 4; decide (e.cls < 2 ∧ State.reset.evt.windows.find? (fun (x : EvtWindow) => x.code == e.code && x.unit == e.unit) = none ∧ State.reset.on Reg.QM_EVT_CFG_enable = false)) = true := by decide +kernel
theorem witness_RefusedHostAccessChangesOnlyCounterAndLog_1 : (let s : State := withHost; decide (State.host { s with host := { s.host with memEnable := false } } ≠ s.host ∧ ({ s with host := { s.host with memEnable := false } } : State).host.memEnable = false ∧ s.on Reg.QM_EVT_CFG_enable = false)) = true := by decide +kernel
theorem witness_RefusedHostAccessChangesOnlyCounterAndLog_2 : (let s : State := withHost.wr Reg.HOST_STATUS_tdisp 2; decide (s.rd Reg.HOST_STATUS_tdisp = 2 ∧ (none : Option Nat) = none ∧ bit (s.rd Reg.HOST_STATUS_ide_secure) 3 = false ∧ s.on Reg.QM_EVT_CFG_enable = false)) = true := by decide +kernel
theorem witness_LinesOfABlockLieInDistinctSets_1 : (1024 : Nat) / 1024 = 2047 / 1024 ∧ (State.reset.setOf 1500).2 = (State.reset.setOf 1500).2 := by decide +kernel
theorem witness_PwrbrakeIsIgnoredOutsideReadiness_1 : State.reset.on Reg.HUB_READY_ready = false ∨ State.reset.boot.trip = true ∨ State.reset.boot.perst = true := by decide +kernel
theorem witness_PackedElementsLieWhereTheRuleSays_1 : (0 : Nat) < 4 ∧ 1 < ([0x5A#8] : List Byte).length * 2 := by decide +kernel
theorem witness_PackedElementsLieWhereTheRuleSays_2 : (4 = 4 ∨ 4 = 5) ∧ 3 < ([0x5A#8] : List Byte).length * 4 := by decide +kernel
theorem witness_PackedElementsLieWhereTheRuleSays_3 : 7 < ([0x5A#8] : List Byte).length * 8 := by decide +kernel
theorem witness_PackedElementsLieWhereTheRuleSays_4 : ([some 5, some 10] : List (Option Nat))[2 * 0]? = some (some 5) ∧ ([some 5, some 10] : List (Option Nat))[2 * 0 + 1]? = some (some 10) ∧ 0 < ([some 5, some 10] : List (Option Nat)).length / 2 := by decide +kernel
theorem witness_LfsrStepsAndUpdates_1 : (0xFFFFFFFF : Nat) < 2 ^ 32 ∧ bits 0x20000 17 16 = 2 := by decide +kernel
theorem witness_SlicesMakeUpTheElement_1 : (8 : Nat) ≤ 11 ∧ 11 ≤ 14 ∧ ((alignBlock 11 ([0x3F80, 0xC000].map (sliceElem 11))).1.head?).all (fun (d : SliceDigit) => decide (d ∈ (alignBlock 11 ([0x3F80, 0xC000].map (sliceElem 11))).1)) = true ∧ (alignBlock 11 ([0x3F80, 0xC000].map (sliceElem 11))).1 ≠ [] := by decide +kernel
theorem witness_FiniteCodesSurviveARoundTrip_1 : fltFp64 ∈ [fltE5m2, fltBf16, fltFp16, fltFp32, fltFp64] ∧ 0x8000000000000001 < 2 ^ fltFp64.bitsOf ∧ fltFp64.decode 0x8000000000000001 = .fin true 1 (-1074) := by decide +kernel
theorem witness_ExpressRoutesJoinTheirStops_1 : (16 : Nat) < 54 ∧ (15 : Nat) < 54 ∧ (expressRoute 16 15).cross.isSome = true := by decide +kernel
end

section
/-! PROOFS. What a commit takes and what a refused one leaves (R11, R485), and GLB_COMMIT while the TDISP interface is held (R27). -/
namespace Sys2Proof.Machine

/-! ### The bits that a commit takes (R11) -/

/-- Whether bit i of the register at an offset lies in an RWC field of its table. -/
def isRwcBit (off i : Nat) : Bool :=
  (findReg off).any fun d => (d.fieldsOf .rwc).any fun f => decide (f.lo ≤ i ∧ i ≤ f.hi)

theorem takeRwc_testBit_eq (off old new i : Nat) :
    (takeRwc off old new).testBit i = if isRwcBit off i then new.testBit i else old.testBit i := by
  cases e : findReg off with
  | none => simp [takeRwc, isRwcBit, e]
  | some d =>
    obtain ⟨-, bounds⟩ := findReg_apart off d e
    rw [takeRwc_testBit off old new i d e fun f m => (bounds f (List.mem_of_mem_filter m)).1, isRwcBit, e, Option.any_some]

theorem State.testBit_reg_commitReg (s : State) (off i : Nat) (w : i < 64) :
    ((s.commitReg off).reg off).testBit i = if isRwcBit off i then (s.shd off).testBit i else (s.reg off).testBit i := by
  rw [State.reg_commitReg_same, Nat.testBit_mod_two_pow, takeRwc_testBit_eq, decide_eq_true w, Bool.true_and]

/-- Bits that all lie in RWC fields show the shadow once their register is committed. -/
theorem State.bits_reg_commitReg (s : State) (off hi lo : Nat) (w : hi < 64)
    (rwc : ∀ i, lo ≤ i → i ≤ hi → isRwcBit off i = true) :
    bits ((s.commitReg off).reg off) hi lo = bits (s.shd off) hi lo := by
  apply Nat.eq_of_testBit_eq
  intro i
  rw [bits_testBit, bits_testBit]
  by_cases inside : i < hi + 1 - lo
  · rw [s.testBit_reg_commitReg off _ (by omega), if_pos (rwc _ (by omega) (by omega))]
  · simp [inside]

/-! ### The status register of a commit (R11, R485) -/

theorem State.rd_commitDone_refused (s : State) (off : Nat) : (s.commitDone off).rd ⟨off, 0, 0⟩ = 0 :=
  State.rd_wr_same _ _ _ (Nat.le_refl 0) (Nat.succ_pos 63)

theorem State.reg_commitDone_other (s : State) (off o : Nat) (h : o ≠ off) : (s.commitDone off).reg o = s.reg o := by
  rw [State.commitDone, State.reg_wr_other _ _ _ _ h, State.reg_wr_other _ _ _ _ h]

theorem State.rd_commitRefused_refused (s : State) (off code : Nat) : (s.commitRefused off code).rd ⟨off, 0, 0⟩ = 1 :=
  State.rd_wr_same _ _ _ (Nat.le_refl 0) (Nat.succ_pos 63)

theorem State.rd_commitRefused_firstField (s : State) (off code : Nat) :
    (s.commitRefused off code).rd ⟨off, 15, 8⟩ = code % 256 := by
  have kept : (s.commitRefused off code).rd ⟨off, 15, 8⟩ = (s.wr ⟨off, 15, 8⟩ code).rd ⟨off, 15, 8⟩ :=
    State.rd_wr_disjoint _ ⟨off, 0, 0⟩ _ _ rfl (Nat.le_refl 0) (by simp) (.inl (by simp))
  exact kept.trans (State.rd_wr_same _ _ _ (by simp) (by simp))

theorem State.reg_commitRefused_other (s : State) (off code o : Nat) (h : o ≠ off) :
    (s.commitRefused off code).reg o = s.reg o := by
  rw [State.commitRefused, State.reg_wr_other _ _ _ _ h, State.reg_wr_other _ _ _ _ h]

@[simp] theorem State.shd_commitRefused (s : State) (off code o : Nat) : (s.commitRefused off code).shd o = s.shd o := rfl

/-! ### GLB_COMMIT (R25, R27) -/

/-- A commit that asks for descriptor translation by the driver while the TDISP interface is locked or running (R27). -/
def State.glbHeld (s : State) : Prop :=
  s.shf Reg.DUTY_MODE_desc_translation = 1 ∧ (s.rd Reg.HOST_STATUS_tdisp = 1 ∨ s.rd Reg.HOST_STATUS_tdisp = 2)

theorem State.not_glbHeld (s : State)
    (h : s.shf Reg.DUTY_MODE_desc_translation = 0 ∨ (s.rd Reg.HOST_STATUS_tdisp ≠ 1 ∧ s.rd Reg.HOST_STATUS_tdisp ≠ 2)) :
    ¬ s.glbHeld := by
  rintro ⟨on, held⟩
  rcases h with off | free <;> omega

theorem execGlbCommit_held (v : Word) (s : State) (hv : v.toNat % 2 = 1) (held : s.glbHeld) :
    execGlbCommit v s = .next (s.commitRefused Reg.GLB_COMMIT_STATUS 0) := by
  rw [execGlbCommit, if_neg (by simp [bits, hv])]
  exact if_pos held

/-- The state once the GLB set is switched in, before DUTY_ACTIVE and the status show it. -/
def State.glbSet (s : State) : State :=
  let s := s.commitRegs [Reg.DUTY_MODE, Reg.GLB_DRV_INFO]
  let steer := s.on Reg.DUTY_MODE_time_discipline && !s.duty 9
  { s with pwr := { s.pwr with missed := 0 }, time := { s.time with steerAt := if steer then s.now else s.time.steerAt } }

theorem execGlbCommit_taken (v : Word) (s : State) (hv : v.toNat % 2 = 1) (free : ¬ s.glbHeld)
    (api : s.shf Reg.GLB_DRV_INFO_drv_api ≤ 2) :
    execGlbCommit v s = .next ((s.glbSet.wr Reg.DUTY_ACTIVE_duty_active (bits (s.glbSet.reg Reg.DUTY_MODE) 9 0)).commitDone
      Reg.GLB_COMMIT_STATUS) := by
  rw [execGlbCommit, if_neg (by simp [bits, hv])]
  exact (if_neg free).trans (if_neg (Nat.not_lt.mpr api))

/-- R25: bits 9 to 0 of DUTY_MODE are its ten mode bits, each of which a commit takes. -/
theorem isRwcBit_dutyMode : ∀ i ≤ 9, isRwcBit Reg.DUTY_MODE i = true := by decide

theorem State.bits_dutyMode_glbSet (s : State) : bits (s.glbSet.reg Reg.DUTY_MODE) 9 0 = bits (s.shd Reg.DUTY_MODE) 9 0 := by
  have later : s.glbSet.reg Reg.DUTY_MODE = (s.commitReg Reg.DUTY_MODE).reg Reg.DUTY_MODE :=
    State.reg_commitReg_other _ Reg.GLB_DRV_INFO Reg.DUTY_MODE (by decide)
  rw [later]
  exact s.bits_reg_commitReg _ 9 0 (by decide) fun i _ le => isRwcBit_dutyMode i le

/-- Settles O36: R27's condition is the first that the commit checks, and a commit past the checks takes all ten mode bits. -/
theorem glbCommitRefusedWhileInterfaceIsHeld : Obligations.GlbCommitRefusedWhileInterfaceIsHeld := by
  unfold Obligations.GlbCommitRefusedWhileInterfaceIsHeld
  refine ⟨fun v s hv on held => ?_, fun v s hv free api => ?_⟩
  · refine ⟨_, execGlbCommit_held v s hv ⟨on, held⟩, ?_, ?_, ?_, ?_⟩
    · exact s.rd_commitRefused_refused _ 0
    · exact s.rd_commitRefused_firstField _ 0
    · exact fun o ho => s.reg_commitRefused_other _ 0 o ho
    · exact fun o => s.shd_commitRefused _ 0 o
  · refine ⟨_, execGlbCommit_taken v s hv (s.not_glbHeld free) api, ?_, ?_, ?_⟩
    · exact State.rd_commitDone_refused _ _
    · rw [State.reg_commitDone_other _ _ _ (by decide), State.reg_wr_other _ _ _ _ (by decide)]
      exact s.bits_dutyMode_glbSet
    · have active := State.rd_wr_same s.glbSet Reg.DUTY_ACTIVE_duty_active (bits (s.glbSet.reg Reg.DUTY_MODE) 9 0)
        (by decide) (by decide)
      rw [State.reg_commitDone_other _ _ _ (by decide)]
      calc bits (State.reg _ Reg.DUTY_ACTIVE) 9 0 = bits (s.glbSet.reg Reg.DUTY_MODE) 9 0 % 2 ^ 10 := active
        _ = bits (s.glbSet.reg Reg.DUTY_MODE) 9 0 := Nat.mod_mod _ _
        _ = bits (s.shd Reg.DUTY_MODE) 9 0 := s.bits_dutyMode_glbSet

end Sys2Proof.Machine
end

section
/-! PROOFS. What the power and temperature commands of a site do (R36, R43) and those of its power-up, identity and attestation (R40–R50). -/
namespace Sys2Proof.Machine

/-! ### A site after an update -/

@[simp] theorem State.site_setSite_same (s : State) (n : Nat) (x : SiteSt) : (s.setSite n x).site n = x :=
  Sparse.get_put_same ..

@[simp] theorem State.siteState_setSite (s : State) (n m : Nat) (x : SiteSt) : (s.setSite n x).siteState m = s.siteState m := rfl

@[simp] theorem State.popSite_setSite (s : State) (n m : Nat) (x : SiteSt) : (s.setSite n x).popSite m = s.popSite m := rfl

@[simp] theorem State.popSite_wr (s : State) (f : Fld) (v n : Nat) : (s.wr f v).popSite n = s.popSite n := rfl

@[simp] theorem State.popSite_setReg (s : State) (off v n : Nat) : (s.setReg off v).popSite n = s.popSite n := rfl

/-- The guard of a site's command: it is passed over for a number that no site has, and where `p` holds. -/
theorem site_guard {n : Nat} {p : Prop} (hn : n < 8) (h : ¬ p) : ¬ (8 ≤ n ∨ p) :=
  not_or.mpr ⟨Nat.not_le.mpr hn, h⟩

/-! ### Power (R36, R50) -/

/-- The first millisecond without telemetry (R36). -/
theorem execSitePowerTelemetry_missing (n : Nat) (s : State) (hn : n < 8) (draws : s.siteDraws n = true)
    (monitored : (s.takeLimit n).on (Reg.SITE_PWR_STATUS_unmonitored n) = false) :
    execSitePowerTelemetry n none s = .next
      ((((s.takeLimit n).wr (Reg.SITE_PWR_STATUS_unmonitored n) 1).eventOpen blkSite 0x0D 0 n).capNotice n) :=
  (if_neg (site_guard hn (by simp [draws]))).trans (if_neg (by simp [monitored]))

/-- A reading at or below the limit, short of the hundred that are shown as one mean (R36, R405). -/
theorem execSitePowerTelemetry_below (n w : Nat) (s : State) (hn : n < 8) (draws : s.siteDraws n = true)
    (short : ((s.takeLimit n).site n).readings.length + 1 < 100)
    (below : w ≤ (s.takeLimit n).rd (Reg.SITE_PWR_LIMIT_pwr_limit_w n)) :
    execSitePowerTelemetry n (some w) s = .next ((s.takeLimit n).setSite n
      { (s.takeLimit n).site n with readings := ((s.takeLimit n).site n).readings ++ [w], overrun := 0 }) := by
  have notFull : ¬ 99 ≤ ((s.takeLimit n).site n).readings.length := by omega
  rw [execSitePowerTelemetry, if_neg (site_guard hn (by simp [draws]))]
  simp [notFull, below]

/-- A commit whose three fields are in range: the link fields apply at once, the power field waits (R50). -/
theorem execSiteCommit_taken (n : Nat) (v : Word) (s : State) (hn : n < 8) (hv : bits v.toNat 0 0 = 1)
    (power : s.shf (Reg.SITE_PWR_LIMIT_pwr_limit_w n) ≤ s.rd (Reg.SITE_POP_power_limit_w n))
    (rate : s.shf (Reg.SITE_LINK_CFG_max_rate n) ≤ 4) (retry : s.shf (Reg.SITE_LINK_CFG_retry_limit n) ≠ 0) :
    execSiteCommit n v s = .next (((s.commitReg (Reg.SITE_LINK_CFG n)).setSite n
      { s.site n with pendLimit := some (s.shf (Reg.SITE_PWR_LIMIT_pwr_limit_w n)) }).commitDone (Reg.SITE_COMMIT_STATUS n)) := by
  rw [execSiteCommit, if_neg (site_guard hn (by simp [hv]))]
  calc
    _ = _ := if_neg (Nat.not_lt.mpr power)
    _ = _ := if_neg (Nat.not_lt.mpr rate)
    _ = _ := if_neg retry

/-! ### Temperature (R43) -/

/-- The tenth report since the register was last written, below the site's limit: it is shown, and neither caps nor trips the site. -/
theorem execTemperatureReport_tenth (n tempC : Nat) (p : PopSite) (s : State) (hn : n < 8) (lit : s.siteDark n = false)
    (tenth : (s.site n).tempReports = 9) (entry : s.popSite n = some p) (below : tempC < p.tempLimitC) :
    execTemperatureReport n tempC s = .next ((s.setSite n { s.site n with tempAsked := false, tempReports := 0 }).wr
      (Reg.SITE_PWR_STATUS_chiplet_temp_c n) (min tempC 255)) := by
  have noTrip : ¬ p.tempLimitC + 10 ≤ tempC := by omega
  rw [execTemperatureReport, if_neg (site_guard hn (by simp [lit]))]
  simp [tenth, entry, noTrip, Nat.not_le.mpr below]

/-- Settles O2: each command passes its guard, and its branches are decided by the reading, the overrun's stage or the report's number. -/
theorem sitePowerAndTemperatureCommandsTakeEffect : Obligations.SitePowerAndTemperatureCommandsTakeEffect := by
  unfold Obligations.SitePowerAndTemperatureCommandsTakeEffect
  refine ⟨?telemetryMissing, ?telemetryBelow, ?overrun, ?deadline, ?request, ?report, ?silence, ?trip⟩
  case telemetryMissing => exact execSitePowerTelemetry_missing
  case telemetryBelow => exact execSitePowerTelemetry_below
  case overrun => exact fun n s hn first => if_neg (site_guard hn (not_not.mpr first))
  case deadline => exact fun n s hn capped => if_neg (site_guard hn (not_not.mpr capped))
  case request => exact fun s => rfl
  case report => exact execTemperatureReport_tenth
  case silence => exact fun n s hn asked => if_pos ⟨hn, asked⟩
  case trip => exact fun n s hn => if_pos hn

/-! ### Power-up (R39, R44, R48) -/

theorem execSitePwrenAssert_powers (s : State) (released : s.boot.perst = false) (cool : s.boot.trip = false)
    (clocked : s.boot.sysref = true) (staged : s.boot.stage ≠ 0) (plan : s.boot.plan < 3) :
    execSitePwrenAssert s = .next
      (((List.range 8).filter (fun n => s.on (Reg.SITE_POP_populated n) && s.siteState n == 0)).foldl State.powerSite s) :=
  if_neg (by simp [released, cool, clocked, staged, plan])

theorem execSitePgoodRise_powering (n : Nat) (s : State) (hn : n < 8) (asked : (s.site n).pwren = true)
    (powering : s.siteState n = 1) :
    execSitePgoodRise n s = .next ((s.setSite n { s.site n with pgood := true }).startSideband n) :=
  (if_neg (Nat.not_le.mpr hn)).trans (if_pos (by simp [asked, powering]))

theorem execSitePgoodFall_lost (n : Nat) (s : State) (hn : n < 8) (good : (s.site n).pgood = true)
    (steady : (s.site n).cycling = false) :
    execSitePgoodFall n s = .next ((s.setSite n { s.site n with pgood := false }).fenceSite n 7) :=
  (if_neg (Nat.not_le.mpr hn)).trans (if_pos (by simp [good, steady]))

/-- A module in sideband training comes up; the first of a site starts the identity read (R44, R261). -/
theorem execSidebandUp_training (n m : Nat) (s : State) (ok : moduleOk n m = true) (training : s.modState n m = 2) :
    execSidebandUp n m s = .next
      (let a := s.setSite n { s.site n with sbUp := (s.site n).sbUp ++ [m] }
      let b := a.setModule n m { a.module n m with sideband := true }
      let u := ((b.setModState n m 3).wr (Reg.SITE_MOD_STATUS_rate n m) (b.rd (Reg.SITE_LINK_CFG_max_rate n))).wr
        (Reg.SITE_MOD_STATUS_logical n m) (b.module n m).logical
      if u.siteState n = 2 then ((u.wr (Reg.SITE_STATE_state n) 3).sideband n none .identity).capNotice n else u) :=
  (if_neg (by simp [ok, training])).trans (apply_ite Host.Outcome.next _ _ _).symm

/-! ### Identity and attestation (R40–R42) -/

/-- A block within the cache bound that agrees with the population record's entry sends the first SPDM request (R40, R41). -/
theorem execIdentityBlockRead_matches (n : Nat) (block : IdentityBlock) (p : PopSite) (s : State) (hn : n < 8)
    (identifying : s.siteState n = 3) (cache : bits block.hi.toNat 31 0 ≤ 16384) (entry : s.popSite n = some p)
    (same : identityMatches p block = true) :
    execIdentityBlockRead n block s = .next
      (((((s.setReg (Reg.SITE_ID_LO n) block.lo.toNat).setReg (Reg.SITE_ID_HI n) block.hi.toNat).setSite n
        { s.site n with resetPending := false }).wr (Reg.SITE_STATE_state n) 4).spdmSend n 1) := by
  rw [execIdentityBlockRead, if_neg (site_guard hn (not_not.mpr identifying))]
  refine (if_neg (Nat.not_lt.mpr cache)).trans ?_
  simp only [State.popSite_setSite, State.popSite_setReg, entry]
  exact if_pos same

theorem execSpdmResponse_good (n : Nat) (answer : SpdmAnswer) (s : State) (hn : n < 8) (asked : 0 < (s.site n).spdmStep)
    (more : (s.site n).spdmStep < 7) (good : s.spdmBad n answer = false) :
    execSpdmResponse n answer s = .next (s.spdmSend n ((s.site n).spdmStep + 1)) :=
  calc
    _ = _ := if_neg (site_guard hn (Nat.ne_of_gt asked))
    _ = _ := if_neg (by simp [good])
    _ = _ := if_pos more

/-- Settles O3: each command passes its guard; only a sideband that comes up and an identity block branch further. -/
theorem siteBringUpCommandsTakeEffect : Obligations.SiteBringUpCommandsTakeEffect := by
  unfold Obligations.SiteBringUpCommandsTakeEffect
  refine ⟨?pwren, ?pgoodRise, ?pgoodTimeout, ?sidebandUp, ?sidebandTimeout, ?identity, ?identityTimeout, ?spdm, ?spdmTimeout,
    ?pgoodFall, ?resetTimeout, ?cycleEnd, ?commit⟩
  case pwren => exact execSitePwrenAssert_powers
  case pgoodRise => exact execSitePgoodRise_powering
  case pgoodTimeout => exact fun n s hn powering absent steady => if_pos ⟨hn, powering, absent, steady⟩
  case sidebandUp => exact execSidebandUp_training
  case sidebandTimeout => exact fun n s hn training => if_pos ⟨hn, training⟩
  case identity => exact execIdentityBlockRead_matches
  case identityTimeout => exact fun n s hn identifying own => if_pos ⟨hn, identifying, own⟩
  case spdm => exact execSpdmResponse_good
  case spdmTimeout => exact fun n s hn asked => if_pos ⟨hn, asked⟩
  case pgoodFall => exact execSitePgoodFall_lost
  case resetTimeout => exact fun n s hn pending => if_neg (site_guard hn (by simp [pending]))
  case cycleEnd => exact fun n s hn cycling => if_pos ⟨hn, cycling⟩
  case commit => exact execSiteCommit_taken

end Sys2Proof.Machine
end

section
/-! PROOFS. What starts and ends a kernel on a tile (R52, R53, R75, R77), an access to a scratch window, and a performance counter that wraps (R476). -/
namespace Sys2Proof.Machine

/-! ### The start of a dispatch (R53) -/

/-- A tile that runs nothing, in a quad that runs: the head of its queue starts with R53's initial state. -/
theorem execDispatchStart_starts (tile : Nat) (d : TileDisp) (rest : List TileDisp) (s : State)
    (idle : (s.tile tile).run = none) (queued : (s.tile tile).queue = d :: rest) (running : s.glb.stop = 0)
    (unfenced : s.tileFenced tile = false) (awake : s.quadRuns (s.quadOf tile) = true) :
    execDispatchStart tile s = .next
      ((((s.setTile tile ((s.tile tile).start tile s.now d rest)).tileState tile 1).wr
        (Reg.TILE_STATUS_ring (tile / 16) (tile % 16)) d.ring).perf tile 7 1) := by
  simp only [execDispatchStart, idle, queued]
  calc
    _ = _ := if_neg (by simp [running, unfenced])
    _ = _ := if_neg (by simp [awake])

/-! ### Traps (R52) -/

/-- The fetched instruction traps: what it did before the trap stays, and the kernel ends at the pc it was fetched from. -/
theorem execKernelTrap_trap (tile w len cause : Nat) (u v : State) (s : State) (runs : s.coreRuns tile = true)
    (fetched : s.fetchInst tile = (.inst w len, u)) (traps : u.opInst tile w len (opOfInst w len) = .trap cause v) :
    execKernelTrap tile s = .next (v.kernelTrap tile cause (s.tile tile).pc) := by
  rw [execKernelTrap, if_neg (by simp [runs])]
  simp only [fetched, traps]

/-- The fetch itself faults: the kernel ends without an instruction. -/
theorem execKernelTrap_fetchFault (tile cause : Nat) (u : State) (s : State) (runs : s.coreRuns tile = true)
    (faulted : s.fetchInst tile = (.fault cause, u)) :
    execKernelTrap tile s = .next (u.kernelTrap tile cause (s.tile tile).pc) := by
  rw [execKernelTrap, if_neg (by simp [runs])]
  simp only [faulted]

/-! ### The time limit (R77) -/

/-- The time limit of the kernel that runs has passed: its slot, if it has one, records the cause, and the kernel ends. -/
theorem execKernelTimeout_passed (tile : Nat) (d : TileDisp) (s : State) (runs : (s.tile tile).run = some d)
    (limited : d.limitUs ≠ 0) (passed : d.limitUs * 2 ^ 32 / 1000000 ≤ s.now - (s.tile tile).startedAt) :
    execKernelTimeout tile s = .next
      (let u := match s.slotOf tile with
        | some p => s.setSlot p { s.slot p with fault := putBits (s.slot p).fault 7 0 2 }
        | none => s
      u.endKernel tile stKernelTimeout 0) := by
  simp only [execKernelTimeout, runs]
  exact if_neg (not_or.mpr ⟨limited, Nat.not_lt.mpr passed⟩)

/-! ### Performance counters (R476) -/

/-- The guard of a counter's wrap: it is passed over on a tile that is unmapped or does not count. -/
theorem perfCounterWrap_guard {tile : Nat} {s : State} (mapped : s.tileUnmapped tile = false)
    (counting : s.on (Reg.TILE_CFG_perf_run (tile / 16) (tile % 16)) = true) :
    ¬ (s.tileUnmapped tile || !s.on (Reg.TILE_CFG_perf_run (tile / 16) (tile % 16))) = true := by
  simp [mapped, counting]

/-- The first counter gains what it lacks to 2^48. -/
theorem execPerfCounterWrap_first (tile : Nat) (s : State) (mapped : s.tileUnmapped tile = false)
    (counting : s.on (Reg.TILE_CFG_perf_run (tile / 16) (tile % 16)) = true) :
    execPerfCounterWrap tile 0 s = .next
      (s.perfAdd tile 0 (2 ^ 48 - s.rd (Reg.TILE_PERF0_count (tile / 16) (tile % 16)))) :=
  if_neg (perfCounterWrap_guard mapped counting)

/-- Every other number stands for the second counter, which gains what it lacks to 2^48. -/
theorem execPerfCounterWrap_second (tile which : Nat) (s : State) (mapped : s.tileUnmapped tile = false)
    (counting : s.on (Reg.TILE_CFG_perf_run (tile / 16) (tile % 16)) = true) (second : which ≠ 0) :
    execPerfCounterWrap tile which s = .next
      (s.perfAdd tile 1 (2 ^ 48 - s.rd (Reg.TILE_PERF1_count (tile / 16) (tile % 16)))) := by
  rw [execPerfCounterWrap, if_neg (perfCounterWrap_guard mapped counting), if_neg second, if_neg second]

/-- Settles O6: each command passes its guard; a trap is decided by the fetch, a counter's wrap by the counter's number. -/
theorem kernelAndScratchEventsTakeEffect : Obligations.KernelAndScratchEventsTakeEffect := by
  unfold Obligations.KernelAndScratchEventsTakeEffect
  refine ⟨?dispatchStart, ?trap, ?fetchFault, ?timeout, ?windowAccess, ?failure, ?firstCounter, ?secondCounter⟩
  case dispatchStart => exact execDispatchStart_starts
  case trap => exact execKernelTrap_trap
  case fetchFault => exact execKernelTrap_fetchFault
  case timeout => exact execKernelTimeout_passed
  case windowAccess => exact fun req s => rfl
  case failure => exact fun tile cause s named => if_pos named
  case firstCounter =>
    rintro tile _ s mapped counting rfl
    exact execPerfCounterWrap_first tile s mapped counting
  case secondCounter => exact execPerfCounterWrap_second

end Sys2Proof.Machine
end

section
/-! PROOFS. Where packed elements lie in a plane of bytes and in a drained row (R80). -/
namespace Sys2Proof.Machine

/-! ### Elements read from a plane -/

theorem bits_eq_div_mod (v hi lo : Nat) : bits v hi lo = v / 2 ^ lo % 2 ^ (hi + 1 - lo) := by
  rw [bits, Nat.shiftRight_eq_div_pow]

/-- A byte's element j of `w` bits is its field of `w` bits from bit w·j up. -/
theorem unpackByte_getElem? {fmt w : Nat} (width : fmtBits fmt = w) (b : Byte) {j : Nat} (hj : j < 8 / w) :
    (unpackByte fmt b)[j]? = some (bits b.toNat (w * j + w - 1) (w * j)) := by
  have pos : 0 < w := Nat.pos_of_ne_zero fun zero => by simp [zero] at hj
  have size : w * j + w - 1 + 1 - w * j = w := by omega
  simp [unpackByte, width, hj, bits_eq_div_mod, size]

/-- With k elements of `w` bits to a byte, element i of a plane is field i mod k of byte i / k. -/
theorem flatMap_unpackByte_getElem? {fmt w k : Nat} (width : fmtBits fmt = w) (perByte : 8 / w = k) (bs : List Byte)
    {i : Nat} (hi : i < bs.length * k) :
    (bs.flatMap (unpackByte fmt))[i]? =
      (bs[i / k]?).map (fun (b : Byte) => bits b.toNat (w * (i % k) + w - 1) (w * (i % k))) := by
  subst perByte
  have pos : 0 < 8 / w := Nat.pos_of_ne_zero fun zero => by simp [zero] at hi
  have length (b : Byte) : (unpackByte fmt b).length = 8 / w := by simp [unpackByte, width]
  have field (b : Byte) := unpackByte_getElem? width b (Nat.mod_lt i pos)
  simp only [flatMap_getElem (8 / w) _ length bs i pos hi, field, Option.map_eq_bind, Function.comp_def]

/-! ### A drained row of 4-bit elements -/

/-- Two given elements side by side are written as one byte, the even one in its low half. -/
theorem rowImage_four_getElem? (old : List Byte) {codes : List (Option Nat)} {i a b : Nat} (hi : i < codes.length / 2)
    (even : codes[2 * i]? = some (some a)) (odd : codes[2 * i + 1]? = some (some b)) :
    (rowImage 4 old codes)[i]? = some (some (BitVec.ofNat 8 (a % 16 + b % 16 * 16))) := by
  simp [rowImage, hi, even, odd]

theorem bits_low_nibble (a b : Nat) : bits (BitVec.ofNat 8 (a % 16 + b % 16 * 16)).toNat 3 0 = a % 16 := by
  rw [bits_eq_div_mod, BitVec.toNat_ofNat]
  omega

theorem bits_high_nibble (a b : Nat) : bits (BitVec.ofNat 8 (a % 16 + b % 16 * 16)).toNat 7 4 = b % 16 := by
  rw [bits_eq_div_mod, BitVec.toNat_ofNat]
  omega

/-- Settles O48: a plane's element is a field of one byte, whatever its width; a drained byte holds the even element below the odd one. -/
theorem packedElementsLieWhereTheRuleSays : Obligations.PackedElementsLieWhereTheRuleSays := by
  unfold Obligations.PackedElementsLieWhereTheRuleSays
  refine ⟨?fourBit, ?twoBit, ?binary, ?drained⟩
  case fourBit =>
    intro fmt bs i narrow hi
    rw [flatMap_unpackByte_getElem? (if_pos narrow) rfl bs hi]
    rcases Nat.mod_two_eq_zero_or_one i with even | odd
    · simp [even]
    · simp [odd]
  case twoBit =>
    intro fmt bs i two hi
    have width : fmtBits fmt = 2 := by rcases two with rfl | rfl <;> rfl
    exact flatMap_unpackByte_getElem? width rfl bs hi
  case binary =>
    intro bs i hi
    simpa using flatMap_unpackByte_getElem? (fmt := 6) (w := 1) (k := 8) rfl rfl bs hi
  case drained =>
    intro old codes i a b hi even odd
    exact ⟨_, rowImage_four_getElem? old hi even odd, bits_low_nibble a b, bits_high_nibble a b⟩

end Sys2Proof.Machine
end

section
/-! PROOFS. The slices of an aligned element: their range, and the element that they make up (R105–R107). -/
namespace Sys2Proof.Machine

/-! ### Signed significands -/

theorem signedOf_add (neg : Bool) (a b : Nat) : signedOf neg (a + b) = signedOf neg a + signedOf neg b := by
  cases neg
  · exact Int.natCast_add a b
  · simp [signedOf, Int.add_comm]

theorem signedOf_mul (neg : Bool) (a b : Nat) : signedOf neg (a * b) = signedOf neg a * b := by
  cases neg
  · exact Int.natCast_mul a b
  · simp [signedOf]

theorem natAbs_signedOf (neg : Bool) (m : Nat) : (signedOf neg m).natAbs = m := by
  cases neg
  · exact Int.natAbs_natCast m
  · simp [signedOf]

/-! ### Slices (R106) -/

/-- A slice is one nibble under a sign, so no larger than 15 either way. -/
theorem SliceDigit.natAbs_slice_le (d : SliceDigit) (s i : Nat) : (d.slice s i).natAbs ≤ 15 := by
  rw [SliceDigit.slice, natAbs_signedOf]
  exact Nat.le_of_lt_succ (Nat.mod_lt _ (by decide))

/-- Behind the first of s + 1 slices stand the s slices of the lower nibbles. -/
theorem SliceDigit.slice_succ (d : SliceDigit) (s i : Nat) : d.slice (s + 1) (i + 1) = d.slice s i := by
  rw [SliceDigit.slice, SliceDigit.slice, show s + 1 - 1 - (i + 1) = s - 1 - i by omega]

/-- The first slice, weighted, is what nibble s adds to the nibbles below it. -/
theorem SliceDigit.first_slice_add_lower (d : SliceDigit) (s : Nat) :
    d.slice (s + 1) 0 * 16 ^ s + signedOf d.neg (d.m % 16 ^ s) = signedOf d.neg (d.m % 16 ^ (s + 1)) := by
  rw [Nat.mod_pow_succ, signedOf_add, Nat.mul_comm, signedOf_mul, Int.add_comm]
  simp [SliceDigit.slice]

/-- The weighted sum of s slices is the sign on the s lowest nibbles of M, whatever stands above them. -/
theorem SliceDigit.sum_slices (d : SliceDigit) (s : Nat) :
    ((List.range s).map (fun (i : Nat) => d.slice s i * 16 ^ (s - 1 - i))).sum = signedOf d.neg (d.m % 16 ^ s) := by
  induction s with
  | zero => simp [Nat.mod_one, signedOf]
  | succ s ih =>
    have lower (i : Nat) : s + 1 - 1 - (i + 1) = s - 1 - i := by omega
    rw [List.range_succ_eq_map, List.map_cons, List.sum_cons, List.map_map]
    simp only [Function.comp_def, Nat.succ_eq_add_one, d.slice_succ, lower, ih]
    exact d.first_slice_add_lower s

/-! ### How large M is (R105, R107) -/

theorem Flt.parts_fst_lt (f : Flt) (c : Nat) : (f.parts c).1 < 2 ^ (f.m + 1) := by
  have low : c % 2 ^ f.m < 2 ^ f.m := Nat.mod_lt _ (Nat.two_pow_pos _)
  have double : 2 ^ (f.m + 1) = 2 ^ f.m + 2 ^ f.m := by rw [Nat.pow_succ, Nat.mul_two]
  dsimp only [Flt.parts]
  split
  · exact Nat.lt_of_lt_of_le low (double ▸ Nat.le_add_left _ _)
  · exact double ▸ Nat.add_lt_add_left low _

theorem natAbs_signed_le (w v : Nat) (pos : 0 < w) : (signed w v).natAbs ≤ 2 ^ (w - 1) := by
  have low : v % 2 ^ w < 2 ^ w := Nat.mod_lt _ (Nat.two_pow_pos _)
  have double : 2 ^ w = 2 ^ (w - 1) * 2 := by rw [← Nat.pow_succ, Nat.succ_eq_add_one, Nat.sub_add_cancel pos]
  unfold signed
  split <;> omega

/-- Outside INT8 the M of an element is its significand with the hidden bit. -/
theorem sliceElem_significand {fmt c m : Nat} {neg : Bool} {q : Int} (float : fmt ≠ 8)
    (read : sliceElem fmt c = .num neg m q) : m = ((sliceFlt fmt).parts c).1 := by
  rw [sliceElem, if_neg float] at read
  split at read
  case isTrue e4m3 =>
    subst e4m3
    split at read
    · cases read
    · injection read with _ significand
      exact significand.symm
  case isFalse =>
    split at read
    case h_2 => cases read
    case h_1 decoded =>
      rw [Flt.decode] at decoded
      cases read
      split at decoded
      · split at decoded <;> cases decoded
      · injection decoded with _ significand
        exact significand.symm

/-- The most binary places by which alignment shifts an M up (R107): FP8 elements are aligned to multiples of four places. -/
def maxAlignShift (fmt : Nat) : Nat := if fmt = 9 ∨ fmt = 10 then 3 else 0

/-- The nibbles of a floating-point slice format hold a significand at its largest shift. -/
theorem significand_width_le (fmt : Nat) (low : 8 < fmt) (high : fmt ≤ 14) :
    (sliceFlt fmt).m + 1 + maxAlignShift fmt ≤ 4 * sliceCount fmt := by
  interval_cases fmt <;> decide

theorem sliceElem_shifted_lt {fmt c m : Nat} {neg : Bool} {q : Int} (low : 8 ≤ fmt) (high : fmt ≤ 14)
    (read : sliceElem fmt c = .num neg m q) : m * 2 ^ maxAlignShift fmt < 16 ^ sliceCount fmt := by
  by_cases int8 : fmt = 8
  · subst int8
    injection read with _ magnitude
    have bound : (signed 8 c).natAbs ≤ 128 := natAbs_signed_le 8 c (by decide)
    change m * 1 < 256
    omega
  · calc m * 2 ^ maxAlignShift fmt
      _ < 2 ^ ((sliceFlt fmt).m + 1) * 2 ^ maxAlignShift fmt :=
        Nat.mul_lt_mul_of_pos_right (sliceElem_significand int8 read ▸ Flt.parts_fst_lt _ c) (Nat.two_pow_pos _)
      _ = 2 ^ ((sliceFlt fmt).m + 1 + maxAlignShift fmt) := (Nat.pow_add _ _ _).symm
      _ ≤ 2 ^ (4 * sliceCount fmt) := Nat.pow_le_pow_right (by decide) (significand_width_le fmt (Nat.lt_of_le_of_ne low (Ne.symm int8)) high)
      _ = 16 ^ sliceCount fmt := Nat.pow_mul 2 4 _

/-- An aligned element has M 0, or is an element of the block with its M shifted up by at most `maxAlignShift`. -/
theorem mem_alignBlock {fmt : Nat} {xs : List SliceElem} {d : SliceDigit} (mem : d ∈ (alignBlock fmt xs).1) :
    d.m = 0 ∨ ∃ m q, .num d.neg m q ∈ xs ∧ d.m ≤ m * 2 ^ maxAlignShift fmt := by
  obtain ⟨x, inBlock, rfl⟩ := List.mem_map.mp mem
  cases x with
  | special => exact .inl rfl
  | num neg m q =>
    by_cases zero : m = 0
    · exact .inl (by simp [zero])
    · right
      by_cases fp8 : fmt = 9 ∨ fmt = 10
      · have most (k : Nat) : m * 2 ^ (3 - k) ≤ m * 8 :=
          Nat.mul_le_mul_left m (Nat.pow_le_pow_right Nat.two_pos (Nat.sub_le 3 k))
        exact ⟨m, q, by simpa [zero, fp8] using inBlock, by simp [zero, fp8, maxAlignShift, most]⟩
      · exact ⟨m, q, by simpa [zero, fp8] using inBlock, by simp [zero, fp8, maxAlignShift]⟩

/-- The M of an aligned element has no more nibbles than its format has slices. -/
theorem aligned_m_lt {fmt : Nat} {codes : List Nat} {d : SliceDigit} (low : 8 ≤ fmt) (high : fmt ≤ 14)
    (mem : d ∈ (alignBlock fmt (codes.map (sliceElem fmt))).1) : d.m < 16 ^ sliceCount fmt := by
  rcases mem_alignBlock mem with zero | ⟨m, q, inBlock, shifted⟩
  · exact zero ▸ Nat.pow_pos (by decide)
  · obtain ⟨c, -, read⟩ := List.mem_map.mp inBlock
    exact Nat.lt_of_le_of_lt shifted (sliceElem_shifted_lt low high read)

/-- Settles O50: a slice is one nibble under the sign, and M has no nibble above those that its slices take up. -/
theorem slicesMakeUpTheElement : Obligations.SlicesMakeUpTheElement := by
  unfold Obligations.SlicesMakeUpTheElement
  intro fmt codes d low high mem
  refine ⟨fun i _ => ?_, ?_⟩
  · have range := d.natAbs_slice_le (sliceCount fmt) i
    exact ⟨by omega, by omega, rfl⟩
  · rw [d.sum_slices, Nat.mod_eq_of_lt (aligned_m_lt low high mem)]

end Sys2Proof.Machine
end

section
/-! PROOFS. How what every operation keeps is carried through folds, updates and pairs. -/
namespace Sys2Proof.Machine

/-- An update that leaves both stores as they are, which is seen by evaluating it. -/
theorem Keeps.put {s x : State} {h : HbmSt} {c : ScratchSt} {vout vregs vshadow vheld vcaptured vevt vfuse vmram vsag vhost vglb vsites vregul vxlat vnoc vacc vrings veng vhome vlinks vconns vconnShadow vconnSt vtiles vgens vpwr vboot vmgmt vblanket vsec vcoll vstrm vfab vhier vtime} (k : Keeps s x) (m : h.mem = x.hbm.mem := by rfl) (n : c.mem = x.scr.mem := by rfl) :
    Keeps s (State.mk x.pending x.free vout vregs vshadow vheld vcaptured vevt vfuse vmram vsag vhost vglb vsites h vregul vxlat vnoc vacc vrings veng c vhome vlinks vconns vconnShadow vconnSt vtiles vgens vpwr vboot vmgmt vblanket vsec vcoll vstrm vfab vhier vtime) :=
  k.upd m n

theorem Keeps.fold {α : Type} {s x : State} {f : State → α → State} {l : List α} (h : Keeps s x)
    (k : ∀ {y a}, Keeps s y → Keeps s (f y a)) : Keeps s (l.foldl f x) := by
  induction l generalizing x with
  | nil => exact h
  | cons a t ih => exact ih (k h)

theorem KeepsP.fold {α β : Type} {s : State} {x : β × State} {f : β × State → α → β × State} {l : List α} (h : KeepsP s x)
    (k : ∀ {y a}, KeepsP s y → KeepsP s (f y a)) : KeepsP s (l.foldl f x) := by
  induction l generalizing x with
  | nil => exact h
  | cons a t ih => exact ih (k h)

theorem KeepsQ.fold {α β : Type} {s : State} {x : State × β} {f : State × β → α → State × β} {l : List α} (h : KeepsQ s x)
    (k : ∀ {y a}, KeepsQ s y → KeepsQ s (f y a)) : KeepsQ s (l.foldl f x) := by
  induction l generalizing x with
  | nil => exact h
  | cons a t ih => exact ih (k h)

theorem KeepsPP.snd {α β : Type} {s : State} {p : α × β × State} (h : KeepsPP s p) : KeepsP s p.2 := h

theorem Memory.foldl_write_wf {α : Type} {f : α → Nat} {g : α → Byte} {l : List α} {m : List Host.Cell} (w : Memory.wf m = true) :
    Memory.wf (l.foldl (fun m a => Memory.write m (f a) (g a)) m) = true := by
  induction l generalizing m with
  | nil => exact w
  | cons a t ih => exact ih (Memory.write_wf m (f a) (g a) w)

end Sys2Proof.Machine
end

section
/-! PROOFS. Every operation and every command keeps the queue, the free values already used, and the canonical form of memory and
scratch: one lemma per operation, in the order of the model. Each proof has the shape of the operation's definition, `h.f` for a call
of `f` and `.ite` for a choice. -/
namespace Sys2Proof.Machine
set_option Elab.async false

section
variable {s x : State} (h : Keeps s x)
include h

/-! ### Machine/Ops -/

theorem Keeps.setReg {off v : Nat} : Keeps s (x.setReg off v) := h.put
theorem Keeps.wr {f : Fld} {v : Nat} : Keeps s (x.wr f v) := h.setReg
theorem Keeps.setShd {off v : Nat} : Keeps s (x.setShd off v) := h.put
theorem Keeps.sat {f : Fld} {k : Nat} : Keeps s (x.sat f k) := h.wr
theorem Keeps.wrap {f : Fld} {k : Nat} : Keeps s (x.wrap f k) := h.wr
theorem Keeps.dec {f : Fld} : Keeps s (x.dec f) := h.wr
theorem Keeps.commitReg {off : Nat} : Keeps s (x.commitReg off) := h.setReg
theorem Keeps.commitRegs {offs : List Nat} : Keeps s (x.commitRegs offs) := h.fold fun k => k.commitReg
theorem Keeps.resetRwc {off : Nat} : Keeps s (x.resetRwc off) := h.setShd.setReg
theorem Keeps.commitDone {off : Nat} : Keeps s (x.commitDone off) := h.wr.wr
theorem Keeps.commitRefused {off code : Nat} : Keeps s (x.commitRefused off code) := h.wr.wr
theorem Keeps.useFree : Keeps s x.useFree := h.updFree (Nat.le_succ_of_le h.free) rfl rfl
theorem Keeps.useFrees {n : Nat} : Keeps s (x.useFrees n) := h.updFree (Nat.le_add_right_of_le h.free) rfl rfl
theorem Keeps.send {o : Out} : Keeps s (x.send o) := h.put
theorem Keeps.msixHold {v : Nat} : Keeps s (x.msixHold v) := .ite h h.put
theorem Keeps.msixTry {v : Nat} : Keeps s (x.msixTry v) := by
  unfold State.msixTry
  split
  · exact h
  · split
    · exact h.msixHold
    · exact h.msixHold
    · exact h.msixHold
    · exact h
    · exact h
    · exact h.send
theorem Keeps.withAlert {f : State → State} (k : ∀ {y}, Keeps s y → Keeps s (f y)) : Keeps s (x.withAlert f) := by
  unfold State.withAlert
  extract_lets t u
  have ht : Keeps s t := k h
  have hu : Keeps s u := ht.send
  split
  · exact ht
  · split
    · exact .ite hu hu.send
    · exact hu
theorem Keeps.alert {f : Fld} : Keeps s (x.alert f) := h.withAlert fun k => k.wr
theorem Keeps.storeFatal {e : FatalEntry} : Keeps s (x.storeFatal e) := .ite h.put.wr.wr h.put.wr.alert

/-! ### Machine/MemOps -/

theorem Keeps.setOwn {g : Nat} {e : OwnEntry} : Keeps s (x.setOwn g e) := h.put
theorem Keeps.poisonSector {sector : Nat} : Keeps s (x.poisonSector sector) := h.setOwn.put
theorem Keeps.memStore {a : Nat} {bs : List Byte} : Keeps s (x.memStore a bs) :=
  h.of rfl (Nat.le_refl _) (Memory.writeBytes_wf _ _ _) id
theorem Keeps.wcbPart {e : WcbEntry} {k : Nat} : Keeps s (x.wcbPart e k) := by
  unfold State.wcbPart
  extract_lets written buffers sector merged t
  have hmerged : Memory.wf x.hbm.mem = true → Memory.wf merged = true := by
    unfold merged
    split
    · exact Memory.writeBytes_wf _ _ _
    · exact id
  have ht : Keeps s t := h.updStore (fun w => Memory.foldl_write_wf (hmerged w)) id
  exact .ite ht.poisonSector ht
theorem Keeps.wcbOut {e : WcbEntry} : Keeps s (x.wcbOut e) := h.put.wcbPart.wcbPart
theorem Keeps.wqOut {e : WrEntry} : Keeps s (x.wqOut e) := .via _ h.memStore fun k => .ite k.poisonSector k
theorem Keeps.wcbAdd {line : Nat} {bs : List (Nat × Byte)} {bad : Nat → Bool} : Keeps s (x.wcbAdd line bs bad) := by
  unfold State.wcbAdd
  extract_lets _ _ t
  have ht : Keeps s t := h.put
  split
  · exact .ite ht.wcbOut ht
  · exact ht
theorem Keeps.wqPut {sector : Nat} {bs : List Byte} {poison : Bool} {cls : Nat} : Keeps s (x.wqPut sector bs poison cls) := h.put
theorem Keeps.showDirty {n : Nat} : Keeps s (x.showDirty n) := by
  unfold State.showDirty
  split
  · exact h
  · exact h.wr
theorem Keeps.mirrorDirty {a n : Nat} : Keeps s (x.mirrorDirty a n) := h.fold fun k => k.put.showDirty
theorem Keeps.forward {a : Nat} {bs : List Byte} : Keeps s (x.forward a bs) := .ite h h.put
theorem Keeps.putSector {cls sector : Nat} {bs : List Byte} : Keeps s (x.putSector cls sector bs) := by
  unfold State.putSector
  refine Keeps.mirrorDirty ?_
  split
  · exact h.wcbAdd
  · exact h.wqPut
theorem Keeps.zeroGranule {g : Nat} : Keeps s (x.zeroGranule g) := by
  unfold State.zeroGranule
  extract_lets _ t
  have ht : Keeps s t := h.updStore (Memory.clear_wf _ _ _) id
  exact ht.setOwn

/-! ### Machine/Events -/

theorem Keeps.logEntry {e : Event} {count : Nat} : Keeps s (x.logEntry e count) := by
  unfold State.logEntry
  extract_lets _ _ t
  have ht : Keeps s t := by
    unfold t
    split
    · exact h
    · exact .ite (.via _ (.ite h.sat h) fun k => .ite k.alert k) h
  exact ht.put.wr
theorem Keeps.irqCause {k : Nat} : Keeps s (x.irqCause k) := .ite h (.via _ h.wr fun k => .ite k.msixTry k)
theorem Keeps.evtCopy {seq : Nat} : Keeps s (x.evtCopy seq) := by
  unfold State.evtCopy
  split
  · split
    · exact h
    · exact .ite (.ite h.put (.ite h.send.irqCause h.wr.irqCause)) (.ite h.putSector.irqCause h.wr.irqCause)
  · exact h
theorem Keeps.evtFlush : Keeps s x.evtFlush := h.put.fold fun k => k.evtCopy
theorem Keeps.post {e : Event} : Keeps s (x.post e) := by
  unfold State.post
  extract_lets t _ _ u _ v
  have ht : Keeps s t := .ite h.sat (.ite h.sat.alert h)
  have hu : Keeps s u := ht.logEntry
  have hv : Keeps s v := hu.put
  split
  · exact ht.put
  · exact hv.evtCopy
theorem Keeps.event {blk kind cls unit detail : Nat} : Keeps s (x.event blk kind cls unit detail) := h.post
theorem Keeps.eventCtx {blk kind cls unit detail ctx : Nat} : Keeps s (x.eventCtx blk kind cls unit detail ctx) := h.post
theorem Keeps.eventOpen {blk kind cls unit : Nat} : Keeps s (x.eventOpen blk kind cls unit) := h.event.useFree
theorem Keeps.eventAny {blk kind cls : Nat} : Keeps s (x.eventAny blk kind cls) := h.event.useFree.useFree
theorem Keeps.eventOp {blk kind cls unit detail : Nat} : Keeps s (x.eventOp blk kind cls unit detail) := h.post
theorem Keeps.refusal {blk unit code addr : Nat} : Keeps s (x.refusal blk unit code addr) := h.event
theorem Keeps.regEvent {kind off v : Nat} : Keeps s (x.regEvent kind off v) := h.event
theorem Keeps.closeWindow {code unit : Nat} : Keeps s (x.closeWindow code unit) := by
  unfold State.closeWindow
  split
  · exact h
  · split
    · exact h.put
    · exact (Keeps.ite h.logEntry h.logEntry.useFree).put.evtCopy
theorem Keeps.msix {v : Nat} : Keeps s (x.msix v) := by
  unfold State.msix
  split
  · exact h.msixTry
  · exact h.msixTry
  · exact h.msixTry
  · exact h.msixTry
  · exact h.refusal
  · extract_lets t
    have ht : Keeps s t := h.msixTry
    split
    · exact .ite ht ht.put.refusal
    · exact ht.put.refusal
theorem Keeps.corrected {f : Fld} {blk unit : Nat} : Keeps s (x.corrected f blk unit) := .via _ h.sat.sat fun k => .ite k.event k
theorem Keeps.driveWake : Keeps s x.driveWake := .ite h h.put.send
theorem Keeps.showWear : Keeps s x.showWear := h.wr.wr.wr
theorem Keeps.storeWrite {kind : Nat} {f : State → State} (k : ∀ {y}, Keeps s y → Keeps s (f y)) : Keeps s (x.storeWrite kind f) := by
  unfold State.storeWrite
  extract_lets _ _ _ t u
  have ht : Keeps s t := .ite h.put h.put
  have hu : Keeps s u := .ite ht.alert.eventOpen ht
  exact .ite h.eventOpen (k hu.showWear)
theorem Keeps.mramEffect {a : MramRec} : Keeps s (x.mramEffect a) := by
  unfold State.mramEffect
  split
  · exact h.storeFatal
  · exact h.put
  · exact h.put
  · exact .ite h h.put
  · exact .ite h h.put
theorem Keeps.mramApply {r : MramRec} : Keeps s (x.mramApply r) := h.storeWrite fun k => k.mramEffect
theorem Keeps.mramWrite {r : MramRec} : Keeps s (x.mramWrite r) := by
  unfold State.mramWrite
  split
  · exact h.mramApply
  · exact .ite h.put.wr h.put.wr.alert
theorem Keeps.fatalCause : Keeps s x.fatalCause := h.put.irqCause.put
theorem Keeps.fatalSteps {code unit detail0 detail1 : Nat} {watchdog : Bool} : Keeps s (x.fatalSteps code unit detail0 detail1 watchdog) :=
  .via _ h.alert.put.mramWrite.sat fun m => .via _ (Keeps.ite m m.event).fatalCause fun p => .via _ (.ite p.driveWake p) fun q => .ite q q.put.wr
theorem Keeps.fatalOpen {code unit : Nat} {watchdog : Bool} : Keeps s (x.fatalOpen code unit watchdog) := h.fatalSteps.useFree.useFree
theorem Keeps.fatalStop {code unit detail0 detail1 : Nat} {watchdog : Bool} : Keeps s (x.fatalStop code unit detail0 detail1 watchdog) :=
  h.fatalSteps.put
theorem Keeps.keepCount {key v : Nat} : Keeps s (x.keepCount key v) := h.put
theorem Keeps.keepCounts {gone : Nat → Bool} : Keeps s (x.keepCounts gone) := (h.fold fun k => k.keepCount).fold fun l => l.keepCount.keepCount
theorem Keeps.renewCounts : Keeps s x.renewCounts := h.put

/-! ### Machine/MemWrite -/

theorem Keeps.showCells : Keeps s x.showCells := h.wr
theorem Keeps.markCell {cell : Nat} : Keeps s (x.markCell cell) := .ite h h.put.showCells.mramWrite
theorem Keeps.repairRow {r : RowErr} : Keeps s (x.repairRow r) := .ite h.put.mramWrite.event h.markCell
theorem Keeps.showRows : Keeps s x.showRows := by
  unfold State.showRows
  split
  · exact h.setReg
  · exact h.setReg
theorem Keeps.visited {row cell : Nat} : Keeps s (x.visited row cell) := by
  unfold State.visited
  split
  · exact h.put
  · exact .ite h (.via _ h.put fun k => .ite k.put.showRows k.repairRow)
theorem Keeps.rowVisit {addr : Nat} : Keeps s (x.rowVisit addr) := h.visited
theorem Keeps.sectorLost {addr : Nat} : Keeps s (x.sectorLost addr) := .via _ h.poisonSector.sat.event fun l => .ite l.markCell l.put
theorem Keeps.useInjection {addr n : Nat} : Keeps s (x.useInjection addr n) := by
  unfold State.useInjection
  split
  · exact .ite h.put.wr h
  · exact h
theorem Keeps.sectorCorrected {addr : Nat} : Keeps s (x.sectorCorrected addr) := h.corrected.rowVisit
theorem Keeps.wcbCheck {e : WcbEntry} {k : Nat} : Keeps s (x.wcbCheck e k) :=
  .ite h (.via _ h.useInjection fun k => .ite (.ite k k.sectorLost) (.ite k.sectorCorrected k))
theorem Keeps.wcbRetire {e : WcbEntry} : Keeps s (x.wcbRetire e) := h.wcbCheck.wcbCheck.wcbOut
theorem Keeps.flushRange {a n : Nat} : Keeps s (x.flushRange a n) := (h.fold fun k => k.wcbRetire).fold fun l => l.wqOut
theorem Keeps.wcbRoom {ctl : Nat} {stream : Bool} : Keeps s (x.wcbRoom ctl stream) := by
  unfold State.wcbRoom
  extract_lets
  split
  · split
    · exact h.wcbRetire
    · exact h
  · exact h
theorem Keeps.wcbMerge {line cls : Nat} {bs : List (Nat × Byte)} {bad : Nat → Bool} : Keeps s (x.wcbMerge line cls bs bad) := by
  unfold State.wcbMerge
  extract_lets _ t
  have ht : Keeps s t := h.wcbRoom
  refine Keeps.wcbAdd ?_
  split
  · exact h
  · exact ht.put
theorem Keeps.writeLine {cls addr : Nat} {data : List (Option Byte)} {bad : Nat → Bool} {line : Nat} : Keeps s (x.writeLine cls addr data bad line) :=
  .ite h (.ite (.via _ (.ite h.wqPut h) fun k => .ite k.wqPut k) h.wcbMerge)
theorem Keeps.putMarked {cls a : Nat} {bs : List PByte} : Keeps s (x.putMarked cls a bs) := (h.fold fun k => k.writeLine).mirrorDirty

/-! ### Machine/PortOps -/

theorem Keeps.setPort {p : Nat} {x' : PortSt} : Keeps s (x.setPort p x') := h.put
theorem Keeps.setPortState {p v : Nat} : Keeps s (x.setPortState p v) := h.wr.wr
theorem Keeps.sendIdle {p : Nat} {nak : Bool} {creditLane creditCount : Nat} : Keeps s (x.sendIdle p nak creditLane creditCount) := h.send
theorem Keeps.freeBlock {b : QBlock} : Keeps s (x.freeBlock b) := by
  unfold State.freeBlock
  split
  · exact .ite h.sendIdle h
  · exact h
theorem Keeps.sendBlock {p : Nat} {b : QBlock} : Keeps s (x.sendBlock p b) := h.setPort.send.freeBlock
theorem Keeps.pump {p n : Nat} : Keeps s (x.pump p n) := by
  induction n generalizing x with
  | zero => exact h
  | succ n ih =>
    unfold State.pump
    extract_lets
    split
    · exact h
    · split
      · exact ih h.sendBlock
      · exact h
theorem Keeps.putBlock {p : Nat} {b : QBlock} : Keeps s (x.putBlock p b) := h.setPort.pump
theorem Keeps.launch {dest cls flow op seq conn len : Nat} {shown : Out} : Keeps s (x.launch dest cls flow op seq conn len shown) := by
  unfold State.launch
  extract_lets
  split
  · exact h.sat
  · exact .ite h ((h.fold fun k => k.putBlock).send)

/-! ### Machine/ConnOps -/

theorem Keeps.connWr {e : Nat} {f : Fld} {v : Nat} : Keeps s (x.connWr e f v) := h.put
theorem Keeps.setConn {e : Nat} {c : ConnSt} : Keeps s (x.setConn e c) := h.put
theorem Keeps.showConns : Keeps s x.showConns := h.wr
theorem Keeps.connTo {e v : Nat} : Keeps s (x.connTo e v) := h.connWr.showConns
theorem Keeps.emit {e : Nat} {m : FabMsg} : Keeps s (x.emit e m) := h.launch
theorem Keeps.sendNow {e : Nat} {m : FabMsg} : Keeps s (x.sendNow e m) := h.setConn.emit
theorem Keeps.sendMsg {e : Nat} {m : FabMsg} : Keeps s (x.sendMsg e m) := .ite h.sendNow h.setConn
theorem Keeps.sendWaiting {e : Nat} : Keeps s (x.sendWaiting e) := .ite h (h.setConn.fold fun k => k.sendNow)
theorem Keeps.sendAck {e : Nat} : Keeps s (x.sendAck e) := h.setConn.launch
theorem Keeps.msgPerformed {e q : Nat} : Keeps s (x.msgPerformed e q) := .via _ h.setConn fun k => .ite k.sendAck k
theorem Keeps.respond {e op tag : Nat} {bytes : List Byte} {poison err : Bool} : Keeps s (x.respond e op tag bytes poison err) := h.sendMsg
theorem Keeps.siteAnswered {n tag : Nat} : Keeps s (x.siteAnswered n tag) := h.put
theorem Keeps.refuseUncached {n tag : Nat} {write : Bool} : Keeps s (x.refuseUncached n tag write) :=
  .via _ h.siteAnswered fun k => .ite (.ite k k.send) k.send
theorem Keeps.answerSite {n tag : Nat} {write : Bool} {a : Answer} : Keeps s (x.answerSite n tag write a) := by
  unfold State.answerSite
  extract_lets t
  have ht : Keeps s t := h.siteAnswered
  split
  · exact ht.refuseUncached
  · exact ht.send
  · exact .ite ht.send (.ite ht.send ht.send)
theorem Keeps.asmDone {x' : Asm} : Keeps s (x.asmDone x') := by
  unfold State.asmDone
  extract_lets
  split
  · exact .ite h h.send
  · exact .via _ h.siteAnswered fun k => .ite k.refuseUncached (.ite k.send (.ite k.send k.send))
  · exact (Keeps.ite (.ite h.respond h.putMarked.forward.respond) (.ite h.respond h)).msgPerformed
theorem Keeps.partDone {id i : Nat} {a : Answer} : Keeps s (x.partDone id i a) := by
  unfold State.partDone
  split
  · exact h
  · exact .ite h.put.asmDone h.put
theorem Keeps.openAsm {who : AsmFor} {write : Bool} {addr : Nat} {arg : Nat × Nat × Nat} {lens : List Nat} : KeepsP s (x.openAsm who write addr arg lens) :=
  .mk h.put

/-! ### Machine/Translate -/

theorem Keeps.bumpGen {c k : Nat} : Keeps s (x.bumpGen c k) := h.wr
theorem Keeps.segFaultEvent {g : FaultAgent} {c va kind : Nat} {seg : Option Nat} {a : Acc} {full : Bool} : Keeps s (x.segFaultEvent g c va kind seg a full) :=
  h.post
theorem Keeps.joinRecord {r : Nat} {g : FaultAgent} : Keeps s (x.joinRecord r g) := h.put.wr
theorem Keeps.segFault {g : FaultAgent} {c va kind : Nat} {seg : Option Nat} {a : Acc} : KeepsP s (x.segFault g c va kind seg a) := by
  unfold State.segFault
  split
  · split
    · exact .mk h.joinRecord
    · split
      · exact .mk h.wr.segFaultEvent
      · exact .via _ h.setReg.setReg.setReg.setReg.wr.joinRecord fun p => .mk (.ite p.msix p)
  · exact .mk h.segFaultEvent

/-! ### Machine/Runs -/

theorem Keeps.setRing {r : Nat} {g : RingSt} : Keeps s (x.setRing r g) := h.put
theorem Keeps.ltrCheck : Keeps s x.ltrCheck := .ite (.ite h h.put.send) h
theorem Keeps.updRun {r seq : Nat} {f : Run → Run} : Keeps s (x.updRun r seq f) := h.setRing
theorem Keeps.noteErr {r seq status : Nat} : Keeps s (x.noteErr r seq status) := h.updRun
theorem Keeps.rewind {r : Nat} : Keeps s (x.rewind r) := .ite h.wr h
theorem Keeps.leaveMemory {mine : Who → Bool} : Keeps s (x.leaveMemory mine) := h.put
theorem Keeps.orphan {mine : Who → Bool} {of_ : Option (Nat × Nat)} : Keeps s (x.orphan mine of_) := h.leaveMemory.put
theorem Keeps.leaveUnits {r seq : Nat} : Keeps s (x.leaveUnits r seq) := h.fold fun k => .via _ k.put fun l => .ite l.wr l
theorem Keeps.haltRing {r cause : Nat} : Keeps s (x.haltRing r cause) := .ite h h.wr.wr.wr.wr.orphan.setRing.rewind.ltrCheck.irqCause
theorem Keeps.unhalt {r state : Nat} : Keeps s (x.unhalt r state) := (Keeps.ite h.wr h).wr.ltrCheck
theorem Keeps.advanceGen {r status : Nat} {b : List Byte} : Keeps s (x.advanceGen r status b) := by
  unfold State.advanceGen
  extract_lets
  split
  · exact h
  · split
    · exact h
    · exact h.put
theorem Keeps.finish {r seq status : Nat} {check : Option Nat} {info : Nat} : Keeps s (x.finish r seq status check info) := by
  unfold State.finish
  split
  · exact h
  · exact .ite h (.ite h.leaveMemory.leaveUnits.updRun.advanceGen (.ite h.leaveMemory.leaveUnits.updRun h))

/-! ### Machine/TileOps -/

theorem Keeps.setTile {t : Nat} {x' : TileSt} : Keeps s (x.setTile t x') := h.put
theorem Keeps.setSlot {p : Nat} {x' : SlotSt} : Keeps s (x.setSlot p x') := h.put
theorem Keeps.wakeQuad {q : Nat} : Keeps s (x.wakeQuad q) := .ite h h.put
theorem Keeps.tileState {t v : Nat} : Keeps s (x.tileState t v) := h.wr
theorem Keeps.stopTile {t : Nat} : Keeps s (x.stopTile t) := by
  unfold State.stopTile
  extract_lets _ u v w
  have hu : Keeps s u := h.orphan
  have hv : Keeps s v := hu.setTile
  have hw : Keeps s w := by
    unfold w
    split
    · exact .ite hv.setSlot hv
    · exact hv
  exact .ite hw hw.tileState
theorem Keeps.tileEnded {t ring seq status tend : Nat} : Keeps s (x.tileEnded t ring seq status tend) := by
  unfold State.tileEnded
  split
  · exact h
  · extract_lets _ _ u v
    have hu : Keeps s u := h.updRun
    have hv : Keeps s v := by
      unfold v
      split
      · refine hu.fold fun k => ?_
        extract_lets _ w y
        have hw : Keeps s w := k.setTile
        have hy : Keeps s y := by
          unfold y
          split
          · exact .ite hw.stopTile hw
          · exact hw
        exact hy.updRun
      · exact hu
    split
    · exact hv
    · exact .ite hv.finish hv
theorem Keeps.scrOpen {p a n : Nat} : Keeps s (x.scrOpen p a n) :=
  (h.updStore id (Memory.writeBytes_wf _ _ _)).useFrees
theorem Keeps.openEscs {t : Nat} : Keeps s (x.openEscs t) := by
  unfold State.openEscs
  split
  · exact h
  · exact h.fold fun k => k.scrOpen.scrOpen.scrOpen
theorem Keeps.endKernel {t status tend : Nat} : Keeps s (x.endKernel t status tend) := by
  unfold State.endKernel
  split
  · exact h
  · exact (Keeps.ite h.openEscs h).stopTile.tileEnded
theorem Keeps.showTiles : Keeps s x.showTiles := h.wr
theorem Keeps.loseQueue {t : Nat} : Keeps s (x.loseQueue t) := h.setTile.fold fun l => l.tileEnded
theorem Keeps.fenceTile {t : Nat} : Keeps s (x.fenceTile t) := by
  unfold State.fenceTile
  split
  · exact .ite h (.via _ h.setSlot.tileState.wr.put.wr.wr fun o => (Keeps.ite o.put o).showTiles.endKernel.loseQueue)
  · exact h
theorem Keeps.failTile {t cause : Nat} : Keeps s (x.failTile t cause) := by
  unfold State.failTile
  split
  · exact h
  · exact .ite h h.setSlot.fenceTile.mramWrite.event
theorem Keeps.scrWrite {p a : Nat} {bs : List PByte} : Keeps s (x.scrWrite p a bs) := by
  unfold State.scrWrite
  extract_lets _ _ _ _ _ t
  have ht : Keeps s t := h.updStore id (Memory.writeBytes_wf _ _ _)
  split
  · exact .ite ht.setSlot ht
  · exact ht
theorem Keeps.scrFound {t a n : Nat} {ecc : Ecc} : KeepsPP s (x.scrFound t a n ecc) := by
  unfold State.scrFound
  split
  · exact .ite (.mk h.put.wr) (.mk h)
  · exact .mk h
theorem Keeps.scrCorrected {t p : Nat} : Keeps s (x.scrCorrected t p) := .via _ h.setSlot.sat fun k => .ite k.event k
theorem Keeps.scrLost {t p a : Nat} : Keeps s (x.scrLost t p a) := .via _ h.setSlot.put fun l => .ite l.failTile l.event
theorem Keeps.scrRead {t a n : Nat} {ecc : Ecc} : KeepsP s (x.scrRead t a n ecc) := by
  unfold State.scrRead
  split
  · exact .mk h
  · split
    next u e =>
      have hu : Keeps s u := h.scrFound.at e
      extract_lets v
      have hv : Keeps s v := by
        unfold v
        split
        · exact hu
        · exact hu.scrCorrected
        · exact .ite hu hu.scrLost
      exact .mk hv
theorem Keeps.scrStore {t a : Nat} {bs : List PByte} : Keeps s (x.scrStore t a bs) := by
  unfold State.scrStore
  split
  · exact h
  · exact (h.fold fun k => k.scrRead.snd).scrWrite

/-! ### Machine/Express -/

theorem Keeps.strand {r : MemReq} : Keeps s (x.strand r) := h.put

/-! ### Machine/Hbm -/

theorem Keeps.startCopy {c cell : Nat} : Keeps s (x.startCopy c cell) := by
  unfold State.startCopy
  extract_lets _ t
  have ht : Keeps s t := by
    unfold t
    split
    · exact h.flushRange
    · exact h
  split
  · exact h
  · exact ht.put.showCells
theorem Keeps.endCopy {x' : CellCopy} : Keeps s (x.endCopy x') := h.put.mramWrite.sat.dec.event
theorem Keeps.answerBytes {r : MemReq} {bs : List Byte} : Keeps s (x.answerBytes r bs) := by
  unfold State.answerBytes
  split
  · exact h.partDone
  · exact h.siteAnswered.send
  · exact h.send
theorem Keeps.answerAck {r : MemReq} : Keeps s (x.answerAck r) := by
  unfold State.answerAck
  split
  · exact h.partDone
  · exact h
  · exact h.siteAnswered.send
  · exact h.send
theorem Keeps.answerPoison {r : MemReq} : Keeps s (x.answerPoison r) := by
  unfold State.answerPoison
  split
  · exact h.send
  · exact h
  · exact h.partDone
  · exact h.partDone
  · exact h.siteAnswered.send
  · exact h.send
theorem Keeps.answerRefused {r : MemReq} : Keeps s (x.answerRefused r) := by
  unfold State.answerRefused
  split
  · exact h.send
  · exact h
  · exact h.partDone
  · exact h.refuseUncached
  · exact h.send
theorem Keeps.ownerEvent {o : Origin} {addr : Nat} : Keeps s (x.ownerEvent o addr) := by
  unfold State.ownerEvent
  split
  · exact h
  · split
    · exact .ite h h.put.post
    · exact h.put.post
theorem Keeps.showBrPend : Keeps s x.showBrPend := by
  unfold State.showBrPend
  extract_lets gs
  clear_value gs
  split
  · exact h.setReg
  · exact h.setReg
theorem Keeps.reload {g : Nat} : Keeps s (x.reload g) := h.put
theorem Keeps.startRepair {g addr : Nat} : Keeps s (x.startRepair g addr) := by
  unfold State.startRepair
  split
  · exact h.reload
  · split
    · exact h
    · exact .via _ h.setOwn.sat.event.put fun m => .via _ (.ite m m.wr) fun o => (Keeps.ite o o.send).showBrPend
theorem Keeps.parkRead {r : MemReq} {rep : BrRepair} : Keeps s (x.parkRead r rep) := .ite h.answerPoison h.put
theorem Keeps.serveRead {r : MemReq} : Keeps s (x.serveRead r) := by
  unfold State.serveRead
  extract_lets ecc _ t _ u v
  clear_value ecc
  have ht : Keeps s t := .ite h h.useInjection
  have hu : Keeps s u := ht.startRepair
  have hv : Keeps s v := .ite ht.sectorCorrected ht
  split
  · split
    · split
      · exact hu.parkRead
      · exact hu.answerPoison
    · exact .ite ht.answerPoison ht.sectorLost.answerPoison
  · exact .ite hv.answerPoison hv.answerBytes
theorem Keeps.serveWrite {r : MemReq} {data : List (Option Byte)} : Keeps s (x.serveWrite r data) :=
  .via _ (h.fold fun k => k.writeLine) fun k => (Keeps.ite k.forward k).mirrorDirty.answerAck
theorem Keeps.memRequest {r : MemReq} : Keeps s (x.memRequest r) := by
  unfold State.memRequest
  extract_lets
  split
  · exact h.put
  · split
    · exact h.put
    · split
      · exact h.answerRefused
      · split
        · exact h.answerPoison
        · split
          · exact h.ownerEvent.answerRefused
          · split
            · exact h.serveWrite
            · split
              · exact h.parkRead
              · exact h.serveRead
theorem Keeps.resume {rs : List MemReq} : Keeps s (x.resume rs) := h.fold fun k => k.memRequest
theorem Keeps.granEnd {result g : Nat} : Keeps s (x.granEnd result g) := h.put.wr.wr.wr
theorem Keeps.granNext : Keeps s x.granNext := by
  unfold State.granNext
  split
  · exact h
  · exact .ite h.granEnd (.ite h.granEnd h.wr)
theorem Keeps.granStart {zero : Bool} : Keeps s (x.granStart zero) := .ite h.regEvent (.ite h.granEnd (.ite h.granEnd h.put.wr.wr.granNext))
theorem Keeps.granRead : Keeps s x.granRead := .ite h.regEvent (.ite h.granEnd h.setReg.granEnd)
theorem Keeps.granDrained : Keeps s x.granDrained := by
  unfold State.granDrained
  split
  · exact h
  · exact .via _ h.flushRange.setOwn fun l => .via _ (Keeps.ite l.zeroGranule l).put fun o => .ite o.granEnd.resume o.put.granNext.resume
theorem Keeps.sourceRequest {r : MemReq} : Keeps s (x.sourceRequest r) := .ite h.strand (.ite h.memRequest h.put)
theorem Keeps.execWcbAgeExpiry {line : Nat} : KeepsR s (execWcbAgeExpiry line x) := by
  unfold Machine.execWcbAgeExpiry
  split
  · exact .next h.wcbRetire
  · exact .next h
theorem Keeps.execWriteBurstRelease {ctl ch pc : Nat} : KeepsR s (execWriteBurstRelease ctl ch pc x) :=
  .ite (.next (h.fold fun k => k.wqOut)) (.next h)
theorem Keeps.execRequestAgePromotion {sector : Nat} : KeepsR s (execRequestAgePromotion sector x) := .next h.put
theorem Keeps.execScrubVisit {addr : Nat} {ecc : Ecc} : KeepsR s (execScrubVisit addr ecc x) := by
  unfold Machine.execScrubVisit
  split
  · split
    · exact .next h
    · extract_lets found t
      clear_value found
      have ht : Keeps s t := h.useInjection
      split
      · exact .next ht
      · exact .next ht.sectorCorrected
      · exact .ite (.next ht.startRepair) (.ite (.next ht) (.next ht.sectorLost))
  · extract_lets
    split
    · exact .next h
    · split
      · exact .next h
      · exact .next h.corrected.visited
      · exact .next h.sat
theorem Keeps.execPprRepair : KeepsR s (execPprRepair x) := by
  unfold Machine.execPprRepair
  split
  · exact .next h
  · exact .next h.put.showRows.repairRow
theorem Keeps.execPprDismiss : KeepsR s (execPprDismiss x) := by
  unfold Machine.execPprDismiss
  split
  · exact .next h
  · exact .next h.put.showRows
theorem Keeps.execGranRead : KeepsR s (execGranRead x) := .next h.granRead
theorem Keeps.showZero : Keeps s x.showZero := .ite h (.via _ h.wr fun k => .ite k.wr k)
theorem Keeps.execZeroingPass {granule : Nat} : KeepsR s (execZeroingPass granule x) := .ite (.next h.setOwn.showZero) (.next h)
theorem Keeps.execHbmCommit {v : Word} : KeepsR s (execHbmCommit v x) :=
  .ite (.next h) (.ite (.next h.commitRefused) (.ite (.next h.commitRefused) (.next h.commitReg.commitDone)))

/-! ### Machine/MemAgent -/

theorem Keeps.checked {a n : Nat} {ecc : Ecc} : Keeps s (x.checked a n ecc) := by
  unfold State.checked
  split
  · exact h
  · extract_lets found _ t
    clear_value found
    have ht : Keeps s t := h.useInjection
    split
    · exact ht
    · exact ht.sectorCorrected
    · exact .ite ht.startRepair (.ite ht ht.sectorLost)
theorem Keeps.unpark {who : Who} : Keeps s (x.unpark who) := h.put
theorem Keeps.parkEngine {who : Who} {a n : Nat} {rep : BrRepair} : KeepsP s (x.parkEngine who a n rep) :=
  .ite (.mk h.unpark) (.ite (.mk h) (.ite (.mk h) (.mk h.put)))
theorem Keeps.agentRead {who : Who} {o : Origin} {a n : Nat} {ecc : Ecc} : KeepsP s (x.agentRead who o a n ecc) := by
  unfold State.agentRead
  extract_lets _ _ _ t
  have ht : Keeps s t := .ite h h.checked
  split
  · exact .mk h
  · split
    · exact .mk h
    · split
      · exact .mk h.unpark
      · split
        · exact .mk h.ownerEvent
        · split
          · exact .mk h
          · split
            · exact ht.parkEngine
            · exact .mk ht.unpark
theorem Keeps.memPutMarked {cls a : Nat} {bs : List PByte} : Keeps s (x.memPutMarked cls a bs) :=
  .ite (h.fold fun k => .ite k.putMarked k) h.putMarked
theorem Keeps.agentWrite {who : Who} {o : Origin} {a : Nat} {bs : List PByte} : KeepsP s (x.agentWrite who o a bs) :=
  .ite (.mk h) (.ite (.mk h) (.ite (.mk h) (.ite (.mk h.ownerEvent) (.ite (.mk h) (.mk h.memPutMarked.forward)))))

/-! ### Machine/Spread -/

theorem Keeps.setSite {n : Nat} {x' : SiteSt} : Keeps s (x.setSite n x') := h.put
theorem Keeps.setLink {n : Nat} {x' : LinkSt} : Keeps s (x.setLink n x') := h.put
theorem Keeps.setModState {n m v : Nat} : Keeps s (x.setModState n m v) := h.wr
theorem Keeps.setModule {n m : Nat} {x' : ModSt} : Keeps s (x.setModule n m x') := h.setLink
theorem Keeps.leaveL1 {n m : Nat} : Keeps s (x.leaveL1 n m) := .ite h.wr h
theorem Keeps.toSite {n va : Nat} {m : SiteMsg} : Keeps s (x.toSite n va m) := .ite h.setLink h.leaveL1.send
theorem Keeps.releaseHeld {n : Nat} : Keeps s (x.releaseHeld n) := h.setLink.fold fun k => k.toSite
theorem Keeps.sideband {n : Nat} {own : Option Nat} {m : SbMsg} : Keeps s (x.sideband n own m) := h.send
theorem Keeps.sendSpread {n : Nat} : Keeps s (x.sendSpread n) := by
  unfold State.sendSpread
  split
  · exact h
  · exact h.sideband
theorem Keeps.exchKick {n : Nat} : Keeps s (x.exchKick n) := by
  unfold State.exchKick
  split
  · exact h
  · exact .ite h h.setLink.sendSpread

/-! ### Machine/Home -/

theorem Keeps.showEntries {n : Nat} : Keeps s (x.showEntries n) := h.wr.wr
theorem Keeps.dropEntry {n line : Nat} : Keeps s (x.dropEntry n line) := h.put.showEntries
theorem Keeps.moveEntry {n line : Nat} {st : LineState} : Keeps s (x.moveEntry n line st) := h.put
theorem Keeps.grantEntry {r : HomeReq} {st : LineState} : Keeps s (x.grantEntry r st) := h.dropEntry.put.showEntries
theorem Keeps.answerChip {r : HomeReq} {m : SiteMsg} : Keeps s (x.answerChip r m) := h.siteAnswered.setLink.toSite
theorem Keeps.refuseSite {r : HomeReq} : Keeps s (x.refuseSite r) := by
  unfold State.refuseSite
  split
  · split
    · exact h.answerChip
    · exact h.answerChip
    · exact h.answerChip
    · exact h.answerChip
    · exact h.siteAnswered
  · exact h.answerChip
theorem Keeps.grantData {r : HomeReq} {st : Nat} {bytes : List PByte} : Keeps s (x.grantData r st bytes) := .ite h.answerChip h.answerChip
theorem Keeps.grantComp {r : HomeReq} {st : Nat} : Keeps s (x.grantComp r st) := .ite h.answerChip h.answerChip
theorem Keeps.updTxn {id : Nat} {f : HomeTxn → HomeTxn} : Keeps s (x.updTxn id f) := h.put
theorem Keeps.endTxn {id : Nat} : Keeps s (x.endTxn id) := h.put
theorem Keeps.openTxn {line : Nat} {why : HomeFor} {snoops : List (FilterEntry × SnoopKind)} : KeepsP s (x.openTxn line why snoops) :=
  .mk (h.put.fold fun l => l.toSite)
theorem Keeps.lineData {t : HomeTxn} {r : HomeReq} : KeepsP s (x.lineData t r) := by
  unfold State.lineData
  split
  · exact .mk h
  · exact h.agentRead
theorem Keeps.homeWrite {t : HomeTxn} {r : HomeReq} : KeepsP s (x.homeWrite t r) := by
  unfold State.homeWrite
  extract_lets
  split
  · exact h.agentWrite
  · refine (KeepsP.mk h).fold fun k => ?_
    split
    · exact k.snd.agentWrite
    · exact k
theorem Keeps.homeGrant {t : HomeTxn} {r : HomeReq} : Keeps s (x.homeGrant t r) := by
  unfold State.homeGrant
  extract_lets _ _ mine f _ u v w y
  clear_value mine
  have hf : ∀ {y}, Keeps s y → Keeps s (f y) := fun k => .ite k.endTxn k.updTxn
  have hu : Keeps s u := by
    unfold u
    split
    · exact h.memPutMarked
    · exact h
  have hv : Keeps s v := .ite h.memPutMarked h
  have hw : Keeps s w := h.dropEntry
  have hy : Keeps s y := by
    unfold y
    split
    · exact h.memPutMarked
    · exact h
  split
  · split
    next z e =>
      have hz : Keeps s z := h.lineData.at e
      exact hf (Keeps.ite hz.memPutMarked hz).grantEntry.grantData
    next z e => exact h.lineData.at e
    next z _ _ e => exact (h.lineData.at e).refuseSite.endTxn
  · split
    next z e => exact hf (h.lineData.at e).grantEntry.grantData
    next z e => exact h.lineData.at e
    next z _ _ e => exact (h.lineData.at e).refuseSite.endTxn
  · split
    · exact hf hu.grantEntry.grantComp
    · split
      · exact hf h.grantEntry.grantComp
      · split
        next z e => exact hf (h.lineData.at e).grantEntry.grantData
        next z e => exact h.lineData.at e
        next z _ _ e => exact (h.lineData.at e).refuseSite.endTxn
  · split
    next z e => exact (h.lineData.at e).grantData.endTxn
    next z e => exact h.lineData.at e
    next z _ _ e => exact (h.lineData.at e).refuseSite.endTxn
  · split
    next z e => exact (h.homeWrite.at e).grantComp.endTxn
    next z e => exact h.homeWrite.at e
    next z _ _ e => exact (h.homeWrite.at e).refuseSite.endTxn
  · split
    next z e => exact (h.homeWrite.at e).grantComp.endTxn
    next z e => exact h.homeWrite.at e
    next z _ _ e => exact (h.homeWrite.at e).refuseSite.endTxn
  · split
    · exact .ite h.sat.answerChip.endTxn hv.dropEntry.answerChip.endTxn
    · exact h.sat.answerChip.endTxn
  · exact (Keeps.ite hw.grantComp hw.siteAnswered).endTxn
  · exact hy.dropEntry.grantComp.endTxn
theorem Keeps.homeGot {id : Nat} : Keeps s (x.homeGot id) := by
  unfold State.homeGot
  split
  · exact h
  · split
    · exact h.homeGrant
    · extract_lets t
      have ht : Keeps s t := by
        unfold t
        split
        · exact .ite h.memPutMarked h
        · exact h
      exact ht.dropEntry.endTxn
    · extract_lets t
      have ht : Keeps s t := by
        unfold t
        split
        · split
          · exact h.memPutMarked
          · exact h
        · exact h
      split
      · exact ht.endTxn
      · exact ht.updTxn
    · split
      · exact (Keeps.ite h.answerPoison h.answerBytes).endTxn
      · exact h.memPutMarked.endTxn.memRequest
      · exact h.endTxn.memRequest
theorem Keeps.homeRetry : Keeps s x.homeRetry := h.fold fun k => k.homeGot
theorem Keeps.homeBegin {w : HomeFor} : Keeps s (x.homeBegin w) := by
  unfold State.homeBegin
  extract_lets _ _ t
  have ht : Keeps s t := h.put
  split
  · split
    · exact .ite ht ht.sat.openTxn.snd
    · exact .ite h.openTxn.snd.homeGot h.openTxn.snd
  · exact .ite h.openTxn.snd.homeGot h.openTxn.snd
  · exact .ite h.openTxn.snd.homeGot h.openTxn.snd
  · exact .ite h.openTxn.snd.homeGot h.openTxn.snd
theorem Keeps.homeKick : Keeps s x.homeKick := h.fold fun k => .ite k k.put.homeBegin
theorem Keeps.homeAsk {w : HomeFor} : Keeps s (x.homeAsk w) := .ite h.put.homeKick h.homeBegin
theorem Keeps.askLines {who : AsmFor} {r : MemReq} {coherent : Bool} : Keeps s (x.askLines who r coherent) :=
  h.openAsm.snd.fold fun k => .ite k.homeAsk k.sourceRequest
theorem Keeps.cohReady {who : Who} {a n : Nat} {write : Bool} : KeepsP s (x.cohReady who a n write) :=
  .mk (h.fold fun k => .ite k (.ite k.homeAsk k))
theorem Keeps.cohEnd {who : Who} {a n : Nat} : Keeps s (x.cohEnd who a n) := h.put.homeKick
theorem Keeps.recallRange {a n : Nat} : Keeps s (x.recallRange a n) := h.fold fun k => .ite k k.openTxn.snd
theorem Keeps.homeDark {n : Nat} : Keeps s (x.homeDark n) :=
  (((h.fold fun k => k.poisonSector.poisonSector).put.put.fold fun o => o.homeGot).showEntries).homeKick

/-! ### Machine/NocOps -/

theorem Keeps.windowMeet {r : MemReq} {t off : Nat} {w : Window} : Keeps s (x.windowMeet r t off w) := by
  unfold State.windowMeet
  extract_lets u
  have hu : Keeps s u := by
    unfold u
    split
    · exact h.answerAck
    · exact h.partDone
    · exact h.answerBytes
  split
  · exact h.answerRefused.refusal
  · exact h.put
  · exact h.strand
  · exact hu.refusal
  · exact h.put.wakeQuad
  · refine Keeps.refusal ?_
    split
    · exact h.answerAck
    · exact h.answerBytes
  · split
    · exact .ite h.scrRead.snd.answerPoison h.scrRead.snd.answerBytes
    · exact (h.fold fun k => k.scrStore).answerAck
theorem Keeps.windowAccess {r : MemReq} : Keeps s (x.windowAccess r) := h.windowMeet
theorem Keeps.deliver {p : Packet} : Keeps s (x.deliver p) := by
  unfold State.deliver
  split
  · exact h.windowMeet
  · exact h.windowMeet
theorem Keeps.deliverEjected {q : Nat} : Keeps s (x.deliverEjected q) := h.put.fold fun l => l.deliver

/-! ### Machine/Regul -/

theorem Keeps.showCheck {set : Nat → Nat} : Keeps s (x.showCheck set) := h.wr.wr
theorem Keeps.execRegCommit {v : Word} : KeepsR s (execRegCommit v x) := by
  unfold Machine.execRegCommit
  split
  · exact .next h
  · extract_lets _ t
    have ht : Keeps s t := h.showCheck
    split
    · exact .next ht.commitRefused
    · split
      · exact .next ht.commitRefused
      · exact .next ht.put.commitDone
theorem Keeps.showAdmit : Keeps s x.showAdmit := h.wr.wr
theorem Keeps.applySet {set : List (Nat × DWord)} : Keeps s (x.applySet set) :=
  .via _ ((h.fold fun k => k.setReg).showAdmit) fun k => .ite k.event k
theorem Keeps.latEpoch {h' : Nat} {x' : ClassSample} : Keeps s (x.latEpoch h' x') := h.put
theorem Keeps.classEpoch {k : CtlSample} {x' : ClassSample} {limit : Nat} : Keeps s (x.classEpoch k x' limit) := by
  unfold State.classEpoch
  extract_lets _ _ _ _ last t _ _ _ u _ v
  clear_value last
  have ht : Keeps s t := by
    unfold t
    split
    · exact h.put
    · split
      · exact h.put
      · exact .ite h h.put.event
  have hu : Keeps s u := ht.put
  have hv : Keeps s v := hu.put
  exact .ite (.ite hv hv.put.sat.event) hu
theorem Keeps.ctlEpoch {k : CtlSample} : Keeps s (x.ctlEpoch k) := ((h.fold fun k => k.latEpoch).fold fun l => l.classEpoch).put.wr.wr.wr.wr
theorem Keeps.markBelow : Keeps s x.markBelow := .ite h ((h.fold fun k => .ite (k.fold fun l => l.updRun) k).fold fun l => l.updRun)
theorem Keeps.showClasses {samples : List CtlSample} : Keeps s (x.showClasses samples) := (h.fold fun k => .ite k k.setReg).wr.wr.put
theorem Keeps.execRegEpoch {samples : List CtlSample} : KeepsR s (execRegEpoch samples x) := by
  unfold Machine.execRegEpoch
  extract_lets _ t _ u v
  have ht : Keeps s t := by
    unfold t
    split
    · exact h.put.applySet
    · exact h
  have hu : Keeps s u := ht.put
  have hv : Keeps s v := hu.fold fun k => k.ctlEpoch
  exact .next hv.showClasses.markBelow

/-! ### Machine/Access -/

theorem Keeps.newReq {who : Who} {tgt : Target} {write : Bool} {len ctx : Nat} {seg : Option (Nat × Nat)} {bytes : List (Option PByte)} : KeepsP s (x.newReq who tgt write len ctx seg bytes) :=
  .mk h.put
theorem Keeps.dropReq {id : Nat} : Keeps s (x.dropReq id) := h.put
theorem Keeps.dropReqs {who : Who} : Keeps s (x.dropReqs who) := h.leaveMemory.put
theorem Keeps.answerReq {id : Nat} {a : Answer} : Keeps s (x.answerReq id a) := by
  unfold State.answerReq
  split
  · exact h
  · split
    · split
      · exact h.dropReqs.answerSite
      · exact .ite h.dropReq h.dropReq.answerSite
    · exact h.dropReq.partDone
    · split
      · extract_lets t
        have ht : Keeps s t := h.dropReq
        split
        · exact ht.noteErr
        · exact ht.noteErr
        · exact ht.endKernel
        · split
          · exact ht.noteErr
          · exact ht
        · split
          · exact ht.put
          · exact ht
        · exact ht
      · split
        · exact h.dropReq
        · exact h.put
theorem Keeps.countHost : Keeps s x.countHost := h.sat
theorem Keeps.readHost {who : Who} {ctx : Nat} {seg : Option (Nat × Nat)} {a slot n : Nat} : KeepsP s (x.readHost who ctx seg a slot n) := by
  unfold State.readHost
  split
  · split
    · exact .mk h
    · exact .mk h.dropReq
    · exact .mk h.dropReq
    · exact .mk h.dropReq
  · split
    · exact .mk h
    · exact .mk h.countHost
    · exact .mk h.countHost.refusal
    · exact .mk h.newReq.snd.send
theorem Keeps.writeHost {ctx a slot : Nat} {bs : List PByte} : KeepsP s (x.writeHost ctx a slot bs) := by
  unfold State.writeHost
  split
  · exact .mk h
  · exact .mk h.countHost
  · exact .mk h.countHost.refusal
  · exact .mk h.send
theorem Keeps.sendSiteReq {n id : Nat} : Keeps s (x.sendSiteReq n id) := by
  unfold State.sendSiteReq
  split
  · exact h
  · exact h.fold fun k => k.toSite
theorem Keeps.readSite {who : Who} {ctx : Nat} {seg : Option (Nat × Nat)} {a n : Nat} : KeepsP s (x.readSite who ctx seg a n) := by
  unfold State.readSite
  split
  · split
    · exact .mk h
    · exact .mk h.dropReq
    · exact .mk h.dropReq
    · exact .mk h.dropReq
  · exact .ite (.mk h) (.ite (.mk h) (.mk h.newReq.snd.sendSiteReq))
theorem Keeps.writeSite {who : Who} {ctx : Nat} {seg : Option (Nat × Nat)} {a : Nat} {bs : List (Option PByte)} : KeepsP s (x.writeSite who ctx seg a bs) :=
  .ite (.mk h) (.ite (.mk h) (.mk h.newReq.snd.sendSiteReq))
theorem Keeps.unreachable {dev slot : Nat} : Keeps s (x.unreachable dev slot) := by
  unfold State.unreachable
  split
  · exact h.event
  · exact h
theorem Keeps.readPeer {who : Who} {ctx : Nat} {seg : Option (Nat × Nat)} {dev a slot n : Nat} : KeepsP s (x.readPeer who ctx seg dev a slot n) := by
  unfold State.readPeer
  split
  · split
    · exact .mk h
    · exact .mk h.dropReq
    · exact .mk h.dropReq
    · exact .mk h.dropReq
  · split
    · exact .mk h.unreachable
    · exact .mk h.newReq.snd.sendMsg
theorem Keeps.writePeer {who : Who} {ctx : Nat} {seg : Option (Nat × Nat)} {dev a slot : Nat} {bs : List PByte} : KeepsP s (x.writePeer who ctx seg dev a slot bs) := by
  unfold State.writePeer
  split
  · exact .mk h.unreachable
  · exact .mk h.newReq.snd.sendMsg
theorem Keeps.readWindowAs {a t off n : Nat} {w : Window} : KeepsP s (x.readWindowAs a t off n w) := by
  unfold State.readWindowAs
  split
  · exact .mk h.refusal
  · exact .mk h
  · exact .mk h
  · exact .mk h.refusal
  · exact .mk h.wakeQuad
  · exact .mk h.refusal
  · exact .mk h.scrRead.snd
theorem Keeps.readWindow {src : Source} {a n : Nat} : KeepsP s (x.readWindow src a n) := h.readWindowAs
theorem Keeps.writeWindowAs {a t off : Nat} {bs : List PByte} {w : Window} : KeepsP s (x.writeWindowAs a t off bs w) := by
  unfold State.writeWindowAs
  split
  · exact .mk h.refusal
  · exact .mk h
  · exact .mk h
  · exact .mk h.refusal
  · exact .mk h.wakeQuad
  · exact .mk h.refusal
  · exact .mk h.scrStore
theorem Keeps.writeWindow {src : Source} {a : Nat} {bs : List PByte} : KeepsP s (x.writeWindow src a bs) := h.writeWindowAs
theorem Keeps.memIssued {who : Who} {ctx : Nat} {seg : Option (Nat × Nat)} {t : Target} {write : Bool} {n : Nat} : Keeps s (x.memIssued who ctx seg t write n) :=
  .ite h h.newReq.snd
theorem Keeps.memEnded {who : Who} : Keeps s (x.memEnded who) := h.put
theorem Keeps.readAt {who : Who} {ctx : Nat} {seg : Option (Nat × Nat)} {t : Target} {n : Nat} : KeepsP s (x.readAt who ctx seg t n) := by
  unfold State.readAt
  split
  · exact .mk h
  · split
    · split
      next t e =>
        have ht : Keeps s t := (KeepsP.ite h.cohReady (.mk h)).at e
        split
        · exact .mk ht.memIssued
        · split
          next u e1 => exact .via _ (ht.agentRead.at e1).memEnded fun k => .ite (.mk k.cohEnd) (.mk k)
          next u e1 =>
            have hu : Keeps s u := ht.agentRead.at e1
            exact .mk (.ite hu.memEnded.cohEnd hu.memEnded)
          next u e1 =>
            have hu : Keeps s u := ht.agentRead.at e1
            exact .mk (.ite hu.memIssued hu)
    · exact h.readWindow
    · exact h.readSite
    · exact h.readHost
    · exact h.readPeer
theorem Keeps.writeAt {who : Who} {ctx : Nat} {seg : Option (Nat × Nat)} {t : Target} {bs : List PByte} : KeepsP s (x.writeAt who ctx seg t bs) := by
  unfold State.writeAt
  split
  · exact .mk h
  · split
    · split
      next t e =>
        have ht : Keeps s t := (KeepsP.ite h.cohReady (.mk h)).at e
        split
        · exact .mk ht.memIssued
        · split
          next u e1 => exact .mk (ht.agentWrite.at e1)
          next u _ e1 => exact .via _ (ht.agentWrite.at e1).memEnded fun k => .mk (.ite k.cohEnd k)
    · exact h.writeWindow
    · exact h.writeSite
    · exact h.writeHost
    · exact h.writePeer
theorem Keeps.writeMasked {who : Who} {ctx : Nat} {seg : Option (Nat × Nat)} {t : Target} {bs : List (Option Byte)} {poison : Bool} : KeepsP s (x.writeMasked who ctx seg t bs poison) := by
  unfold State.writeMasked
  refine (KeepsP.mk h).fold fun k => ?_
  split
  · exact k.snd.writeAt
  · exact k

/-! ### Machine/Rings -/

theorem Keeps.unsupportedReq {off : Nat} : Keeps s (x.unsupportedReq off) := h.sat.refusal
theorem Keeps.gated {src : BusSrc} {off size : Nat} {f : State → State} (k : ∀ {y}, Keeps s y → Keeps s (f y)) : Keeps s (x.gated src off size f) :=
  .ite (k h) h.unsupportedReq.send
theorem Keeps.ringFault {r seq va kind : Nat} {seg : Option Nat} {a : Acc} : KeepsP s (x.ringFault r seq va kind seg a) := by
  unfold State.ringFault
  split
  next t e =>
    have ht : Keeps s t := h.segFault.at e
    split
    · exact .mk ((Keeps.ite ht.wr ht).setRing)
    · exact .mk ht
theorem Keeps.haltEvent {r cause addr : Nat} : Keeps s (x.haltEvent r cause addr) := h.haltRing.eventCtx
theorem Keeps.haltAgain {r : Nat} : Keeps s (x.haltAgain r) := h.wr.wr.irqCause.eventCtx
theorem Keeps.updLast {r : Nat} {f : QDesc → QDesc} : Keeps s (x.updLast r f) := by
  unfold State.updLast
  extract_lets
  split
  · exact h.setRing
  · exact h
theorem Keeps.fetchSub {r : Nat} {q : QDesc} : Keeps s (x.fetchSub r q) := by
  unfold State.fetchSub
  extract_lets
  split
  · exact h.updLast
  · split
    next t e => exact h.readAt.at e
    next t e => exact (h.readAt.at e).updLast
    next t e =>
      have ht : Keeps s t := h.readAt.at e
      exact .ite ht.haltEvent ht.updLast
theorem Keeps.fetchNext {r : Nat} : Keeps s (x.fetchNext r) := by
  unfold State.fetchNext
  extract_lets
  split
  · exact h
  · split
    next t e => exact h.readAt.at e
    next t e => exact (h.readAt.at e).haltEvent
    next t e =>
      have ht : Keeps s t := h.readAt.at e
      exact .ite ht.haltEvent ht.setRing.wr
theorem Keeps.execDescriptorFetch {ring : Nat} : KeepsR s (execDescriptorFetch ring x) := by
  unfold Machine.execDescriptorFetch
  split
  · exact .next h
  · split
    · exact .next h.fetchSub
    · exact .next h.fetchNext
theorem Keeps.takeHead {r : Nat} {q : QDesc} : Keeps s (x.takeHead r q) := h.setRing
theorem Keeps.endHead {r : Nat} {q : QDesc} {status : Nat} : Keeps s (x.endHead r q status) := h.takeHead.finish
theorem Keeps.issueHead {r : Nat} {isOp : List Byte → Bool} {good wait : State → QDesc → Bool} {go : State → Nat → State} (k : ∀ {y a}, Keeps s y → Keeps s (go y a)) : Keeps s (x.issueHead r isOp good wait go) := by
  unfold State.issueHead
  split
  · exact h
  · split
    · exact h
    · split
      · exact h.endHead
      · split
        · exact h
        · split
          · exact h.endHead
          · split
            · exact h.endHead
            · exact .ite h.ringFault.snd h.ringFault.snd.endHead
            · exact .ite h.endHead (k h.takeHead.updRun)
theorem Keeps.runFault {r seq va kind : Nat} {seg : Option Nat} {a : Acc} {info : Nat} : Keeps s (x.runFault r seq va kind seg a info) :=
  .ite h.ringFault.snd h.ringFault.snd.noteErr.finish
theorem Keeps.holdField {r seq i : Nat} {seg : Option (Nat × Nat)} : Keeps s (x.holdField r seq i seg) := h.updRun
theorem Keeps.putRecord {r : Nat} {rec_ : List Byte} : KeepsP s (x.putRecord r rec_) := h.writeAt
theorem Keeps.moderate {r : Nat} {irq : Bool} : Keeps s (x.moderate r irq) := .ite (.ite h.setRing.msix h.setRing) h
theorem Keeps.startHold {r : Nat} : Keeps s (x.startHold r) := .ite h.setRing h
theorem Keeps.recordDone {r : Nat} {irq : Bool} : Keeps s (x.recordDone r irq) := h.wrap.ltrCheck.moderate.startHold
theorem Keeps.flushKept {r n : Nat} : KeepsP s (x.flushKept r n) := by
  induction n generalizing x with
  | zero => exact .mk h
  | succ n ih =>
    unfold State.flushKept
    split
    · exact .mk h
    · split
      next t e =>
        have ht : Keeps s t := h.putRecord.at e
        exact ih ht.setRing.recordDone
      next t e => exact .mk ((h.putRecord.at e).setRing.haltAgain)
      next t e => exact .mk (h.putRecord.at e)
theorem Keeps.abortRest {r n : Nat} : KeepsP s (x.abortRest r n) := by
  induction n generalizing x with
  | zero => exact .mk h
  | succ n ih =>
    unfold State.abortRest
    extract_lets
    split
    · exact .mk h
    · split
      next t e => exact ih (h.putRecord.at e).recordDone
      next t e => exact .mk ((h.putRecord.at e).setRing.haltAgain)
      next t e => exact .mk (h.putRecord.at e)
theorem Keeps.ringCommand {r : Nat} : Keeps s (x.ringCommand r) := by
  unfold State.ringCommand
  extract_lets
  split
  · exact h
  · split
    next t e =>
      have ht : Keeps s t := h.flushKept.at e
      exact .ite ht (.ite ((KeepsP.ite ht.abortRest (.mk ht)).snd) ((((KeepsP.ite ht.abortRest (.mk ht)).snd).setRing).unhalt.wr.startHold))
theorem Keeps.dropIssued {r : Nat} : Keeps s (x.dropIssued r) := by
  unfold State.dropIssued
  extract_lets t
  have ht : Keeps s t := by
    unfold t
    split
    · exact h.orphan
    · exact h
  exact ht.setRing
theorem Keeps.completeHead {r : Nat} : Keeps s (x.completeHead r) := by
  unfold State.completeHead
  split
  · exact h.ringCommand
  · split
    · exact h
    · split
      · exact h
      · extract_lets _ _ t
        have ht : Keeps s t := .ite h.haltRing h
        split
        · exact ht.dropIssued.setRing.ringCommand
        · split
          next u e => exact ht.putRecord.at e
          next u e => exact .via _ (ht.putRecord.at e).dropIssued.setRing fun l => .ite l.wr.eventCtx.ringCommand l.haltEvent
          next u e => exact .via _ (ht.putRecord.at e).dropIssued.recordDone fun k => (Keeps.ite k.rewind k).ringCommand
theorem Keeps.execCompletionWrite {ring : Nat} : KeepsR s (execCompletionWrite ring x) := .ite (.next h) (.next h.completeHead)
theorem Keeps.execModerationTimeout {ring : Nat} : KeepsR s (execModerationTimeout ring x) := .ite (.next h.setRing.msix) (.next h)
theorem Keeps.execWakeHoldExpiry {ring : Nat} : KeepsR s (execWakeHoldExpiry ring x) := .next h.setRing
theorem Keeps.wakeHint {r : Nat} {v : Word} : Keeps s (x.wakeHint r v) := .ite h ((Keeps.ite (h.fold fun k => k.wakeQuad) h).setRing.startHold)
theorem Keeps.setModes {r first : Nat} {phys : Bool} : Keeps s (x.setModes r first phys) := h.setRing
theorem Keeps.ringDoorbell {r off : Nat} {v : Word} : Keeps s (x.ringDoorbell r off v) :=
  .ite h.event (.ite ((Keeps.ite h h.setModes).wr.ltrCheck.wakeHint) h.haltRing)
theorem Keeps.execDoorbell {src : BusSrc} {write : Bool} {off size : Nat} {v : Word} : KeepsR s (execDoorbell src write off size v x) :=
  .ite (.next h.unsupportedReq.send) (.ite (.ite (.next h.ringDoorbell) (.next h.event)) (.next (Keeps.ite h h.event).send))
theorem Keeps.ringCmd {r op : Nat} : Keeps s (x.ringCmd r op) := .ite h.regEvent h.setRing.ringCommand
theorem Keeps.execRestart {ring : Nat} : KeepsR s (execRestart ring x) := .next h.ringCmd
theorem Keeps.execAbort {ring : Nat} : KeepsR s (execAbort ring x) := .next h.ringCmd
theorem Keeps.clearRing {r : Nat} : Keeps s (x.clearRing r) := h.orphan.setRing
theorem Keeps.execQmCommit {v : Word} : KeepsR s (execQmCommit v x) :=
  .ite (.next h) (.ite (.next h.commitRefused) (.via _ h.commitRegs fun k => .next (Keeps.ite k.clearRing.unhalt.wr.setReg.setReg (.ite k.clearRing.unhalt k)).commitDone))

/-! ### Machine/CrcOps -/

theorem Keeps.setCrc {u : Nat} {c : CrcSt} : Keeps s (x.setCrc u c) := h.put
theorem Keeps.crcRelease {u : Nat} : Keeps s (x.crcRelease u) := h.setCrc.wr
theorem Keeps.crcSet {u v : Nat} : Keeps s (x.crcSet u v) := h.wr
theorem Keeps.crcOwn {u ctx : Nat} : Keeps s (x.crcOwn u ctx) := h.wr.wr
theorem Keeps.claim {u r seq : Nat} : Keeps s (x.claim u r seq) := by
  unfold State.claim
  split
  · exact h
  · extract_lets _ _ _ t
    have ht : Keeps s t := h.setCrc.wr.updRun
    split
    · exact h.noteErr.finish
    · exact h.noteErr.finish
    · exact .ite ht.crcOwn.wr.crcSet (.ite ht.crcOwn.wr.crcSet ht)
theorem Keeps.crcAsk {u r seq : Nat} : Keeps s (x.crcAsk u r seq) := .ite h.claim h.setCrc

/-! ### Machine/Movers -/

theorem Keeps.startMove {r seq : Nat} : Keeps s (x.startMove r seq) := by
  unfold State.startMove
  split
  · exact h
  · extract_lets t
    have ht : Keeps s t := .ite h.updRun h
    split
    · exact ht.crcAsk
    · exact ht
theorem Keeps.startNop {r seq : Nat} : Keeps s (x.startNop r seq) := h.finish
theorem Keeps.endMove {r seq : Nat} : Keeps s (x.endMove r seq) := by
  unfold State.endMove
  split
  · exact h
  · extract_lets _ _ t
    have ht : Keeps s t := h.updRun
    split
    · exact .ite ht.finish.useFree ht.finish
    · exact ht.finish
theorem Keeps.failMove {r seq status : Nat} : Keeps s (x.failMove r seq status) := by
  unfold State.failMove
  split
  · exact h
  · exact h.noteErr.finish
theorem Keeps.feedCopy {r seq u : Nat} {bs : List PByte} : Keeps s (x.feedCopy r seq u bs) := .ite h.crcSet.useFree.updRun h.crcSet
theorem Keeps.moveWrite {r : Nat} {d : Run} {bs : List PByte} : Keeps s (x.moveWrite r d bs) := by
  unfold State.moveWrite
  extract_lets _ _ _ _ _ _ f
  have hf : ∀ {y}, Keeps s y → Keeps s (f y) := fun k => .ite k.updRun k
  split
  · exact h.failMove
  · exact (hf h).runFault
  · extract_lets _ _ t
    have ht : Keeps s t := h.holdField
    split
    · split
      next u e => exact hf (ht.writeAt.at e)
      next u e => exact (ht.writeAt.at e).failMove
      next u e =>
        have hu : Keeps s u := ht.writeAt.at e
        extract_lets v w y z
        have hv : Keeps s v := hu.useFrees
        have hw : Keeps s w := .ite hv.noteErr hv
        have hy : Keeps s y := by
          unfold y
          split
          · exact hw.feedCopy
          · exact hw
        have hz : Keeps s z := hy.updRun
        exact .ite hz.endMove hz
theorem Keeps.moveRead {r : Nat} {d : Run} : Keeps s (x.moveRead r d) := by
  unfold State.moveRead
  extract_lets _ _ _ _ _ _ room
  clear_value room
  split
  · exact h.failMove
  · exact h.runFault
  · split
    · exact h.failMove
    · exact h.runFault
    · extract_lets _ t
      have ht : Keeps s t := .ite h h.holdField
      split
      next u e => exact ht.readAt.at e
      next u e => exact (ht.readAt.at e).failMove
      next u e =>
        have hu : Keeps s u := ht.readAt.at e
        split
        · exact hu.moveWrite
        · exact hu
theorem Keeps.moveStep {r : Nat} {d : Run} : Keeps s (x.moveStep r d) := by
  unfold State.moveStep
  extract_lets
  split
  · exact h
  · split
    · split
      · exact h.moveWrite
      · exact h.moveRead
    · exact h.moveWrite
theorem Keeps.execMoverTransfer {ring : Nat} : KeepsR s (execMoverTransfer ring x) := by
  unfold Machine.execMoverTransfer
  split
  · exact .next h
  · split
    · exact .next h
    · exact .ite (.next h) (.next h.moveStep)
theorem Keeps.execNop {ring : Nat} : KeepsR s (execNop ring x) := .next (h.issueHead fun k => k.startNop)
theorem Keeps.execCopy {ring : Nat} : KeepsR s (execCopy ring x) := .next (h.issueHead fun k => k.startMove)
theorem Keeps.execFill {ring : Nat} : KeepsR s (execFill ring x) := .next (h.issueHead fun k => k.startMove)
theorem Keeps.execWriteImm {ring : Nat} : KeepsR s (execWriteImm ring x) := .next (h.issueHead fun k => k.startMove)
theorem Keeps.execLegacyNop {ring : Nat} : KeepsR s (execLegacyNop ring x) := .next (h.issueHead fun k => k.startNop)
theorem Keeps.execLegacyCopy {ring : Nat} : KeepsR s (execLegacyCopy ring x) := .next (h.issueHead fun k => k.startMove)
theorem Keeps.execLegacyFill {ring : Nat} : KeepsR s (execLegacyFill ring x) := .next (h.issueHead fun k => k.startMove)
theorem Keeps.loseEngine {r : Nat} : Keeps s (x.loseEngine r) := h.fold fun k => k.failMove
theorem Keeps.fenceMover {mover cause : Nat} : Keeps s (x.fenceMover mover cause) := .ite h (h.put.event.fold fun m => .ite m.loseEngine m)
theorem Keeps.execMoverParityError {mover : Nat} : KeepsR s (execMoverParityError mover x) := .next h.fenceMover

/-! ### Machine/Xlat -/

theorem Keeps.showXlat : Keeps s x.showXlat := h.wr.wr
theorem Keeps.invDone : Keeps s x.invDone := by
  unfold State.invDone
  split
  · exact h
  · exact .via _ (h.fold fun k => k.recallRange) fun k => .ite k (.via _ k.put.wr.showXlat fun m => .ite m.msix m)
theorem Keeps.execInvalidationDone : KeepsR s (execInvalidationDone x) := .next h.invDone
theorem Keeps.mirrorsMoved {c : Nat} : Keeps s (x.mirrorsMoved c) := by
  unfold State.mirrorsMoved
  refine h.fold fun k => ?_
  split
  · exact .ite k k.put.showDirty
  · exact k
theorem Keeps.execXlatInv {v : Word} {internal : Bool} : KeepsR s (execXlatInv v internal x) := by
  unfold Machine.execXlatInv
  split
  · exact .next h.commitRefused
  · exact .via _ (h.commitReg.fold fun l => .ite l.commitRegs l) fun l => .via _ (((Keeps.ite l.commitRegs l).fold fun o => o.bumpGen).mirrorsMoved).commitDone.wr.put.showXlat fun q => .ite (.next q.invDone) (.next q)
theorem Keeps.tileSegFault {t : Nat} : Keeps s (x.tileSegFault t) := by
  unfold State.tileSegFault
  extract_lets u
  have hu : Keeps s u := by
    unfold u
    split
    · exact h.setSlot
    · exact h
  exact hu.endKernel
theorem Keeps.siteRequestEvent {n va : Nat} : Keeps s (x.siteRequestEvent n va) := .ite h.put.refusal h
theorem Keeps.siteAdmit {n tag c seg : Nat} : Keeps s (x.siteAdmit n tag c seg) := h.put
theorem Keeps.coherentRequest {who : AsmFor} {r : MemReq} : Keeps s (x.coherentRequest who r) := .ite h.sourceRequest h.askLines
theorem Keeps.memoryRequest {r : MemReq} : Keeps s (x.memoryRequest r) := by
  unfold State.memoryRequest
  split
  · exact h.coherentRequest
  · exact h.coherentRequest
  · exact .ite h.coherentRequest h.sourceRequest
theorem Keeps.execMemoryRead {req : MemReq} : KeepsR s (execMemoryRead req x) := .next h.memoryRequest
theorem Keeps.execMemoryWrite {req : MemReq} : KeepsR s (execMemoryWrite req x) := .next h.memoryRequest
theorem Keeps.siteRequest {site tag va len : Nat} {write : Bool} {data : List (Option Byte)} {poison : Bool} : Keeps s (x.siteRequest site tag va len write data poison) := by
  unfold State.siteRequest
  split
  · exact h.siteRequestEvent.refuseUncached
  · split
    · split
      · exact h.siteRequestEvent.refuseUncached
      · extract_lets _ t _ _ u
        have ht : Keeps s t := h.siteAdmit
        have hu : KeepsP s u := ht.writeMasked
        clear_value u
        split
        · exact .ite ht.coherentRequest ht.sourceRequest
        · exact ht.windowAccess
        · split
          · exact .ite hu.snd hu.snd.answerSite
          · exact hu.snd.refuseUncached
          · exact hu.snd
    · split
      · exact h.siteRequestEvent.refuseUncached
      · extract_lets _ t _ _ u
        have ht : Keeps s t := h.siteAdmit
        have hu : KeepsP s u := ht.readAt
        clear_value u
        split
        · exact .ite ht.coherentRequest ht.sourceRequest
        · exact ht.windowAccess
        · split
          · exact .ite hu.snd hu.snd.answerSite
          · exact hu.snd.refuseUncached
          · exact hu.snd
theorem Keeps.misroutedAt {n va : Nat} : Keeps s (x.misroutedAt n va) := .via _ h.sat fun k => .ite k.put.refusal k
theorem Keeps.execSiteRequest {site : SiteModule} {tag va len : Nat} {write : Bool} {data : List (Option Byte)} {poison : Bool} : KeepsR s (execSiteRequest site tag va len write data poison x) :=
  .via _ h.leaveL1 fun k => .ite (.next k) (.ite (.next k.misroutedAt.refuseUncached) (.next k.siteRequest))

/-! ### Machine/Noc -/

theorem Keeps.showNoc : Keeps s x.showNoc := h.wr.wr.setReg.setReg.fold fun m => m.setReg
theorem Keeps.nocLose {routers links : List Nat} : Keeps s (x.nocLose routers links) := h.put.wr.showNoc
theorem Keeps.discardPackets {c : Nat} : Keeps s (x.discardPackets c) := h.put
theorem Keeps.loseCluster {c : Nat} : Keeps s (x.loseCluster c) := by
  unfold State.loseCluster
  refine .ite h ?_
  extract_lets fenced lost
  have hfenced : Keeps s fenced := h.fold fun k => .ite k.setSlot k
  have hlost : Keeps s lost := by
    unfold lost
    split
    · exact (hfenced.fold fun k => k.fenceTile).wr.wr
    · exact hfenced
  exact hlost.discardPackets.nocLose.eventOpen
theorem Keeps.retireLink {k : Nat} : Keeps s (x.retireLink k) := .ite h (h.nocLose.eventOpen.fold fun l => l.loseCluster)
theorem Keeps.execFlitReplay {link corrected : Nat} {third : Bool} : KeepsR s (execFlitReplay link corrected third x) :=
  .via _ (h.fold fun k => k.corrected).sat.put fun m => .next (.ite m.retireLink m)
theorem Keeps.execRouterLoss {cluster : Nat} : KeepsR s (execRouterLoss cluster x) := .next h.loseCluster
theorem Keeps.loseUnreachable {n : Nat} : Keeps s (x.loseUnreachable n) := by
  induction n generalizing x with
  | zero => exact h
  | succ n ih =>
    unfold State.loseUnreachable
    extract_lets
    split
    · exact h
    · split
      · exact h
      · exact ih (h.fold fun k => k.loseCluster)
theorem Keeps.routesTaken : Keeps s x.routesTaken := h.put.setReg.commitDone
theorem Keeps.switchover : Keeps s x.switchover := by
  unfold State.switchover
  split
  · exact h
  · exact h.put.wr.wr.fold fun m => m.windowAccess
theorem Keeps.execRouteSwitchover : KeepsR s (execRouteSwitchover x) := .next h.switchover
theorem Keeps.execNocCommit {v : Word} : KeepsR s (execNocCommit v x) := by
  unfold Machine.execNocCommit
  split
  · exact .next h
  · extract_lets
    split
    · exact .next h.commitRefused
    · split
      · exact .next h.wr.wr.wr.commitRefused
      · exact .next h.loseUnreachable.routesTaken
theorem Keeps.execPacketEject {req : TileRequest} : KeepsR s (execPacketEject req x) := .next ((h.fold fun k => k.corrected).windowAccess)
theorem Keeps.execScratchWindowAccess {req : MemReq} : KeepsR s (execScratchWindowAccess req x) := .next h.windowAccess
theorem Keeps.forgetReq {tag : Nat} : Keeps s (x.forgetReq tag) := h.put
theorem Keeps.execNocRequestTimeout {who : Timed} : KeepsR s (execNocRequestTimeout who x) := by
  unfold Machine.execNocRequestTimeout
  extract_lets f
  have hf : ∀ {y}, Keeps s y → Keeps s (f y) := fun k => k.sat
  split
  · split
    · exact .ite (.next h) (.next (((hf h).dropReqs).failMove))
    · exact .next h
  · exact .ite (.next (((hf h).fold fun k => k.dropReqs).endKernel)) (.next h)
  · split
    · exact .ite (.next ((hf h).dropReq)) (.next h)
    · extract_lets t
      have ht : Keeps s t := (hf h).forgetReq
      split
      · exact .next ((Keeps.ite ht ht.send).event)
      · split
        · exact .next ht.partDone
        · exact .next ht.refuseUncached
        · exact .next ht.send
theorem Keeps.execNocLateResponse : KeepsR s (execNocLateResponse x) := .next h.sat
theorem Keeps.execNocPllUnlock : KeepsR s (execNocPllUnlock x) := .next h.fatalStop
theorem Keeps.execExpressLinkLoss {segment : Nat} : KeepsR s (execExpressLinkLoss segment x) :=
  .via _ h.put fun k => .ite (.next k.eventOpen) (.ite (.next k.fatalStop) (.next k))

/-! ### Machine/TileCore -/

theorem Keeps.unsettledMask {t agent a : Nat} {bs : List Byte} : KeepsP s (x.unsettledMask t agent a bs) := .ite (.mk h) (.mk h.useFrees)
theorem Keeps.tileRead {t agent a n : Nat} : KeepsP s (x.tileRead t agent a n) := .ite (.mk h.scrRead.snd) (.mk h.scrRead.snd.unsettledMask.snd)
theorem Keeps.tileWrite {t agent a : Nat} {bs : List Byte} : Keeps s (x.tileWrite t agent a bs) := .ite h h.scrStore.setTile
theorem Keeps.poisoned {t : Nat} : Keeps s (x.poisoned t) := h.endKernel
theorem Keeps.kernelTrap {t cause pc : Nat} : Keeps s (x.kernelTrap t cause pc) := by
  unfold State.kernelTrap
  extract_lets u
  have hu : Keeps s u := by
    unfold u
    split
    · exact h.setSlot
    · exact h
  exact hu.endKernel
theorem Keeps.readFor {t agent a n : Nat} {f : State → List Byte → Ran} (k : ∀ {y a}, Keeps s y → KeepsRan s (f y a)) : KeepsRan s (x.readFor t agent a n f) := by
  unfold State.readFor
  split
  next u e =>
    have hu : Keeps s u := h.tileRead.at e
    exact .ite (k hu) (.leaf hu)
  next u e =>
    have hu : Keeps s u := h.tileRead.at e
    exact .leaf (.ite hu.poisoned hu)
theorem Keeps.setX {t r : Nat} {v : DWord} : Keeps s (x.setX t r v) := .ite h h.setTile
theorem Keeps.fetchWord8 {t w : Nat} : KeepsP s (x.fetchWord8 t w) := by
  unfold State.fetchWord8
  split
  · exact .mk h
  · split
    next u e => exact .mk (h.tileRead.at e).setTile
    next u e => exact .mk (h.tileRead.at e)
theorem Keeps.fetchHalf {t a : Nat} : KeepsP s (x.fetchHalf t a) := by
  unfold State.fetchHalf
  split
  next u e => exact .mk (h.fetchWord8.at e)
  next u e => exact .mk (h.fetchWord8.at e)
theorem Keeps.fetchInst {t : Nat} : KeepsP s (x.fetchInst t) := by
  unfold State.fetchInst
  extract_lets
  split
  · exact .mk h
  · split
    · exact .mk h
    · split
      next u e => exact .mk (h.fetchHalf.at e)
      next u e =>
        have hu : Keeps s u := h.fetchHalf.at e
        split
        · exact .mk hu
        · split
          · exact .mk hu
          · split
            next v e1 => exact .mk (hu.fetchHalf.at e1)
            next v e1 => exact .mk (hu.fetchHalf.at e1)
theorem Keeps.coreLoad {t f3 rd a pc : Nat} : KeepsRan s (x.coreLoad t f3 rd a pc) := by
  unfold State.coreLoad
  extract_lets
  split
  · exact .leaf h
  · split
    · exact .leaf h
    · exact h.readFor fun k => .leaf k.setX
theorem Keeps.coreStore {t f3 a : Nat} {v : DWord} {pc : Nat} : KeepsRan s (x.coreStore t f3 a v pc) := by
  unfold State.coreStore
  extract_lets
  split
  · exact .leaf h
  · split
    · exact .leaf h
    · exact .leaf h.tileWrite
theorem Keeps.setResv {t : Nat} {r : Option Nat} : Keeps s (x.setResv t r) := by
  unfold State.setResv
  split
  · exact h.setSlot
  · exact h
theorem Keeps.coreAmo {t w pc : Nat} : KeepsRan s (x.coreAmo t w pc) := by
  unfold State.coreAmo
  extract_lets
  split
  · exact .leaf h
  · split
    · split
      · exact .leaf h
      · split
        · exact .leaf h
        · exact h.readFor fun k => .leaf k.setResv.setX
    · split
      · split
        · exact .leaf h
        · exact .ite (.leaf h.tileWrite.setResv.setX) (.leaf h.setResv.setX)
      · split
        · exact .leaf h
        · split
          · exact .leaf h
          · exact h.readFor fun k => .leaf k.tileWrite.setX
theorem Keeps.csrRead {t a : Nat} : KeepsOP s (x.csrRead t a) := by
  unfold State.csrRead
  extract_lets
  split
  · exact .some h.useFree
  · exact .some h
  · exact .some h
  · exact .some h
  · exact .some h
  · exact .some h
  · exact .some h
  · exact .ite (.some h) .none
theorem Keeps.csrWrite {t a v : Nat} : KeepsO s (x.csrWrite t a v) := by
  unfold State.csrWrite
  split
  · exact .none
  · exact .some h
  · exact .some h.setTile
theorem Keeps.coreCsr {t w pc : Nat} : KeepsRan s (x.coreCsr t w pc) := by
  unfold State.coreCsr
  extract_lets
  split
  · exact .leaf h
  next u e =>
    have hu : Keeps s u := h.csrRead.at e
    extract_lets
    split
    · split
      next v e1 => exact .leaf (hu.csrWrite.at e1).setX
      · exact .leaf h
    · split
      · exact .leaf hu.setX
      · split
        next v e1 => exact .leaf (hu.csrWrite.at e1).setX
        · exact .leaf h
theorem Keeps.coreStd {t w len : Nat} : KeepsRan s (x.coreStd t w len) := by
  unfold State.coreStd
  extract_lets _ _ _ _ _ _ _ _ f
  have hf : ∀ {a0 a1}, KeepsRan s (f a0 a1) := by
    intro _ _
    unfold f
    split
    · exact .leaf h.setX
    · exact .leaf h
  split
  · exact .leaf h.setX
  · exact .leaf h.setX
  · exact .leaf h.setX
  · exact .ite (.leaf h) (.leaf h.setX)
  · split
    · exact .leaf h
    · exact .leaf h
    · exact .leaf h
  · exact h.coreLoad
  · exact h.coreStore
  · exact hf
  · exact hf
  · exact hf
  · exact hf
  · exact .ite (.leaf h) (.leaf h)
  · exact h.coreAmo
  · exact .ite (.ite (.leaf h) (.ite (.leaf h) (.ite (.leaf h) (.leaf h)))) (.ite (.leaf h) h.coreCsr)
  · exact .leaf h
theorem Keeps.perfAdd {t which k : Nat} : Keeps s (x.perfAdd t which k) := .via _ h.wr fun k => .ite k k.wr.event.irqCause
theorem Keeps.perf {t sel k : Nat} : Keeps s (x.perf t sel k) := .ite h (.via _ (.ite h.perfAdd h) fun k => .ite k.perfAdd k)
theorem Keeps.perfOpen {t sel : Nat} : Keeps s (x.perfOpen t sel) := .ite h.useFree.perf h
omit h in
/-- Whatever an instruction answers, its state is carried on. -/
theorem KeepsRan.retire {y : State} {t : Nat} {r : Ran} (h : KeepsRan s r) : Keeps s (y.retire t r) := by
  cases r with
  | go u pc => exact Keeps.perfOpen (Keeps.setTile h)
  | trap cause u => exact Keeps.kernelTrap h
  | stall u => exact h
  | ended u => exact h

/-! ### Machine/TileVec -/

theorem Keeps.setV {t r v : Nat} : Keeps s (x.setV t r v) := h.setTile
theorem Keeps.vecInst {t w : Nat} : KeepsRan s (x.vecInst t w) := by
  unfold State.vecInst
  extract_lets
  split
  · split
    · exact .leaf h
    · exact h.readFor fun k => .leaf k.setV
  · split
    · split
      · exact .leaf h
      · exact .leaf h.tileWrite
    · exact .ite (.leaf h.setV) (.ite (.leaf h.setX) (.leaf h.setV))

/-! ### Machine/TileMat -/

theorem Keeps.imageRead {t agent a n : Nat} : KeepsP s (x.imageRead t agent a n) := by
  unfold State.imageRead
  extract_lets
  split
  next u e => exact .mk (h.tileRead.at e)
  next u e => exact .mk (h.tileRead.at e)
theorem Keeps.imageFor {t agent a n : Nat} {want : Bool} {f : State → List Byte → Ran} (k : ∀ {y a}, Keeps s y → KeepsRan s (f y a)) : KeepsRan s (x.imageFor t agent a n want f) := by
  unfold State.imageFor
  split
  · exact k h
  · split
    next u e =>
      have hu : Keeps s u := h.imageRead.at e
      exact .ite (k hu) (.leaf hu)
    next u e =>
      have hu : Keeps s u := h.imageRead.at e
      exact .leaf (.ite hu.poisoned hu)
theorem Keeps.mcfg {t w : Nat} : KeepsRan s (x.mcfg t w) := .ite (.leaf h.setTile) (.leaf h)
theorem Keeps.mzero {t w : Nat} : KeepsRan s (x.mzero t w) := .ite (.ite (.leaf h) (.leaf h.setTile)) (.leaf h.setTile)
theorem Keeps.mloadb {t w : Nat} : KeepsRan s (x.mloadb t w) := .ite (.leaf h) (h.readFor fun k => k.imageFor fun l => .leaf l.setTile)
theorem Keeps.escBlock {t : Nat} {h' : EscHeader} {a : Nat} : KeepsP s (x.escBlock t h' a) := by
  unfold State.escBlock
  split
  · exact .mk h
  · extract_lets
    split
    next u e => exact .mk (h.imageRead.at e)
    next u e =>
      have hu : Keeps s u := h.imageRead.at e
      extract_lets
      split
      · exact .mk hu
      · split
        next v e1 => exact .mk (hu.imageRead.at e1)
        next v e1 => exact .mk (hu.imageRead.at e1)
theorem Keeps.escOfVec {t : Nat} {h' : EscHeader} {v : StreamVec} : KeepsP s (x.escOfVec t h' v) := by
  unfold State.escOfVec
  refine (KeepsP.mk h).fold fun k => ?_
  split
  · exact k
  · split
    next u e => exact .mk (k.snd.escBlock.at e)
    next u e => exact .mk (k.snd.escBlock.at e)
theorem Keeps.streamLine {t w addr start i : Nat} {sc : List Byte} {esc : Option EscHeader} : KeepsP s (x.streamLine t w addr start i sc esc) := by
  unfold State.streamLine
  extract_lets _ _ _ _ _ _ _ _ f
  have hf : ∀ {y a1}, Keeps s y → Keeps s (f y a1) := fun k => k.perf.perf.perf
  split
  next u e => exact .mk (h.tileRead.at e)
  next u e =>
    have hu : Keeps s u := h.tileRead.at e
    extract_lets _ _ v
    have hv : KeepsP s v := by
      unfold v
      refine (KeepsP.mk hu).fold fun k => ?_
      split
      · exact k
      · exact .mk k.snd
      · split
        next y e1 => exact .mk (k.snd.escOfVec.at e1)
        next y e1 => exact .mk (k.snd.escOfVec.at e1)
    clear_value v
    split
    · exact .mk (hf hu.setTile)
    · split
      · exact .mk hv.snd
      · exact .mk (hf hv.snd.setTile)
theorem Keeps.sliceRow {t w addr start i : Nat} {cols : Option (List (List SliceDigit × Int))} : KeepsP s (x.sliceRow t w addr start i cols) := by
  unfold State.sliceRow
  extract_lets
  split
  next u e => exact .mk (h.tileRead.at e)
  next u e => exact .mk (h.tileRead.at e).setTile.perf.perf
theorem Keeps.streamAll {f : State → Nat → Bool × State} {n i : Nat} (k : ∀ {y a}, Keeps s y → KeepsP s (f y a)) :
    KeepsP s (streamAll f n i x) := by
  induction n generalizing i x with
  | zero => exact .mk h
  | succ n ih =>
    unfold Machine.streamAll
    split
    next t e => exact ih ((k h).at e)
    next t e => exact .mk ((k h).at e)
omit h in
theorem KeepsP.streamedEnd {t stalls : Nat} {r : Bool × State} (h : KeepsP s r) : KeepsRan s (streamedEnd t stalls r) := by
  unfold Machine.streamedEnd
  extract_lets u
  have hu : Keeps s u := h.snd
  split
  · exact .leaf hu
  · split
    · exact .leaf hu.perf.perfOpen
    · exact .leaf hu.poisoned
theorem Keeps.mstream {t w : Nat} : KeepsRan s (x.mstream t w) :=
  .ite (.leaf h) (.ite (.leaf h) (.ite ((h.streamAll fun k => k.sliceRow).streamedEnd) (h.imageFor fun k => .ite ((k.streamAll fun l => l.streamLine).streamedEnd) (.ite (.leaf k) (k.imageFor fun l => .ite (.leaf l) ((l.streamAll fun m => m.streamLine).streamedEnd))))))
theorem Keeps.writeSome {t agent a : Nat} {bs : List (Option Byte)} : Keeps s (x.writeSome t agent a bs) := by
  unfold State.writeSome
  refine h.fold fun k => ?_
  extract_lets
  split
  · exact k.tileWrite
  · refine k.fold fun l => ?_
    split
    · exact l.tileWrite
    · exact l
theorem Keeps.escRow {t dest : Nat} {h' : EscHeader} {above : Bool} {copy : List Byte} : KeepsQ s (x.escRow t dest h' above copy) :=
  .ite (.mk h) (.via _ (.ite h.tileWrite h) fun k => .mk ((KeepsQ.ite (.mk k) (.ite (.mk k.tileWrite.scrRead.snd.tileWrite) (.mk k))).fst))
theorem Keeps.drainRow {t w row i dest : Nat} {esc : Option EscHeader} : KeepsQ s (x.drainRow t w row i dest esc) := by
  unfold State.drainRow
  extract_lets
  split
  split
  extract_lets _ written scaled _ _ _ summed
  have hwritten : Keeps s written := h.setTile.writeSome
  have hscaled : Keeps s scaled := .ite hwritten.tileWrite hwritten
  have hsummed : Keeps s summed := .ite (.ite hscaled.setTile.tileWrite hscaled.setTile) hscaled
  clear_value summed
  cases esc with
  | none => exact .mk (.via _ (.ite hsummed.setTile hsummed) fun k => .ite k (.ite k.setTile k.setTile))
  | some hd => exact .mk (.via _ (.ite hsummed.escRow.fst.setTile hsummed.escRow.fst) fun k => .ite k (.ite k.setTile k.setTile))
theorem Keeps.mdrain {t w : Nat} : KeepsRan s (x.mdrain t w) := by
  unfold State.mdrain
  extract_lets _ _ _ _ _ _ _ _ f _ u
  have hf : ∀ {y a1}, Keeps s y → KeepsQ s (f y a1) := fun k => (KeepsQ.mk k).fold fun k => k.fst.drainRow
  have hu : Keeps s u := (hf h).fst
  split
  · exact .leaf h
  · split
    · refine h.imageFor fun k => ?_
      extract_lets _ v
      have hv : Keeps s v := k.setTile
      split
      next y _ e =>
        have hy : Keeps s y := (hf hv).at e
        extract_lets z
        have hz : Keeps s z := by
          unfold z
          split
          · exact hy.tileWrite
          · exact hy
        exact .leaf hz
    · exact .leaf hu
theorem Keeps.sideAdd {t : Nat} {k : Bool} {flat : Nat} {act : Option (Int × Int)} {value : Nat} : Keeps s (x.sideAdd t k flat act value) := by
  unfold State.sideAdd
  extract_lets
  split
  · exact h
  · split
    · exact h.setTile
    · exact h.setTile
theorem Keeps.vside {t w : Nat} : KeepsRan s (x.vside t w) := by
  unfold State.vside
  extract_lets
  split
  · exact .leaf h
  · split
    · exact .leaf h
    · refine h.readFor fun k => ?_
      refine k.imageFor fun l => ?_
      refine l.imageFor fun m => ?_
      extract_lets _ _ acts _ _ _ u
      clear_value acts
      have hu : Keeps s u := by
        unfold u
        split
        · exact m.fold fun k => k.fold fun l => l.sideAdd
        · exact m.setTile
      exact .ite (.leaf m) (.leaf hu)

/-! ### Machine/TileCmds -/

omit h in
theorem KeepsRan.cycles {r : Ran} {t n : Nat} (h : KeepsRan s r) : KeepsRan s (r.vectorCycles t n) :=
  h.vectorCycles fun y => (Keeps.refl y).perf
theorem Keeps.unitInst {t w : Nat} {a : Op} : KeepsRan s (x.unitInst t w a) := by
  unfold State.unitInst
  split
  · exact h.mcfg
  · exact h.mloadb
  · exact h.mstream
  · exact h.mdrain
  · exact h.mzero
  · exact h.vside.cycles
  · exact h.vecInst.cycles
  · exact .leaf h
theorem Keeps.fenceInst {t : Nat} : KeepsRan s (x.fenceInst t) := .leaf h.setTile
theorem Keeps.twaitInst {t w : Nat} : KeepsRan s (x.twaitInst t w) := .ite (.leaf h.setTile) (.leaf h)
theorem Keeps.tpollInst {t w : Nat} : KeepsRan s (x.tpollInst t w) := by
  unfold State.tpollInst
  extract_lets
  split
  · exact .leaf h
  · exact h.readFor fun k => .ite (.leaf k.setTile) (.leaf k)
theorem Keeps.tendInst {t w : Nat} : KeepsRan s (x.tendInst t w) := .ite (.leaf h.setTile.endKernel) (.leaf h)
theorem Keeps.tileFault {t c va kind : Nat} {seg : Option Nat} {a : Acc} : Keeps s (x.tileFault t c va kind seg a) := by
  unfold State.tileFault
  split
  next u e => exact (h.segFault.at e).setTile.tileState
  next u e => exact (h.segFault.at e).tileSegFault
theorem Keeps.tdmaInst {t w : Nat} {after : Bool} : KeepsRan s (x.tdmaInst t w after) := by
  unfold State.tdmaInst
  extract_lets
  split
  · exact .leaf h
  · split
    · exact .leaf h.endKernel
    · split
      · exact .leaf h
      · split
        · exact .leaf h
        · split
          · exact .leaf h.tileFault
          · split
            · exact .leaf h.tileFault
            · exact .ite (.leaf h.refusal.endKernel) (.leaf h.setTile)
theorem Keeps.opInst {t w len : Nat} {a : Op} : KeepsRan s (x.opInst t w len a) := by
  unfold State.opInst
  split
  · exact h.fenceInst
  · exact h.tdmaInst
  · exact h.tdmaInst
  · exact h.twaitInst
  · exact h.tpollInst
  · exact h.tendInst
  · exact .leaf h.setTile
  · exact h.coreStd
  · exact .leaf h
  · exact h.unitInst
theorem Keeps.runOp {t : Nat} {want : Op → Bool} : Keeps s (x.runOp t want) := by
  unfold State.runOp
  split
  · exact h
  · split
    next u e => exact .ite (h.fetchInst.at e).opInst.retire h
    next u e =>
      have hu : Keeps s u := h.fetchInst.at e
      exact .ite hu.poisoned hu
    next u e =>
      have hu : Keeps s u := h.fetchInst.at e
      exact h
theorem Keeps.execOp {t : Nat} {op : Op} : KeepsR s (x.execOp t op) := .next h.runOp
theorem Keeps.execMcfg {tile : Nat} : KeepsR s (execMcfg tile x) := h.execOp
theorem Keeps.execMloadb {tile : Nat} : KeepsR s (execMloadb tile x) := h.execOp
theorem Keeps.execMstream {tile : Nat} : KeepsR s (execMstream tile x) := h.execOp
theorem Keeps.execMdrain {tile : Nat} : KeepsR s (execMdrain tile x) := h.execOp
theorem Keeps.execMzero {tile : Nat} : KeepsR s (execMzero tile x) := h.execOp
theorem Keeps.execMfence {tile : Nat} : KeepsR s (execMfence tile x) := h.execOp
theorem Keeps.execTdma {tile : Nat} : KeepsR s (execTdma tile x) := h.execOp
theorem Keeps.execTdmaf {tile : Nat} : KeepsR s (execTdmaf tile x) := h.execOp
theorem Keeps.execTwait {tile : Nat} : KeepsR s (execTwait tile x) := h.execOp
theorem Keeps.execTpoll {tile : Nat} : KeepsR s (execTpoll tile x) := h.execOp
theorem Keeps.execTend {tile : Nat} : KeepsR s (execTend tile x) := h.execOp
theorem Keeps.execFenceI {tile : Nat} : KeepsR s (execFenceI tile x) := h.execOp
theorem Keeps.execVld {tile : Nat} : KeepsR s (execVld tile x) := h.execOp
theorem Keeps.execVst {tile : Nat} : KeepsR s (execVst tile x) := h.execOp
theorem Keeps.execVadd {tile : Nat} : KeepsR s (execVadd tile x) := h.execOp
theorem Keeps.execVsub {tile : Nat} : KeepsR s (execVsub tile x) := h.execOp
theorem Keeps.execVmul {tile : Nat} : KeepsR s (execVmul tile x) := h.execOp
theorem Keeps.execVfma {tile : Nat} : KeepsR s (execVfma tile x) := h.execOp
theorem Keeps.execVmax {tile : Nat} : KeepsR s (execVmax tile x) := h.execOp
theorem Keeps.execVmin {tile : Nat} : KeepsR s (execVmin tile x) := h.execOp
theorem Keeps.execVcvt {tile : Nat} : KeepsR s (execVcvt tile x) := h.execOp
theorem Keeps.execVredsum {tile : Nat} : KeepsR s (execVredsum tile x) := h.execOp
theorem Keeps.execVbcast {tile : Nat} : KeepsR s (execVbcast tile x) := h.execOp
theorem Keeps.execVmvx {tile : Nat} : KeepsR s (execVmvx tile x) := h.execOp
theorem Keeps.execVexp2 {tile : Nat} : KeepsR s (execVexp2 tile x) := h.execOp
theorem Keeps.execVrecip {tile : Nat} : KeepsR s (execVrecip tile x) := h.execOp
theorem Keeps.execVside {tile : Nat} : KeepsR s (execVside tile x) := h.execOp
theorem Keeps.execControlCoreInstruction {tile : Nat} : KeepsR s (execControlCoreInstruction tile x) := h.execOp
theorem Keeps.execKernelTrap {tile : Nat} : KeepsR s (execKernelTrap tile x) := by
  unfold Machine.execKernelTrap
  split
  · exact .next h
  · split
    next t e => exact .next (h.fetchInst.at e).kernelTrap
    next t e =>
      have ht : Keeps s t := h.fetchInst.at e
      exact .next h
    next t e =>
      have ht : Keeps s t := h.fetchInst.at e
      split
      next u e1 => exact .next (ht.opInst.atTrap e1).kernelTrap
      · exact .next h
theorem Keeps.execDispatchStart {tile : Nat} : KeepsR s (execDispatchStart tile x) := by
  unfold Machine.execDispatchStart
  extract_lets
  split
  · exact .ite (.next h) (.ite (.next h.wakeQuad) (.next h.setTile.tileState.wr.perf))
  · exact .next h
theorem Keeps.release {t : Nat} : Keeps s (x.release t) := h.setTile
theorem Keeps.execMfenceRelease {tile : Nat} : KeepsR s (execMfenceRelease tile x) := .ite (.next h.setTile.release) (.next h)
theorem Keeps.execTwaitRelease {tile : Nat} : KeepsR s (execTwaitRelease tile x) := by
  unfold Machine.execTwaitRelease
  split
  · exact .ite (.next h) (.next h.release)
  · exact .next h
theorem Keeps.execTpollRelease {tile : Nat} : KeepsR s (execTpollRelease tile x) := by
  unfold Machine.execTpollRelease
  split
  · split
    next t e =>
      have ht : Keeps s t := h.tileRead.at e
      exact .ite (.next ht) (.next ht.release)
    next t e =>
      have ht : Keeps s t := h.tileRead.at e
      exact .next (.ite ht.poisoned ht)
  · exact .next h
theorem Keeps.updTdma {t tag : Nat} {f : TdmaCmd → TdmaCmd} : Keeps s (x.updTdma t tag f) := h.setTile
theorem Keeps.tdmaEnd {t tag : Nat} : Keeps s (x.tdmaEnd t tag) := by
  unfold State.tdmaEnd
  split
  · exact h
  · exact .ite h (.ite h.poisoned h.setTile)
theorem Keeps.tdmaMoved {t tag n : Nat} {bad : Bool} : Keeps s (x.tdmaMoved t tag n bad) := h.updTdma.perf
theorem Keeps.tdmaPiece {t ctx : Nat} {c : TdmaCmd} : KeepsMoved s (x.tdmaPiece t ctx c) := by
  unfold State.tdmaPiece
  extract_lets
  split
  · exact .leaf h.tileFault
  · extract_lets n u
    have hu : Keeps s u := h.updTdma
    refine .ite (.leaf hu.refusal.endKernel) (.ite (.leaf hu) ?_)
    split
    · have hread : KeepsP s (match c.buf with
          | some b => (b, u)
          | none =>
            let (bs, s) := u.scrRead t (c.scr + c.pos) n .clean
            let (seen, s) := s.unsettledMask t agDma (c.scr + c.pos) (bs.map Prod.fst)
            (seen.zip (bs.map Prod.snd), s)) := by
        split
        · exact .mk hu
        · exact .mk hu.scrRead.snd.unsettledMask.snd
      split
      next v e =>
        have hv : Keeps s v := hread.at e
        split
        next w e => exact .leaf (hv.writeAt.at e).updTdma
        next w e => exact .leaf (hv.writeAt.at e).endKernel
        next w e => exact .leaf (hv.writeAt.at e).tdmaMoved
    · split
      next v e => exact .leaf (hu.readAt.at e)
      next v e => exact .leaf (hu.readAt.at e).endKernel
      next bs v e =>
        have hv : Keeps s v := hu.readAt.at e
        extract_lets w _
        have hw : Keeps s w := by
          unfold w
          split
          · exact hv.scrWrite
          · exact hv
        exact .leaf hw.setTile.tdmaMoved
theorem Keeps.tdmaPieces {t tag n : Nat} : Keeps s (x.tdmaPieces t tag n) := by
  induction n generalizing x with
  | zero => exact h
  | succ n ih =>
    unfold State.tdmaPieces
    split
    · split
      · exact h
      · split
        next u e => exact ih (h.tdmaPiece.atOn e)
        next u e => exact h.tdmaPiece.atHeld e
    · exact h
theorem Keeps.execTdmaComplete {tile tag : Nat} : KeepsR s (execTdmaComplete tile tag x) := by
  unfold Machine.execTdmaComplete
  extract_lets
  split
  · split
    · exact .next h
    · exact .ite (.next h) (.next (Keeps.ite h.updRun h).tdmaPieces.tdmaEnd)
  · exact .next h
theorem Keeps.execKernelTimeout {tile : Nat} : KeepsR s (execKernelTimeout tile x) := by
  unfold Machine.execKernelTimeout
  split
  · exact .next h
  · split
    · exact .next h
    · extract_lets t
      have ht : Keeps s t := by
        unfold t
        split
        · exact h.setSlot
        · exact h
      exact .next ht.endKernel
theorem Keeps.execTileFailure {tile cause : Nat} : KeepsR s (execTileFailure tile cause x) := .ite (.next h.failTile) (.next h)
theorem Keeps.execPerfCounterWrap {tile which : Nat} : KeepsR s (execPerfCounterWrap tile which x) := .ite (.next h) (.next h.perfAdd)

/-! ### Machine/Compute -/

theorem Keeps.startTiles {r seq : Nat} : Keeps s (x.startTiles r seq) := by
  unfold State.startTiles
  split
  · exact h
  · extract_lets
    split
    · exact h.updRun.finish
    · exact h.updRun
theorem Keeps.startDispatch {r seq : Nat} : Keeps s (x.startDispatch r seq) := by
  unfold State.startDispatch
  split
  · exact h
  · split
    · exact h.finish
    · exact h.updRun.startTiles
theorem Keeps.execDispatch {ring : Nat} : KeepsR s (execDispatch ring x) := .next (h.issueHead fun k => k.startDispatch)
theorem Keeps.placeRun {r : Nat} {d : Run} : Keeps s (x.placeRun r d) := ((h.fold fun k => k.setTile).fold fun l => l.wakeQuad).updRun
theorem Keeps.execDispatchPlacement {ring : Nat} : KeepsR s (execDispatchPlacement ring x) := by
  unfold Machine.execDispatchPlacement
  split
  · exact .next h
  · split
    · exact .next h
    · split
      · exact .next h.finish
      · exact .ite (.next h.placeRun) (.next h)

/-! ### Machine/HomeCmds -/

theorem Keeps.refuseCache {r : HomeReq} : Keeps s (x.refuseCache r) := h.sat.refusal.refuseSite
theorem Keeps.siteHears {n : Nat} {m : SysMsg} {refuse act : State → State} (k : ∀ {y}, Keeps s y → Keeps s (refuse y)) (k2 : ∀ {y}, Keeps s y → Keeps s (act y)) : Keeps s (x.siteHears n m refuse act) := by
  unfold State.siteHears
  extract_lets t
  have ht : Keeps s t := h.leaveL1
  exact .ite ht (.ite (k ht.misroutedAt) (k2 ht))
theorem Keeps.askedAgain {r : HomeReq} : KeepsO s (x.askedAgain r) := by
  unfold State.askedAgain
  extract_lets _ old
  clear_value old
  split
  · refine .some ?_
    split
    · split
      · exact h.toSite
      · exact h
    · exact h
  · split
    · exact .some h
    · split
      · split
        · exact .some h.setLink.toSite
        · exact .none
      · exact .none
theorem Keeps.siteServe {m : SysMsg} {r : HomeReq} : Keeps s (x.siteServe m r) := by
  unfold State.siteServe
  extract_lets _ op
  clear_value op
  split
  · exact h.siteRequestEvent.refuseSite
  · exact .via _ h.siteAdmit fun k => .ite k.refuseCache (.ite k.refuseCache (.ite k.siteRequestEvent.refuseSite k.homeAsk))
  · split
    · exact h.siteRequest
    · exact h.siteRequest
    · exact h.siteRequest
    · exact h.sat.answerChip
    · exact h
    · exact h.grantComp
    · exact h.refuseCache
theorem Keeps.siteAsk {n : Nat} {m : SysMsg} {op : HomeOp} {cxl goOnly : Bool} {bytes : List (Option Byte)} {poison : Bool} : Keeps s (x.siteAsk n m op cxl goOnly bytes poison) :=
  h.siteHears (fun k => k.refuseSite) fun k => k.askedAgain.getD k.siteServe
theorem Keeps.execRdshared {site : Nat} {m : SysMsg} : KeepsR s (execRdshared site m x) := .next h.siteAsk
theorem Keeps.execRdown {site : Nat} {m : SysMsg} : KeepsR s (execRdown site m x) := .next h.siteAsk
theorem Keeps.execUpgrade {site : Nat} {m : SysMsg} : KeepsR s (execUpgrade site m x) := .next h.siteAsk
theorem Keeps.execRdcurr {site : Nat} {m : SysMsg} : KeepsR s (execRdcurr site m x) := .next h.siteAsk
theorem Keeps.execWrline {site : Nat} {m : SysMsg} {bytes : List Byte} {poison : Bool} : KeepsR s (execWrline site m bytes poison x) :=
  .next h.siteAsk
theorem Keeps.execWrpartial {site : Nat} {m : SysMsg} {bytes : List (Option Byte)} {poison : Bool} : KeepsR s (execWrpartial site m bytes poison x) :=
  .next h.siteAsk
theorem Keeps.execWbdirty {site : Nat} {m : SysMsg} {bytes : List Byte} {poison : Bool} : KeepsR s (execWbdirty site m bytes poison x) :=
  .next h.siteAsk
theorem Keeps.execEvictclean {site : Nat} {m : SysMsg} : KeepsR s (execEvictclean site m x) := .next h.siteAsk
theorem Keeps.execCxlRdshared {site : Nat} {m : SysMsg} : KeepsR s (execCxlRdshared site m x) := .next h.siteAsk
theorem Keeps.execCxlRdany {site : Nat} {m : SysMsg} : KeepsR s (execCxlRdany site m x) := .next h.siteAsk
theorem Keeps.execCxlRdown {site : Nat} {m : SysMsg} : KeepsR s (execCxlRdown site m x) := .next h.siteAsk
theorem Keeps.execCxlRdownnodata {site : Nat} {m : SysMsg} : KeepsR s (execCxlRdownnodata site m x) := .next h.siteAsk
theorem Keeps.execCxlRdcurr {site : Nat} {m : SysMsg} : KeepsR s (execCxlRdcurr site m x) := .next h.siteAsk
theorem Keeps.execCxlWrinv {site : Nat} {m : SysMsg} {bytes : List Byte} {poison : Bool} : KeepsR s (execCxlWrinv site m bytes poison x) :=
  .next h.siteAsk
theorem Keeps.execCxlCleanevict {site : Nat} {m : SysMsg} : KeepsR s (execCxlCleanevict site m x) := .next h.siteAsk
theorem Keeps.execCxlDirtyevict {site : Nat} {m : SysMsg} {bytes : List Byte} {poison : Bool} : KeepsR s (execCxlDirtyevict site m bytes poison x) :=
  .next h.siteAsk
theorem Keeps.execCxlClflush {site : Nat} {m : SysMsg} : KeepsR s (execCxlClflush site m x) := .next h.siteAsk
theorem Keeps.execSystiniAck {site : Nat} {m : SysMsg} : KeepsR s (execSystiniAck site m x) := by
  unfold Machine.execSystiniAck
  refine .next ?_
  refine h.siteHears (fun k => ?_) fun k => ?_
  · exact k
  · split
    · exact k.endTxn.homeKick
    · exact k
theorem Keeps.snoopDone {n tag : Nat} {t : HomeTxn} {data : Option (List PByte)} : Keeps s (x.snoopDone n tag t data) :=
  .via _ h.updTxn fun k => .ite k.homeGot.homeKick k
theorem Keeps.snoopEntry {n line state : Nat} {kind : SnoopKind} : Keeps s (x.snoopEntry n line state kind) := .ite h.dropEntry h.moveEntry
theorem Keeps.execSnprsp {site : Nat} {m : SysMsg} {state : Nat} {data : Option (List Byte)} {poison : Bool} : KeepsR s (execSnprsp site m state data poison x) := by
  unfold Machine.execSnprsp
  refine .next ?_
  refine h.siteHears (fun k => ?_) fun k => ?_
  · exact k
  · split
    · exact k
    · extract_lets d t
      clear_value d
      have ht : Keeps s t := by
        unfold t
        split
        · exact .ite k.memPutMarked k
        · exact k
      exact ht.snoopEntry.snoopDone.exchKick
theorem Keeps.lineAnswered {o : OutReq} {i : Nat} {line : List PByte} : Keeps s (x.lineAnswered o i line) :=
  .ite h.put (.ite h.answerReq h.answerReq)
theorem Keeps.execAprsp {site : Nat} {m : SysMsg} {data : List Byte} {poison : Bool} : KeepsR s (execAprsp site m data poison x) := by
  unfold Machine.execAprsp
  refine .next ?_
  refine h.siteHears (fun k => ?_) fun k => ?_
  · exact k
  · split
    · exact k
    · exact k.lineAnswered.exchKick
theorem Keeps.homeLate {n : Nat} : Keeps s (x.homeLate n) := .via _ h.sat fun k => .ite k.put.event k
theorem Keeps.poisonLine {line : Nat} : Keeps s (x.poisonLine line) := h.poisonSector.poisonSector
theorem Keeps.execSnoopLimitExpiry {site tag : Nat} : KeepsR s (execSnoopLimitExpiry site tag x) := by
  unfold Machine.execSnoopLimitExpiry
  split
  · exact .next h
  · exact .via _ h.homeLate fun k => .next (Keeps.ite k.poisonLine k).dropEntry.snoopDone.exchKick
theorem Keeps.execAckLimitExpiry {site tag : Nat} : KeepsR s (execAckLimitExpiry site tag x) := by
  unfold Machine.execAckLimitExpiry
  split
  · exact .next h
  · exact .next h.homeLate.endTxn.homeKick
theorem Keeps.execCohCommit {v : Word} : KeepsR s (execCohCommit v x) :=
  .ite (.next h) (.ite (.next h.commitRefused) (.next h.commitReg.commitDone))
theorem Keeps.execCreditSend {cls ctl : Nat} : KeepsR s (execCreditSend cls ctl x) := by
  unfold Machine.execCreditSend
  extract_lets
  split
  · exact .next h
  · split
    · exact .next h.homeRetry.homeKick
    · exact .next h.put.memRequest

/-! ### Machine/GlbCmds -/

theorem Keeps.fallback {b : Nat} : Keeps s (x.fallback b) := h.wr.event
theorem Keeps.execGlbCommit {v : Word} : KeepsR s (execGlbCommit v x) :=
  .ite (.next h) (.ite (.next h.commitRefused) (.ite (.next h.commitRefused) (.next h.commitRegs.put.wr.commitDone)))
theorem Keeps.zeroScratch {p : Nat} : Keeps s (x.zeroScratch p) := h.updStore id (Memory.clear_wf _ _ _)
theorem Keeps.showSpares {l : Nat} : Keeps s (x.showSpares l) := by
  unfold State.showSpares
  split
  · exact h.wr
  · exact h
theorem Keeps.rebindTile {t : Nat} : Keeps s (x.rebindTile t) := by
  unfold State.rebindTile
  split
  · extract_lets _ u
    have hu : Keeps s u := h.put
    split
    · exact hu.wr.showTiles
    · exact hu.zeroScratch.put.wr.wr.tileState.showTiles.showSpares.event
  · exact h
theorem Keeps.rebindAll {c : Nat} : Keeps s (x.rebindAll c) := h.fold fun k => k.rebindTile
theorem Keeps.quiesce {c : Nat} : Keeps s (x.quiesce c) := .ite h (.via _ (h.wr.rebindAll.fold fun m => m.startCopy) fun m => .ite m m.put)
theorem Keeps.execQuiescentPoint {ctx : Nat} : KeepsR s (execQuiescentPoint ctx x) := .next h.quiesce
theorem Keeps.execGlbSubstCmd {v : Word} : KeepsR s (execGlbSubstCmd v x) :=
  .ite (.next h.regEvent) (.next ((h.fold fun k => k.wr).fold fun l => l.quiesce))
theorem Keeps.execSubstitutionsEnd {ctx : Nat} : KeepsR s (execSubstitutionsEnd ctx x) :=
  .ite (.next h) (.next (h.fold fun k => k.endCopy).put.put.resume.homeRetry.homeKick)

/-! ### Machine/SiteOps -/

theorem Keeps.pwren {n : Nat} {on : Bool} : Keeps s (x.pwren n on) := .ite h h.setSite.send
theorem Keeps.endMailbox {n code : Nat} : Keeps s (x.endMailbox n code) := .ite h h.setLink.wr.wr
theorem Keeps.showPend {n : Nat} : Keeps s (x.showPend n) := by
  unfold State.showPend
  split
  · exact h.setReg
  · exact h.setReg
theorem Keeps.showLink {n : Nat} : Keeps s (x.showLink n) := h.wr.wr.wr.wr.wr.showPend
theorem Keeps.showCaching {n : Nat} : Keeps s (x.showCaching n) := h.wr
theorem Keeps.modulesOff {n : Nat} : Keeps s (x.modulesOff n) :=
  (h.fold fun k => .via _ k.setModule fun l => .ite l l.setModState).setLink.wr.showLink
theorem Keeps.forgetRequests {mine : MemReq → Bool} : Keeps s (x.forgetRequests mine) := h.put
theorem Keeps.dropSiteRequests {n : Nat} : Keeps s (x.dropSiteRequests n) := h.forgetRequests.put
theorem Keeps.endAperture {n : Nat} : Keeps s (x.endAperture n) := h.fold fun k => k.answerReq
theorem Keeps.cutSite {n : Nat} : Keeps s (x.cutSite n) := h.homeDark.dropSiteRequests.endAperture.endMailbox
theorem Keeps.showShare : Keeps s x.showShare := h.wr.wr
theorem Keeps.lockCheck : Keeps s x.lockCheck := .ite h.put.wr.send h
theorem Keeps.fenceSite {n cause : Nat} : Keeps s (x.fenceSite n cause) :=
  .ite h h.wr.wr.pwren.cutSite.modulesOff.setSite.put.showCaching.showShare.event.lockCheck

/-! ### Machine/Links -/

theorem Keeps.beginExch {n : Nat} {m : Nat × List Nat} : Keeps s (x.beginExch n m) := h.setLink.wr.exchKick
theorem Keeps.changeMaps {n : Nat} {m : Nat × List Nat} : Keeps s (x.changeMaps n m) := by
  unfold State.changeMaps
  split
  · exact h
  · split
    · exact h.beginExch
    · exact h.setLink
theorem Keeps.lend {n m : Nat} : Keeps s (x.lend n m) := .ite h h.setModule.changeMaps
theorem Keeps.unlend {n m : Nat} : Keeps s (x.unlend n m) := .ite h h.setModule.changeMaps
theorem Keeps.halveEntries {n k : Nat} : Keeps s (x.halveEntries n k) := h.changeMaps
theorem Keeps.retireLogical {n k : Nat} : Keeps s (x.retireLogical n k) := .ite h (.ite h.fenceSite h.changeMaps)
theorem Keeps.stepEvent {n m step : Nat} : Keeps s (x.stepEvent n m step) := h.event
theorem Keeps.retireModule {n m cause : Nat} : Keeps s (x.retireModule n m cause) := h.setModState.wr.wr.put.showLink.event
theorem Keeps.retrain {n m state : Nat} : Keeps s (x.retrain n m state) := h.setModule.setModState.sat.showLink
theorem Keeps.useSpare {n m cause : Nat} : Keeps s (x.useSpare n m cause) := h.retireModule.setModule.setModule.retrain.stepEvent
theorem Keeps.halfStep {n m : Nat} : Keeps s (x.halfStep n m) := h.setModule.wr.wr.wr.wr.retrain.stepEvent
theorem Keeps.endModule {n m cause : Nat} : Keeps s (x.endModule n m cause) := h.retireModule.stepEvent.retireLogical
theorem Keeps.ladderStep {n m reason : Nat} : Keeps s (x.ladderStep n m reason) :=
  .ite h.retireModule (.ite (.ite h.useSpare h.endModule) (.ite h.halfStep (.ite h.endModule (.ite h.useSpare (.ite h.endModule h.halfStep)))))
theorem Keeps.decide_ {n m reason : Nat} : Keeps s (x.decide_ n m reason) := .ite h.setModule.setModState.lend.showLink.stepEvent h.ladderStep
theorem Keeps.spareFails {n : Nat} : Keeps s (x.spareFails n) := by
  unfold State.spareFails
  extract_lets _ t u
  have ht : Keeps s t := h.retireModule
  have hu : Keeps s u := ht.setModule
  split
  · exact hu
  · exact hu.setModule.decide_
theorem Keeps.moduleFails {n m reason : Nat} : Keeps s (x.moduleFails n m reason) := .ite h.spareFails h.decide_
theorem Keeps.execModuleTrained {n m rate repaired version : Nat} : KeepsR s (execModuleTrained n m rate repaired version x) :=
  .ite (.next h) (.ite (.next h.moduleFails) (.next (Keeps.ite h.wr h).wr.setModule.setModState.sideband))
theorem Keeps.execRateAttemptTimeout {n m : Nat} {spent : Bool} : KeepsR s (execRateAttemptTimeout n m spent x) :=
  .ite (.next h) (.ite (.next h.wr.setModState) (.next h.moduleFails))
theorem Keeps.modulePasses {n m : Nat} : Keeps s (x.modulePasses n m) := by
  unfold State.modulePasses
  extract_lets _ t u v _ w y z
  have ht : Keeps s t := h.wr
  have hu : Keeps s u := ht.setModule
  have hv : Keeps s v := hu.setModState.wr
  have hw : Keeps s w := hv.changeMaps
  have hy : Keeps s y := by
    unfold y
    split
    · exact hw.setModule
    · exact hw
  have hz : Keeps s z := hy.unlend
  exact .ite hu.setModState.showLink (((Keeps.ite hz.halveEntries hz).showLink).releaseHeld)
theorem Keeps.mismatch {n m : Nat} : Keeps s (x.mismatch n m) := .via _ h.sideband fun k => .ite k.moduleFails k.wr.retrain.stepEvent
theorem Keeps.execWidthCheckAnswer {n m : Nat} {half : Bool} {rate version : Nat} {lanesMatch : Bool} : KeepsR s (execWidthCheckAnswer n m half rate version lanesMatch x) :=
  .ite (.next h) (.ite (.next h.modulePasses) (.next h.mismatch))
theorem Keeps.execWidthCheckTimeout {n m : Nat} : KeepsR s (execWidthCheckTimeout n m x) := .ite (.next h) (.next h.mismatch)
theorem Keeps.execModuleRetrain {n m replays crcErrors : Nat} {third : Bool} : KeepsR s (execModuleRetrain n m replays crcErrors third x) :=
  .ite (.next h) (.via _ h.sat.sat fun k => .ite (.next k.retrain.stepEvent) (.next k))
theorem Keeps.moduleDown {n m : Nat} : Keeps s (x.moduleDown n m) := .ite h.retrain.stepEvent h
theorem Keeps.execModuleLinkDown {n m : Nat} : KeepsR s (execModuleLinkDown n m x) := .ite (.next h.moduleDown) (.next h)
theorem Keeps.execModuleL1Entry {n m : Nat} : KeepsR s (execModuleL1Entry n m x) := .ite (.next h.setModState) (.next h)
theorem Keeps.reissue {n : Nat} {moved : Nat → Bool} : Keeps s (x.reissue n moved) := h.setLink.fold fun l => l.toSite
theorem Keeps.finishOpen {n : Nat} : Keeps s (x.finishOpen n) := h.setSite.wr.showCaching.showLink
theorem Keeps.execSpreadAnswer {n epoch : Nat} : KeepsR s (execSpreadAnswer n epoch x) := by
  unfold Machine.execSpreadAnswer
  split
  · exact .next h
  · extract_lets _ _ _ t u _ v w
    have ht : Keeps s t := h.setReg.wr
    have hu : Keeps s u := ht.fold fun k => k.setReg
    have hv : Keeps s v := hu.setLink.wr
    have hw : Keeps s w := hv.reissue.showLink.releaseHeld
    split
    · exact .next h
    · split
      · exact .next (.ite hw.finishOpen hw)
      · exact .next hw.setLink.beginExch
theorem Keeps.execSpreadTimeout {n : Nat} : KeepsR s (execSpreadTimeout n x) := by
  unfold Machine.execSpreadTimeout
  split
  · exact .next h
  · exact .ite (.next h.exchKick) (.ite (.next h.setLink.sendSpread) (.next h.fenceSite))
theorem Keeps.execEntryLend {n m : Nat} : KeepsR s (execEntryLend n m x) := by
  unfold Machine.execEntryLend
  split
  · exact .next h
  · exact .ite (.next h) (.next h.lend)
theorem Keeps.recChoice {n m op : Nat} {f : State → State} (k : ∀ {y}, Keeps s y → Keeps s (f y)) : Keeps s (x.recChoice n m op f) :=
  .ite ((k h).showLink) h.regEvent
theorem Keeps.execSiteRecRetry {n m : Nat} : KeepsR s (execSiteRecRetry n m x) := .next (h.recChoice fun k => k.setModule.retrain)
theorem Keeps.execSiteRecSpare {n m : Nat} : KeepsR s (execSiteRecSpare n m x) := .next (h.recChoice fun k => k.useSpare)
theorem Keeps.execSiteRecHalf {n m : Nat} : KeepsR s (execSiteRecHalf n m x) := .next (h.recChoice fun k => k.halfStep)
theorem Keeps.execSiteRecRetire {n m : Nat} : KeepsR s (execSiteRecRetire n m x) := .next (h.recChoice fun k => k.endModule)
theorem Keeps.execSiteRecRetrain {n m : Nat} : KeepsR s (execSiteRecRetrain n m x) := .ite (.next h.regEvent) (.next h.wr.retrain.stepEvent)
theorem Keeps.execSiteAwaitTimeout {n m : Nat} : KeepsR s (execSiteAwaitTimeout n m x) := .ite (.next h) (.next h.fallback.ladderStep.showLink)
theorem Keeps.startMailbox {n : Nat} {size8 write : Bool} : Keeps s (x.startMailbox n size8 write) :=
  .ite h.regEvent (.via _ h.setLink.wr fun k => .ite k.endMailbox k.sideband)
theorem Keeps.execSbRead {n : Nat} {size8 : Bool} : KeepsR s (execSbRead n size8 x) := .next h.startMailbox
theorem Keeps.execSbWrite {n : Nat} {size8 : Bool} : KeepsR s (execSbWrite n size8 x) := .next h.startMailbox
theorem Keeps.execSbResponse {n : Nat} {refused : Bool} {data : DWord} : KeepsR s (execSbResponse n refused data x) := by
  unfold Machine.execSbResponse
  split
  · exact .next h
  · exact .next (Keeps.ite h h.setReg).endMailbox

/-! ### Machine/SiteCmds -/

theorem Keeps.powerCap {n watts : Nat} : Keeps s (x.powerCap n watts) := h.sideband.sat
theorem Keeps.capNotice {n : Nat} : Keeps s (x.capNotice n) := .ite h.powerCap h
theorem Keeps.takeLimit {n : Nat} : Keeps s (x.takeLimit n) := by
  unfold State.takeLimit
  split
  · exact h
  · exact h.setSite.wr.showShare.capNotice
theorem Keeps.execSitePowerTelemetry {n : Nat} {watts : Option Nat} : KeepsR s (execSitePowerTelemetry n watts x) := by
  unfold Machine.execSitePowerTelemetry
  split
  · exact .next h
  · extract_lets t u
    have ht : Keeps s t := h.takeLimit
    have hu : Keeps s u := ht.wr.eventOpen
    split
    · exact .ite (.next ht) (.next hu.capNotice)
    · exact .next (Keeps.ite ht.wr ht).setSite
theorem Keeps.execPowerOverrunTimeout {n : Nat} : KeepsR s (execPowerOverrunTimeout n x) := .ite (.next h) (.next h.setSite.powerCap)
theorem Keeps.execPowerCapDeadline {n : Nat} : KeepsR s (execPowerCapDeadline n x) := .ite (.next h) (.next h.fenceSite)
theorem Keeps.execSiteCommit {n : Nat} {v : Word} : KeepsR s (execSiteCommit n v x) :=
  .ite (.next h) (.ite (.next h.commitRefused) (.ite (.next h.commitRefused) (.ite (.next h.commitRefused) (.next h.commitReg.setSite.commitDone))))
theorem Keeps.execTemperatureRequest : KeepsR s (execTemperatureRequest x) := .next (h.fold fun k => k.setSite.sideband)
theorem Keeps.siteTrip {n : Nat} : Keeps s (x.siteTrip n) := h.fenceSite
theorem Keeps.execTemperatureReport {n tempC : Nat} : KeepsR s (execTemperatureReport n tempC x) :=
  .ite (.next h) (.via _ h.setSite fun k => .via _ (.ite k.wr k) fun l => .ite (.next l.siteTrip) (.ite (.next l.powerCap) (.next l)))
theorem Keeps.execTemperatureSilence {n : Nat} : KeepsR s (execTemperatureSilence n x) := .ite (.next h.siteTrip) (.next h)
theorem Keeps.execThermalTripMessage {n : Nat} : KeepsR s (execThermalTripMessage n x) := .ite (.next h.siteTrip) (.next h)
theorem Keeps.powerSite {n : Nat} : Keeps s (x.powerSite n) := h.pwren.wr.setSite.showShare
theorem Keeps.execSitePwrenAssert : KeepsR s (execSitePwrenAssert x) := .ite (.next h) (.next (h.fold fun k => k.powerSite))
theorem Keeps.startSideband {n : Nat} : Keeps s (x.startSideband n) := .ite (h.setSite.wr.fold fun l => l.setModule.setModState.send) h
theorem Keeps.execSitePgoodRise {n : Nat} : KeepsR s (execSitePgoodRise n x) :=
  .ite (.next h) (.via _ h.setSite fun k => .ite (.next k.startSideband) (.next k))
theorem Keeps.execSitePgoodTimeout {n : Nat} : KeepsR s (execSitePgoodTimeout n x) := .ite (.next h.fenceSite) (.next h)
theorem Keeps.execSitePgoodFall {n : Nat} : KeepsR s (execSitePgoodFall n x) :=
  .ite (.next h) (.via _ h.setSite fun k => .ite (.next k.fenceSite) (.next k))
theorem Keeps.execSidebandUp {n m : Nat} : KeepsR s (execSidebandUp n m x) :=
  .ite (.next h) (.via _ h.setSite.setModule.setModState.wr.wr fun m => .ite (.next m.wr.sideband.capNotice) (.next m))
theorem Keeps.execSidebandTimeout {n : Nat} : KeepsR s (execSidebandTimeout n x) := .ite (.next h.fenceSite) (.next h)
theorem Keeps.spdmSend {n step : Nat} : Keeps s (x.spdmSend n step) := .ite h.setSite.sideband.useFree h.setSite.sideband
theorem Keeps.execIdentityBlockRead {n : Nat} {block : IdentityBlock} : KeepsR s (execIdentityBlockRead n block x) := by
  unfold Machine.execIdentityBlockRead
  split
  · exact .next h
  · extract_lets t _ u
    have ht : Keeps s t := h.setReg.setReg
    have hu : Keeps s u := ht.setSite
    split
    · exact .next hu.fenceSite
    · split
      · exact .next hu.fenceSite
      · exact .ite (.next hu.wr.spdmSend) (.next hu.fenceSite)
theorem Keeps.execIdentityTimeout {n : Nat} : KeepsR s (execIdentityTimeout n x) := .ite (.next h.fenceSite) (.next h)
theorem Keeps.openSite {n : Nat} : Keeps s (x.openSite n) := .via _ (h.fold fun k => k.lend) fun k => .ite k.setSite k.finishOpen
theorem Keeps.execSpdmResponse {n : Nat} {answer : SpdmAnswer} : KeepsR s (execSpdmResponse n answer x) :=
  .ite (.next h) (.ite (.next h.fenceSite) (.ite (.next h.spdmSend) (.via _ h.setSite fun k => .ite (.next k.fenceSite) (.ite (.next k.openSite) (.next k.lockCheck)))))
theorem Keeps.execSpdmTimeout {n : Nat} : KeepsR s (execSpdmTimeout n x) := .ite (.next h.fenceSite) (.next h)
theorem Keeps.resetSite {n : Nat} : Keeps s (x.resetSite n) := .ite h.cutSite.setSite.wr.showCaching.sideband h
theorem Keeps.execSiteResetTimeout {n : Nat} : KeepsR s (execSiteResetTimeout n x) :=
  .ite (.next h) (.next h.pwren.endMailbox.modulesOff.setSite.wr)
theorem Keeps.execSitePowerCycleEnd {n : Nat} : KeepsR s (execSitePowerCycleEnd n x) := .ite (.next h.powerSite) (.next h)

/-! ### Machine/HostCmds -/

theorem Keeps.winEvent {e code addr : Nat} : Keeps s (x.winEvent e code addr) := .ite h h.put.refusal
theorem Keeps.lineOnes {id i : Nat} : Keeps s (x.lineOnes id i) := h.partDone
theorem Keeps.barLine {id i b len : Nat} {data : Option (List (Option Byte))} : Keeps s (x.barLine id i b len data) := by
  unfold State.barLine
  extract_lets _ _ _ _ _ _ t
  have ht : KeepsP s t := by
    unfold t
    split
    · exact h.readAt
    · exact h.writeSite
  clear_value t
  split
  · exact h.lineOnes
  · split
    · exact h.lineOnes.winEvent
    · split
      · split
        · exact h.lineOnes.winEvent
        · split
          · exact ht.snd.lineOnes
          · exact ht.snd
      · exact .ite h.windowAccess (.ite h.sourceRequest h.homeAsk)
theorem Keeps.execBar4Access {tag b len : Nat} {write : Bool} {data : List (Option Byte)} {tee : Option Nat} : KeepsR s (execBar4Access tag b len write data tee x) :=
  .ite (.next h.unsupportedReq.send) (.ite (.next (.ite h h.send)) (.next (h.openAsm.snd.fold fun k => k.barLine)))
theorem Keeps.execUnsupportedRequest {off : Nat} : KeepsR s (execUnsupportedRequest off x) := .next h.unsupportedReq.send
theorem Keeps.execOutboundCompletion {tag : Nat} {ok poison : Bool} {data : List Byte} : KeepsR s (execOutboundCompletion tag ok poison data x) := by
  unfold Machine.execOutboundCompletion
  split
  · exact .next h
  · exact .ite (.next h.countHost.answerReq) (.next ((Keeps.ite h.countHost h).answerReq))
theorem Keeps.execOutboundTimeout {tag : Nat} : KeepsR s (execOutboundTimeout tag x) := by
  unfold Machine.execOutboundTimeout
  split
  · exact .next h
  · exact .ite (.next h) (.next h.countHost.answerReq)
theorem Keeps.execKeepaliveTimer : KeepsR s (execKeepaliveTimer x) := .next h
theorem Keeps.msixRetry {v : Nat} : Keeps s (x.msixRetry v) := .ite h.put.msixTry h
theorem Keeps.msixFlush : Keeps s x.msixFlush := h.fold fun k => k.msixRetry
theorem Keeps.setMsixWord {i : Nat} {v : Word} : Keeps s (x.setMsixWord i v) := .via _ h.put fun k => .ite k.msixRetry k
theorem Keeps.execMsixUnmask {vector : Nat} : KeepsR s (execMsixUnmask vector x) := .ite (.next h) (.next h.setMsixWord)
theorem Keeps.pstate {v : Nat} : Keeps s (x.pstate v) := h.wr
theorem Keeps.execL0pEntry : KeepsR s (execL0pEntry x) := .ite (.next h.pstate) (.next h)
theorem Keeps.execL0pExit : KeepsR s (execL0pExit x) := .ite (.next h.pstate) (.next h)
theorem Keeps.execLinkL1Entry : KeepsR s (execLinkL1Entry x) := .ite (.next h.pstate) (.next h)
theorem Keeps.execL12Entry : KeepsR s (execL12Entry x) := .ite (.next h.pstate) (.next h)
theorem Keeps.execLinkStateExit : KeepsR s (execLinkStateExit x) := .ite (.next h.pstate) (.next h)
theorem Keeps.releaseWake : Keeps s x.releaseWake := .ite h.put.send h
theorem Keeps.enterD3 : Keeps s x.enterD3 := h.wr
theorem Keeps.enterD0 : Keeps s x.enterD0 := h.wr.releaseWake.evtFlush.msixFlush
theorem Keeps.execD3hotEntry : KeepsR s (execD3hotEntry x) := .next h.enterD3
theorem Keeps.execD0Return : KeepsR s (execD0Return x) := .next h.enterD0
theorem Keeps.execLinkRetrained {speed width : Nat} {flit : Bool} : KeepsR s (execLinkRetrained speed width flit x) :=
  .ite (.next h) (.via _ (Keeps.ite h.sat h).put.wr.wr.wr.wr.pstate.wr fun o => .ite (.next o.eventOpen) (.next o))
theorem Keeps.hostSet : Keeps s x.hostSet := h.commitReg.commitRegs.commitRegs
theorem Keeps.execHostCommit {v : Word} : KeepsR s (execHostCommit v x) := by
  unfold Machine.execHostCommit
  split
  · exact .next h
  · split
    · exact .next h.commitRefused.wr
    · exact .next h.hostSet.commitDone.msixFlush

/-! ### Machine/FabOps -/

theorem Keeps.portEvent {p : Nat} : Keeps s (x.portEvent p) := h.eventOpen
theorem Keeps.execPortTrained {port neighbour version : Nat} : KeepsR s (execPortTrained port neighbour version x) :=
  .ite (.next h) (.ite (.next h.portEvent) (.next h.wr.wr.setPort.setPortState))
theorem Keeps.execPortTrainingMismatch {port : Nat} : KeepsR s (execPortTrainingMismatch port x) := .ite (.next h.portEvent) (.next h)
theorem Keeps.retrainPort {p step : Nat} : Keeps s (x.retrainPort p step) := h.setPort.sat.setPortState.portEvent
theorem Keeps.portDown {p : Nat} : Keeps s (x.portDown p) := (h.setPort.fold fun k => k.freeBlock).setPortState.wr.put.portEvent
theorem Keeps.execPortRetrain {port : Nat} : KeepsR s (execPortRetrain port x) := .ite (.next h.setPort.retrainPort) (.next h)
theorem Keeps.awaitPort {p reason : Nat} : Keeps s (x.awaitPort p reason) := h.wr.wr.wr.setPortState.portEvent
theorem Keeps.portFallsBack {p reason : Nat} : Keeps s (x.portFallsBack p reason) := .ite h.retrainPort h.portDown
theorem Keeps.portFailed {p reason : Nat} : Keeps s (x.portFailed p reason) := .ite h.awaitPort h.portFallsBack
theorem Keeps.execPortRetrainResult {port : Nat} {ok : Bool} : KeepsR s (execPortRetrainResult port ok x) :=
  .ite (.next h) (.ite (.next h.setPortState.pump) (.ite (.next h.portFailed) (.ite (.next h.retrainPort) (.next h.portFailed))))
theorem Keeps.endAwait {p : Nat} : Keeps s (x.endAwait p) := h.wr.wr
theorem Keeps.portChoice {p op : Nat} {f : State → Nat → State} (k : ∀ {y a}, Keeps s y → Keeps s (f y a)) : Keeps s (x.portChoice p op f) :=
  .ite h (.ite (k h.endAwait) h.regEvent)
theorem Keeps.execPortRecRetry {port : Nat} : KeepsR s (execPortRecRetry port x) := .next (h.portChoice fun k => k.retrainPort)
theorem Keeps.execPortRecHalf {port : Nat} : KeepsR s (execPortRecHalf port x) := .next (h.portChoice fun k => k.retrainPort)
theorem Keeps.execPortRecDown {port : Nat} : KeepsR s (execPortRecDown port x) := .next (h.portChoice fun k => k.portDown)
theorem Keeps.execPortAwaitTimeout {port : Nat} : KeepsR s (execPortAwaitTimeout port x) :=
  .ite (.next h.endAwait.fallback.portFallsBack) (.next h)
theorem Keeps.resendBlocks {p : Nat} : Keeps s (x.resendBlocks p) := h.sat.fold fun k => k.send
theorem Keeps.linkHeader {p : Nat} {b : LinkBlock} : Keeps s (x.linkHeader p b) := .via _ h.setPort fun k => (Keeps.ite k.resendBlocks k).pump
theorem Keeps.hopLimit {p : Nat} : Keeps s (x.hopLimit p) := .via _ h.sat fun k => .ite k.put.eventOpen k
theorem Keeps.linkAccept {p : Nat} {b : LinkBlock} : Keeps s (x.linkAccept p b) := by
  unfold State.linkAccept
  extract_lets _ t
  have ht : Keeps s t := h.setPort
  split
  · exact ht.sendIdle
  · split
    · exact ht
    · split
      · exact ht.hopLimit.sendIdle
      · split
        · exact ht.sat.sendIdle
        · exact ht.putBlock.sendIdle
theorem Keeps.linkDiscard {p : Nat} : Keeps s (x.linkDiscard p) := .ite h h.setPort.sendIdle
theorem Keeps.execLinkBlockReceive {port : Nat} {b : LinkBlock} {crcOk : Bool} : KeepsR s (execLinkBlockReceive port b crcOk x) :=
  .ite (.next h) (.ite (.next h.sat.linkDiscard) (.via _ h.linkHeader fun k => .ite (.next k) (.ite (.next k.linkAccept) (.next k.linkDiscard))))
theorem Keeps.execLinkResendTimer {port : Nat} : KeepsR s (execLinkResendTimer port x) := .ite (.next h.resendBlocks) (.next h)
theorem Keeps.ctl {e op : Nat} {args : List Nat} : Keeps s (x.ctl e op args) := h.launch
theorem Keeps.sendOpen {e : Nat} : Keeps s (x.sendOpen e) := h.ctl
theorem Keeps.startOpen {e : Nat} : Keeps s (x.startOpen e) := .ite h.connTo (.ite h.connTo h.setConn.useFree.connTo.sendOpen)
theorem Keeps.endTransfers {e : Nat} : Keeps s (x.endTransfers e) := h.setConn.put.fold fun m => m.answerReq
theorem Keeps.endConn {e : Nat} : Keeps s (x.endConn e) := .via _ h.ctl.setConn.connTo fun k => .ite k.startOpen k
theorem Keeps.connSettle {e : Nat} : Keeps s (x.connSettle e) := .ite h.endConn (.ite h.ctl.setConn.startOpen h)
theorem Keeps.closeConn {e : Nat} : Keeps s (x.closeConn e) :=
  .ite h.setConn.connTo.connSettle (.ite h (.via _ h.endTransfers.setConn.connTo fun k => .ite k.startOpen k))
theorem Keeps.foundAgain {dev : Nat} : Keeps s (x.foundAgain dev) := .ite h.put h
theorem Keeps.nowOpen {e index nonce peerNonce : Nat} : Keeps s (x.nowOpen e index nonce peerNonce) :=
  h.foundAgain.setConn.connWr.connTo.sendWaiting
theorem Keeps.execOpenMsg {src index slot nonce : Nat} : KeepsR s (execOpenMsg src index slot nonce x) := by
  unfold Machine.execOpenMsg
  split
  · exact .next h
  · exact .ite (.next h) (.via _ (.ite h h.endTransfers) fun k => .next (Keeps.ite k k.useFree).setConn.connWr.ctl.nowOpen)
theorem Keeps.execOpenAck {conn src index nonce : Nat} : KeepsR s (execOpenAck conn src index nonce x) := .ite (.next h.nowOpen) (.next h)
theorem Keeps.execOpenRetryTimer {conn : Nat} : KeepsR s (execOpenRetryTimer conn x) := .ite (.next h.sendOpen) (.next h)
theorem Keeps.execClose {h' : FabHdr} : KeepsR s (execClose h' x) := .ite (.next h) (.next h.endTransfers.setConn.connTo)
theorem Keeps.rekeyed {e nonce peerNonce : Nat} : Keeps s (x.rekeyed e nonce peerNonce) := h.setConn
theorem Keeps.execRekey {h' : FabHdr} {nonce : Nat} : KeepsR s (execRekey h' nonce x) := .ite (.next h) (.next h.rekeyed.useFree)
theorem Keeps.execRekeyThreshold {conn : Nat} : KeepsR s (execRekeyThreshold conn x) := .ite (.next h) (.next h.useFree.ctl.rekeyed)
theorem Keeps.execSessionLimitV1 {conn : Nat} : KeepsR s (execSessionLimitV1 conn x) := .ite (.next h.setConn.connSettle) (.next h)
theorem Keeps.commitConn {e : Nat} : Keeps s (x.commitConn e) := .via _ h.put fun k => .ite k.setConn.startOpen (.ite k.closeConn k)
theorem Keeps.execFabCommit {v : Word} : KeepsR s (execFabCommit v x) := by
  unfold Machine.execFabCommit
  split
  · exact .next h
  · split
    · exact .via _ h.commitRefused fun k => .next (.ite k.wr.wr k)
    · exact .next (h.commitRegs.fold fun l => l.commitConn).put.commitDone

/-! ### Machine/Coll -/

theorem Keeps.showEngine {e : Nat} : Keeps s (x.showEngine e) := h.wr.wr
theorem Keeps.setColl {key : Nat} {x' : CollRun} : Keeps s (x.setColl key x') := h.put
theorem Keeps.collPend {key : Nat} {on : Bool} : Keeps s (x.collPend key on) := h.wr
theorem Keeps.collSend {x' : CollRun} {rank op step offset : Nat} {body : List Byte} {poison : Bool} : Keeps s (x.collSend x' rank op step offset body poison) := by
  unfold State.collSend
  split
  · exact h.sendMsg
  · exact h
theorem Keeps.sendReady {x' : CollRun} {rank step credit : Nat} : Keeps s (x.sendReady x' rank step credit) := h.collSend
theorem Keeps.collFinish {key status device origin : Nat} : Keeps s (x.collFinish key status device origin) := by
  unfold State.collFinish
  split
  · exact h
  · exact .via _ h.put.orphan.collPend.showEngine.sat fun m => (Keeps.ite m.sat m).finish
theorem Keeps.sendAbort {x' : CollRun} {status : Nat} : Keeps s (x.sendAbort x' status) := h.fold fun k => k.collSend
theorem Keeps.collFail {key status device : Nat} : Keeps s (x.collFail key status device) := by
  unfold State.collFail
  split
  · exact h
  · exact (Keeps.ite h.sendAbort h).collFinish
theorem Keeps.collLost {key device origin : Nat} : Keeps s (x.collLost key device origin) := by
  unfold State.collLost
  split
  · exact h
  · exact h.collFinish
theorem Keeps.openColl {r seq : Nat} : Keeps s (x.openColl r seq) := by
  unfold State.openColl
  split
  · exact (Keeps.ite h.updRun h).setColl.showEngine
  · exact h
theorem Keeps.showReady : Keeps s x.showReady := h.wr
theorem Keeps.takeReady {key : Nat} {m : ReadyMsg} : Keeps s (x.takeReady key m) := by
  unfold State.takeReady
  split
  · exact h
  · exact .ite h (.ite h.collFail h.setColl)
theorem Keeps.takeWaiting {key : Nat} : Keeps s (x.takeWaiting key) := by
  unfold State.takeWaiting
  split
  · exact h
  · exact h.put.showReady.fold fun l => l.takeReady
theorem Keeps.collLaidOut {key : Nat} {x' : CollRun} : Keeps s (x.collLaidOut key x') :=
  .ite ((Keeps.ite h h.sendAbort).collFinish) (.ite h.collFinish h.setColl.takeWaiting)
theorem Keeps.collAccess {key : Nat} {x' : CollRun} {i addr off whole n : Nat} {a : Acc} {data : List PByte} : KeepsP s (x.collAccess key x' i addr off whole n a data) := by
  unfold State.collAccess
  split
  · exact .mk h
  · extract_lets
    split
    · exact .mk h.collFail
    · exact .mk (.ite h.ringFault.snd h.ringFault.snd.collFail)
    · extract_lets _ t u
      have ht : Keeps s t := .ite h h.holdField
      have hu : KeepsP s u := by
        unfold u
        split
        · exact ht.writeAt
        · exact ht.readAt
      clear_value u
      split
      · exact .mk hu.snd
      · exact .mk hu.snd.collFail
      · exact .mk hu.snd
theorem Keeps.collRecord {key : Nat} {x' : CollRun} : KeepsP s (x.collRecord key x') := by
  unfold State.collRecord
  extract_lets
  split
  · exact .mk h.collLaidOut
  · split
    next t e => exact .mk (h.collAccess.at e)
    next t e =>
      have ht : Keeps s t := h.collAccess.at e
      exact .ite (.mk ht.collFinish) (.mk ht.setColl)
theorem Keeps.collInput {key : Nat} {x' : CollRun} {range : Nat × Nat} : KeepsP s (x.collInput key x' range) := by
  unfold State.collInput
  extract_lets
  split
  next t e => exact .mk (h.collAccess.at e)
  next t e => exact .mk (h.collAccess.at e).setColl
theorem Keeps.collBegin {key : Nat} {x' : CollRun} {st : CollStep} : Keeps s (x.collBegin key x' st) :=
  .via _ h.setColl fun k => .ite k ((k.fold fun l => l.sendReady).updRun)
theorem Keeps.collStepOn {key : Nat} {x' : CollRun} {st : CollStep} : KeepsP s (x.collStepOn key x' st) := by
  unfold State.collStepOn
  split
  · exact .ite (.mk h.collPend) (.mk h.collPend.collBegin)
  · split
    · exact .mk h.collSend.setColl
    · exact .ite (.mk h.setColl) (.mk h)
theorem Keeps.collBarrier {key : Nat} {x' : CollRun} : KeepsP s (x.collBarrier key x') :=
  .ite (.ite (.mk h.collPend) (.mk (h.collPend.fold fun k => k.sendReady).setColl.updRun)) (.ite (.mk h.collFinish) (.mk h))
theorem Keeps.collOutput {key : Nat} {x' : CollRun} : KeepsP s (x.collOutput key x') := by
  unfold State.collOutput
  extract_lets
  split
  · exact .ite (.mk h) (.mk (.ite h.collFinish h.collFail))
  · split
    next t e => exact .mk (h.collAccess.at e)
    next t e => exact .mk (h.collAccess.at e).setColl
theorem Keeps.collMove {key : Nat} : KeepsP s (x.collMove key) := by
  unfold State.collMove
  split
  · exact .mk h
  · split
    · exact .mk h.collFail
    · split
      · exact .mk h
      · split
        · exact h.collRecord
        · split
          · exact h.collBarrier
          · extract_lets
            split
            · exact h.collInput
            · split
              · exact h.collStepOn
              · exact h.collOutput
theorem Keeps.collAdvance {key n : Nat} : Keeps s (x.collAdvance key n) := by
  induction n generalizing x with
  | zero => exact h
  | succ n ih =>
    unfold State.collAdvance
    split
    next t e => exact ih (h.collMove.at e)
    next t e => exact h.collMove.at e
theorem Keeps.collAll : Keeps s x.collAll := h.fold fun k => k.collAdvance
theorem Keeps.startColl {r seq : Nat} : Keeps s (x.startColl r seq) := by
  unfold State.startColl
  split
  · exact h.openColl.collAdvance
  · exact h
theorem Keeps.collIssue {r op : Nat} : Keeps s (x.collIssue r op) := (h.issueHead fun k => k.startColl).fold fun l => l.collAdvance
theorem Keeps.execAllreduce {ring : Nat} : KeepsR s (execAllreduce ring x) := .next h.collIssue
theorem Keeps.execReduceScatter {ring : Nat} : KeepsR s (execReduceScatter ring x) := .next h.collIssue
theorem Keeps.execAllgather {ring : Nat} : KeepsR s (execAllgather ring x) := .next h.collIssue
theorem Keeps.execBroadcast {ring : Nat} : KeepsR s (execBroadcast ring x) := .next h.collIssue
theorem Keeps.execBarrier {ring : Nat} : KeepsR s (execBarrier ring x) := .next h.collIssue
theorem Keeps.readyIn {m : ReadyMsg} : Keeps s (x.readyIn m) := by
  unfold State.readyIn
  split
  · exact h.takeReady.collAdvance
  · exact h.put.showReady
theorem Keeps.dataIn {ctx src comm cseq step offset : Nat} {bs : List PByte} : Keeps s (x.dataIn ctx src comm cseq step offset bs) := by
  unfold State.dataIn
  split
  · exact h
  · split
    · exact h
    · split
      · exact h
      · exact .ite h (.via _ h.setColl fun k => (Keeps.ite k k.sendReady).collAdvance)
theorem Keeps.abortIn {ctx comm cseq status device : Nat} : Keeps s (x.abortIn ctx comm cseq status device) := by
  unfold State.abortIn
  split
  · exact h.collLost
  · exact h
theorem Keeps.extendIn {device delay cairnSeq : Nat} : Keeps s (x.extendIn device delay cairnSeq) := h.fold fun k => .ite k.setColl k
theorem Keeps.lostIn {device : Nat} : Keeps s (x.lostIn device) := h.fold fun k => k.collLost
theorem Keeps.releaseStep {fw : Bool} {engine slot : Nat} : Keeps s (x.releaseStep fw engine slot) := by
  unfold State.releaseStep
  extract_lets
  split
  · exact .ite h.collPend.setColl.collAdvance h.regEvent
  · exact h.regEvent
theorem Keeps.execCollStep {v : Word} : KeepsR s (execCollStep v x) := .next h.releaseStep
theorem Keeps.execCollDeadline {engine slot : Nat} : KeepsR s (execCollDeadline engine slot x) := by
  unfold Machine.execCollDeadline
  split
  · exact .ite (.next h.collFail) (.next h)
  · exact .next h
theorem Keeps.execCollCommit {v : Word} : KeepsR s (execCollCommit v x) :=
  .ite (.next h) (.ite (.next h.commitRefused) (.ite (.next h.commitRefused) (.ite (.next h.commitRefused) (.next h.commitReg.commitDone))))

/-! ### Machine/Faults -/

theorem Keeps.freeRecord {r : Nat} : Keeps s (x.freeRecord r) := h.put.wr.wr.wr
theorem Keeps.unpause {q : Nat} : Keeps s (x.unpause q) := (Keeps.ite h.wr h).setRing
theorem Keeps.abortRing {q seq : Nat} : Keeps s (x.abortRing q seq) := by
  unfold State.abortRing
  split
  · split
    · exact h.collFail
    · exact h.updRun.noteErr.finish
  · split
    · exact .ite h.endHead h
    · exact h
theorem Keeps.abortAgent {r : Nat} {a : Agent} : Keeps s (x.abortAgent r a) := by
  unfold State.abortAgent
  extract_lets
  split
  · exact h.segFaultEvent.unpause.abortRing
  · exact h.segFaultEvent.tileSegFault
theorem Keeps.resumeRing {q : Nat} {p : PauseAt} : Keeps s (x.resumeRing q p) := by
  unfold State.resumeRing
  extract_lets t f
  have ht : Keeps s t := h.unpause
  have hf : ∀ {a0 a1 a2 a3}, Keeps s (f a0 a1 a2 a3) := .ite ht.ringFault.snd ht.ringFault.snd.abortRing
  split
  · exact hf
  · split
    · split
      · exact ht
      · split
        · exact hf
        · exact ht
        · exact ht.setRing
    · exact ht
theorem Keeps.resumeTile {t va : Nat} {acc : Acc} {back : TileWait} : Keeps s (x.resumeTile t va acc back) := by
  unfold State.resumeTile
  extract_lets _ u
  have hu : Keeps s u := h.setTile.tileState
  split
  · exact hu
  · split
    · exact hu
    · exact hu.tileFault
theorem Keeps.resumeAgent {a : Agent} : Keeps s (x.resumeAgent a) := by
  unfold State.resumeAgent
  split
  · split
    · exact h.resumeRing
    · exact h
  · split
    · exact h.resumeTile
    · exact h
theorem Keeps.noRecord {v : Nat} : Keeps s (x.noRecord v) := h.regEvent
theorem Keeps.execFaultResume {index : Nat} : KeepsR s (execFaultResume index x) :=
  .ite (.next h.noRecord) (.next (h.freeRecord.fold fun k => k.resumeAgent))
theorem Keeps.abortRecord {r : Nat} : Keeps s (x.abortRecord r) := (h.fold fun k => k.abortAgent).freeRecord
theorem Keeps.execFaultAbort {index : Nat} : KeepsR s (execFaultAbort index x) := .ite (.next h.noRecord) (.next h.abortRecord)

/-! ### Machine/CrcUnits -/

theorem Keeps.startCrc {r seq : Nat} : Keeps s (x.startCrc r seq) := (Keeps.ite h.updRun h).crcAsk
theorem Keeps.endCrc {r seq status : Nat} {check : Option Nat} {info : Nat} : Keeps s (x.endCrc r seq status check info) := h.finish
theorem Keeps.poisonCrc {r seq info : Nat} : Keeps s (x.poisonCrc r seq info) := h.crcSet.useFree.endCrc
theorem Keeps.crcRead {r : Nat} {d : Run} {i addr off whole n : Nat} {source : Bool} {go : State → List Byte → State} (k : ∀ {y a}, Keeps s y → Keeps s (go y a)) : Keeps s (x.crcRead r d i addr off whole n source go) := by
  unfold State.crcRead
  extract_lets
  split
  · exact h.endCrc
  · exact h.runFault
  · extract_lets _ t
    have ht : Keeps s t := .ite h h.holdField
    split
    next u e => exact ht.readAt.at e
    next u e => exact (ht.readAt.at e).endCrc
    next u e =>
      have hu : Keeps s u := ht.readAt.at e
      exact .ite (k hu) (.ite hu.poisonCrc hu.endCrc)
theorem Keeps.crcDataStep {r : Nat} {d : Run} : Keeps s (x.crcDataStep r d) :=
  .ite h.endCrc (h.crcRead fun k => .via _ k.crcSet.updRun fun m => .ite m.endCrc m)
theorem Keeps.crcNextBlock {r : Nat} {d : Run} : Keeps s (x.crcNextBlock r d) := .ite h.endCrc h.updRun
theorem Keeps.crcBlocksStep {r : Nat} {d : Run} : Keeps s (x.crcBlocksStep r d) := by
  unfold State.crcBlocksStep
  extract_lets
  split
  · refine h.crcRead fun k => ?_
    extract_lets t u _ v
    have ht : Keeps s t := .ite k.crcSet k
    have hu : Keeps s u := ht.crcSet
    have hv : Keeps s v := hu.updRun
    split
    · exact hv
    · split
      · exact hv.updRun
      · split
        · exact hv.updRun
        · split
          · exact hv.crcNextBlock
          · exact hv
  · split
    · split
      · exact h.endCrc
      · exact h.runFault
      · extract_lets t
        have ht : Keeps s t := h.holdField
        split
        next u e => exact ht.writeAt.at e
        next u e => exact (ht.writeAt.at e).endCrc
        next u e =>
          have hu : Keeps s u := ht.writeAt.at e
          exact .ite hu.updRun hu.crcNextBlock
    · exact h.crcRead fun k => .ite k.crcNextBlock k.endCrc
theorem Keeps.crcSaveStep {r : Nat} {d : Run} : Keeps s (x.crcSaveStep r d) := by
  unfold State.crcSaveStep
  extract_lets
  split
  · exact h.endCrc
  · exact h.runFault
  · extract_lets t
    have ht : Keeps s t := h.holdField
    split
    next u e => exact ht.writeAt.at e
    next u e => exact (ht.writeAt.at e).endCrc
    next u e => exact (ht.writeAt.at e).endCrc
theorem Keeps.crcLoadStep {r : Nat} {d : Run} : Keeps s (x.crcLoadStep r d) := by
  unfold State.crcLoadStep
  exact h.crcRead fun k => .ite k.endCrc k.crcOwn.wr.crcSet.endCrc
theorem Keeps.crcStep {r : Nat} {d : Run} : Keeps s (x.crcStep r d) := by
  unfold State.crcStep
  split
  · exact h
  · split
    · exact h.crcDataStep
    · exact h.crcBlocksStep
    · exact h.crcSaveStep
    · exact h.crcLoadStep
    · exact h
theorem Keeps.crcCommand {r op : Nat} {ok : List Byte → Bool} : Keeps s (x.crcCommand r op ok) := by
  unfold State.crcCommand
  split
  · exact .ite h.crcStep h
  · exact .ite h (h.issueHead fun k => k.startCrc)
theorem Keeps.execCrcData {ring : Nat} : KeepsR s (execCrcData ring x) := .next h.crcCommand
theorem Keeps.execCrcBlocks {ring : Nat} : KeepsR s (execCrcBlocks ring x) := .next h.crcCommand
theorem Keeps.execCrcSave {ring : Nat} : KeepsR s (execCrcSave ring x) := .next h.crcCommand
theorem Keeps.execCrcLoad {ring : Nat} : KeepsR s (execCrcLoad ring x) := .next h.crcCommand
theorem Keeps.execCrcUnitClaim {unit : Nat} : KeepsR s (execCrcUnitClaim unit x) := by
  unfold Machine.execCrcUnitClaim
  extract_lets
  split
  · exact .next h.setCrc.claim
  · exact .next h
theorem Keeps.fenceCrc {unit cause : Nat} : Keeps s (x.fenceCrc unit cause) := by
  unfold State.fenceCrc
  split
  · exact h
  · extract_lets _ t u _ v w
    have ht : Keeps s t := h.wr
    have hu : Keeps s u := ht.wr
    have hv : Keeps s v := hu.put
    have hw : Keeps s w := hv.event
    split
    · exact hw.noteErr.finish
    · exact hw
theorem Keeps.execCrcParityError {unit : Nat} : KeepsR s (execCrcParityError unit x) := .next h.fenceCrc
theorem Keeps.writeCrcCtl {src : BusSrc} {u : Nat} {v : Word} : Keeps s (x.writeCrcCtl src u v) := .ite h.regEvent h.crcOwn.wr.crcSet
theorem Keeps.writeCrcVal {src : BusSrc} {u : Nat} {v : DWord} : Keeps s (x.writeCrcVal src u v) := .ite h.regEvent h.crcSet
theorem Keeps.execCrcCtlWrite {src : BusSrc} {unit : Nat} {v : Word} : KeepsR s (execCrcCtlWrite src unit v x) :=
  .next (h.gated fun k => k.writeCrcCtl)
theorem Keeps.execCrcValWrite {src : BusSrc} {unit : Nat} {v : DWord} : KeepsR s (execCrcValWrite src unit v x) :=
  .next (h.gated fun k => k.writeCrcVal)

/-! ### Machine/Mirror -/

theorem Keeps.showMirror {n : Nat} : Keeps s (x.showMirror n) := by
  unfold State.showMirror
  extract_lets t
  have ht : Keeps s t := h.wr
  split
  · exact ht.setReg.setReg
  · exact ht.wr.wr.wr.wr.showDirty
theorem Keeps.setMirror {n : Nat} {m : MirSt} : Keeps s (x.setMirror n m) := h.put.showMirror
theorem Keeps.freeMirror {n : Nat} : Keeps s (x.freeMirror n) := h.put.orphan.showMirror
theorem Keeps.faultMirror {n status : Nat} : Keeps s (x.faultMirror n status) := by
  unfold State.faultMirror
  split
  · exact h
  · extract_lets t
    have ht : Keeps s t := h.setMirror.eventOpen
    split
    · exact ht.finish
    · exact ht
theorem Keeps.checkMirror {n : Nat} : Keeps s (x.checkMirror n) := by
  unfold State.checkMirror
  split
  · exact .ite h.faultMirror h
  · exact h
theorem Keeps.startMirrorSet {r seq : Nat} : Keeps s (x.startMirrorSet r seq) := by
  unfold State.startMirrorSet
  split
  · exact h
  · extract_lets
    split
    · exact .ite h.finish h.setMirror.finish
    · exact h.finish
theorem Keeps.mirrorWrite {n : Nat} {m : MirSt} {off : Nat} {bs : List Byte} : KeepsP s (x.mirrorWrite n m off bs) := by
  unfold State.mirrorWrite
  refine (KeepsP.mk h).fold fun k => ?_
  split
  · exact k
  · extract_lets
    split
    · exact .mk k.snd
    · split
      · split
        · exact .mk k.snd
        · split
          next t e => exact .mk (k.snd.writeAt.at e)
          next t _ e => exact .mk (k.snd.writeAt.at e)
      · split
        · exact .mk k.snd
        · split
          next t e => exact .mk (k.snd.writeAt.at e)
          next t _ e => exact .mk (k.snd.writeAt.at e)
theorem Keeps.copyBlock {n : Nat} {m : MirSt} {b : Nat} : Keeps s (x.copyBlock n m b) := by
  unfold State.copyBlock
  split
  · exact h.faultMirror
  · split
    next t e => exact h.readAt.at e
    next t e => exact (h.readAt.at e).faultMirror
    next t e =>
      have ht : Keeps s t := h.readAt.at e
      split
      · exact ht.faultMirror
      · split
        next u e1 =>
          have hu : Keeps s u := (KeepsP.ite (.mk ht) ht.mirrorWrite).at e1
          split
          · exact hu.faultMirror
          · split
            next v e2 => exact (hu.mirrorWrite.at e2).faultMirror
            next v e2 => exact (hu.mirrorWrite.at e2).setMirror
theorem Keeps.syncOn {n : Nat} {m : MirSt} {y : SyncRun} : Keeps s (x.syncOn n m y) := by
  unfold State.syncOn
  split
  · exact h.copyBlock
  · split
    · exact h
    · split
      · split
        next t e => exact (h.mirrorWrite.at e).faultMirror
        next t e => exact (h.mirrorWrite.at e).setMirror.updRun
      · exact h.setMirror.wr.finish
theorem Keeps.mirrorOn {n : Nat} : Keeps s (x.mirrorOn n) := by
  unfold State.mirrorOn
  extract_lets t
  have ht : Keeps s t := h.checkMirror
  split
  · exact ht
  · split
    · exact ht
    · split
      · exact ht.syncOn
      · split
        · exact .ite ht ht.put.copyBlock
        · exact ht
theorem Keeps.startMirrorSync {r seq : Nat} : Keeps s (x.startMirrorSync r seq) := by
  unfold State.startMirrorSync
  split
  · exact h
  · extract_lets _ t
    have ht : Keeps s t := .ite h.updRun h
    split
    · exact h.finish
    · exact .ite h.finish (.ite h.finish ht.setMirror.mirrorOn)
theorem Keeps.startMirrorClear {r seq : Nat} : Keeps s (x.startMirrorClear r seq) := by
  unfold State.startMirrorClear
  split
  · exact h
  · extract_lets
    split
    · exact .ite h.finish h.freeMirror.finish
    · exact h.finish
theorem Keeps.execMirrorSet {ring : Nat} : KeepsR s (execMirrorSet ring x) := .next (h.issueHead fun k => k.startMirrorSet)
theorem Keeps.execMirrorSync {ring : Nat} : KeepsR s (execMirrorSync ring x) := .next (h.issueHead fun k => k.startMirrorSync)
theorem Keeps.execMirrorClear {ring : Nat} : KeepsR s (execMirrorClear ring x) := .next (h.issueHead fun k => k.startMirrorClear)
theorem Keeps.execMirrorBlockCopy {entry : Nat} : KeepsR s (execMirrorBlockCopy entry x) := .next h.mirrorOn
theorem Keeps.fenceColl {engine cause : Nat} : Keeps s (x.fenceColl engine cause) :=
  .ite h (((h.wr.wr.put.event.fold fun m => m.collFail).fold fun o => o.faultMirror).fold fun p => .ite p.loseEngine p)
theorem Keeps.execCollEngineParity {engine : Nat} : KeepsR s (execCollEngineParity engine x) := .next h.fenceColl

/-! ### Machine/FabMsgs -/

theorem Keeps.v1Discard {dev : Nat} : Keeps s (x.v1Discard dev) := .ite h.setPort.portEvent h
theorem Keeps.control {h' : FabHdr} {f : State → State} (k : ∀ {y}, Keeps s y → Keeps s (f y)) : Keeps s (x.control h' f) :=
  .ite h (.ite h.v1Discard (k h))
theorem Keeps.fabRefuse {e : Nat} {m : FabMsg} : Keeps s (x.fabRefuse e m) :=
  .via _ h.refusal fun k => (Keeps.ite k.respond (.ite k.respond k)).msgPerformed
theorem Keeps.fabScratch {e : Nat} {m : FabMsg} {r : MemReq} : Keeps s (x.fabScratch e m r) := h.openAsm.snd.fold fun k => k.windowAccess
theorem Keeps.windowPut {off : Nat} {new : List PByte} {w : Window} {p : Option Nat} : Keeps s (x.windowPut off new w p) := by
  unfold State.windowPut
  split
  · exact h.scrWrite
  · exact h
theorem Keeps.fabScratchAtomicAs {e : Nat} {m : FabMsg} {g : Got} : KeepsP s (x.fabScratchAtomicAs e m g) := by
  unfold State.fabScratchAtomicAs
  split
  · exact .mk h
  · exact .mk h.respond.msgPerformed
  · exact .mk h.windowPut.respond.msgPerformed
theorem Keeps.fabScratchAtomic {e : Nat} {m : FabMsg} : KeepsP s (x.fabScratchAtomic e m) := h.readWindow.snd.fabScratchAtomicAs
theorem Keeps.fabAtomic {e : Nat} {m : FabMsg} {r : MemReq} : Keeps s (x.fabAtomic e m r) :=
  h.openAsm.snd.fold fun k => .ite k.sourceRequest k.homeAsk
theorem Keeps.fabRequest {e : Nat} {m : FabMsg} : KeepsP s (x.fabRequest e m) :=
  .ite (.mk h.fabRefuse) (.ite (.mk ((Keeps.ite h.respond h).msgPerformed)) (.ite (.ite h.fabScratchAtomic (.mk h.fabScratch)) (.ite (.mk h.fabAtomic) (.mk h.askLines))))
theorem Keeps.fabResponse {e : Nat} {m : FabMsg} : Keeps s (x.fabResponse e m) := by
  unfold State.fabResponse
  extract_lets t
  have ht : Keeps s t := by
    unfold t
    split
    · exact h
    · exact .ite h.answerReq h.answerReq
  exact ht.msgPerformed.connSettle
theorem Keeps.toMember {m op : Nat} {body : List Byte} : Keeps s (x.toMember m op body) := .ite h.sendMsg h
theorem Keeps.toMembers {op : Nat} {body : List Byte} : Keeps s (x.toMembers op body) := h.fold fun k => k.toMember
theorem Keeps.extendMsg {e device delay cairnSeq : Nat} : Keeps s (x.extendMsg e device delay cairnSeq) :=
  .via _ h.extendIn fun k => .ite k.toMembers k
theorem Keeps.lostMsg {e device : Nat} : Keeps s (x.lostMsg e device) :=
  .via _ h.lostIn fun k => .via _ (.ite k.put k) fun l => .ite l.toMembers l
theorem Keeps.collMsg {e : Nat} {m : FabMsg} : Keeps s (x.collMsg e m) :=
  .ite h.readyIn (.ite h.dataIn (.ite h.abortIn (.ite h.extendMsg (.ite h.lostMsg (.ite h.releaseStep h)))))
theorem Keeps.performMsg {e : Nat} {m : FabMsg} : KeepsP s (x.performMsg e m) :=
  .ite h.fabRequest (.ite (.mk h.fabResponse) (.mk h.collMsg.msgPerformed))
theorem Keeps.connKick {e n : Nat} : Keeps s (x.connKick e n) := by
  induction n generalizing x with
  | zero => exact h
  | succ n ih =>
    unfold State.connKick
    extract_lets
    split
    · split
      · exact h
      · split
        next t e => exact ih (h.setConn.performMsg.at e)
        next t e => exact (h.setConn.performMsg.at e).setConn
    · exact h
theorem Keeps.connKickAll : Keeps s x.connKickAll := h.fold fun k => k.connKick
theorem Keeps.arrive {h' : FabHdr} {m : FabMsg} : Keeps s (x.arrive h' m) :=
  .ite h (.ite h.v1Discard (.ite (.ite h.sendAck h) (.ite h.sat h.setConn.connKick)))
theorem Keeps.execWrite {h' : FabHdr} {bytes : List Byte} : KeepsR s (execWrite h' bytes x) := .next h.arrive
theorem Keeps.execRead {h' : FabHdr} {len : Nat} : KeepsR s (execRead h' len x) := .next h.arrive
theorem Keeps.execAtomic {h' : FabHdr} {kind a b : Nat} : KeepsR s (execAtomic h' kind a b x) := .next h.arrive
theorem Keeps.execReadRsp {h' : FabHdr} {bytes : List Byte} : KeepsR s (execReadRsp h' bytes x) := .next h.arrive
theorem Keeps.execAtomicRsp {h' : FabHdr} {old : Nat} : KeepsR s (execAtomicRsp h' old x) := .next h.arrive
theorem Keeps.execReady {h' : FabHdr} {comm cseq step credit op count fmt redop xsExp root : Nat} : KeepsR s (execReady h' comm cseq step credit op count fmt redop xsExp root x) :=
  .next h.arrive
theorem Keeps.execData {h' : FabHdr} {comm cseq step offset : Nat} {data : List Byte} : KeepsR s (execData h' comm cseq step offset data x) :=
  .next h.arrive
theorem Keeps.execCollAbort {h' : FabHdr} {comm cseq status device rank : Nat} : KeepsR s (execCollAbort h' comm cseq status device rank x) :=
  .next h.arrive
theorem Keeps.execExtend {h' : FabHdr} {device delay cairnSeq : Nat} : KeepsR s (execExtend h' device delay cairnSeq x) := .next h.arrive
theorem Keeps.execLost {h' : FabHdr} {device : Nat} : KeepsR s (execLost h' device x) := .next h.arrive
theorem Keeps.execStep {h' : FabHdr} {comm cseq engine slot : Nat} : KeepsR s (execStep h' comm cseq engine slot x) := .next h.arrive
theorem Keeps.execAck {h' : FabHdr} {ack : Nat} : KeepsR s (execAck h' ack x) := by
  unfold Machine.execAck
  split
  · exact .next h
  · extract_lets _ _ _ t u
    have ht : Keeps s t := h.setConn
    have hu : Keeps s u := by
      unfold u
      refine ht.fold fun k => ?_
      split
      · exact .ite k.answerReq k
      · exact k
    exact .next hu.sendWaiting.connSettle
theorem Keeps.execAckTimer {conn : Nat} : KeepsR s (execAckTimer conn x) := .via _ h.connKick fun k => .ite (.next k) (.next k.sendAck)
theorem Keeps.execMsgResendTimer {conn : Nat} : KeepsR s (execMsgResendTimer conn x) := .next (h.setConn.fold fun k => k.emit)
theorem Keeps.breakUsers {e : Nat} : Keeps s (x.breakUsers e) := (h.fold fun k => k.collFail).fold fun l => l.checkMirror
theorem Keeps.breakConn {e : Nat} : Keeps s (x.breakConn e) :=
  .via _ h.endTransfers.breakUsers fun k => .ite k.endConn k.setConn.useFree.connTo.sendOpen
theorem Keeps.execPeerLimitExpiry {conn : Nat} : KeepsR s (execPeerLimitExpiry conn x) := .ite (.next h.breakConn) (.next h)

/-! ### Machine/TimeOps -/

theorem Keeps.toTime {v : Nat} : Keeps s (x.toTime v) := h.wr
theorem Keeps.advance : Keeps s x.advance := h.put.setReg
theorem Keeps.setEdges {o : Nat} {l : List Edge} : Keeps s (x.setEdges o l) := h.put
theorem Keeps.edgeLate {o : Nat} : Keeps s (x.edgeLate o) := h.sat
theorem Keeps.placeEdge {o : Nat} {e : Edge} : Keeps s (x.placeEdge o e) := .ite h.edgeLate (.ite (.ite h.edgeLate h.sat) h.setEdges)
theorem Keeps.pulseOut {o : Nat} : Keeps s (x.pulseOut o) := .ite h.send.send h
theorem Keeps.makeEdge {o : Nat} : Keeps s (x.makeEdge o) := by
  unfold State.makeEdge
  split
  · exact h
  · exact .via _ h.setEdges fun k => .ite k k.pulseOut
theorem Keeps.wakeHot {f : Fld} : Keeps s (x.wakeHot f) := .ite h.driveWake h
theorem Keeps.wakeCold {f : Fld} : Keeps s (x.wakeCold f) := .ite h.driveWake h

/-! ### Machine/StreamOps -/

theorem Keeps.setFlow {k : Nat} {f : FlowSt} : Keeps s (x.setFlow k f) := h.put
theorem Keeps.spill {ctx a : Nat} {bs : List Byte} : KeepsP s (x.spill ctx a bs) := by
  have written : KeepsP s ((granPieces a bs).foldl (fun (acc : Spill × State) p =>
      match acc.1 with
      | .done => match acc.2.agentWrite (.flow 0) (.ctx ctx) p.1 (p.2.map (fun b => (b, false))) with
        | (.data [], s) => (.done, s)
        | (.data _, s) => (.fail stPoison, s)
        | (.refused, s) => (.fail stOwnerFault, s)
        | (.wait, s) => (.wait, s)
      | _ => acc) (.done, x)) := by
    refine (KeepsP.mk h).fold fun {y p} k => ?_
    split
    · split
      next t e => exact .mk (k.snd.agentWrite.at e)
      next t _ e => exact .mk (k.snd.agentWrite.at e)
      next t e => exact .mk (k.snd.agentWrite.at e)
      next t e => exact .mk (k.snd.agentWrite.at e)
    · exact k
  exact .mk written.snd.put
theorem Keeps.faultFlow {k status : Nat} : Keeps s (x.faultFlow k status) := by
  unfold State.faultFlow
  split
  · exact h
  · exact h.setFlow.eventOpen
theorem Keeps.flushMarker {k : Nat} : Keeps s (x.flushMarker k) := by
  unfold State.flushMarker
  split
  · exact h
  · split
    · exact h
    · split
      · exact h
      · split
        next t e => exact h.spill.at e
        next t e => exact (h.spill.at e).faultFlow
        next t e => exact (h.spill.at e).setFlow
theorem Keeps.endWatch {r seq k target base : Nat} {f : FlowSt} : Keeps s (x.endWatch r seq k target base f) := h.finish
theorem Keeps.pollWatches {k : Nat} {all : Bool} : Keeps s (x.pollWatches k all) := by
  unfold State.pollWatches
  split
  · exact h
  · refine h.fold fun l => ?_
    split
    · exact .ite l.endWatch l
    · exact l
theorem Keeps.freeFlow {k : Nat} : Keeps s (x.freeFlow k) := h.pollWatches.put.showAdmit
theorem Keeps.flowMoved {k : Nat} : Keeps s (x.flowMoved k) := by
  unfold State.flowMoved
  extract_lets t u
  have ht : Keeps s t := by
    unfold t
    split
    · exact h.setFlow
    · exact h
  have hu : Keeps s u := ht.flushMarker.pollWatches
  split
  · exact hu
  · exact .ite hu.freeFlow hu
theorem Keeps.closeFlow {k : Nat} {drop : Bool} : Keeps s (x.closeFlow k drop) := by
  unfold State.closeFlow
  split
  · exact h
  · exact h.setFlow.showAdmit.flowMoved
theorem Keeps.sendDecision {f : FlowSt} {r : FlowRec} {acc dflt : Bool} {tags : Nat} : Keeps s (x.sendDecision f r acc dflt tags) :=
  .via _ (.ite h.send h) fun k => .ite (.ite k.placeEdge (.ite k.placeEdge k)) k
theorem Keeps.issueDecision {k : Nat} {r : FlowRec} {acc dflt : Bool} {tags : Nat} : Keeps s (x.issueDecision k r acc dflt tags) := by
  unfold State.issueDecision
  split
  · exact h
  · exact h.setFlow.put.sendDecision.flowMoved
theorem Keeps.cutoffs {k : Nat} : Keeps s (x.cutoffs k) := by
  unfold State.cutoffs
  split
  · exact h
  · exact .ite h (h.fold fun k => k.issueDecision)
theorem Keeps.decisionWord {k word : Nat} : Keeps s (x.decisionWord k word) := by
  unfold State.decisionWord
  split
  · exact h.sat
  · split
    · exact h.sat
    · exact .ite h.sat (.ite h.sat h.issueDecision)
theorem Keeps.dropFrame {k : Nat} {f : FlowSt} {q cause : Nat} {late : Bool} : Keeps s (x.dropFrame k f q cause late) :=
  .ite h h.setFlow.flushMarker
theorem Keeps.faultedFrame {k : Nat} {f : FlowSt} {r : FlowRec} : Keeps s (x.faultedFrame k f r) := h.setFlow
theorem Keeps.spillBody {f : FlowSt} {r : FlowRec} : KeepsP s (x.spillBody f r) := by
  unfold State.spillBody
  split
  next t e => exact ((KeepsP.ite (.mk h) h.spill).at e).spill
  · exact .ite (.mk h) h.spill
theorem Keeps.writeFrame {k : Nat} {r : FlowRec} : Keeps s (x.writeFrame k r) := by
  unfold State.writeFrame
  extract_lets t
  have ht : Keeps s t := h.flushMarker
  split
  · exact ht
  · extract_lets
    split
    · exact ht.faultedFrame
    · split
      · exact ht.dropFrame
      · split
        · exact ht.dropFrame
        · split
          next u e =>
            have hu : Keeps s u := ht.spillBody.at e
            extract_lets v
            have hv : Keeps s v := hu.setFlow.faultFlow
            split
            · exact hv.faultedFrame
            · exact hv
          next u e => exact (ht.spillBody.at e).setFlow
          next u e => exact (ht.spillBody.at e).setFlow

/-! ### Machine/StreamCmds -/

theorem Keeps.frameOther {p : Nat} : Keeps s (x.frameOther p) := h.sat
theorem Keeps.frameCheckFail {p : Nat} : Keeps s (x.frameCheckFail p) := h.sat
theorem Keeps.openFlow {k : Nat} {words : List DWord} {pool idle : Nat} : Keeps s (x.openFlow k words pool idle) :=
  h.setFlow.showAdmit.fold fun l => l.wakeQuad
theorem Keeps.learn {p : Nat} {f : StreamFrame} : KeepsOP s (x.learn p f) := by
  unfold State.learn
  extract_lets
  split
  · exact .none
  · split
    · exact .some h.openFlow
    · exact .none
theorem Keeps.ingressDrop {p : Nat} : Keeps s (x.ingressDrop p) := .via _ h.sat fun k => .ite k.put.eventOpen k
theorem Keeps.endSequence {k q : Nat} {f : FlowSt} : Keeps s (x.endSequence k q f) := h.setFlow.flushMarker
theorem Keeps.flowFrame {p k : Nat} {fr : StreamFrame} : Keeps s (x.flowFrame p k fr) := by
  unfold State.flowFrame
  split
  · exact h
  · exact .via _ (.ite h.wakeHot h) fun k => .ite (.ite k.setFlow.closeFlow k.endSequence.frameOther) (.ite (.via _ k.faultedFrame fun l => .ite l.ingressDrop l) (.ite k.setFlow.frameOther (.ite k.setFlow.dropFrame.ingressDrop k.setFlow.writeFrame)))
theorem Keeps.frameIn {p : Nat} {fr : StreamFrame} : Keeps s (x.frameIn p fr) := by
  unfold State.frameIn
  split
  · exact h
  · split
    · exact h.frameCheckFail
    · exact h.frameOther
    · split
      · exact h.flowFrame
      · split
        next t e => exact (h.learn.at e).flowFrame
        · exact h.sat
theorem Keeps.execStreamFrame {port : Nat} {frame : StreamFrame} : KeepsR s (execStreamFrame port frame x) := .next h.frameIn
theorem Keeps.execEndOfFlowFrame {port : Nat} {frame : StreamFrame} : KeepsR s (execEndOfFlowFrame port frame x) := .next h.frameIn
theorem Keeps.execArpRequest {port addr : Nat} : KeepsR s (execArpRequest port addr x) := .ite (.next h.send) (.next h)
theorem Keeps.execNeighborSolicitation {port addr : Nat} : KeepsR s (execNeighborSolicitation port addr x) := .ite (.next h.send) (.next h)
theorem Keeps.execStreamPortLink {port : Nat} {up : Bool} : KeepsR s (execStreamPortLink port up x) := .ite (.next h.wr) (.next h)
theorem Keeps.execSpillWriteAck {flow : Nat} : KeepsR s (execSpillWriteAck flow x) := by
  unfold Machine.execSpillWriteAck
  split
  · exact .next h
  · split
    · exact .next h
    · extract_lets upd body whole
      have hbody : KeepsP s body := .ite (.mk h) h.spillBody
      clear_value body
      have hwhole : KeepsP s whole := by
        unfold whole
        split
        · exact hbody.snd.spill
        · exact hbody
      clear_value whole
      split
      · exact .next hwhole.snd
      · exact .next hwhole.snd.setFlow.flowMoved
      · exact .next (Keeps.ite hwhole.snd.setFlow hwhole.snd.setFlow.faultFlow).flowMoved
theorem Keeps.recordRead {flow : Nat} {f : FlowSt} {r : FlowRec} : KeepsP s (x.recordRead flow f r) := by
  unfold State.recordRead
  extract_lets
  refine (KeepsP.mk h).fold fun k => ?_
  split
  · exact k
  · split
    next t e => exact .mk (k.snd.agentRead.at e)
    next t e => exact .mk (k.snd.agentRead.at e)
    next t e => exact .mk (k.snd.agentRead.at e)
theorem Keeps.execInboxDelivery {flow : Nat} : KeepsR s (execInboxDelivery flow x) := by
  unfold Machine.execInboxDelivery
  split
  · exact .next h
  · split
    · exact .next h
    · extract_lets
      split
      · exact .next h.setFlow.sat
      · split
        · exact .next h.wakeQuad
        · split
          next t e => exact .next (h.recordRead.at e)
          next t e => exact .next (h.recordRead.at e).scrStore.scrStore.setFlow.put
theorem Keeps.execDecisionWord : KeepsR s (execDecisionWord x) := by
  unfold Machine.execDecisionWord
  split
  · exact .next h
  · exact .via _ h.put fun k => .ite (.next k) (.next k.decisionWord)
theorem Keeps.execDecisionCutoff {flow : Nat} : KeepsR s (execDecisionCutoff flow x) := .next h.cutoffs
theorem Keeps.execFlowIdleTimeout {flow : Nat} : KeepsR s (execFlowIdleTimeout flow x) := by
  unfold Machine.execFlowIdleTimeout
  split
  · exact .next h
  · exact .ite (.next h.closeFlow) (.next h)
theorem Keeps.ctxResult {k result : Nat} : Keeps s (x.ctxResult k result) := h.wr.wr.wr
theorem Keeps.execInstall {src : BusSrc} : KeepsR s (execInstall src x) :=
  .ite (.ite (.next h.ctxResult) (.next h.openFlow.ctxResult)) (.ite (.ite (.next h.ctxResult) (.ite (.next h.ctxResult) (.ite (.next h.ctxResult) (.next h.put.ctxResult)))) (.next h.ctxResult))
theorem Keeps.execFree {src : BusSrc} : KeepsR s (execFree src x) := by
  unfold Machine.execFree
  extract_lets
  split
  · exact .ite (.next h.ctxResult) (.next h.closeFlow.ctxResult)
  · exact .ite (.next h.ctxResult) (.ite (.next h.ctxResult) (.next h.put.ctxResult))
theorem Keeps.execCtxRead {src : BusSrc} : KeepsR s (execCtxRead src x) := by
  unfold Machine.execCtxRead
  extract_lets _ f
  have hf : ∀ {a0}, Keeps s (f a0) := (h.fold fun k => k.setReg).ctxResult
  split
  · exact .ite (.next h.ctxResult) (.next hf)
  · split
    · exact .next hf
    · exact .next hf
theorem Keeps.startRelease {r seq : Nat} : Keeps s (x.startRelease r seq) := by
  unfold State.startRelease
  split
  · exact h
  · extract_lets
    split
    · exact h.finish
    · exact h.setFlow.finish.flowMoved
theorem Keeps.startWatch {r seq : Nat} : Keeps s (x.startWatch r seq) := by
  unfold State.startWatch
  split
  · exact h
  · exact h.updRun.pollWatches
theorem Keeps.execStrmRelease {ring : Nat} : KeepsR s (execStrmRelease ring x) := .next (h.issueHead fun k => k.startRelease)
theorem Keeps.execStrmWatch {ring : Nat} : KeepsR s (execStrmWatch ring x) := .next (h.issueHead fun k => k.startWatch)
theorem Keeps.execStrmCommit {v : Word} : KeepsR s (execStrmCommit v x) := by
  unfold Machine.execStrmCommit
  split
  · exact .next h
  · split
    · exact .next h.commitRefused
    · split
      · exact .next h.commitRefused
      · exact .next h.commitRegs.commitDone
theorem Keeps.fenceStream : Keeps s x.fenceStream := .ite h (h.wr.put.fatalOpen.fold fun m => .ite (m.fold fun o => o.finish) m)
theorem Keeps.execStreamEngineParity : KeepsR s (execStreamEngineParity x) := .next h.fenceStream

/-! ### Machine/Time -/

theorem Keeps.makeDue {a : DueWork} : Keeps s (x.makeDue a) := by
  unfold State.makeDue
  split
  · exact h.makeEdge.edgeLate
  · split
    · exact h
    · split
      · exact h.issueDecision
      · exact h
theorem Keeps.stepTime {t : Nat} : Keeps s (x.stepTime t) := h.put.setReg.eventOpen.fold fun l => l.makeDue
theorem Keeps.timeErr {e : Int} : Keeps s (x.timeErr e) := h.setReg
theorem Keeps.setRate {r : Nat} : Keeps s (x.setRate r) := h.setReg
theorem Keeps.servo {e : Int} {per : Nat} : Keeps s (x.servo e per) := h.put.setRate
theorem Keeps.locked : Keeps s x.locked := h.put.toTime
theorem Keeps.acquire {source : Nat} : Keeps s (x.acquire source) := h.put.toTime.wr
theorem Keeps.noSource : Keeps s x.noSource := .via _ h.wr.wr.wr.put fun l => .ite l l.toTime
theorem Keeps.slewBack : Keeps s x.slewBack := h.put.setRate
theorem Keeps.disarm : Keeps s x.disarm := h.wr
theorem Keeps.ppsAcquire {age : Nat} : Keeps s (x.ppsAcquire age) :=
  .ite h.disarm.eventOpen.stepTime.locked (.ite h.disarm.stepTime.locked h.timeErr.slewBack)
theorem Keeps.ppsSearch {stamp : Nat} : Keeps s (x.ppsSearch stamp) := .ite h.put h.put.acquire.wr.wr
theorem Keeps.lockedUpdate {off e : Int} {per : Nat} : Keeps s (x.lockedUpdate off e per) := .ite h (.ite h.stepTime.locked h.put.servo)
theorem Keeps.ppsAccept {e : Int} : Keeps s (x.ppsAccept e) := h.put.timeErr.wr.lockedUpdate
theorem Keeps.execPpsInEdge {falling : Bool} {age : Nat} : KeepsR s (execPpsInEdge falling age x) :=
  .ite (.next h) (.ite (.ite (.next h.ppsAccept) (.ite (.next h.put) (.next h.noSource.toTime))) (.ite (.next h) (.ite (.via _ h.put fun k => .ite (.next k.ppsAcquire) (.ite (.next k.locked.ppsAccept) (.next k.timeErr))) (.next h.ppsSearch))))
theorem Keeps.execPpsLossTimeout : KeepsR s (execPpsLossTimeout x) := .ite (.next h.noSource) (.next h)
theorem Keeps.linkLocal {p op : Nat} {args : List Nat} : Keeps s (x.linkLocal p op args) := h.putBlock.send
theorem Keeps.execTimeExchangeTimer : KeepsR s (execTimeExchangeTimer x) := .ite (.next h) (.next h.put.linkLocal)
theorem Keeps.execTimeReq {port t1 : Nat} {authentic : Bool} : KeepsR s (execTimeReq port t1 authentic x) := .ite (.next h) (.next h.linkLocal)
theorem Keeps.execTimeRsp {port t1 t2 t3 : Nat} {offset : DWord} {state hops : Nat} {authentic : Bool} : KeepsR s (execTimeRsp port t1 t2 t3 offset state hops authentic x) :=
  .ite (.next h) (.next h.put.wr.wr)
theorem Keeps.parentLocked {off e : Int} : Keeps s (x.parentLocked off e) := h.lockedUpdate
theorem Keeps.execParentServoUpdate : KeepsR s (execParentServoUpdate x) := by
  unfold Machine.execParentServoUpdate
  split
  · exact .next h
  · exact .via _ h.timeErr fun k => .ite (.next k) (.ite (.next k.acquire) (.ite (.next k.parentLocked) (.ite (.ite (.next k.locked) (.next k)) (.ite (.next k.stepTime.locked) (.next k.slewBack)))))
theorem Keeps.siteClockLost {n : Nat} : Keeps s (x.siteClockLost n) := .ite (h.setSite.fold fun k => k.moduleDown) h
theorem Keeps.siteClockBack {n : Nat} : Keeps s (x.siteClockBack n) := .ite (.ite h.startSideband h.setSite) h
theorem Keeps.execSysrefLoss : KeepsR s (execSysrefLoss x) :=
  .ite (.next h) (.next (h.put.noSource.toTime.eventOpen.fold fun m => m.siteClockLost))
theorem Keeps.execSysrefReturn : KeepsR s (execSysrefReturn x) :=
  .ite (.next h) (.via _ h.put fun k => .next ((Keeps.ite k.toTime k).fold fun m => m.siteClockBack))
theorem Keeps.execTimeSteer {v : DWord} : KeepsR s (execTimeSteer v x) :=
  .ite (.next h.regEvent) (.via _ h.setReg.setRate.put fun l => .next (.ite l.toTime l))
theorem Keeps.execSteerTimeout : KeepsR s (execSteerTimeout x) := .ite (.next h.toTime.fallback) (.next h)
theorem Keeps.execTimeSecNext {src : BusSrc} {v : Word} : KeepsR s (execTimeSecNext src v x) :=
  .ite (.next h.setReg.wr) (.next (.ite h h.regEvent))
theorem Keeps.execTimeCommit {src : BusSrc} {v : Word} : KeepsR s (execTimeCommit src v x) :=
  .ite (.next (.ite h h.regEvent)) (.ite (.next h) (.ite (.next h.commitRefused) (.ite (.next h.commitRefused) (.next h.commitRegs.commitDone))))
theorem Keeps.setStamps {i : Nat} {l : List Nat} : Keeps s (x.setStamps i l) := h.put.wr.setReg
theorem Keeps.execTrigInEdge {k : Nat} {falling : Bool} : KeepsR s (execTrigInEdge k falling x) :=
  .ite (.next h) (.via _ h.put fun k => .via _ (.ite k.wakeCold k) fun l => .ite (.next l.wr) (.next l.setStamps))
theorem Keeps.popStamp {i : Nat} : KeepsP s (x.popStamp i) := .mk h.setStamps
theorem Keeps.execTinPop {k : Nat} : KeepsR s (execTinPop k x) := .ite (.next h) (.next h.popStamp.snd.send)
theorem Keeps.schedule {o due : Nat} : Keeps s (x.schedule o due) := .ite h.regEvent (.ite h.edgeLate h.placeEdge)
theorem Keeps.execToutSchedule {o : Nat} {v : DWord} : KeepsR s (execToutSchedule o v x) := .ite (.next h) (.next h.schedule)
theorem Keeps.execTrigOutEdge {o : Nat} : KeepsR s (execTrigOutEdge o x) := by
  unfold Machine.execTrigOutEdge
  split
  · exact .ite (.next h.makeEdge) (.next h)
  · exact .next h
theorem Keeps.execPpsOutPulse : KeepsR s (execPpsOutPulse x) := .ite (.next h) (.via _ h.put fun k => .next (.ite k.send.send k))

/-! ### Machine/Stacks -/

theorem Keeps.emptyStack {k : Nat} : Keeps s (x.emptyStack k) := h.put.fold fun l => l.answerPoison
theorem Keeps.haltStack {k : Nat} : Keeps s (x.haltStack k) := (h.wr.wr.wr.emptyStack.fold fun p => p.collFail).fatalOpen
theorem Keeps.execStackTempRead {stack tempC : Nat} : KeepsR s (execStackTempRead stack tempC x) :=
  .ite (.next h) (.via _ h.put fun k => .via _ (.ite k.wr.wr k) fun l => .ite (.next l) (.ite (.next l.haltStack) (.next l.wr)))
theorem Keeps.granRecall : Keeps s x.granRecall := by
  unfold State.granRecall
  split
  · exact h.recallRange
  · exact h
theorem Keeps.execGranSet : KeepsR s (execGranSet x) := .next h.granStart.granRecall
theorem Keeps.execGranSetZero : KeepsR s (execGranSetZero x) := .next h.granStart.granRecall
theorem Keeps.execGranDrainDone : KeepsR s (execGranDrainDone x) := by
  unfold Machine.execGranDrainDone
  split
  · exact .next h
  · exact .ite (.next h.granRecall) (.next h.granDrained.granRecall.homeRetry.homeKick)
theorem Keeps.bedrockPut {g : Nat} {data : List Byte} : Keeps s (x.bedrockPut g data) := h.flushRange.memStore.setOwn
theorem Keeps.brAsk : Keeps s x.brAsk := by
  unfold State.brAsk
  split
  · exact h
  · split
    · exact h.send
    · split
      · exact h.send
      · exact .ite h.send h
theorem Keeps.bedrockGone : Keeps s x.bedrockGone := by
  unfold State.bedrockGone
  exact (h.fold fun k => .ite k.zeroGranule.setOwn k).put.put.setReg.showBrPend
theorem Keeps.brLoad {g : Nat} {data : List Byte} {same : Bool} : Keeps s (x.brLoad g data same) :=
  .ite h (.ite (.via _ h.bedrockPut.put fun l => .ite l.wr l.brAsk) (.ite h.bedrockGone.eventOpen h.put.brAsk))
theorem Keeps.brStage {g : Nat} {st : BrStage} : Keeps s (x.brStage g st) := h.put
theorem Keeps.showBedrock : Keeps s x.showBedrock := .ite h h.wr
theorem Keeps.poisonParked {g : Nat} : Keeps s (x.poisonParked g) := h.put.fold fun k => k.answerPoison
theorem Keeps.brFail {g : Nat} : Keeps s (x.brFail g) := h.brStage.poisonParked.showBedrock.homeRetry.homeKick
theorem Keeps.brOnward {rep : BrRepair} : Keeps s (x.brOnward rep) := by
  unfold State.brOnward
  split
  · exact h.brStage.send
  · exact h.brFail
  · exact h
theorem Keeps.brDone {g : Nat} {data : List Byte} : Keeps s (x.brDone g data) :=
  h.bedrockPut.setOwn.put.sat.showBedrock.showBrPend.eventOpen.put.resume.homeRetry.homeKick
theorem Keeps.brSettle : Keeps s x.brSettle := h.fold fun k => .ite k k.brDone
theorem Keeps.brAccept {g : Nat} {data : List Byte} : Keeps s (x.brAccept g data) := h.recallRange.put.brSettle
theorem Keeps.execBedrockBlock {granule : Nat} {data : List Byte} {digest : Nat} : KeepsR s (execBedrockBlock granule data digest x) := by
  unfold Machine.execBedrockBlock
  extract_lets
  split
  · exact .next h.brLoad
  · split
    · exact .next h
    · exact .ite (.next h) (.ite (.next h.brAccept) (.next h.brOnward))
theorem Keeps.execBedrockFetchTimeout {granule : Nat} : KeepsR s (execBedrockFetchTimeout granule x) := by
  unfold Machine.execBedrockFetchTimeout
  split
  · exact .next h
  · exact .ite (.next h) (.next h.event.brOnward)
theorem Keeps.execBedrockSupply {v : DWord} : KeepsR s (execBedrockSupply v x) := .ite (.next h.brAccept) (.next h.regEvent)
theorem Keeps.execBedrockSupplyTimeout {granule : Nat} : KeepsR s (execBedrockSupplyTimeout granule x) := by
  unfold Machine.execBedrockSupplyTimeout
  split
  · exact .next h
  · exact .ite (.next h) (.next h.poisonParked.fallback.brStage.send)

/-! ### Machine/Power -/

theorem Keeps.quadClock {q : Nat} {on : Bool} : Keeps s (x.quadClock q on) := h.wr
theorem Keeps.execQuadSleep {quad : Nat} : KeepsR s (execQuadSleep quad x) := .ite (.next h.quadClock) (.next h)
theorem Keeps.execQuadWakeRequest {quad : Nat} : KeepsR s (execQuadWakeRequest quad x) := .next h.wakeQuad
theorem Keeps.quadLocked {q : Nat} : Keeps s (x.quadLocked q) := .ite h h.put.quadClock.deliverEjected
theorem Keeps.fenceSpares {c : Nat} : Keeps s (x.fenceSpares c) := h.fold fun k => .ite k.setSlot k
theorem Keeps.fenceMapped {l : Option Nat} : Keeps s (x.fenceMapped l) := by
  unfold State.fenceMapped
  split
  · exact (h.fold fun k => k.fenceTile).wr
  · exact h
theorem Keeps.fenceCluster {c : Nat} : Keeps s (x.fenceCluster c) := h.fenceSpares.fenceMapped
theorem Keeps.fenceQuad {q : Nat} : Keeps s (x.fenceQuad q) := (h.put.wr.put.fold fun o => o.fenceCluster).deliverEjected.event
theorem Keeps.execQuadPllLockTimeout {quad : Nat} : KeepsR s (execQuadPllLockTimeout quad x) :=
  .ite (.next h) (.ite (.next h.put) (.next h.fenceQuad))
theorem Keeps.toMhz {f : Nat} : Keeps s (x.toMhz f) := .via _ h.wr fun k => .ite k k.put.send
theorem Keeps.execRailTelemetry {hubW pkgW uj : Nat} : KeepsR s (execRailTelemetry hubW pkgW uj x) :=
  .ite (.next h.put) (.next h.put.wr.wr.wrap.renewCounts)
theorem Keeps.execRailOutOfRange {rail : Nat} : KeepsR s (execRailOutOfRange rail x) := .ite (.next h) (.next h.put.eventAny)
theorem Keeps.execPalertAssert {status : List Nat} : KeepsR s (execPalertAssert status x) := .next (h.fold fun k => k.eventAny)
theorem Keeps.applyPwr : Keeps s x.applyPwr := by
  unfold State.applyPwr
  split
  · exact h
  · exact (h.put.fold fun l => l.setReg).showShare
theorem Keeps.atFloor {p : Nat} {above : Bool} : Keeps s (x.atFloor p above) :=
  .via _ h.wr fun k => .ite k (.via _ k.sat fun l => .ite l l.put.event)
theorem Keeps.execCappingPeriod {p : Nat} : KeepsR s (execCappingPeriod p x) :=
  .ite (.next h) (.via _ (.ite h.sat h) fun k => .next (Keeps.ite k.put k).put.applyPwr.toMhz.atFloor)
theorem Keeps.execPwrSetpoint {v : Word} : KeepsR s (execPwrSetpoint v x) :=
  .ite (.next h.regEvent) (.ite (.next h.regEvent) (.next (Keeps.ite h.eventOpen h).put.wr))
theorem Keeps.execCappingFallback : KeepsR s (execCappingFallback x) := .ite (.next h) (.next h.put.fallback.wr)
theorem Keeps.execPwrCommit {v : Word} : KeepsR s (execPwrCommit v x) :=
  .ite (.next h) (.ite (.next h.commitRefused) (.ite (.next h.commitRefused) (.ite (.next h.commitRefused) (.ite (.next h.commitRefused) (.via _ (.ite h.eventOpen h) fun k => .next (Keeps.ite k.eventOpen k).put.commitDone)))))
theorem Keeps.pwrBlanket : Keeps s x.pwrBlanket := h.setShd.setReg.resetRwc.wr.setReg.put
theorem Keeps.brakeTaken : Keeps s x.brakeTaken := h.sat.eventOpen
theorem Keeps.execPwrbrakeAssert : KeepsR s (execPwrbrakeAssert x) := .via _ h.put fun k => .ite (.next k) (.next k.wr.brakeTaken)
theorem Keeps.execPwrbrakeRelease : KeepsR s (execPwrbrakeRelease x) := .next h.put.wr
theorem Keeps.thermtrip : Keeps s x.thermtrip := (h.fatalOpen.put.send.fold fun m => m.pwren).setReg.put
theorem Keeps.execDieTempRead {hubC : Nat} : KeepsR s (execDieTempRead hubC x) :=
  .via _ h.put fun k => .via _ (.ite k.wr k) fun l => .ite (.next l) (.ite (.next l.thermtrip) (.ite (.next l.wr.sat.event) (.ite (.next l.wr) (.next l))))
theorem Keeps.execSagDetect {vaon v1p8 : Bool} : KeepsR s (execSagDetect vaon v1p8 x) :=
  .ite (.next h) (.via _ (.ite h.wr.wr h) fun k => .next (Keeps.ite k.wr.wr k).put.wr)
theorem Keeps.execSagEnd : KeepsR s (execSagEnd x) := .next (h.put.wr.wr.wr.wr.fold fun l => l.mramApply)

/-! ### Machine/Hier -/

theorem Keeps.setSeen {m : Nat} {x' : PeerSeen} : Keeps s (x.setSeen m x') := h.put
theorem Keeps.setGroup {g : Nat} {x' : PeerSeen} : Keeps s (x.setGroup g x') := h.put
theorem Keeps.showLive : Keeps s x.showLive := h.wr
theorem Keeps.putKey {slot key : Nat} : Keeps s (x.putKey slot key) := h.put.wr.wrap
theorem Keeps.pointConn {e : Nat} {dev : Option Nat} {slot : Nat} : Keeps s (x.pointConn e dev slot) := by
  unfold State.pointConn
  extract_lets _ t
  have ht : Keeps s t := .ite h.connWr.endTransfers.setConn.connTo h
  split
  · exact .ite h h.connWr.closeConn
  · exact .ite h ht.connWr.connWr.connWr.startOpen
theorem Keeps.arrange : Keeps s x.arrange :=
  ((((h.wr.wr.fold fun l => .ite l l.pointConn).pointConn.pointConn.fold fun p => .ite p.pointConn p).fold fun q => .ite q q.pointConn).pointConn.pointConn.fold fun r8 => .ite r8.pointConn r8).showLive
theorem Keeps.reviewHeld : Keeps s x.reviewHeld := h.fold fun k => .ite k (.ite (.ite k.closeConn k) (.ite k.startOpen k))
theorem Keeps.cairnTo {e : Nat} {c : Cairn} : Keeps s (x.cairnTo e c) := .ite h.launch h
theorem Keeps.cairnOut {kind : Nat} {es : List Nat} : Keeps s (x.cairnOut kind es) := (h.fold fun k => k.cairnTo).put
theorem Keeps.cairns : Keeps s x.cairns := .via _ (.ite h.cairnOut h) fun k => .ite k (.via _ k.cairnOut.cairnOut fun m => .ite m.cairnOut m)
theorem Keeps.execCairnSend : KeepsR s (execCairnSend x) := .via _ h.wr fun k => .ite (.next k) (.next k.cairns.put)
theorem Keeps.joinMsg {dev op : Nat} {args : List Nat} : Keeps s (x.joinMsg dev op args) := h.launch
theorem Keeps.sendJoin : Keeps s x.sendJoin := h.useFree.put.fold fun l => l.joinMsg
theorem Keeps.sendTopJoin : Keeps s x.sendTopJoin := h.useFree.fold fun k => k.joinMsg
theorem Keeps.execJoinRetry : KeepsR s (execJoinRetry x) := .ite (.next h) (.ite (.next h.sendJoin) (.ite (.next h.sendTopJoin) (.next h)))
theorem Keeps.ackJoin {dev nonce : Nat} {quarantined : Bool} : Keeps s (x.ackJoin dev nonce quarantined) := h.joinMsg
theorem Keeps.joinGroup {dev nonce : Nat} {id : Identity} : Keeps s (x.joinGroup dev nonce id) := by
  unfold State.joinGroup
  exact .via _ h.setSeen.foundAgain fun k => (Keeps.ite (.via _ k.wr fun l => .ite l l.eventOp.useFree) k).reviewHeld.arrange.ackJoin
theorem Keeps.joinSystem {dev nonce : Nat} {id : Identity} {roster : List RosterEntry} : Keeps s (x.joinSystem dev nonce id roster) :=
  .ite h.setGroup.arrange.joinMsg h
theorem Keeps.execJoin {src nonce : Nat} {id : Identity} {roster : List RosterEntry} : KeepsR s (execJoin src nonce id roster x) :=
  .ite (.next h) (.ite (.ite (.next h.joinGroup) (.next h)) (.ite (.next h.joinSystem) (.next h)))
theorem Keeps.execJoinAck {src : Nat} {top : Bool} {epoch manager deputy : Nat} {quarantined : Bool} {roster groupKey : Nat} {sysKey : Option Nat} : KeepsR s (execJoinAck src top epoch manager deputy quarantined roster groupKey sysKey x) := by
  unfold Machine.execJoinAck
  extract_lets f _ t _ u v w y z
  have hf : ∀ {y}, Keeps s y → Keeps s (f y) := by
    intro y k
    unfold f
    split
    · exact .ite k k.putKey
    · exact k
  have ht : Keeps s t := hf h
  have hu : Keeps s u := ht.put
  have hv : Keeps s v := hu.wr.wr.arrange
  have hw : Keeps s w := hf h.putKey
  have hy : Keeps s y := hw.put
  have hz : Keeps s z := hy.wr.wr.wr
  exact .ite (.ite (.next h) (.next (.ite hv (hv.fold fun k => k.ackJoin)))) (.ite (.next h) (.ite (.next hz.wr.reviewHeld.arrange) (.ite (.next (hf h)) (.next h))))
theorem Keeps.toGroups {op : Nat} {body : List Byte} : Keeps s (x.toGroups op body) := h.fold fun k => .ite k.sendMsg k
theorem Keeps.memberLost {m : Nat} : Keeps s (x.memberLost m) := h.lostMsg.toMembers
theorem Keeps.rootsFail : Keeps s x.rootsFail := h.fold fun k => k.collFail
theorem Keeps.brRetryAll : Keeps s x.brRetryAll := h.fold fun k => k.brStage.showBedrock.send
theorem Keeps.follow {epoch m d : Nat} : Keeps s (x.follow epoch m d) :=
  .via _ h.wr.wr.wr.put fun l => .ite l (.via _ l.wr fun m => .via _ (.ite m.rootsFail m) fun o => .via _ (.ite o.arrange o) fun p => .via _ (.ite p.brRetryAll p) fun q => .ite q.sendJoin q)
theorem Keeps.claimGroup {epoch d : Nat} : Keeps s (x.claimGroup epoch d) :=
  (h.wr.wr.wr.wr.put.arrange.fold fun o => o.joinMsg).cairnOut.brRetryAll
theorem Keeps.takeover : Keeps s x.takeover := .via _ h.setSeen.claimGroup fun l => .ite l l.memberLost
theorem Keeps.execDeputyClaim : KeepsR s (execDeputyClaim x) := .ite (.next h.takeover) (.next h)
theorem Keeps.execWorkerClaimTimer : KeepsR s (execWorkerClaimTimer x) := .ite (.next h.takeover) (.next h)
theorem Keeps.execTopClaimTimer : KeepsR s (execTopClaimTimer x) :=
  .ite (.next (h.wr.wr.put.arrange.fold fun o => o.joinMsg).cairnOut) (.next h)
theorem Keeps.execManagerListenExpiry : KeepsR s (execManagerListenExpiry x) :=
  .ite (.next h) (.ite (.next h.sendJoin) (.via _ h.putKey.useFree fun k => .next (Keeps.ite k.putKey.useFree k).put.claimGroup))
theorem Keeps.followTop {epoch g d : Nat} : Keeps s (x.followTop epoch g d) := h.wr.wr.put.arrange
theorem Keeps.execClaim {h' : FabHdr} {top : Bool} {epoch deputy : Nat} : KeepsR s (execClaim h' top epoch deputy x) :=
  .ite (.next h) (.ite (.ite (.next h.followTop) (.next h)) (.ite (.next h.follow) (.next h)))
theorem Keeps.workerCairn {c : Cairn} : Keeps s (x.workerCairn c) := .ite h (.via _ h.setSeen.showLive fun k => .ite k.extendIn.toMembers k)
theorem Keeps.managerCairn {c : Cairn} : Keeps s (x.managerCairn c) :=
  .ite h (.ite h (.via _ h.follow fun k => .ite k (.via _ k.wr fun l => .via _ (Keeps.ite l.wr.arrange (.ite l.wr.arrange l)).reviewHeld.setSeen.put fun q => .via _ (.ite q.ctl q) fun r6 => .ite r6.wakeHot r6)))
theorem Keeps.groupCairn {c : Cairn} : Keeps s (x.groupCairn c) :=
  .ite h (.via _ h.setGroup fun k => .via _ (.ite k.arrange k) fun l => .ite l ((Keeps.ite l.extendIn.toGroups.toMembers l).fold fun o => o.lostIn.toGroups.toMembers))
theorem Keeps.topCairn {c : Cairn} : Keeps s (x.topCairn c) := .ite h h.setGroup.followTop
theorem Keeps.execCairn {h' : FabHdr} {c : Cairn} : KeepsR s (execCairn h' c x) :=
  .ite (.next h) (.ite (.next h.v1Discard) (.via _ h.put fun k => .ite (.next k.workerCairn) (.ite (.next k.managerCairn) (.ite (.next k.groupCairn) (.ite (.next k.topCairn) (.next k))))))
theorem Keeps.execMemberSilent {member : Nat} : KeepsR s (execMemberSilent member x) :=
  .ite (.next h) (.via _ h.setSeen.showLive fun k => .next (.ite k.memberLost k))
theorem Keeps.execRoster {h' : FabHdr} {reply : Option (List RosterEntry)} : KeepsR s (execRoster h' reply x) := by
  unfold Machine.execRoster
  refine .next ?_
  refine h.control fun k => ?_
  split
  · exact .ite k.ctl k
  · exact .ite (.via _ k.put.arrange fun k => .ite k.sendJoin k) k
theorem Keeps.execFwdRecompute : KeepsR s (execFwdRecompute x) :=
  .ite (.next h) (.via _ h.put.put fun l => .ite (.next l) (.via _ (l.fold fun m => m.ctl) fun m => .via _ (.ite m m.ctl) fun o => .next (.ite (o.fold fun p => p.ctl) o)))
theorem Keeps.execMap {h' : FabHdr} {groupLevel : Bool} {lists : List (Nat × List Nat)} : KeepsR s (execMap h' groupLevel lists x) :=
  .next (h.control fun k => .via _ (k.fold fun l => l.put) fun l => .ite (l.fold fun m => m.ctl) l)
theorem Keeps.execParentReselect : KeepsR s (execParentReselect x) := by
  unfold Machine.execParentReselect
  extract_lets _ _ best
  clear_value best
  split
  · exact .next h
  · split
    · exact .ite (.next h.noSource) (.next (.ite h.wr h))
    · exact .ite (.next h) (.via _ h.put.wr fun k => .ite (.next k.wr) (.next k.acquire))

/-! ### Machine/Bringup -/

theorem Keeps.quietPins : Keeps s x.quietPins := (h.fold fun k => k.pwren).fold fun l => .ite l.send l
theorem Keeps.execVaonPowerOn {maddr : Nat} : KeepsR s (execVaonPowerOn maddr x) := by
  unfold Machine.execVaonPowerOn
  split
  · exact .next h
  · extract_lets _ _ _ _ _ _ _ _ t
    have ht : Keeps s t := h.updReset rfl (Nat.le_refl _) rfl rfl
    exact .ite (.next ht.put) (.ite (.next ht) (.next ht.put))
theorem Keeps.execVaonPowerOff : KeepsR s (execVaonPowerOff x) := by
  unfold Machine.execVaonPowerOff
  split
  · exact .next h
  · extract_lets u v w t
    have hu : Keeps s u := .ite h.send h
    have hv : Keeps s v := .ite hu hu.send
    have hw : Keeps s w := .ite hv.send hv
    exact .next (hw.updReset rfl (Nat.le_refl _) rfl rfl)
omit h in
theorem Keeps.showSag {t : State} (k : Keeps s t) : Keeps s (x.showSag t) := by
  unfold State.showSag
  split
  · exact k
  · exact k.wr.wr.wr.wr.wr.wr
theorem Keeps.mainReset {keep : Nat → Bool} : Keeps s (x.mainReset keep) := by
  unfold State.mainReset
  extract_lets u _ _ _ _ _ _ _ _ _ _ t
  have hu : Keeps s u := h.keepCounts
  clear_value u
  have ht : Keeps s t := hu.updReset rfl (Nat.le_refl _) rfl rfl
  exact ht.showSag
theorem Keeps.execPerstNAssert : KeepsR s (execPerstNAssert x) :=
  .ite (.next h) (.next (h.withAlert fun k => .via _ k.quietPins fun l => .via _ (.ite l.send l) fun m => (Keeps.ite m.send m).mainReset.put))
theorem Keeps.loadFuses : Keeps s x.loadFuses := (h.wr.wr.wr.wr.wr.wr.wr.wr.fold fun o => o.wr).fold fun p => .ite p.wr p
theorem Keeps.loadFatal : Keeps s x.loadFatal := h.wr.wr.wr.wr.wr
theorem Keeps.setBoth {off v : Nat} : Keeps s (x.setBoth off v) := h.setReg.setShd
theorem Keeps.loadPop : Keeps s x.loadPop := by
  unfold State.loadPop
  extract_lets _ t
  have ht : Keeps s t := h.put
  refine ht.fold fun k => ?_
  extract_lets u
  have hu : Keeps s u := k.fold fun k => k.wr
  split
  · exact hu
  · exact hu.wr.wr.wr.wr.wr.setBoth.wr
theorem Keeps.loadEnvelope : Keeps s x.loadEnvelope := .via _ h.setBoth.setBoth fun l => .ite l.event l
theorem Keeps.loadIdent : Keeps s x.loadIdent := by
  unfold State.loadIdent
  split
  · exact h.wr.wr.wr.wr.wr.wr
  · exact h
theorem Keeps.loadRoster : Keeps s x.loadRoster := h.put
theorem Keeps.loadRegs : Keeps s x.loadRegs := h.fold fun k => .ite k.setBoth k
theorem Keeps.loadPorts : Keeps s x.loadPorts := h.fold fun k => .ite k.setPortState (.via _ k.setBoth.setPort fun l => .ite l l.setPortState)
theorem Keeps.regulators {absent : List Nat} : Keeps s (x.regulators absent) := (h.fold fun k => k.wr.eventOpen).put.fold fun m => m.eventAny
theorem Keeps.startMain {rails : RailReport} {sysref late : Bool} : Keeps s (x.startMain rails sysref late) := by
  unfold State.startMain
  extract_lets cut _ booted _ _ released loaded _ staged _ keyed
  have hcut : Keeps s cut := h.mainReset
  clear_value cut
  have hreleased : Keeps s released := Keeps.put (Keeps.put hcut)
  clear_value released
  have hloaded : Keeps s loaded := hreleased.loadFuses.loadFatal.showWear
  clear_value loaded
  have hkeyed : Keeps s keyed := Keeps.useFree (Keeps.put (Keeps.put hloaded))
  exact .ite hloaded hkeyed.loadPop.loadEnvelope.loadIdent.loadRoster.loadRegs.loadPorts.regulators.showShare
theorem Keeps.execPerstNRelease {rails : RailReport} {sysref late : Bool} : KeepsR s (execPerstNRelease rails sysref late x) :=
  .ite (.next h) (.next (h.withAlert fun k => k.startMain))
theorem Keeps.toStage {n : Nat} : Keeps s (x.toStage n) := h.put
theorem Keeps.narrow {plan : Nat} : Keeps s (x.narrow plan) := h.put
theorem Keeps.execRouteFlintEnd {nocPll : Bool} {routers links segments dead : List Nat} : KeepsR s (execRouteFlintEnd nocPll routers links segments dead x) :=
  .ite (.next h) (.ite (.next h.narrow) (.via _ (((h.fold fun k => k.retireLink).fold fun l => l.loseCluster).put.loseUnreachable.routesTaken.switchover.fold fun o => o.put.eventOpen) fun o => .next (.ite o.toStage o.narrow)))
theorem Keeps.failSlot {p : Nat} : Keeps s (x.failSlot p) := h.setSlot.put
theorem Keeps.execTileFlintEnd {failed : List Nat} {corrected : List (Nat × Nat)} {plls movers crcs colls : List Nat} {strm core : Bool} :
    KeepsR s (execTileFlintEnd failed corrected plls movers crcs colls strm core x) := by
  unfold Machine.execTileFlintEnd
  refine .ite (.next h) (.ite (.next h.narrow) ?_)
  extract_lets _ fenced counted slots _ wiped moved checked gathered streamed clocked
  have hslots : Keeps s slots :=
    ((h.fold fun k => k.fenceQuad).fold fun k => k.setSlot.sat).fold fun k => k.failSlot
  have hwiped : Keeps s wiped := hslots.updStore id fun _ => Memory.nil_wf
  have hgathered : Keeps s gathered :=
    ((hwiped.fold fun k => k.fenceMover).fold fun k => k.fenceCrc).fold fun k => k.fenceColl
  have hstreamed : Keeps s streamed := .ite hgathered.fenceStream hgathered
  exact .next ((hstreamed.fold fun k => k.quadClock).toMhz.toStage)
theorem Keeps.withdraw {g : Nat} : Keeps s (x.withdraw g) := h.setOwn.put
theorem Keeps.replaceCell {cell : Nat} : Keeps s (x.replaceCell cell) := by
  unfold State.replaceCell
  split
  · exact h.startCopy.endCopy
  · extract_lets _ t
    have ht : Keeps s t := h.put.showCells
    split
    · exact ht.withdraw
    · exact ht
theorem Keeps.reapply : Keeps s x.reapply := h.put.put.fold fun m => .ite m m.wr.wr
theorem Keeps.execStackTrainingEnd {absent failed : List Nat} : KeepsR s (execStackTrainingEnd absent failed x) :=
  .ite (.next h) (.via _ ((h.fold fun k => k.wr).put.wr.wr.wr.wr.put.reapply.fold fun r7 => r7.replaceCell) fun r7 => .next ((Keeps.ite r7.narrow r7).toStage))
theorem Keeps.bindTiles : Keeps s x.bindTiles := (h.put.fold fun l => l.setReg.wr.wr.wr.wr.fold fun q => q.setReg.wr).showTiles
theorem Keeps.execClusterBinding : KeepsR s (execClusterBinding x) := .ite (.next h) (.next h.bindTiles.put.toStage)
theorem Keeps.rewriteRecord : Keeps s x.rewriteRecord := h.put

/-! ### Machine/Keys -/

theorem Keeps.bumpSlot {k : Nat} : Keeps s (x.bumpSlot k) := h.fold fun k => .ite k.bumpGen k
theorem Keeps.ideSecure {k v : Nat} : Keeps s (x.ideSecure k v) := .ite h.wr h
theorem Keeps.emptySlot {k : Nat} : Keeps s (x.emptySlot k) := h.put.wr.ideSecure
theorem Keeps.loadSlot {k key : Nat} : Keeps s (x.loadSlot k key) := .ite h.putKey.ideSecure.msixFlush h.putKey
theorem Keeps.keyStatus {status : Nat} : Keeps s (x.keyStatus status) := h.send
theorem Keeps.applyChange {c : SlotChange} : Keeps s (x.applyChange c) := by
  unfold State.applyChange
  extract_lets t
  have ht : Keeps s t := by
    unfold t
    split
    · exact h.emptySlot.loadSlot
    · exact h.emptySlot
  split
  · exact ht.keyStatus
  · exact ht
theorem Keeps.settleSlot {k : Nat} : Keeps s (x.settleSlot k) :=
  .ite h (((h.put.fold fun l => l.applyChange).wr).bumpSlot.fold fun o => .ite o.startOpen o)
theorem Keeps.changeSlot {c : SlotChange} : Keeps s (x.changeSlot c) :=
  .ite (h.applyChange.bumpSlot.fold fun l => .ite l.startOpen l) (h.put.wr.fold fun l => l.closeConn)
theorem Keeps.lateChanges : Keeps s x.lateChanges := h.put.fold fun l => l.keyStatus
theorem Keeps.execSlotDrainDone {slot : Nat} : KeepsR s (execSlotDrainDone slot x) := .next h.settleSlot
theorem Keeps.execSecSlotCmd {src : BusSrc} {v : Word} : KeepsR s (execSecSlotCmd src v x) :=
  .ite (.next h.regEvent) (.ite (.next h) (.ite (.next h.changeSlot) (.next h)))
theorem Keeps.execKeySet {slot key : Nat} : KeepsR s (execKeySet slot key x) :=
  .ite (.next h.send) (.ite (.next h.keyStatus) (.ite (.next h.keyStatus) (.ite (.next h.keyStatus) (.next h.changeSlot))))
theorem Keeps.execKeyClear {slot : Nat} : KeepsR s (execKeyClear slot x) :=
  .ite (.next h.send) (.ite (.next h.keyStatus) (.ite (.next h.keyStatus) (.ite (.next h.keyStatus) (.next h.changeSlot))))
theorem Keeps.execGroupKeyGraceEnd : KeepsR s (execGroupKeyGraceEnd x) := .next h.put
theorem Keeps.mgLast {code tag status : Nat} {payload : List Byte} : Keeps s (x.mgLast code tag status payload) := h.put
theorem Keeps.mgEnd {status : Nat} {payload : List Byte} : Keeps s (x.mgEnd status payload) := by
  unfold State.mgEnd
  split
  · exact h
  · exact h.put.mgLast
theorem Keeps.mgStore {kind : Nat} {f : State → State} (k : ∀ {y}, Keeps s y → Keeps s (f y)) : KeepsQ s (x.mgStore kind f) := by
  unfold State.mgStore
  refine .mk ?_
  refine h.storeWrite fun l => ?_
  exact k l
theorem Keeps.mgmtTake {code tag : Nat} {status : Bool} {f : State → State × MgAnswer} (k : ∀ {y}, Keeps s y → KeepsQ s (f y)) : Keeps s (x.mgmtTake code tag status f) := by
  unfold State.mgmtTake
  split
  · exact h
  · split
    · exact h.put
    · split
      · exact h.mgLast
      · split
        · exact h.mgLast
        · split
          next t _ _ e => exact ((k h).at e).mgLast
          next t e => exact ((k h).at e).put

/-! ### Machine/Blanket -/

theorem Keeps.forgetRegs {lo hi : Nat} : Keeps s (x.forgetRegs lo hi) := h.put
theorem Keeps.resetWhere {p : Nat → Bool} : Keeps s (x.resetWhere p) := h.fold fun k => k.resetRwc
theorem Keeps.dropRing {r : Nat} : Keeps s (x.dropRing r) := h.clearRing.unhalt.forgetRegs
theorem Keeps.dropCrc {rings : List Nat} : Keeps s (x.dropCrc rings) := by
  unfold State.dropCrc
  refine h.fold fun k => ?_
  extract_lets _ t _ u
  have ht : Keeps s t := by
    unfold t
    split
    · exact .ite k.crcRelease k
    · exact k
  have hu : Keeps s u := ht.setCrc
  exact .ite hu hu.wr.wr.wr.setReg
theorem Keeps.dropKernels : Keeps s x.dropKernels := by
  unfold State.dropKernels
  refine h.fold fun k => ?_
  extract_lets _ t
  have ht : Keeps s t := k.setTile
  split
  · exact .ite ht ht.stopTile
  · exact ht
theorem Keeps.dropRecords : Keeps s x.dropRecords := h.fold fun k => .ite k k.abortRecord
theorem Keeps.dropContexts : Keeps s x.dropContexts := h.resetWhere.setReg.setShd.fold fun m => m.bumpGen
theorem Keeps.dropConns : Keeps s x.dropConns := (h.put.fold fun l => .ite l.connWr.closeConn l).put
theorem Keeps.settleConns : Keeps s x.settleConns := h.put.put.showConns
theorem Keeps.tdispError : Keeps s x.tdispError := .ite h.put.wr.eventOpen h
theorem Keeps.blanketBegin {cause : Nat} : Keeps s (x.blanketBegin cause) :=
  ((((h.put.wr.tdispError.put.dropCrc.dropKernels.fold fun q => q.dropRing).wr.setReg.fold fun r7 => r7.collFail).fold fun r8 => r8.freeMirror.setReg).dropRecords.fold fun r10 => r10.closeFlow).put.dropContexts.dropConns.fold fun r13 => .ite r13.changeSlot r13
theorem Keeps.startBlanket {cause : Nat} : Keeps s (x.startBlanket cause) := .ite h.put (.ite h h.blanketBegin)
theorem Keeps.execSecBlanket {src : BusSrc} {v : Word} : KeepsR s (execSecBlanket src v x) := .ite (.next h) (.next h.startBlanket)
theorem Keeps.execBlanket {tag : Nat} : KeepsR s (execBlanket tag x) := .next (h.mgmtTake fun k => .mk k.startBlanket)
theorem Keeps.freshen : Keeps s x.freshen :=
  (Keeps.useFree (h.updStore (Memory.filter_wf _ _) id)).wr
theorem Keeps.zeroSram : Keeps s x.zeroSram := by
  unfold State.zeroSram
  extract_lets woken parked _ _ _ wiped
  have hwoken : Keeps s woken := h.fold fun k => .ite k k.wakeQuad
  clear_value woken
  have hwiped : Keeps s wiped := hwoken.updStore id fun _ => Memory.nil_wf
  exact hwiped.fold fun k => k.answerPoison
theorem Keeps.checkBedrock : Keeps s x.checkBedrock := .ite h ((h.fold fun k => k.startRepair).brRetryAll)
theorem Keeps.execBlanketDrained : KeepsR s (execBlanketDrained x) :=
  .ite (.next h) (.via _ ((h.fold fun k => k.emptySlot).wr.settleConns.fold fun m => m.settleSlot) fun m => .next (((Keeps.ite m.bedrockGone m).put.freshen.put.fold fun r6 => r6.endMailbox.resetSite).fold fun r7 => r7.showEntries).zeroSram.checkBedrock.put)
theorem Keeps.substituteAll : Keeps s x.substituteAll :=
  (((h.fold fun k => k.rebindTile).fold fun l => l.endCopy).fold fun m => m.replaceCell).put.resume.setReg
theorem Keeps.shrink : Keeps s x.shrink := .ite h.put h.bindTiles.put
theorem Keeps.siteBlanket {n : Nat} : Keeps s (x.siteBlanket n) := h.setBoth.setSite.wr.fold fun m => m.wr
theorem Keeps.blanketFields : Keeps s x.blanketFields :=
  ((h.keepCounts.resetWhere.put.fold fun o => o.siteBlanket).fold fun p => p.wr).wr.wr.wr.wr.put.pwrBlanket.showShare.showAdmit.showReady
theorem Keeps.blanketEvents : Keeps s x.blanketEvents := (h.fold fun k => k.closeWindow).wr.wr
theorem Keeps.beginBedrock {m : Manifest} {host : Option Nat} : Keeps s (x.beginBedrock m host) :=
  (h.fold fun k => k.zeroGranule.setOwn).put.useFree.setReg.wr.wr.wr.brAsk
theorem Keeps.installBedrock {m : Manifest} {host : Option Nat} : KeepsQ s (x.installBedrock m host) :=
  .ite (.mk h.put.brAsk) (.ite (.mk h) (.ite (.mk ((h.storeWrite fun k => k.put).beginBedrock)) (.mk (h.storeWrite fun k => k.put))))
theorem Keeps.giveNonce : KeepsQ s x.giveNonce := .mk h.useFree.put
theorem Keeps.beginEol {nonce : Nat} {genuine : Bool} : KeepsQ s (x.beginEol nonce genuine) :=
  .via _ h.put fun k => .ite (.mk k.put.startBlanket) (.mk k)
theorem Keeps.settleEol : Keeps s x.settleEol := .ite h.put.mgEnd h
theorem Keeps.runDeferred : Keeps s x.runDeferred := by
  unfold State.runDeferred
  split
  · exact h
  · extract_lets _ t
    have ht : Keeps s t := h.put
    split
    · exact ht.installBedrock.fst.mgEnd
    · exact ht.put.mgEnd
    · exact ht.giveNonce.fst.mgEnd
    · exact .ite ht.beginEol.fst ht.beginEol.fst.mgEnd
theorem Keeps.blanketStatus : Keeps s x.blanketStatus := h.wrap.wr.wr.wr.wr.wr.showZero
theorem Keeps.bedrockReport : Keeps s x.bedrockReport := (h.fold fun k => k.brFail).fold fun l => l.post
theorem Keeps.blanketEnd : Keeps s x.blanketEnd := by
  unfold State.blanketEnd
  extract_lets t _ u _ _ v w y z
  have ht : Keeps s t := h.settleConns.substituteAll.shrink.blanketFields.bedrockReport.blanketEvents.rewriteRecord
  have hu : Keeps s u := ht.wr
  have hv : Keeps s v := hu.put
  have hw : Keeps s w := hv.blanketStatus.event
  have hy : Keeps s y := .ite hw.send hw
  have hz : Keeps s z := by
    unfold z
    split
    · exact hy.mgEnd
    · exact hy
  exact hz.settleEol.runDeferred
theorem Keeps.execBlanketAttested : KeepsR s (execBlanketAttested x) := .ite (.next h) (.next h.blanketEnd)
theorem Keeps.becomeReady {readyMs : Nat} : Keeps s (x.becomeReady readyMs) := by
  unfold State.becomeReady
  extract_lets t u _ v _ _ w _ y z t' u'
  have ht : Keeps s t := .ite h.wr h
  have hu : Keeps s u := ht.wr.setShd
  have hv : Keeps s v := hu.wr.wr
  have hw : Keeps s w := hv.put
  have hy : Keeps s y := hw.put
  have hz : Keeps s z := .ite hy.wr.brakeTaken hy
  have ht' : Keeps s t' := .ite hz.sendJoin hz
  have hu' : Keeps s u' := by
    unfold u'
    split
    · exact .ite ht'.beginBedrock ht'
    · exact ht'
  split
  · exact hu'.put.startBlanket
  · exact hu'
theorem Keeps.execHubReadySet {readyMs : Nat} : KeepsR s (execHubReadySet readyMs x) := .ite (.next h) (.next h.becomeReady)

/-! ### Machine/Security -/

theorem Keeps.deferTo {w : Deferred} : KeepsQ s (x.deferTo w) := .mk h.put
theorem Keeps.execBedrockInstall {tag : Nat} {m : Manifest} {host : Option Nat} : KeepsR s (execBedrockInstall tag m host x) :=
  .next (h.mgmtTake fun k => .ite k.deferTo (.mk k.installBedrock.fst))
theorem Keeps.execBedrockRemove {tag : Nat} : KeepsR s (execBedrockRemove tag x) := .next (h.mgmtTake fun k => .ite k.deferTo (.mk k.put))
theorem Keeps.execFwWrite {tag svn major minor digest : Nat} {genuine : Bool} : KeepsR s (execFwWrite tag svn major minor digest genuine x) :=
  .next (h.mgmtTake fun k => k.mgStore fun l => l.put)
theorem Keeps.execSvnCommit {tag : Nat} : KeepsR s (execSvnCommit tag x) := .next (h.mgmtTake fun k => .ite (.mk k) (.mk k.put.wr.wr))
theorem Keeps.execLcNonce {tag : Nat} : KeepsR s (execLcNonce tag x) := .next (h.mgmtTake fun k => .ite k.deferTo (.mk k.giveNonce.fst))
theorem Keeps.execLcEol {tag nonce : Nat} {genuine : Bool} : KeepsR s (execLcEol tag nonce genuine x) :=
  .next (h.mgmtTake fun k => .ite k.deferTo (.mk k.beginEol.fst))
theorem Keeps.execLcTestTransition {serial : Nat} {part : Part} {quads : List Nat} : KeepsR s (execLcTestTransition serial part quads x) :=
  .ite (.next h) (.ite (.next h.put) (.ite (.next h.put) (.next h)))

/-! ### Machine/Admission -/

theorem Keeps.endOutbound : Keeps s x.endOutbound := h.fold fun k => k.countHost.answerReq
theorem Keeps.dropInbound : Keeps s x.dropInbound := h.forgetRequests.orphan.put
theorem Keeps.functionReset : Keeps s x.functionReset :=
  (h.tdispError.put.fold fun m => m.emptySlot).put.dropInbound.endOutbound.enterD0.wr.startBlanket
theorem Keeps.linkDown : Keeps s x.linkDown := h.wr.pstate
theorem Keeps.execFlr : KeepsR s (execFlr x) := .next (.ite h.functionReset h)
theorem Keeps.execHotReset : KeepsR s (execHotReset x) := .next (.ite h.linkDown.functionReset h)
theorem Keeps.execLinkDisable : KeepsR s (execLinkDisable x) := .next (.ite h.linkDown.put.functionReset h)
theorem Keeps.execLinkLoss : KeepsR s (execLinkLoss x) := .next (.ite h.linkDown.functionReset h)
theorem Keeps.cfgWrite {off v : Nat} : Keeps s (x.cfgWrite off v) := by
  unfold State.cfgWrite
  split
  · exact h.tdispError
  · extract_lets _ t _ u w
    have ht : Keeps s t := h.put
    have hu : Keeps s u := ht.put
    have hw : Keeps s w := ht.put
    split
    · exact ht.put
    · exact .ite hu.enterD3 (.ite hu.enterD0 hu)
    · exact .ite hw hw.msixFlush
    · exact .ite ht.functionReset ht
    · exact (Keeps.ite ht ht.put).ltrCheck
    · exact ht
theorem Keeps.execConfigRequest {write : Bool} {off : Nat} {v : Word} : KeepsR s (execConfigRequest write off v x) :=
  .ite (.next h) (.ite (.next h.send) (.ite (.next h.cfgWrite.send) (.next h.send)))
theorem Keeps.doe {code : Nat} {words : List Nat} : Keeps s (x.doe code words) := h.send
theorem Keeps.signed {code nonce : Nat} {words : List Nat} : Keeps s (x.signed code nonce words) := h.doe.useFree
theorem Keeps.execGetVersion : KeepsR s (execGetVersion x) := .next (.ite h.doe h)
theorem Keeps.execGetCapabilities : KeepsR s (execGetCapabilities x) := .next (.ite h.doe h)
theorem Keeps.execNegotiateAlgorithms : KeepsR s (execNegotiateAlgorithms x) := .next (.ite h.doe h)
theorem Keeps.execGetDigests : KeepsR s (execGetDigests x) := .next (.ite h.doe h)
theorem Keeps.execGetCertificate : KeepsR s (execGetCertificate x) := .next (.ite h.doe h)
theorem Keeps.execChallenge {nonce : Nat} : KeepsR s (execChallenge nonce x) := .next (.ite h.signed h)
theorem Keeps.execGetMeasurements {index nonce : Nat} : KeepsR s (execGetMeasurements index nonce x) :=
  .next (.ite h (.ite h.signed (.ite h.signed (.ite h.signed h.doe))))
theorem Keeps.execKeyExchange {share : Nat} : KeepsR s (execKeyExchange share x) := .next (.ite h (.ite h.doe h.put.signed))
theorem Keeps.execFinish {genuine : Bool} : KeepsR s (execFinish genuine x) :=
  .next (.ite h (.ite h.doe (.via _ h.put fun k => .ite k.put.doe k.doe)))
theorem Keeps.execKeyUpdate : KeepsR s (execKeyUpdate x) := .next (.ite h (.ite h.doe h.doe))
theorem Keeps.execHeartbeat : KeepsR s (execHeartbeat x) := .next (.ite h (.ite h.doe h.doe))
theorem Keeps.execEndSession : KeepsR s (execEndSession x) := .next (.ite h (.ite h.put.doe h.doe))
theorem Keeps.execIdeKmProgram {stream key : Nat} : KeepsR s (execIdeKmProgram stream key x) :=
  .next (.ite h (.ite h.doe (.ite h.doe h.changeSlot.doe)))
theorem Keeps.execIdeTlpFailure {stream : Nat} : KeepsR s (execIdeTlpFailure stream x) := .ite (.next h) (.next h.sat.ideSecure.tdispError)
theorem Keeps.execLockInterface : KeepsR s (execLockInterface x) := .next (.ite h (.ite h.doe ((h.put.fold fun l => l.spdmSend).lockCheck)))
theorem Keeps.execStartInterface : KeepsR s (execStartInterface x) := .next (.ite h (.ite h.wr.doe h.doe))
theorem Keeps.execStopInterface : KeepsR s (execStopInterface x) := .next (.ite h (.ite h.doe h.put.startBlanket))

/-! ### Machine/Hamper -/

theorem Keeps.startSub {r seq op : Nat} : Keeps s (x.startSub r seq op) := by
  unfold State.startSub
  split
  · exact h.startNop
  · exact h.startMove
  · exact h.startMove
  · exact h.startMove
  · exact h.startTiles
  · exact h.startCrc
  · exact h.startCrc
  · exact h.startCrc
  · exact h.startCrc
  · exact h.startMirrorSet
  · exact h.startMirrorSync
  · exact h.startMirrorClear
  · exact h.startRelease
  · exact h.startWatch
  · exact h.startColl
theorem Keeps.issueSub {r : Nat} {d : Run} {i : Nat} : Keeps s (x.issueSub r d i) := by
  unfold State.issueSub
  extract_lets _ f
  have hf : ∀ {y a1}, Keeps s y → Keeps s (f y a1) := fun k => k.updRun
  split
  · exact (hf h).finish
  · split
    · exact h
    · split
      · exact (hf h).finish
      · exact .ite h.ringFault.snd ((hf h.ringFault.snd).finish)
      · exact .ite ((hf h).finish) ((hf h).startSub)
theorem Keeps.endHamper {r : Nat} {d : Run} : Keeps s (x.endHamper r d) := h.updRun.advanceGen
theorem Keeps.hamperOn {r : Nat} {d : Run} : Keeps s (x.hamperOn r d) := .ite h (.via _ h.updRun fun k => .ite k.endHamper k.issueSub)
theorem Keeps.issueHamper {r : Nat} {q : QDesc} : Keeps s (x.issueHamper r q) := by
  unfold State.issueHamper
  extract_lets _ _ t
  have ht : Keeps s t := h.takeHead.updRun
  split
  · exact h.endHead
  · split
    · exact h.endHead
    · exact .ite h.ringFault.snd h.ringFault.snd.endHead
    · split
      · exact .ite h.orphan.setRing.wr h.endHead
      · split
        · exact h
        · split
          · exact h.endHead
          · split
            · split
              · exact h.endHead
              · extract_lets u
                have hu : Keeps s u := h.takeHead.updRun
                split
                · exact hu.hamperOn
                · exact hu
            · split
              · exact ht.hamperOn
              · exact ht
theorem Keeps.execHamper {ring : Nat} : KeepsR s (execHamper ring x) := by
  unfold Machine.execHamper
  split
  · exact .next h
  · exact .ite (.next h) (.ite (.next h.endHead) (.ite (.next h) (.ite (.next h) (.next h.issueHamper))))
theorem Keeps.execHamperNextSub {ring : Nat} : KeepsR s (execHamperNextSub ring x) := by
  unfold Machine.execHamperNextSub
  extract_lets
  split
  · exact .next h
  · split
    · exact .next h
    · exact .next h.hamperOn

/-! ### Machine/Ras -/

theorem Keeps.execHeartbeatLoss : KeepsR s (execHeartbeatLoss x) := .ite (.next h) (.next h.fatalOpen.put)
theorem Keeps.execFatalParity {xlat : Bool} : KeepsR s (execFatalParity xlat x) := .ite (.next h) (.next h.fatalOpen.put)
theorem Keeps.execEventCoalesceTimer {code unit : Nat} : KeepsR s (execEventCoalesceTimer code unit x) := .ite (.next h.closeWindow) (.next h)
theorem Keeps.execRasInject {v : DWord} : KeepsR s (execRasInject v x) :=
  .ite (.next h) (.via _ (.ite h.regEvent h) fun k => .ite (.next k.wr) (.next k.put.wr))
theorem Keeps.clearFatal {seq : Nat} : Keeps s (x.clearFatal seq) := h.put.wr.wr.wr.withAlert fun m => .via _ m.wr fun o => .ite o.wr o
theorem Keeps.execFatalClear {tag seq : Nat} : KeepsR s (execFatalClear tag seq x) := .next (h.mgmtTake fun k => k.mgStore fun l => l.clearFatal)

/-! ### Machine/RegFile -/

theorem Keeps.readEffect {o : Nat} : Keeps s (x.readEffect o) := by
  unfold State.readEffect
  split
  · exact h.popStamp.snd
  · exact h
theorem Keeps.readWord {v : Viewer} {o : Nat} : KeepsP s (x.readWord v o) := by
  unfold State.readWord
  split
  · exact .mk h
  · split
    · exact .mk h
    · split
      · exact .mk h
      · split
        · exact .mk h.readEffect.put
        · split
          · exact .mk h.put
          · exact .mk h
theorem Keeps.readDouble {v : Viewer} {o : Nat} : KeepsP s (x.readDouble v o) := by
  unfold State.readDouble
  split
  · exact .ite (.mk h.readEffect.put) (.mk h.readWord.snd.readWord.snd)
  · exact .mk h.readWord.snd.readWord.snd
theorem Keeps.doRead {src : BusSrc} {o size : Nat} : Keeps s (x.doRead src o size) := ((KeepsP.ite h.readDouble h.readWord).snd).send
theorem Keeps.writeFields {o : Nat} {d : RegDesc} {v : Nat} : Keeps s (x.writeFields o d v) := by
  unfold State.writeFields
  refine h.fold fun k => ?_
  extract_lets
  split
  · exact k.wr
  · exact k.wr
  · exact k.setShd
  · exact k
omit h in
/-- A command that an access starts is carried out on the state it is given. -/
theorem KeepsR.took {y : State} {o : Host.Outcome State Fault Refusal} (h : KeepsR s o) : Keeps s (y.took o) := by
  obtain ⟨t, rfl, kept⟩ := h
  exact kept
theorem Keeps.tileCommit {l i v : Nat} : Keeps s (x.tileCommit l i v) := .ite h (.ite h.commitRefused h.commitReg.commitDone)
theorem Keeps.writeEvtCfg {v : Nat} : Keeps s (x.writeEvtCfg v) :=
  .via _ h.wr fun k => .via _ (.ite k (.ite k.regEvent (.ite k.regEvent k.wr))) fun l => .ite l.wr (.ite l (.ite l.wr l.regEvent))
theorem Keeps.writeConn {v : Nat} : Keeps s (x.writeConn v) := h.put
theorem Keeps.writeRoute {v : Nat} : Keeps s (x.writeRoute v) := .ite h h.put
theorem Keeps.writeFwd {v : Nat} : Keeps s (x.writeFwd v) := .ite h h.put
theorem Keeps.writeWin {o : Nat} {d : RegDesc} {v : Nat} : Keeps s (x.writeWin o d v) := h.writeFields.put
theorem Keeps.writeRecCmd {n v : Nat} : Keeps s (x.writeRecCmd n v) := by
  unfold State.writeRecCmd
  extract_lets
  split
  · exact h.execSiteRecRetry.took
  · exact h.execSiteRecSpare.took
  · exact h.execSiteRecHalf.took
  · exact h.execSiteRecRetire.took
  · exact h.execSiteRecRetrain.took
  · exact h.regEvent
theorem Keeps.writePortRec {p v : Nat} : Keeps s (x.writePortRec p v) := by
  unfold State.writePortRec
  split
  · exact h.execPortRecRetry.took
  · exact h.execPortRecHalf.took
  · exact h.execPortRecDown.took
  · exact h.regEvent
theorem Keeps.writeGran {v : Nat} : Keeps s (x.writeGran v) := by
  unfold State.writeGran
  split
  · exact h.execGranSet.took
  · exact h.execGranSetZero.took
  · exact h.execGranRead.took
  · exact h.regEvent
theorem Keeps.writeCtxCmd {src : BusSrc} {v : Nat} : Keeps s (x.writeCtxCmd src v) := by
  unfold State.writeCtxCmd
  split
  · exact h.execInstall.took
  · exact h.execFree.took
  · exact h.execCtxRead.took
  · exact h.regEvent
theorem Keeps.writeRingCmd {r v : Nat} : Keeps s (x.writeRingCmd r v) := by
  unfold State.writeRingCmd
  split
  · exact h
  · exact h.execRestart.took
  · exact h.execAbort.took
  · exact h.regEvent
theorem Keeps.writeActs {src : BusSrc} {b o v : Nat} {d : RegDesc} : KeepsO s (x.writeActs src b o v d) :=
  .ite (.some h.execGlbCommit.took) (.ite (.some h.execGlbSubstCmd.took) (.ite (.some h.execPwrCommit.took) (.ite (.some h.execPwrSetpoint.took) (.ite (.some h.execTimeCommit.took) (.ite (.some h.execTimeSecNext.took) (.ite (.some h.execTimeSteer.took) (.ite (.some h.execToutSchedule.took) (.ite (.some h.execSecBlanket.took) (.ite (.some h.execSecSlotCmd.took) (.ite (.some h.execHostCommit.took) (.ite (.some h.writeWin) (.ite (.some h.execQmCommit.took) (.ite (.some h.writeEvtCfg) (.ite (.some (.ite h.regEvent h.writeFields)) (.ite (.some h.writeRingCmd) (.ite (.some h.execXlatInv.took) (.ite (.some (.ite h.execFaultAbort.took h.execFaultResume.took)) (.ite (.some h.execRegCommit.took) (.ite (.some h.execHbmCommit.took) (.ite (.some h.writeGran) (.ite (.some (.ite h.execPprRepair.took (.ite h.execPprDismiss.took h))) (.ite (.some h.execBedrockSupply.took) (.ite (.some h.execNocCommit.took) (.ite (.some h.writeRoute) (.ite (.some h.execSiteCommit.took) (.ite (.some h.writeRecCmd) (.ite (.some (.ite h.startMailbox h)) (.ite (.some h.execCohCommit.took) (.ite (.some h.execFabCommit.took) (.ite (.some h.writeConn) (.ite (.some h.writeFwd) (.ite (.some h.writePortRec) (.ite (.some h.execStrmCommit.took) (.ite (.some h.writeCtxCmd) (.ite (.some h.execCollCommit.took) (.ite (.some h.releaseStep) (.ite (.some h.writeCrcCtl) (.ite (.some h.writeCrcVal) (.ite (.some h.tileCommit) (.ite (.some h.execRasInject.took) (.ite (.some (.ite h h.writeFields)) .none)))))))))))))))))))))))))))))))))))))))))
theorem Keeps.writeReg {src : BusSrc} {o : Nat} {d : RegDesc} {v : Nat} : Keeps s (x.writeReg src o d v) :=
  .ite h (.ite (.ite h.regEvent h) (h.writeActs.getD h.writeFields))
theorem Keeps.halfRefused {b o : Nat} {d : RegDesc} {v : Nat} : Keeps s (x.halfRefused b o d v) := .ite h.regEvent h
theorem Keeps.writeWord {src : BusSrc} {o v : Nat} : Keeps s (x.writeWord src o v) := by
  unfold State.writeWord
  split
  · exact h.setMsixWord
  · split
    · exact h
    · exact .ite h.writeReg (.ite h.halfRefused (.ite h.put h.put.writeReg))
theorem Keeps.writeDouble {src : BusSrc} {o v : Nat} : Keeps s (x.writeDouble src o v) := by
  unfold State.writeDouble
  extract_lets f
  have hf : ∀ {y}, Keeps s y → Keeps s (f y) := fun k => k.writeWord.writeWord
  split
  · exact .ite (hf h) (.ite h.writeReg h.put.writeReg)
  · exact hf h
theorem Keeps.doWrite {src : BusSrc} {o size v : Nat} : Keeps s (x.doWrite src o size v) := .ite h.writeDouble h.writeWord
theorem Keeps.doAccess {a : RegWait} : Keeps s (x.doAccess a) := by
  unfold State.doAccess
  split
  · exact h.doWrite
  · exact h.doRead
theorem Keeps.takeAccess {src : BusSrc} {o size : Nat} {w : Option DWord} : Keeps s (x.takeAccess src o size w) := by
  unfold State.takeAccess
  extract_lets _ f
  have hf : ∀ {y a1}, Keeps s y → Keeps s (f y a1) := fun k => k.put
  split
  · exact h.doAccess
  · exact hf h
  · exact (hf h).wakeQuad
  · exact hf h
theorem Keeps.execRegisterWrite {src : BusSrc} {off size : Nat} {v : DWord} : KeepsR s (execRegisterWrite src off size v x) :=
  .next (h.gated fun k => .ite k.takeAccess k.sat.regEvent.send)
theorem Keeps.execRegisterRead {src : BusSrc} {off size : Nat} : KeepsR s (execRegisterRead src off size x) :=
  .next (h.gated fun k => .ite k.takeAccess k.sat.regEvent.send)
theorem Keeps.execRegisterPathTimeout : KeepsR s (execRegisterPathTimeout x) := by
  unfold Machine.execRegisterPathTimeout
  split
  · exact .next h
  · exact .via _ h.put.refusal fun k => .next (.ite k k.send)
theorem Keeps.execQuadPllLock {quad : Nat} : KeepsR s (execQuadPllLock quad x) :=
  .ite (.next h) (.next (h.quadLocked.put.fold fun l => l.doAccess))

/-! ### Machine/Mgmt -/

theorem Keeps.execMgmtRead {tag off len : Nat} : KeepsR s (execMgmtRead tag off len x) :=
  .next (h.mgmtTake fun k => .ite (.mk k) (.mk (k.fold fun l => l.readEffect)))
theorem Keeps.execMgmtWrite {tag off : Nat} {v : Word} : KeepsR s (execMgmtWrite tag off v x) :=
  .next (h.mgmtTake fun k => .ite (.mk (k.withAlert fun l => l.fold fun m => .ite m.wr m)) (.ite (.mk (k.withAlert fun l => l.wr)) (.mk k)))
theorem Keeps.execEvtAck {tag seq : Nat} : KeepsR s (execEvtAck tag seq x) := .next (h.mgmtTake fun k => .mk k.put)
theorem Keeps.execWake {tag : Nat} : KeepsR s (execWake tag x) := .next (h.mgmtTake fun k => .mk k.wakeCold)
theorem Keeps.configWrite {item sub v : Nat} : KeepsQ s (x.configWrite item sub v) := by
  unfold State.configWrite
  extract_lets _ t
  have ht : Keeps s t := by
    unfold t
    split
    · exact h.writeReg
    · exact h
  exact .ite (.mk ht.execPwrCommit.took) (.ite (.mk ht.execFabCommit.took) (.ite (.mk ht.execRegCommit.took) (.ite (.mk ht.execTimeCommit.took) (.ite (.mk ht.execStrmCommit.took) (.mk ht)))))
theorem Keeps.execConfig {tag item sub : Nat} {vals : List Nat} : KeepsR s (execConfig tag item sub vals x) :=
  .next (h.mgmtTake fun k => .ite (.mk k) (.ite (.mk k) (.ite (k.mgStore fun l => l.put) (.ite (.mk k.configWrite.fst) (k.configWrite.fst.mgStore fun l => l.put)))))
theorem Keeps.execPopWrite {tag : Nat} {record : PopRecord} {genuine : Bool} : KeepsR s (execPopWrite tag record genuine x) :=
  .next (h.mgmtTake fun k => .ite (.mk k) (k.mgStore fun l => l.put))
theorem Keeps.execRework {tag : Nat} {record : PopRecord} {genuine : Bool} : KeepsR s (execRework tag record genuine x) := by
  unfold Machine.execRework
  refine .next ?_
  refine h.mgmtTake fun k => ?_
  split
  · exact .mk k
  · exact .ite (.mk k) (k.mgStore fun k => k.put)
theorem Keeps.execFenceClear {tag : Nat} {slots : List Nat} : KeepsR s (execFenceClear tag slots x) :=
  .next (h.mgmtTake fun k => k.mgStore fun l => l.put)
theorem Keeps.putRoster {r : Sparse RosterEntry} : Keeps s (x.putRoster r) := h.put.arrange
theorem Keeps.newGroupKey : Keeps s x.newGroupKey := h.useFree.put.putKey
theorem Keeps.execRosterCmd {tag op m : Nat} {e : RosterEntry} {cm2 : Bool} : KeepsR s (execRosterCmd tag op m e cm2 x) :=
  .next (h.mgmtTake fun k => .ite (.mk k) (.ite (.mk k) (.ite (.ite (.mk k) (k.mgStore fun l => .via _ l.putRoster fun m => .ite m.newGroupKey m)) (.ite (k.mgStore fun l => .via _ l.putRoster fun m => .ite m.newGroupKey m) (.ite (.mk k) (k.mgStore fun l => l.put.arrange))))))
theorem Keeps.execFlint {tag : Nat} {failed : List Nat} : KeepsR s (execFlint tag failed x) := by
  refine .next (h.mgmtTake fun k => .ite (.mk k) ?_)
  exact .mk ((k.fold fun l => l.failSlot).updStore id fun _ => Memory.nil_wf)
theorem Keeps.execMgmtResponseRead : KeepsR s (execMgmtResponseRead x) := by
  unfold Machine.execMgmtResponseRead
  split
  · exact .next h
  · split
    · exact .next h.put.send
    · exact .next h.send
    · exact .next h.put.send
theorem Keeps.execI3cEntdaa {addr : Nat} : KeepsR s (execI3cEntdaa addr x) := .ite (.next h) (.next h.put)
theorem Keeps.execI3cSetdasa {target addr : Nat} : KeepsR s (execI3cSetdasa target addr x) := .ite (.next h) (.next h.put)
theorem Keeps.execI3cRstdaa : KeepsR s (execI3cRstdaa x) := .ite (.next h) (.next h.put)

/-! ### Machine/Idle -/

theorem Keeps.idle : Keeps s x.idle :=
  .ite h (((Keeps.ite h h.advance).collAll.fold fun l => l.mirrorOn).connKickAll.brSettle.settleConns.lateChanges.settleEol)

/-! ### Every command -/

/-- The dispatch: a command keeps what its own meaning keeps. -/
theorem Keeps.exec {c : Instr} : KeepsR s (exec c x) := by
  cases c with
  | glbCommit v => exact h.execGlbCommit
  | glbSubstCmd v => exact h.execGlbSubstCmd
  | quiescentPoint ctx => exact h.execQuiescentPoint
  | popWrite tag record genuine => exact h.execPopWrite
  | rework tag record genuine => exact h.execRework
  | sitePowerTelemetry n watts => exact h.execSitePowerTelemetry
  | powerOverrunTimeout n => exact h.execPowerOverrunTimeout
  | powerCapDeadline n => exact h.execPowerCapDeadline
  | temperatureRequest => exact h.execTemperatureRequest
  | temperatureReport n tempC => exact h.execTemperatureReport
  | temperatureSilence n => exact h.execTemperatureSilence
  | thermalTripMessage n => exact h.execThermalTripMessage
  | sitePgoodRise n => exact h.execSitePgoodRise
  | sitePgoodTimeout n => exact h.execSitePgoodTimeout
  | sidebandUp n m => exact h.execSidebandUp
  | sidebandTimeout n => exact h.execSidebandTimeout
  | identityBlockRead n block => exact h.execIdentityBlockRead
  | identityTimeout n => exact h.execIdentityTimeout
  | spdmResponse n answer => exact h.execSpdmResponse
  | spdmTimeout n => exact h.execSpdmTimeout
  | sitePgoodFall n => exact h.execSitePgoodFall
  | siteResetTimeout n => exact h.execSiteResetTimeout
  | sitePowerCycleEnd n => exact h.execSitePowerCycleEnd
  | siteCommit n v => exact h.execSiteCommit
  | dispatchStart tile => exact h.execDispatchStart
  | mcfg tile => exact h.execMcfg
  | mloadb tile => exact h.execMloadb
  | mstream tile => exact h.execMstream
  | mdrain tile => exact h.execMdrain
  | mzero tile => exact h.execMzero
  | mfence tile => exact h.execMfence
  | mfenceRelease tile => exact h.execMfenceRelease
  | tdma tile => exact h.execTdma
  | tdmaf tile => exact h.execTdmaf
  | tdmaComplete tile tag => exact h.execTdmaComplete
  | twait tile => exact h.execTwait
  | twaitRelease tile => exact h.execTwaitRelease
  | tpoll tile => exact h.execTpoll
  | tpollRelease tile => exact h.execTpollRelease
  | tend tile => exact h.execTend
  | fenceI tile => exact h.execFenceI
  | kernelTrap tile => exact h.execKernelTrap
  | kernelTimeout tile => exact h.execKernelTimeout
  | scratchWindowAccess req => exact h.execScratchWindowAccess
  | tileFailure tile cause => exact h.execTileFailure
  | vld tile => exact h.execVld
  | vst tile => exact h.execVst
  | vadd tile => exact h.execVadd
  | vsub tile => exact h.execVsub
  | vmul tile => exact h.execVmul
  | vfma tile => exact h.execVfma
  | vmax tile => exact h.execVmax
  | vmin tile => exact h.execVmin
  | vcvt tile => exact h.execVcvt
  | vredsum tile => exact h.execVredsum
  | vbcast tile => exact h.execVbcast
  | vmvx tile => exact h.execVmvx
  | vexp2 tile => exact h.execVexp2
  | vrecip tile => exact h.execVrecip
  | vside tile => exact h.execVside
  | perfCounterWrap tile which => exact h.execPerfCounterWrap
  | packetEject req => exact h.execPacketEject
  | flitReplay link corrected third => exact h.execFlitReplay
  | routeSwitchover => exact h.execRouteSwitchover
  | routerLoss cluster => exact h.execRouterLoss
  | nocRequestTimeout who => exact h.execNocRequestTimeout
  | nocLateResponse => exact h.execNocLateResponse
  | nocCommit v => exact h.execNocCommit
  | nocPllUnlock => exact h.execNocPllUnlock
  | memoryRead req => exact h.execMemoryRead
  | memoryWrite req => exact h.execMemoryWrite
  | wcbAgeExpiry line => exact h.execWcbAgeExpiry
  | writeBurstRelease ctl ch pc => exact h.execWriteBurstRelease
  | requestAgePromotion sector => exact h.execRequestAgePromotion
  | scrubVisit addr ecc => exact h.execScrubVisit
  | pprRepair => exact h.execPprRepair
  | pprDismiss => exact h.execPprDismiss
  | stackTempRead stack tempC => exact h.execStackTempRead
  | granSet => exact h.execGranSet
  | granSetZero => exact h.execGranSetZero
  | granRead => exact h.execGranRead
  | granDrainDone => exact h.execGranDrainDone
  | zeroingPass granule => exact h.execZeroingPass
  | bedrockBlock granule data digest => exact h.execBedrockBlock
  | bedrockFetchTimeout granule => exact h.execBedrockFetchTimeout
  | bedrockSupply v => exact h.execBedrockSupply
  | bedrockSupplyTimeout granule => exact h.execBedrockSupplyTimeout
  | hbmCommit v => exact h.execHbmCommit
  | regEpoch samples => exact h.execRegEpoch
  | regCommit v => exact h.execRegCommit
  | creditSend cls ctl => exact h.execCreditSend
  | xlatInv v internal => exact h.execXlatInv
  | invalidationDone => exact h.execInvalidationDone
  | faultResume index => exact h.execFaultResume
  | faultAbort index => exact h.execFaultAbort
  | siteRequest site tag va len write data poison => exact h.execSiteRequest
  | doorbell src write off size v => exact h.execDoorbell
  | descriptorFetch ring => exact h.execDescriptorFetch
  | nop ring => exact h.execNop
  | hamper ring => exact h.execHamper
  | hamperNextSub ring => exact h.execHamperNextSub
  | copy ring => exact h.execCopy
  | fill ring => exact h.execFill
  | writeImm ring => exact h.execWriteImm
  | legacyNop ring => exact h.execLegacyNop
  | legacyCopy ring => exact h.execLegacyCopy
  | legacyFill ring => exact h.execLegacyFill
  | moverTransfer ring => exact h.execMoverTransfer
  | dispatch ring => exact h.execDispatch
  | dispatchPlacement ring => exact h.execDispatchPlacement
  | completionWrite ring => exact h.execCompletionWrite
  | moderationTimeout ring => exact h.execModerationTimeout
  | wakeHoldExpiry ring => exact h.execWakeHoldExpiry
  | qmCommit v => exact h.execQmCommit
  | restart ring => exact h.execRestart
  | abort ring => exact h.execAbort
  | crcData ring => exact h.execCrcData
  | crcBlocks ring => exact h.execCrcBlocks
  | crcSave ring => exact h.execCrcSave
  | crcLoad ring => exact h.execCrcLoad
  | crcUnitClaim unit => exact h.execCrcUnitClaim
  | crcParityError unit => exact h.execCrcParityError
  | crcCtlWrite src unit v => exact h.execCrcCtlWrite
  | crcValWrite src unit v => exact h.execCrcValWrite
  | moduleTrained n m rate repaired version => exact h.execModuleTrained
  | rateAttemptTimeout n m spent => exact h.execRateAttemptTimeout
  | widthCheckAnswer n m half rate version lanesMatch => exact h.execWidthCheckAnswer
  | widthCheckTimeout n m => exact h.execWidthCheckTimeout
  | moduleRetrain n m replays crcErrors third => exact h.execModuleRetrain
  | moduleLinkDown n m => exact h.execModuleLinkDown
  | spreadAnswer n epoch => exact h.execSpreadAnswer
  | spreadTimeout n => exact h.execSpreadTimeout
  | entryLend n m => exact h.execEntryLend
  | moduleL1Entry n m => exact h.execModuleL1Entry
  | siteRecRetry n m => exact h.execSiteRecRetry
  | siteRecSpare n m => exact h.execSiteRecSpare
  | siteRecHalf n m => exact h.execSiteRecHalf
  | siteRecRetire n m => exact h.execSiteRecRetire
  | siteRecRetrain n m => exact h.execSiteRecRetrain
  | siteAwaitTimeout n m => exact h.execSiteAwaitTimeout
  | sbRead n size8 => exact h.execSbRead
  | sbWrite n size8 => exact h.execSbWrite
  | sbResponse n refused data => exact h.execSbResponse
  | rdshared site m => exact h.execRdshared
  | rdown site m => exact h.execRdown
  | upgrade site m => exact h.execUpgrade
  | rdcurr site m => exact h.execRdcurr
  | wrline site m bytes poison => exact h.execWrline
  | wrpartial site m bytes poison => exact h.execWrpartial
  | wbdirty site m bytes poison => exact h.execWbdirty
  | evictclean site m => exact h.execEvictclean
  | systiniAck site m => exact h.execSystiniAck
  | snprsp site m state data poison => exact h.execSnprsp
  | aprsp site m data poison => exact h.execAprsp
  | cxlRdshared site m => exact h.execCxlRdshared
  | cxlRdany site m => exact h.execCxlRdany
  | cxlRdown site m => exact h.execCxlRdown
  | cxlRdownnodata site m => exact h.execCxlRdownnodata
  | cxlRdcurr site m => exact h.execCxlRdcurr
  | cxlWrinv site m bytes poison => exact h.execCxlWrinv
  | cxlCleanevict site m => exact h.execCxlCleanevict
  | cxlDirtyevict site m bytes poison => exact h.execCxlDirtyevict
  | cxlClflush site m => exact h.execCxlClflush
  | snoopLimitExpiry site tag => exact h.execSnoopLimitExpiry
  | ackLimitExpiry site tag => exact h.execAckLimitExpiry
  | cohCommit v => exact h.execCohCommit
  | configRequest write off v => exact h.execConfigRequest
  | bar4Access tag b len write data tee => exact h.execBar4Access
  | unsupportedRequest off => exact h.execUnsupportedRequest
  | outboundCompletion tag ok poison data => exact h.execOutboundCompletion
  | outboundTimeout tag => exact h.execOutboundTimeout
  | keepaliveTimer => exact h.execKeepaliveTimer
  | msixUnmask vector => exact h.execMsixUnmask
  | l0pEntry => exact h.execL0pEntry
  | l0pExit => exact h.execL0pExit
  | linkL1Entry => exact h.execLinkL1Entry
  | l12Entry => exact h.execL12Entry
  | linkStateExit => exact h.execLinkStateExit
  | d3hotEntry => exact h.execD3hotEntry
  | d0Return => exact h.execD0Return
  | flr => exact h.execFlr
  | hotReset => exact h.execHotReset
  | linkDisable => exact h.execLinkDisable
  | linkLoss => exact h.execLinkLoss
  | linkRetrained speed width flit => exact h.execLinkRetrained
  | getVersion => exact h.execGetVersion
  | getCapabilities => exact h.execGetCapabilities
  | negotiateAlgorithms => exact h.execNegotiateAlgorithms
  | getDigests => exact h.execGetDigests
  | getCertificate => exact h.execGetCertificate
  | challenge nonce => exact h.execChallenge
  | getMeasurements index nonce => exact h.execGetMeasurements
  | keyExchange share => exact h.execKeyExchange
  | finish genuine => exact h.execFinish
  | keyUpdate => exact h.execKeyUpdate
  | heartbeat => exact h.execHeartbeat
  | endSession => exact h.execEndSession
  | keySet slot key => exact h.execKeySet
  | keyClear slot => exact h.execKeyClear
  | ideKmProgram stream key => exact h.execIdeKmProgram
  | ideTlpFailure stream => exact h.execIdeTlpFailure
  | lockInterface => exact h.execLockInterface
  | startInterface => exact h.execStartInterface
  | stopInterface => exact h.execStopInterface
  | hostCommit v => exact h.execHostCommit
  | portTrained port neighbour version => exact h.execPortTrained
  | portTrainingMismatch port => exact h.execPortTrainingMismatch
  | portRetrain port => exact h.execPortRetrain
  | portRetrainResult port ok => exact h.execPortRetrainResult
  | portRecRetry port => exact h.execPortRecRetry
  | portRecHalf port => exact h.execPortRecHalf
  | portRecDown port => exact h.execPortRecDown
  | portAwaitTimeout port => exact h.execPortAwaitTimeout
  | linkBlockReceive port b crcOk => exact h.execLinkBlockReceive
  | linkResendTimer port => exact h.execLinkResendTimer
  | write hdr bytes => exact h.execWrite
  | read hdr len => exact h.execRead
  | atomic hdr kind a b => exact h.execAtomic
  | readRsp hdr bytes => exact h.execReadRsp
  | atomicRsp hdr old => exact h.execAtomicRsp
  | ack hdr ack => exact h.execAck
  | ackTimer conn => exact h.execAckTimer
  | msgResendTimer conn => exact h.execMsgResendTimer
  | openMsg src index slot nonce => exact h.execOpenMsg
  | openAck conn src index nonce => exact h.execOpenAck
  | openRetryTimer conn => exact h.execOpenRetryTimer
  | close hdr => exact h.execClose
  | rekey hdr nonce => exact h.execRekey
  | rekeyThreshold conn => exact h.execRekeyThreshold
  | sessionLimitV1 conn => exact h.execSessionLimitV1
  | peerLimitExpiry conn => exact h.execPeerLimitExpiry
  | cairnSend => exact h.execCairnSend
  | cairn hdr c => exact h.execCairn
  | memberSilent member => exact h.execMemberSilent
  | deputyClaim => exact h.execDeputyClaim
  | workerClaimTimer => exact h.execWorkerClaimTimer
  | topClaimTimer => exact h.execTopClaimTimer
  | managerListenExpiry => exact h.execManagerListenExpiry
  | claim hdr top epoch deputy => exact h.execClaim
  | join src nonce id roster => exact h.execJoin
  | joinAck src top epoch manager deputy quarantined roster groupKey sysKey => exact h.execJoinAck
  | joinRetry => exact h.execJoinRetry
  | roster hdr reply => exact h.execRoster
  | map hdr groupLevel lists => exact h.execMap
  | fwdRecompute => exact h.execFwdRecompute
  | fabCommit v => exact h.execFabCommit
  | allreduce ring => exact h.execAllreduce
  | reduceScatter ring => exact h.execReduceScatter
  | allgather ring => exact h.execAllgather
  | broadcast ring => exact h.execBroadcast
  | barrier ring => exact h.execBarrier
  | ready hdr comm cseq step credit op count fmt redop xsExp root => exact h.execReady
  | data hdr comm cseq step offset data => exact h.execData
  | collAbort hdr comm cseq status device rank => exact h.execCollAbort
  | extend hdr device delay cairnSeq => exact h.execExtend
  | lost hdr device => exact h.execLost
  | step hdr comm cseq engine slot => exact h.execStep
  | collStep v => exact h.execCollStep
  | collDeadline engine slot => exact h.execCollDeadline
  | collEngineParity engine => exact h.execCollEngineParity
  | mirrorSet ring => exact h.execMirrorSet
  | mirrorSync ring => exact h.execMirrorSync
  | mirrorClear ring => exact h.execMirrorClear
  | mirrorBlockCopy entry => exact h.execMirrorBlockCopy
  | collCommit v => exact h.execCollCommit
  | streamFrame port frame => exact h.execStreamFrame
  | endOfFlowFrame port frame => exact h.execEndOfFlowFrame
  | arpRequest port addr => exact h.execArpRequest
  | neighborSolicitation port addr => exact h.execNeighborSolicitation
  | streamPortLink port up => exact h.execStreamPortLink
  | spillWriteAck flow => exact h.execSpillWriteAck
  | inboxDelivery flow => exact h.execInboxDelivery
  | decisionWord => exact h.execDecisionWord
  | decisionCutoff flow => exact h.execDecisionCutoff
  | flowIdleTimeout flow => exact h.execFlowIdleTimeout
  | install src => exact h.execInstall
  | free src => exact h.execFree
  | ctxRead src => exact h.execCtxRead
  | strmRelease ring => exact h.execStrmRelease
  | strmWatch ring => exact h.execStrmWatch
  | strmCommit v => exact h.execStrmCommit
  | streamEngineParity => exact h.execStreamEngineParity
  | ppsInEdge falling age => exact h.execPpsInEdge
  | ppsLossTimeout => exact h.execPpsLossTimeout
  | timeExchangeTimer => exact h.execTimeExchangeTimer
  | timeReq port t1 authentic => exact h.execTimeReq
  | timeRsp port t1 t2 t3 offset state hops authentic => exact h.execTimeRsp (state := state)
  | parentServoUpdate => exact h.execParentServoUpdate
  | parentReselect => exact h.execParentReselect
  | sysrefLoss => exact h.execSysrefLoss
  | sysrefReturn => exact h.execSysrefReturn
  | timeSteer v => exact h.execTimeSteer
  | steerTimeout => exact h.execSteerTimeout
  | timeSecNext src v => exact h.execTimeSecNext
  | timeCommit src v => exact h.execTimeCommit
  | trigInEdge k falling => exact h.execTrigInEdge
  | tinPop k => exact h.execTinPop
  | toutSchedule o v => exact h.execToutSchedule
  | trigOutEdge o => exact h.execTrigOutEdge
  | ppsOutPulse => exact h.execPpsOutPulse
  | quadSleep quad => exact h.execQuadSleep
  | quadWakeRequest quad => exact h.execQuadWakeRequest
  | quadPllLock quad => exact h.execQuadPllLock
  | quadPllLockTimeout quad => exact h.execQuadPllLockTimeout
  | registerPathTimeout => exact h.execRegisterPathTimeout
  | railTelemetry hubW pkgW uj => exact h.execRailTelemetry
  | cappingPeriod p => exact h.execCappingPeriod
  | pwrSetpoint v => exact h.execPwrSetpoint
  | cappingFallback => exact h.execCappingFallback
  | pwrCommit v => exact h.execPwrCommit
  | pwrbrakeAssert => exact h.execPwrbrakeAssert
  | pwrbrakeRelease => exact h.execPwrbrakeRelease
  | dieTempRead hubC => exact h.execDieTempRead
  | sagDetect vaon v1p8 => exact h.execSagDetect
  | sagEnd => exact h.execSagEnd
  | railOutOfRange rail => exact h.execRailOutOfRange
  | palertAssert status => exact h.execPalertAssert
  | vaonPowerOn maddr => exact h.execVaonPowerOn
  | perstNAssert => exact h.execPerstNAssert
  | perstNRelease rails sysref late => exact h.execPerstNRelease
  | routeFlintEnd nocPll routers links segments dead => exact h.execRouteFlintEnd
  | tileFlintEnd failed corrected plls movers crcs colls strm core => exact h.execTileFlintEnd
  | stackTrainingEnd absent failed => exact h.execStackTrainingEnd
  | clusterBinding => exact h.execClusterBinding
  | hubReadySet readyMs => exact h.execHubReadySet
  | blanket tag => exact h.execBlanket
  | secBlanket src v => exact h.execSecBlanket
  | blanketDrained => exact h.execBlanketDrained
  | blanketAttested => exact h.execBlanketAttested
  | secSlotCmd src v => exact h.execSecSlotCmd
  | slotDrainDone slot => exact h.execSlotDrainDone
  | lcNonce tag => exact h.execLcNonce
  | lcEol tag nonce genuine => exact h.execLcEol
  | svnCommit tag => exact h.execSvnCommit
  | fwWrite tag svn major minor digest genuine => exact h.execFwWrite
  | bedrockInstall tag m host => exact h.execBedrockInstall
  | bedrockRemove tag => exact h.execBedrockRemove
  | heartbeatLoss => exact h.execHeartbeatLoss
  | fatalParity xlat => exact h.execFatalParity
  | eventCoalesceTimer code unit => exact h.execEventCoalesceTimer
  | rasInject v => exact h.execRasInject
  | fatalClear tag seq => exact h.execFatalClear
  | mgmtRead tag off len => exact h.execMgmtRead
  | mgmtWrite tag off v => exact h.execMgmtWrite
  | evtAck tag seq => exact h.execEvtAck
  | wake tag => exact h.execWake
  | config tag item sub vals => exact h.execConfig
  | fenceClear tag slots => exact h.execFenceClear
  | rosterCmd tag op m e cm2 => exact h.execRosterCmd
  | flint tag failed => exact h.execFlint
  | mgmtResponseRead => exact h.execMgmtResponseRead
  | i3cEntdaa addr => exact h.execI3cEntdaa
  | i3cSetdasa target addr => exact h.execI3cSetdasa
  | i3cRstdaa => exact h.execI3cRstdaa
  | registerWrite src off size v => exact h.execRegisterWrite
  | controlCoreInstruction tile => exact h.execControlCoreInstruction
  | registerRead src off size => exact h.execRegisterRead
  | moverParityError mover => exact h.execMoverParityError
  | expressLinkLoss segment => exact h.execExpressLinkLoss
  | sitePwrenAssert => exact h.execSitePwrenAssert
  | substitutionsEnd ctx => exact h.execSubstitutionsEnd
  | lcTestTransition serial part quads => exact h.execLcTestTransition
  | groupKeyGraceEnd => exact h.execGroupKeyGraceEnd
  | vaonPowerOff => exact h.execVaonPowerOff

end

end Sys2Proof.Machine
end

section
/-! PROOFS. What holds of every command, of every step and of every run (R1, log 6). -/
namespace Sys2Proof.Machine

/-- Every command answers a next state, which keeps the queue, the free values already used and the canonical form. -/
theorem exec_keeps (c : Instr) (s : State) : KeepsR s (exec c s) := (Keeps.refl s).exec

theorem exec_next_keeps {c : Instr} {s t : State} (run : exec c s = .next t) : Keeps s t :=
  KeepsR.atNext (run ▸ exec_keeps c s)

/-- A step is its command on the state without it, and an idle tick on an empty queue. -/
theorem step_keeps (s : State) : KeepsR { s with pending := s.pending.drop 1 } (step s) := by
  cases waiting : s.pending with
  | nil =>
    have empty : { s with pending := [] } = s := by rw [← waiting]
    have idle : step s = .next s.idle := by simp only [step, waiting]
    rw [idle, List.drop_nil, empty]
    exact .next (Keeps.refl s).idle
  | cons c rest =>
    have runs : step s = exec c { s with pending := rest } := by simp only [step, waiting]
    rw [runs]
    exact exec_keeps c _

/-- The queue of a step's next state is the former one without its front. -/
theorem step_next_keeps {s t : State} (run : step s = .next t) : Keeps { s with pending := s.pending.drop 1 } t :=
  KeepsR.atNext (run ▸ step_keeps s)

theorem Keeps.canonical {s t : State} (h : Keeps s t) (canonical : Canonical s) : Canonical t :=
  ⟨h.mem canonical.1, h.scr canonical.2⟩

/-- Some run of n steps exists; it drops n commands, keeps the canonical form and never lowers the count of free values. -/
theorem runSteps_keeps (n : Nat) (s : State) :
    ∃ t, runSteps n s = .next t ∧ t.pending = s.pending.drop n ∧ s.free ≤ t.free ∧ (Canonical s → Canonical t) := by
  induction n generalizing s with
  | zero => exact ⟨s, rfl, List.drop_zero.symm, Nat.le_refl _, id⟩
  | succ n ih =>
    obtain ⟨u, first, kept⟩ := step_keeps s
    obtain ⟨t, rest, queue, free, canonical⟩ := ih u
    refine ⟨t, by simp only [runSteps, first, rest], ?_, Nat.le_trans kept.free free, fun w => canonical (kept.canonical w)⟩
    rw [queue, kept.pending, List.drop_drop, Nat.add_comm]

/-- Settles O29: each command and each step answers a next state. -/
theorem everyCommandAndStepCompletes : Obligations.EveryCommandAndStepCompletes := by
  refine ⟨fun c s => ?_, fun s => ?_⟩
  · obtain ⟨t, run, _⟩ := exec_keeps c s
    exact ⟨t, run⟩
  · obtain ⟨t, run, _⟩ := step_keeps s
    exact ⟨t, run⟩

/-- Settles O30: each operation keeps the canonical form, so each command and each step does. -/
theorem everyStepKeepsMemoryCanonical : Obligations.EveryStepKeepsMemoryCanonical :=
  ⟨fun _ _ _ canonical run => (exec_next_keeps run).canonical canonical,
    fun _ _ canonical run => (step_next_keeps run).canonical canonical⟩

/-- Settles O31: no operation touches the queue, and a step hands its command the queue without its front. -/
theorem commandsAreTakenInOrder : Obligations.CommandsAreTakenInOrder := by
  refine ⟨fun c s t run => (exec_next_keeps run).pending, fun s t run => (step_next_keeps run).pending, fun s t wf run c mem => ?_⟩
  rw [(step_next_keeps run).pending] at mem
  exact wf c (List.mem_of_mem_drop mem)

/-- Settles O32: no operation lowers the count of free values, so no run does. -/
theorem freeValuesAreNeverUsedTwice : Obligations.FreeValuesAreNeverUsedTwice := by
  refine ⟨fun c s t run => (exec_next_keeps run).free, fun n s t run => ?_⟩
  obtain ⟨u, run', _, free, _⟩ := runSteps_keeps n s
  cases run.symm.trans run'
  exact free

/-- Settles O33: each step answers, so nothing blocks the queue. -/
theorem everyWaitingCommandIsCarriedOut : Obligations.EveryWaitingCommandIsCarriedOut := by
  intro n s
  obtain ⟨t, run, queue, _, canonical⟩ := runSteps_keeps n s
  exact ⟨t, run, queue, canonical⟩

end Sys2Proof.Machine
end

section
/-! PROOFS. Writes of fields that wait for a commit, commits and refused commits (R10, R11), and reserved bits (R8). -/
namespace Sys2Proof.Machine

/-! ### Fields written one after another (R10) -/

/-- What the write of a register does to one of its fields, given the bits written to it. -/
def State.writeField (s : State) (o : Nat) (f : FieldDesc) (x : Nat) : State :=
  match f.acc with
  | .rw => s.wr ⟨o, f.hi, f.lo⟩ x
  | .w1c => s.wr ⟨o, f.hi, f.lo⟩ (s.rd ⟨o, f.hi, f.lo⟩ - (s.rd ⟨o, f.hi, f.lo⟩ &&& x))
  | .rwc => s.setShd o (putBits (s.shd o) f.hi f.lo x)
  | _ => s

theorem State.writeFields_eq (s : State) (o : Nat) (d : RegDesc) (v : Nat) :
    s.writeFields o d v = d.fields.foldl (fun (s : State) f => s.writeField o f (bits v f.hi f.lo)) s := rfl

/-- A field that waits for a commit, or is read-only, takes no value in force. -/
theorem State.reg_writeField_staged (s : State) (o : Nat) (f : FieldDesc) (x y : Nat) (staged : f.acc = .rwc ∨ f.acc = .ro) :
    (s.writeField o f x).reg y = s.reg y := by
  rcases staged with acc | acc
  · simp only [State.writeField, acc, State.reg_setShd]
  · simp only [State.writeField, acc]

theorem State.reg_foldl_writeField_staged (o : Nat) (g : FieldDesc → Nat) (y : Nat) (fs : List FieldDesc) (s : State)
    (staged : ∀ f ∈ fs, f.acc = .rwc ∨ f.acc = .ro) :
    (fs.foldl (fun (s : State) f => s.writeField o f (g f)) s).reg y = s.reg y := by
  induction fs generalizing s with
  | nil => rfl
  | cons f rest ih =>
    rw [List.foldl_cons, ih _ fun g mem => staged g (List.mem_cons_of_mem f mem)]
    exact s.reg_writeField_staged o f _ y (staged f List.mem_cons_self)

/-! ### Commits (R11) -/

/-- In a register of the table, the bits that a commit takes are those of its RWC fields. -/
theorem isRwcBit_eq_any {o : Nat} {d : RegDesc} (i : Nat) (entry : findReg o = some d) :
    isRwcBit o i = d.fields.any fun f => f.acc == .rwc && decide (f.lo ≤ i ∧ i ≤ f.hi) := by
  simp [isRwcBit, entry, RegDesc.fieldsOf, List.any_filter]

/-- Settles O37: a staged write goes to shadows only; a commit takes the RWC bits of one register, a refused one writes its status. -/
theorem stagedWritesWaitForTheirCommit : Obligations.StagedWritesWaitForTheirCommit := by
  unfold Obligations.StagedWritesWaitForTheirCommit
  refine ⟨?staged, ?taken, ?others, ?shadows, ?refusedOthers, ?refused⟩
  case staged =>
    intro s o d v x staged
    rw [s.writeFields_eq]
    exact State.reg_foldl_writeField_staged o (fun f => bits v f.hi f.lo) x d.fields s staged
  case taken =>
    intro s o i d entry hi
    rw [s.testBit_reg_commitReg o i hi, isRwcBit_eq_any i entry]
  case others => exact fun s o x other => s.reg_commitReg_other o x other
  case shadows => exact fun s o x => s.shd_commitReg o x
  case refusedOthers => exact fun s o code x other => ⟨s.reg_commitRefused_other o code x other, s.shd_commitRefused o code x⟩
  case refused =>
    exact fun s o code => ⟨s.shd_commitRefused o code o, s.rd_commitRefused_firstField o code, s.rd_commitRefused_refused o code⟩

/-! ### Reserved bits (R8) -/

/-- What the driver or firmware reads from one field of a register that shows no table held elsewhere. -/
def State.fieldSource (s : State) (view : Viewer) (o : Nat) (f : FieldDesc) : Nat :=
  match f.acc with
  | .wo => 0
  | .rwc => if readsCommitted view o then s.reg o else s.shd o
  | _ => s.reg o

theorem State.plainRead_eq (s : State) (view : Viewer) (o : Nat) (d : RegDesc) :
    s.plainRead view o d = d.fields.foldl (fun x f => x + bits (s.fieldSource view o f) f.hi f.lo * 2 ^ f.lo) 0 := rfl

theorem State.plainRead_reserved (s : State) (view : Viewer) (o i : Nat) (d : RegDesc) (entry : findReg o = some d)
    (reserved : ∀ f ∈ d.fields, i < f.lo ∨ f.hi < i) : (s.plainRead view o d).testBit i = false := by
  obtain ⟨apart, bounds⟩ := findReg_apart o d entry
  rw [s.plainRead_eq]
  exact addFields_testBit d.fields (s.fieldSource view o) i 0 (fun f mem => (bounds f mem).1) apart
    (fun f _ => by simp [bits]) (Nat.zero_testBit i) reserved

/-- Settles O38: a read is the sum of the fields, each in its own place; a write uses nothing of its value but the fields. -/
theorem reservedBitsReadZeroAndDiscardOnes : Obligations.ReservedBitsReadZeroAndDiscardOnes := by
  unfold Obligations.ReservedBitsReadZeroAndDiscardOnes
  refine ⟨fun s view o i d entry plain driver reserved => ?_, fun s o v w d agree => ?_⟩
  · rw [State.look]
    split
    · exact Nat.zero_testBit i
    · rw [plain, Option.getD_none]
      exact s.plainRead_reserved view o i d entry reserved
  · rw [s.writeFields_eq, s.writeFields_eq]
    exact List.foldl_ext _ _ _ fun t f mem => by rw [agree f mem]

end Sys2Proof.Machine
end

section
/-! PROOFS. Bytes of stacked memory and of scratch read back after a write (R73, R163, R165). -/
namespace Sys2Proof.Machine

/-! ### A write to stacked memory, line by line -/

theorem State.memByte_of_hbm {s t : State} (same : s.hbm = t.hbm) (c : Nat) : s.memByte c = t.memByte c := by
  simp only [State.memByte, same]

/-- The first k lines of a write whose first line is `first`. -/
def State.writeLines (s : State) (cls a : Nat) (data : List (Option Byte)) (bad : Nat → Nat → Bool) (first k : Nat) : State :=
  ((List.range k).map (· + first)).foldl (fun (s : State) line => s.writeLine cls a data (bad line) line) s

theorem State.writeLines_succ (s : State) (cls a : Nat) (data : List (Option Byte)) (bad : Nat → Nat → Bool) (first k : Nat) :
    s.writeLines cls a data bad first (k + 1) =
      (s.writeLines cls a data bad first k).writeLine cls a data (bad (k + first)) (k + first) := by
  simp only [State.writeLines, List.range_succ, List.map_append, List.foldl_append, List.map_cons, List.map_nil, List.foldl_cons,
    List.foldl_nil]

/-- With nothing buffered before, each of the lines written reads as the write gives it, and every other line as before. -/
theorem State.memByte_writeLines (s : State) (cls a : Nat) (data : List (Option Byte)) (bad : Nat → Nat → Bool) (first k : Nat)
    (noLines : s.hbm.wcb = []) (noSectors : s.hbm.wq = []) (room : k ≤ 480) :
    (∀ c, (s.writeLines cls a data bad first k).memByte c =
      if first ≤ c / 64 ∧ c / 64 < first + k then (lineAt a (c / 64) data (c % 64)).getD (s.memByte c) else s.memByte c) ∧
    (s.writeLines cls a data bad first k).buffersBelow (k + first) ∧ (s.writeLines cls a data bad first k).hbm.wcb.length ≤ k := by
  induction k with
  | zero =>
    refine ⟨fun c => (if_neg (by omega)).symm, ?_, ?_⟩
    · simp [State.writeLines, State.buffersBelow, noLines, noSectors]
    · simp [State.writeLines, noLines]
  | succ k ih =>
    obtain ⟨bytes, below, held⟩ := ih (Nat.le_of_succ_le room)
    obtain ⟨bytes', below', held'⟩ := State.writeLine_low _ cls a data (bad (k + first)) (k + first) below (by omega)
    rw [s.writeLines_succ]
    refine ⟨fun c => ?_, by rwa [Nat.add_right_comm], by omega⟩
    rw [bytes', bytes]
    by_cases last : c / 64 = k + first
    · rw [if_pos last, if_neg (by omega), if_pos (by omega), last]
    · rw [if_neg last]
      exact if_congr (by omega) rfl rfl

/-- A line of a write holds the written byte at each address from the write's own on. -/
theorem lineAt_address (a c : Nat) (bs : List PByte) :
    lineAt a (c / 64) (bs.map fun b => some b.1) (c % 64) = if c < a then none else (bs[c - a]?).map Prod.fst := by
  rw [lineAt, Nat.div_add_mod]
  split
  · rfl
  · rw [List.getElem?_map]
    cases bs[c - a]? <;> rfl

theorem State.memByte_putMarked (s : State) (cls a c : Nat) (bs : List PByte) (noLines : s.hbm.wcb = []) (noSectors : s.hbm.wq = [])
    (short : bs.length ≤ 2048) :
    (s.putMarked cls a bs).memByte c = if a ≤ c ∧ c < a + bs.length then ((bs[c - a]?).map Prod.fst).getD 0 else s.memByte c := by
  rw [State.putMarked, State.memByte_of_hbm (State.mirrorDirty_hbm ..)]
  by_cases empty : bs.length = 0
  · rw [linesOf, if_pos empty, if_neg (by omega)]
    rfl
  · rw [linesOf, if_neg empty]
    have lines := (s.memByte_writeLines cls a (bs.map fun b => some b.1)
      (fun line i => decide (a ≤ 64 * line + i) && ((bs[64 * line + i - a]?).map Prod.snd).getD false)
      (a / 64) ((a + bs.length - 1) / 64 - a / 64 + 1) noLines noSectors (by omega)).1 c
    rw [State.writeLines, lineAt_address] at lines
    rw [lines]
    by_cases inside : a ≤ c ∧ c < a + bs.length
    · rw [if_pos inside, if_pos (by omega), if_neg (by omega), List.getElem?_eq_getElem (by omega)]
      rfl
    · rw [if_neg inside]
      split
      · split
        · rfl
        · rw [List.getElem?_eq_none (by omega)]
          rfl
      · rfl

/-! ### A write to scratch -/

/-- The key of a byte lies in the range of keys of a write exactly when the byte is one of the slot's that the write covers. -/
theorem scrKey_mem_range {p q a c n : Nat} (inWindow : a + n ≤ 2 ^ 20) (hc : c < 2 ^ 20) :
    (scrKey p a ≤ scrKey q c ∧ scrKey q c < scrKey p a + n) ↔ (q = p ∧ a ≤ c ∧ c < a + n) := by
  unfold scrKey
  omega

theorem State.scrBytes_one (s : State) (q c : Nat) : (s.scrBytes q c 1).map Prod.fst = [Memory.read s.scr.mem (scrKey q c)] := rfl

/-- Settles O39: a line written after all buffered ones reads back through the buffers; scratch is a canonical list of its own. -/
theorem memoryReadsBackWhatWasWritten : Obligations.MemoryReadsBackWhatWasWritten := by
  unfold Obligations.MemoryReadsBackWhatWasWritten
  refine ⟨fun s cls a bs c => s.memByte_putMarked cls a c bs, fun s p a bs q c canonical inWindow hc => ?_⟩
  rw [State.scrBytes_one, State.scrBytes_one, State.scrWrite_mem, Memory.read_writeBytes _ _ _ _ canonical.2, List.length_map]
  simp only [scrKey_mem_range inWindow hc]
  split
  case isTrue covered =>
    obtain ⟨rfl, low, high⟩ := covered
    have offset : scrKey q c - scrKey q a = c - a := by unfold scrKey; omega
    rw [offset, List.getElem?_map, List.getElem?_eq_getElem (by omega)]
    rfl
  case isFalse => rfl

end Sys2Proof.Machine
end

section
/-! PROOFS. The step at the front of the queue and the reset state; the snoop filter's sets (R219);
the generator of stochastic rounding (R92); PWRBRAKE_N outside readiness (R504); the express routes (R137, R138). -/
namespace Sys2Proof.Machine

/-! ### The step and the reset state -/

/-- Settles O28: the step is defined by the two shapes of the queue, and the idle tick asks for VAON first. -/
theorem stepRunsTheCommandAtTheFront : Obligations.StepRunsTheCommandAtTheFront := by
  unfold Obligations.StepRunsTheCommandAtTheFront
  refine ⟨?command, ?tick, ?dark⟩
  case command => exact fun c rest s => rfl
  case tick => exact fun s empty => by rw [step, empty]
  case dark =>
    intro s empty dark
    rw [step, empty]
    show Host.Outcome.next s.idle = _
    rw [State.idle, if_pos (by rw [dark]; rfl)]

/-- Settles O34: no register is listed after reset, so each holds its table's value. -/
theorem resetStateIsAsTheSpecSays : Obligations.ResetStateIsAsTheSpecSays := by
  unfold Obligations.ResetStateIsAsTheSpecSays
  have listed (o : Nat) : State.reset.reg o = regReset o % 2 ^ 64 ∧ State.reset.shd o = regReset o % 2 ^ 64 := ⟨rfl, rfl⟩
  refine ⟨listed, rfl, ?ready, ?duty, ?status, ?class0, ?class36, ?id, fun _ => rfl, rfl, rfl, rfl⟩
  case ready => decide +kernel
  case duty => decide +kernel
  case status => decide +kernel
  case class0 => decide +kernel
  case class36 => decide +kernel
  case id => decide +kernel

/-- Settles O35: nothing is listed and nothing waits. -/
theorem resetIsCanonical : Obligations.ResetIsCanonical :=
  ⟨⟨rfl, rfl⟩, fun _ waits => absurd waits List.not_mem_nil⟩

/-! ### PWRBRAKE_N -/

/-- Settles O47: each of the three conditions is one disjunct of the guard under which the pin's level alone is kept. -/
theorem pwrbrakeIsIgnoredOutsideReadiness : Obligations.PwrbrakeIsIgnoredOutsideReadiness := by
  unfold Obligations.PwrbrakeIsIgnoredOutsideReadiness
  intro s outside
  let t : State := { s with pwr := { s.pwr with pinLow := true } }
  have ignored : (t.boot.trip || t.boot.perst || !t.on Reg.HUB_READY_ready || s.on Reg.PWR_STATUS_brake) = true := by
    have level : t.on Reg.HUB_READY_ready = s.on Reg.HUB_READY_ready := rfl
    rw [level]
    rcases outside with unready | trip | perst
    · simp [unready]
    · simp [t, trip]
    · simp [t, perst]
  exact if_pos ignored

/-! ### The sets of the snoop filter -/

/-- The 10 bits of a set index are the bits of the three address fields. -/
theorem State.setOf_testBit (s : State) (line i : Nat) (hi : i < 10) : (s.setOf line).2.testBit i =
    ((64 * line).testBit (6 + i) ^^ (64 * line).testBit (16 + i) ^^ (64 * line).testBit (26 + i)) := by
  have address : line * lineSize = 64 * line := Nat.mul_comm _ _
  simp only [State.setOf, address, Nat.testBit_xor, bits_testBit]
  simp [hi]

theorem State.setOf_lt (s : State) (line : Nat) : (s.setOf line).2 < 1024 :=
  Nat.xor_lt_two_pow (n := 10) (Nat.xor_lt_two_pow (bits_lt _ 15 6) (bits_lt _ 25 16)) (bits_lt _ 35 26)

/-- The bits of a line's address above its place in a 64 KiB block are those of the block. -/
theorem line_testBit_of_block {a b : Nat} (block : a / 1024 = b / 1024) (i : Nat) (hi : 16 ≤ i) :
    (64 * a).testBit i = (64 * b).testBit i := by
  have high (x : Nat) : (64 * x).testBit i = (x / 1024).testBit (i - 16) := by
    rw [show x / 1024 = 64 * x / 2 ^ 16 by omega, Nat.testBit_div_two_pow, Nat.sub_add_cancel hi]
  rw [high, high, block]

/-- Settles O46: within a block the two higher fields are equal, so equal sets have equal bits 15:6. -/
theorem linesOfABlockLieInDistinctSets : Obligations.LinesOfABlockLieInDistinctSets := by
  unfold Obligations.LinesOfABlockLieInDistinctSets
  refine ⟨?set, ?distinct⟩
  case set =>
    intro s line
    refine ⟨?slice, s.setOf_lt line, fun i hi => s.setOf_testBit line i hi⟩
    case slice => rw [State.setOf, Nat.mul_comm]; rfl
  case distinct =>
    intro s a b block same
    have low : a % 1024 = b % 1024 := by
      refine Nat.eq_of_testBit_eq fun i => ?_
      have shift (x : Nat) (hi : i < 10) : (x % 2 ^ 10).testBit i = (64 * x).testBit (6 + i) := by
        rw [Nat.testBit_mod_two_pow, show 64 * x = x * 2 ^ 6 by omega, Nat.testBit_mul_two_pow]
        simp [hi]
      by_cases hi : i < 10
      · have bit := congrArg (·.testBit i) same
        simp only [s.setOf_testBit _ i hi, line_testBit_of_block block (16 + i) (by omega),
          line_testBit_of_block block (26 + i) (by omega), Bool.xor_left_inj] at bit
        rw [show (1024 : Nat) = 2 ^ 10 from rfl, shift a hi, shift b hi, bit]
      · rw [show (1024 : Nat) = 2 ^ 10 from rfl, Nat.testBit_mod_two_pow, Nat.testBit_mod_two_pow]
        simp [hi]
    omega

/-! ### The generator of stochastic rounding -/

theorem lfsrStep_testBit (v i : Nat) :
    (lfsrStep v).testBit i = (v.testBit (i + 1) ^^ (v.testBit 0 && (i == 31 || i == 21 || i == 1 || i == 0))) := by
  unfold lfsrStep
  split
  next odd => rw [Nat.testBit_xor, lfsrMask_testBit, Nat.testBit_div_two, Nat.testBit_zero, odd]; simp
  next even => rw [Nat.testBit_div_two, Nat.testBit_zero]; simp [even]

theorem lfsrStep_lt (v : Nat) (h : v < 2 ^ 32) : lfsrStep v < 2 ^ 32 := by
  unfold lfsrStep
  split
  · exact Nat.xor_lt_two_pow (by omega) (by norm_num)
  · omega

theorem foldl_range_eq_repeat {α : Type} (f : α → α) (n : Nat) (a : α) :
    (List.range n).foldl (fun x _ => f x) a = Nat.repeat f n a := by
  induction n with
  | zero => rfl
  | succ n ih => rw [List.range_succ, List.foldl_concat, ih]; rfl

/-- Settles O49: the mask's set bits are 31, 21, 1 and 0, and an update is a fold of sixteen steps. -/
theorem lfsrStepsAndUpdates : Obligations.LfsrStepsAndUpdates := by
  unfold Obligations.LfsrStepsAndUpdates
  refine ⟨?step, ?update, ?drain⟩
  case step => exact fun v h => ⟨lfsrStep_lt v h, lfsrStep_testBit v⟩
  case update => exact fun v => foldl_range_eq_repeat lfsrStep 16 v
  case drain =>
    intro c v mode
    calc
      drainRnd c v = _ := if_neg (by omega)
      _ = _ := if_neg (by omega)

/-! ### Express routes -/

/-- One end of a segment leads to the other. -/
def walkSegment (p : Option XPlace) (k : Nat) : Option XPlace :=
  p.bind fun x => if (segEnds k).1 = x then some (segEnds k).2 else if (segEnds k).2 = x then some (segEnds k).1 else none

def XRoute.oneWay (leg : List Nat) : Prop := leg.Pairwise (fun a b => a < b) ∨ leg.Pairwise (fun a b => b < a)

theorem expressRoute_joins : ∀ src < 54, ∀ dst < 54,
    ((expressRoute src dst).first ++ (expressRoute src dst).second).foldl walkSegment (some (stopPlace src)) = some (stopPlace dst) := by
  unfold walkSegment; decide +kernel

theorem expressRoute_spines : ∀ src < 54, ∀ dst < 54,
    (∀ k ∈ (expressRoute src dst).first, k / 10 = if startsEast src then 1 else 0) ∧
    ∀ k ∈ (expressRoute src dst).second, k / 10 = if startsEast src then 0 else 1 := by
  decide +kernel

theorem expressRoute_oneWay : ∀ src < 54, ∀ dst < 54,
    XRoute.oneWay (expressRoute src dst).first ∧ XRoute.oneWay (expressRoute src dst).second := by
  unfold XRoute.oneWay; decide +kernel

theorem expressRoute_uncrossed : ∀ src < 54, ∀ dst < 54, (expressRoute src dst).cross = none → (expressRoute src dst).second = [] := by
  decide +kernel

theorem expressRoute_crosses_at_nearest : ∀ src < 54, ∀ dst < 54, (expressRoute src dst).cross.isSome = true → ∀ k < 3,
    (expressRoute src dst).second.length ≤
      ((spine (decide (8 ≤ dst))).idxOf (stopPlace dst) - 5 * k) + (5 * k - (spine (decide (8 ≤ dst))).idxOf (stopPlace dst)) := by
  decide +kernel

/-- Settles O52: the 54 stops make finitely many routes, and each clause was evaluated over all of them. -/
theorem expressRoutesJoinTheirStops : Obligations.ExpressRoutesJoinTheirStops := by
  unfold Obligations.ExpressRoutesJoinTheirStops
  intro src dst hs hd
  obtain ⟨west, east⟩ := expressRoute_spines src hs dst hd
  obtain ⟨first, second⟩ := expressRoute_oneWay src hs dst hd
  exact ⟨expressRoute_joins src hs dst hd, west, east, first, second, expressRoute_uncrossed src hs dst hd,
    fun c crosses => expressRoute_crosses_at_nearest src hs dst hd (Option.isSome_of_mem crosses)⟩

end Sys2Proof.Machine
end

section
/-! PROOFS. The placement of granules in cells (R157–R159); the power domains at PERST_N and at the loss of VAON (R415, R434);
the coalescing of events (R468); host accesses that the endpoint does not serve (R276). -/
namespace Sys2Proof.Machine

/-! ### Placement -/

/-- With an absent stack its two controllers are skipped: the position of an enabled controller gives its number back. -/
theorem enabledCtl_position (a i : Nat) : (if enabledCtl a i < 2 * a then enabledCtl a i else enabledCtl a i - 2) = i := by
  unfold enabledCtl
  by_cases below : i < 2 * a
  · rw [if_pos below, if_pos below]
  · rw [if_neg below, if_neg (by omega), Nat.add_sub_cancel]

theorem enabledCtl_lt {a i : Nat} (hi : i < 14) : enabledCtl a i < 16 := by
  unfold enabledCtl
  split <;> omega

theorem enabledCtl_stack_ne (a i : Nat) : enabledCtl a i / 2 ≠ a := by
  unfold enabledCtl
  split <;> omega

/-- Sixteen rows of the seven-stack layout hold fourteen granules: rows 14 and 15 are those of the absent stack's controllers. -/
theorem State.place_layout7 (s : State) (a : Nat) (seven : s.on Reg.HBM_STATUS_layout7 = true) :
    (∃ i, i = a / granuleBytes % 14 ∧ s.place a = (enabledCtl s.absentStack i, 16 * (a / granuleBytes / 14) + 14)) ∨
    (∃ i, i = a / granuleBytes % 14 ∧ s.place a = (enabledCtl s.absentStack ((i + 7) % 14), 16 * (a / granuleBytes / 14) + 15)) ∨
    ∃ i c, i = a / granuleBytes % 14 ∧ s.place a = (c, 16 * (a / granuleBytes / 14) + i) ∧ c < 16 ∧ c / 2 ≠ s.absentStack := by
  have bound := ctlOf_lt (s.own (a / granuleBytes)).mode (a / granuleBytes) (a % granuleBytes)
  unfold State.place
  dsimp only
  rw [if_pos seven]
  split
  next first => exact .inl ⟨_, rfl, rfl⟩
  next notFirst =>
    split
    next second => exact .inr (.inl ⟨_, rfl, rfl⟩)
    next notSecond => exact .inr (.inr ⟨_, _, rfl, rfl, bound, by omega⟩)

theorem State.place_layout8 (s : State) (a : Nat) (eight : s.on Reg.HBM_STATUS_layout7 = false) :
    ∃ c, s.place a = (c, a / granuleBytes) ∧ c < 16 :=
  ⟨_, if_neg (by rw [eight]; exact Bool.false_ne_true), ctlOf_lt _ _ _⟩

theorem State.granules_layout7 (s : State) (seven : s.on Reg.HBM_STATUS_layout7 = true) : s.granules = 336896 :=
  if_pos (by rw [seven]; rfl)

theorem State.granules_le (s : State) : s.granules ≤ 385024 := by
  unfold State.granules
  split <;> omega

/-- The granule of a cell of the seven-stack layout, by the last four bits of its row. -/
theorem State.granuleOfCell_layout7 (s : State) (c b j : Nat) (seven : s.on Reg.HBM_STATUS_layout7 = true) (hb : b < 24064) (hj : j < 16) :
    s.granuleOfCell (cellKey c (16 * b + j)) =
      let pos := if c < 2 * s.absentStack then c else c - 2
      some (14 * b + if j < 14 then j else if j = 14 then pos else (pos + 7) % 14) := by
  obtain ⟨row, ctl⟩ := cellKey_row c (16 * b + j) (by omega)
  have block : (16 * b + j) / 16 = b := by omega
  have place : (16 * b + j) % 16 = j := by omega
  unfold State.granuleOfCell
  simp only [row, ctl, block, place]
  rw [if_neg (by omega), if_pos seven]
  split
  · rfl
  · split <;> rfl

theorem State.granuleOfCell_layout8 (s : State) (c row : Nat) (eight : s.on Reg.HBM_STATUS_layout7 = false) (hr : row < 385024) :
    s.granuleOfCell (cellKey c row) = some row := by
  obtain ⟨low, ctl⟩ := cellKey_row c row (by omega)
  unfold State.granuleOfCell
  simp only [low]
  rw [if_neg (by omega), if_neg (by rw [eight]; exact Bool.false_ne_true)]

/-- Settles O40, by the three kinds of rows of the seven-stack layout and by the row alone with all stacks in use. -/
theorem everyCellCarriesOneGranule : Obligations.EveryCellCarriesOneGranule := by
  unfold Obligations.EveryCellCarriesOneGranule
  intro s a low
  have granule : a / granuleBytes < s.granules := Nat.div_lt_of_lt_mul (by rw [Nat.mul_comm]; exact low)
  cases seven : s.on Reg.HBM_STATUS_layout7 with
  | false =>
    obtain ⟨c, place, bound⟩ := s.place_layout8 a seven
    have row : a / granuleBytes < 385024 := Nat.lt_of_lt_of_le granule s.granules_le
    rw [State.cellOf, place]
    exact ⟨s.granuleOfCell_layout8 c _ seven row, bound, row, fun h => absurd h Bool.false_ne_true⟩
  | true =>
    rw [s.granules_layout7 seven] at granule
    generalize hg : a / granuleBytes = g at granule
    have block : g / 14 < 24064 := by omega
    rcases s.place_layout7 a seven with ⟨i, hi, place⟩ | ⟨i, hi, place⟩ | ⟨i, c, hi, place, bound, apart⟩
    all_goals rw [hg] at hi place; rw [State.cellOf, place]
    · refine ⟨?_, enabledCtl_lt (by omega), by dsimp only; omega, fun _ => enabledCtl_stack_ne _ _⟩
      rw [s.granuleOfCell_layout7 _ _ _ seven block (by omega), enabledCtl_position]
      simp only [show ¬ (14 : Nat) < 14 by decide, if_true, if_false]
      congr 1; omega
    · refine ⟨?_, enabledCtl_lt (by omega), by dsimp only; omega, fun _ => enabledCtl_stack_ne _ _⟩
      rw [s.granuleOfCell_layout7 _ _ _ seven block (by omega), enabledCtl_position]
      simp only [show ¬ (15 : Nat) < 14 by decide, show (15 : Nat) ≠ 14 by decide, if_false]
      congr 1; omega
    · refine ⟨?_, bound, by dsimp only; omega, fun _ => apart⟩
      rw [s.granuleOfCell_layout7 _ _ _ seven block (by omega)]
      simp only [show i < 14 by omega, if_true]
      congr 1; omega

/-! ### Power domains -/

theorem State.showSag_none (s t : State) (h : s.sag = none) : s.showSag t = t := by
  rw [State.showSag, h]

/-- A move of ALERT_N is a matter of what was sent. -/
theorem State.withAlert_eq (s : State) (f : State → State) : s.withAlert f = { f s with out := (s.withAlert f).out } := by
  unfold State.withAlert
  dsimp only
  split
  · rfl
  · split
    · split <;> rfl
    · rfl

/-- What the reset of the main domains keeps outside a sag. -/
theorem State.mainReset_keeps (s : State) (keep : Nat → Bool) (h : s.sag = none) :
    (s.mainReset keep).fuse = { s.fuse with burnAt := none } ∧ (s.mainReset keep).mram = s.mram ∧
    (s.mainReset keep).evt.slots = s.evt.slots ∧ (s.mainReset keep).evt.boot = s.evt.boot ∧ (s.mainReset keep).pending = s.pending ∧
    (s.mainReset keep).regs = s.regs.filter (fun p => keep p.1) := by
  obtain ⟨regs, fuse, mram, slots, boot, pending, sag, -⟩ := s.keepCounts_alwaysOn (fun o => !keep o)
  unfold State.mainReset
  dsimp only
  rw [State.showSag_none _ _ (sag.trans h)]
  dsimp only
  exact ⟨by rw [fuse], mram, slots, boot, pending, by rw [regs]⟩

/-- What the reset of the main domains takes to its reset value outside a sag. -/
theorem State.mainReset_clears (s : State) (keep : Nat → Bool) (h : s.sag = none) :
    (s.mainReset keep).shadow = [] ∧ (s.mainReset keep).hbm = HbmSt.reset ∧ (s.mainReset keep).scr = State.reset.scr ∧
    (s.mainReset keep).tiles = [] ∧ (s.mainReset keep).rings = [] ∧ (s.mainReset keep).home = HomeSt.reset ∧
    (s.mainReset keep).connSt = [] ∧ (s.mainReset keep).sec = SecSt.none ∧ (s.mainReset keep).coll = CollSt.none ∧
    (s.mainReset keep).strm = StrmSt.none ∧ (s.mainReset keep).time = TimeSt.reset := by
  obtain ⟨-, -, -, -, -, -, sag, -⟩ := s.keepCounts_alwaysOn (fun o => !keep o)
  unfold State.mainReset
  dsimp only
  rw [State.showSag_none _ _ (sag.trans h)]
  exact ⟨rfl, rfl, rfl, rfl, rfl, rfl, rfl, rfl, rfl, rfl, rfl⟩

theorem State.reg_of_filtered {s t : State} (keep : Nat → Bool) (regs : t.regs = s.regs.filter (fun p => keep p.1)) (o : Nat)
    (kept : keep o = true) : t.reg o = s.reg o := by
  rw [State.reg, State.reg, regs, Sparse.get_filter, if_pos kept]

theorem State.reg_of_filtered_out {s t : State} (keep : Nat → Bool) (regs : t.regs = s.regs.filter (fun p => keep p.1)) (o : Nat)
    (gone : keep o = false) : t.reg o = State.reset.reg o := by
  rw [State.reg, regs, Sparse.get_filter, if_neg (by rw [gone]; exact Bool.false_ne_true)]
  rfl

/-- The state that PERST_N resets: the pins of sites, trigger outputs, THERMTRIP_N and WAKE_N are quiet. -/
def State.perstQuiet (s : State) : State :=
  let s := s.quietPins
  let s := if s.boot.trip then s.send (.pin .thermtripN true) else s
  if s.host.wakeLow then s.send (.pin .wakeN true) else s

theorem State.perstQuiet_alwaysOn (s : State) : s.alwaysOn s.perstQuiet := by
  have sent (s : State) (c : Bool) (o : Out) : s.alwaysOn (if c then s.send o else s) := by
    cases c <;> exact s.alwaysOn_refl
  exact State.alwaysOn_trans s.quietPins_alwaysOn (State.alwaysOn_trans (sent _ _ _) (sent _ _ _))

theorem execPerstNAssert_powered (s : State) (vaon : s.boot.vaon = true) (perst : s.boot.perst = false) :
    exec .perstNAssert s = .next (s.withAlert fun s =>
      let t := s.perstQuiet.mainReset keptReg; { t with boot := { t.boot with perst := true } }) :=
  if_neg (by simp [vaon, perst])

/-- Settles O41: what the pins and the counts do before the reset is always-on, and the reset is that of the main domains. -/
theorem perstKeepsOnlyTheAlwaysOnDomain : Obligations.PerstKeepsOnlyTheAlwaysOnDomain := by
  unfold Obligations.PerstKeepsOnlyTheAlwaysOnDomain
  intro s vaon perst sag
  obtain ⟨regs, fuse, mram, slots, boot, pending, quietSag, -⟩ := s.perstQuiet_alwaysOn
  have noSag : s.perstQuiet.sag = none := quietSag.trans sag
  obtain ⟨kFuse, kMram, kSlots, kBoot, kPending, kRegs⟩ := s.perstQuiet.mainReset_keeps keptReg noSag
  obtain ⟨shadow, hbm, scr, tiles, rings, home, connSt, sec, coll, strm, time⟩ := s.perstQuiet.mainReset_clears keptReg noSag
  rw [regs] at kRegs
  rw [execPerstNAssert_powered s vaon perst, State.withAlert_eq]
  refine ⟨_, rfl, rfl, kFuse.trans (by rw [fuse]), kMram.trans mram, kSlots.trans slots, kBoot.trans boot, kPending.trans pending,
    ?kept, ?cleared, ?shadows, hbm, scr, tiles, rings, home, connSt, sec, coll, strm, time⟩
  case kept => exact fun o kept => State.reg_of_filtered keptReg kRegs o kept
  case cleared => exact fun o gone => State.reg_of_filtered_out keptReg kRegs o gone
  case shadows =>
    intro o
    show BitVec.toNat (Sparse.get _ (s.perstQuiet.mainReset keptReg).shadow o) = _
    rw [shadow]
    rfl

/-- The state that the loss of VAON resets: THERMTRIP_N, ALERT_N and WAKE_N are released. -/
def State.pinsReleased (s : State) : State :=
  let s := if s.boot.trip then s.send (.pin .thermtripN true) else s
  let s := if s.alertLevel then s else s.send (.pin .alertN true)
  if s.host.wakeLow then s.send (.pin .wakeN true) else s

theorem State.pinsReleased_eq (s : State) : s.pinsReleased = { s with out := s.pinsReleased.out } := by
  unfold State.pinsReleased
  dsimp only
  split <;> split <;> split <;> rfl

theorem execVaonPowerOff_dark (s : State) (dark : s.boot.vaon = false) : exec .vaonPowerOff s = .next s :=
  if_pos (by simp [dark])

/-- Settles O42: the next state is the reset state with the queue, the fuses and the store, and it has no VAON. -/
theorem vaonLossKeepsFusesAndStoreAlone : Obligations.VaonLossKeepsFusesAndStoreAlone := by
  unfold Obligations.VaonLossKeepsFusesAndStoreAlone
  intro s vaon
  have lost : exec .vaonPowerOff s = .next
      (let u := s.pinsReleased
       let t := { State.reset with pending := u.pending, free := u.free, out := u.out, fuse := u.fusesOff }
       { t with mram := u.mram, boot := { t.boot with vaon := false }, pwr := { t.pwr with pinLow := u.pwr.pinLow } }) :=
    if_neg (by simp [vaon])
  rw [lost, State.pinsReleased_eq]
  exact ⟨_, rfl, rfl, rfl, rfl, rfl, fun _ => ⟨rfl, rfl⟩, rfl, rfl, rfl, rfl, execVaonPowerOff_dark _ rfl⟩

/-! ### Coalescing of events -/

/-- The window of a code and unit, found again after it was changed in place. -/
theorem find?_map_window (ws : List EvtWindow) (code unit : Nat) (g : EvtWindow → EvtWindow)
    (same : ∀ x, (g x).code = x.code ∧ (g x).unit = x.unit) (w : EvtWindow)
    (found : ws.find? (fun x => x.code == code && x.unit == unit) = some w) :
    (ws.map (fun x => if x.code = code ∧ x.unit = unit then g x else x)).find? (fun x => x.code == code && x.unit == unit) = some (g w) := by
  rw [List.find?_map]
  have name (x : EvtWindow) : ((if x.code = code ∧ x.unit = unit then g x else x).code == code &&
      (if x.code = code ∧ x.unit = unit then g x else x).unit == unit) = (x.code == code && x.unit == unit) := by
    split
    · rw [(same x).1, (same x).2]
    · rfl
  have pred : ((fun (x : EvtWindow) => x.code == code && x.unit == unit) ∘ fun x => if x.code = code ∧ x.unit = unit then g x else x) =
      fun x => x.code == code && x.unit == unit := funext name
  have named : w.code = code ∧ w.unit = unit := by simpa using List.find?_some found
  rw [pred, found, Option.map_some, if_pos named]

/-- An event of a running window is counted there and nothing else changes. -/
theorem State.post_window (s : State) (e : Event) (w : EvtWindow) (low : e.cls < 2)
    (found : s.evt.windows.find? (fun x => x.code == e.code && x.unit == e.unit) = some w) :
    s.post e = { s with evt := { s.evt with windows := s.evt.windows.map (fun (x : EvtWindow) =>
      if x.code = e.code ∧ x.unit = e.unit then { x with held := x.held + 1, last := some e } else x) } } := by
  have named : w.code = e.code ∧ w.unit = e.unit := by simpa using List.find?_some found
  unfold State.post
  rw [if_neg (by omega), if_neg (by omega)]
  dsimp only
  rw [found]
  dsimp only
  rw [named.1, named.2]

theorem State.logEntry_ring (s : State) (e : Event) (n : Nat) : (s.logEntry e n).on Reg.QM_EVT_CFG_enable = s.on Reg.QM_EVT_CFG_enable := by
  obtain ⟨-, -, apart⟩ := s.logEntry_spec e n
  rw [State.on, State.rd, apart _ (by decide) (by decide) (by decide)]
  rfl

/-- Without a window the event is written, and its window opens. -/
theorem State.post_fresh (s : State) (e : Event) (low : e.cls < 2)
    (none : s.evt.windows.find? (fun x => x.code == e.code && x.unit == e.unit) = none) (ring : s.on Reg.QM_EVT_CFG_enable = false) :
    s.post e = { s.logEntry e 1 with evt := { (s.logEntry e 1).evt with
      windows := (s.logEntry e 1).evt.windows ++ [({ code := e.code, unit := e.unit, held := 0, last := .none } : EvtWindow)] } } := by
  unfold State.post
  rw [if_neg (by omega), if_neg (by omega)]
  dsimp only
  rw [none]
  exact State.evtCopy_off _ _ ((s.logEntry_ring e 1).trans ring)

/-- One held occurrence is written when its window ends. -/
theorem State.closeWindow_held (s : State) (code unit : Nat) (w : EvtWindow) (e : Event) (ring : s.on Reg.QM_EVT_CFG_enable = false)
    (found : s.evt.windows.find? (fun x => x.code == code && x.unit == unit) = some w) (last : w.last = some e) (held : w.held = 1) :
    (s.closeWindow code unit).evt.slots = (s.logEntry e 1).evt.slots := by
  unfold State.closeWindow
  rw [found]
  dsimp only
  rw [last]
  dsimp only
  rw [if_pos held]
  refine (congrArg (fun t : State => t.evt.slots) (State.evtCopy_off _ _ ?_)).trans rfl
  exact (s.logEntry_ring e 1).trans ring

/-- Settles O44, by whether a window of the code and unit runs. -/
theorem eventsOfAPairAreCountedForAMillisecond : Obligations.EventsOfAPairAreCountedForAMillisecond := by
  unfold Obligations.EventsOfAPairAreCountedForAMillisecond
  refine ⟨?counted, ?logged, ?ended⟩
  case counted =>
    intro s e w low found
    rw [State.post_window s e w low found]
    exact ⟨rfl, rfl, rfl, find?_map_window _ _ _ (fun x => { x with held := x.held + 1, last := some e }) (fun _ => ⟨rfl, rfl⟩) _ found⟩
  case logged =>
    intro s e low none ring
    obtain ⟨next, evt, -⟩ := s.logEntry_spec e 1
    rw [State.post_fresh s e low none ring]
    refine ⟨next, ?slots, ?opened⟩
    case slots =>
      show (s.logEntry e 1).evt.slots = _
      rw [evt]
      rfl
    case opened =>
      rw [List.find?_isSome]
      exact ⟨_, List.mem_append_right _ (List.mem_singleton_self _), by simp⟩
  case ended =>
    intro s code unit w e vaon ring found last held
    obtain ⟨-, evt, -⟩ := s.logEntry_spec e 1
    refine ⟨s.closeWindow code unit, if_pos vaon, ?_⟩
    rw [State.closeWindow_held s code unit w e ring found last held, evt]
    rfl

/-! ### Refused accesses of the host -/

/-- What a refused request does: it is counted in HOST_ERR, logged, and nothing else changes. -/
theorem State.unsupportedReq_spec (s : State) (off : Nat) (ring : s.on Reg.QM_EVT_CFG_enable = false) :
    s.noted (s.unsupportedReq off) ∧
    (∀ o, o ≠ Reg.HOST_ERR → o ≠ Reg.RAS_EVT_NEXT → o ≠ Reg.RAS_EVT_LOST → o ≠ Reg.RAS_ALERT → (s.unsupportedReq off).reg o = s.reg o) ∧
    (s.unsupportedReq off).rd Reg.HOST_ERR_inbound_ur = min (s.rd Reg.HOST_ERR_inbound_ur + 1)
      (2 ^ (Reg.HOST_ERR_inbound_ur.hi + 1 - Reg.HOST_ERR_inbound_ur.lo) - 1) := by
  have quiet : (s.sat Reg.HOST_ERR_inbound_ur 1).on Reg.QM_EVT_CFG_enable = false := by
    rw [State.on, State.sat, State.rd_wr_other _ _ _ _ (by decide)]
    exact ring
  obtain ⟨noted, apart⟩ := (s.sat Reg.HOST_ERR_inbound_ur 1).post_quiet (Event.make blkHost 3 0 0 (off % 2 ^ 48 + 0x0E * 2 ^ 48)) (show 0 < 2 by decide) quiet
  refine ⟨State.noted_trans (s.noted_wr _ _) noted, fun o host next lost alert => ?_, ?_⟩
  · exact (apart o next lost alert).trans (State.reg_wr_other _ _ _ _ host)
  · have counted : (s.sat Reg.HOST_ERR_inbound_ur 1).rd Reg.HOST_ERR_inbound_ur = _ := State.rd_wr_same s Reg.HOST_ERR_inbound_ur _ (by decide) (by decide)
    show bits ((s.unsupportedReq off).reg Reg.HOST_ERR) _ _ = _
    rw [show (s.unsupportedReq off).reg Reg.HOST_ERR = (s.sat Reg.HOST_ERR_inbound_ur 1).reg Reg.HOST_ERR from apart _ (by decide) (by decide) (by decide)]
    refine counted.trans (Nat.mod_eq_of_lt ?_)
    exact Nat.lt_of_le_of_lt (Nat.min_le_right _ _) (by decide)

/-- The five reasons of R276 for which the endpoint does not serve an access. -/
theorem State.barOk_eq_false (s : State) (tee : Option Nat)
    (closed : s.host.memEnable = false ∨ s.rd Reg.HOST_STATUS_dstate ≠ 0 ∨ s.on Reg.HOST_STATUS_link_up = false ∨
      (s.rd Reg.HOST_STATUS_tdisp = 2 ∧ tee = none) ∨
      (s.rd Reg.HOST_STATUS_tdisp = 2 ∧ ∃ (k : Nat), tee = some k ∧ bit (s.rd Reg.HOST_STATUS_ide_secure) k = false)) :
    s.barOk (.host tee) = false := by
  unfold State.barOk
  dsimp only
  rcases closed with memory | dstate | link | ⟨run, rfl⟩ | ⟨run, k, rfl, stream⟩
  · simp [memory]
  · simp [dstate]
  · simp [link]
  · simp [run]
  · simp [run, stream]

/-- Settles O45: the gate of the three accesses answers each the same way when it is closed. -/
theorem refusedHostAccessChangesOnlyCounterAndLog : Obligations.RefusedHostAccessChangesOnlyCounterAndLog := by
  unfold Obligations.RefusedHostAccessChangesOnlyCounterAndLog
  intro c tee off size s access closed ring
  have shut : s.barOk (.host tee) = false := s.barOk_eq_false tee closed
  have answered : exec c s = .next ((s.unsupportedReq off).send (.unsupported off size)) := by
    have gated (f : State → State) : s.gated (.host tee) off size f = (s.unsupportedReq off).send (.unsupported off size) :=
      if_neg (by rw [shut]; exact Bool.false_ne_true)
    rcases access with rfl | ⟨v, rfl⟩ | ⟨w, v, rfl⟩
    · exact congrArg Host.Outcome.next (gated _)
    · exact congrArg Host.Outcome.next (gated _)
    · exact if_pos (by rw [shut]; rfl)
  obtain ⟨⟨regs, evt, out, noted⟩, apart, counted⟩ := s.unsupportedReq_spec off ring
  refine ⟨_, answered, ?frame, apart, counted, List.getLast?_concat⟩
  case frame => rw [noted]; rfl

end Sys2Proof.Machine
end

section
/-! PROOFS. The codes of the IEEE 754 formats (R87–R91, R110): each finite code is the encoding of the value that it decodes to. -/
namespace Sys2Proof.Machine

/-! ### Codes and their parts -/

/-- The largest finite value of an IEEE 754 format lies one below the exponent that infinities and NaNs have. -/
def Flt.ieee (f : Flt) : Prop := f.maxK = 2 ^ (f.m + 1) - 1 ∧ f.maxG = f.emin - f.m + 2 ^ f.w - 3

theorem ieee_of_mem (f : Flt) (mem : f ∈ [fltE5m2, fltBf16, fltFp16, fltFp32, fltFp64]) : f.ieee := by
  have all : ∀ f ∈ [fltE5m2, fltBf16, fltFp16, fltFp32, fltFp64], f.maxK = 2 ^ (f.m + 1) - 1 ∧ f.maxG = f.emin - f.m + 2 ^ f.w - 3 := by
    decide
  exact all f mem

/-- The exponent field of a code. -/
def Flt.expOf (f : Flt) (c : Nat) : Nat := bits c (f.m + f.w - 1) f.m

theorem Flt.expOf_eq (f : Flt) (c : Nat) (pos : 0 < f.w) : f.expOf c = c / 2 ^ f.m % 2 ^ f.w := by
  rw [Flt.expOf, bits_eq_div_mod, show f.m + f.w - 1 + 1 - f.m = f.w by omega]

/-- A code is its sign, its exponent and its fraction. -/
theorem Flt.code_eq_fields (f : Flt) (c : Nat) (pos : 0 < f.w) (bound : c < 2 ^ f.bitsOf) :
    c = f.expOf c * 2 ^ f.m + c % 2 ^ f.m + ofBool (f.negOf c) * 2 ^ (f.m + f.w) := by
  have sign : ofBool (f.negOf c) = c / 2 ^ (f.m + f.w) := by
    have small : c / 2 ^ (f.m + f.w) < 2 := by
      refine Nat.div_lt_of_lt_mul ?_
      rwa [Flt.bitsOf, Nat.add_assoc, Nat.add_comm, Nat.add_comm f.w, Nat.pow_succ] at bound
    rw [Flt.negOf, bit, Nat.testBit_eq_decide_div_mod_eq, Nat.mod_eq_of_lt small]
    generalize c / 2 ^ (f.m + f.w) = b at small
    interval_cases b <;> rfl
  have low : c % 2 ^ (f.m + f.w) = f.expOf c * 2 ^ f.m + c % 2 ^ f.m := by
    rw [f.expOf_eq c pos, Nat.pow_add, Nat.mod_mul, Nat.add_comm, Nat.mul_comm]
  rw [← low, sign, Nat.mul_comm, Nat.add_comm, Nat.div_add_mod]

theorem Flt.parts_subnormal (f : Flt) (c : Nat) (zero : f.expOf c = 0) : f.parts c = (c % 2 ^ f.m, f.emin - f.m) :=
  if_pos zero

theorem Flt.parts_normal (f : Flt) (c : Nat) (exp : f.expOf c ≠ 0) :
    f.parts c = (2 ^ f.m + c % 2 ^ f.m, f.emin - f.m + (f.expOf c - 1 : Nat)) :=
  if_neg exp

/-- A finite code has an exponent that is not all ones, and is read by its parts. -/
theorem Flt.decode_fin (f : Flt) (c : Nat) (neg : Bool) (m : Nat) (q : Int) (h : f.decode c = .fin neg m q) :
    f.expOf c ≠ 2 ^ f.w - 1 ∧ neg = f.negOf c ∧ f.parts c = (m, q) := by
  unfold Flt.decode at h
  dsimp only at h
  split at h
  next ones => split at h <;> cases h
  next finite =>
    cases h
    exact ⟨finite, rfl, rfl⟩

theorem signedOf_natAbs (neg : Bool) (m : Nat) : (signedOf neg m).natAbs = m := by
  cases neg <;> simp [signedOf]

theorem signedOf_neg_iff (neg : Bool) (m : Nat) (pos : m ≠ 0) : decide (signedOf neg m < 0) = neg := by
  cases neg <;> simp [signedOf]; omega

theorem signedOf_ne_zero (neg : Bool) (m : Nat) (pos : m ≠ 0) : signedOf neg m ≠ 0 := by
  rw [← Int.natAbs_ne_zero, signedOf_natAbs]; exact pos

/-- A code's value lies on the grid of its format: the leading bit of the significand fixes the exponent that rounding picks. -/
theorem Flt.grid_parts (f : Flt) (c : Nat) (pos : (f.parts c).1 ≠ 0) :
    max (floorLog2 (f.parts c).1 1 (f.parts c).2) f.emin - f.m = (f.parts c).2 := by
  rw [floorLog2_one _ _ pos]
  have low : c % 2 ^ f.m < 2 ^ f.m := Nat.mod_lt _ (Nat.two_pow_pos _)
  by_cases zero : f.expOf c = 0
  · rw [f.parts_subnormal c zero] at pos ⊢
    have log : Nat.log2 (c % 2 ^ f.m) < f.m := (Nat.log2_lt pos).2 low
    dsimp only
    omega
  · rw [f.parts_normal c zero] at pos ⊢
    have log : Nat.log2 (2 ^ f.m + c % 2 ^ f.m) = f.m := (Nat.log2_eq_iff pos).2 ⟨Nat.le_add_right _ _, by rw [Nat.pow_succ]; omega⟩
    dsimp only at log ⊢
    omega

/-- A value on the grid is rounded to itself. -/
theorem Flt.round_on_grid (f : Flt) (num : Int) (q : Int) (nonzero : num ≠ 0)
    (grid : max (floorLog2 num.natAbs 1 q) f.emin - f.m = q) : f.round .nearest num 1 q = (num, q) := by
  unfold Flt.round
  rw [if_neg nonzero]
  dsimp only
  rw [grid]
  have same : onGrid num 1 q q = (num, 1) := by rw [onGrid, if_pos (Int.le_refl q), Int.sub_self]; simp
  rw [same, roundQuot_one]

/-- No finite code decodes to a value beyond the largest. -/
theorem Flt.parts_not_beyond (f : Flt) (c : Nat) (ieee : f.ieee) (wide : 2 ≤ f.w) (finite : f.expOf c ≠ 2 ^ f.w - 1) :
    f.beyond (f.parts c).1 (f.parts c).2 = false := by
  obtain ⟨maxK, maxG⟩ := ieee
  have small : (f.parts c).1 ≤ f.maxK := by have := f.parts_fst_lt c; omega
  have exp : f.expOf c < 2 ^ f.w := by rw [f.expOf_eq c (by omega)]; exact Nat.mod_lt _ (Nat.two_pow_pos _)
  have four : 2 ^ 2 ≤ 2 ^ f.w := Nat.pow_le_pow_right (by decide) wide
  have cast : (2 : Int) ^ f.w = ((2 ^ f.w : Nat) : Int) := (Nat.cast_pow 2 f.w).symm
  have top : (f.parts c).2 ≤ f.maxG := by
    rw [maxG, cast]
    generalize 2 ^ f.w = codes at *
    by_cases zero : f.expOf c = 0
    · rw [f.parts_subnormal c zero]
      dsimp only
      omega
    · rw [f.parts_normal c zero]
      dsimp only
      omega
  unfold Flt.beyond
  split
  next reached =>
    have : (f.parts c).2 - f.maxG = 0 := by omega
    rw [this]
    simpa using small
  next below =>
    have grows : f.maxK ≤ f.maxK * 2 ^ (f.maxG - (f.parts c).2).toNat := Nat.le_mul_of_pos_right _ (Nat.two_pow_pos _)
    simpa using Nat.le_trans small grows

/-- The parts of a code make up its exponent and fraction fields. -/
theorem Flt.code_parts (f : Flt) (c : Nat) (neg : Bool) :
    f.code neg (f.parts c).1 (f.parts c).2 = f.expOf c * 2 ^ f.m + c % 2 ^ f.m + ofBool neg * 2 ^ (f.m + f.w) := by
  have low : c % 2 ^ f.m < 2 ^ f.m := Nat.mod_lt _ (Nat.two_pow_pos _)
  have bound := f.parts_fst_lt c
  unfold Flt.code
  rw [if_neg (Nat.ne_of_lt bound)]
  dsimp only
  by_cases zero : f.expOf c = 0
  · rw [f.parts_subnormal c zero, if_pos low, zero, Nat.zero_mul, Nat.zero_add]
  · rw [f.parts_normal c zero, if_neg (by dsimp only; omega)]
    dsimp only
    have exp : (f.emin - f.m + (f.expOf c - 1 : Nat) + f.m - f.emin + 1).toNat = f.expOf c := by omega
    rw [exp, Nat.add_sub_cancel_left]

/-- Zero has one code for each sign, whatever the exponent. -/
theorem Flt.code_zero (f : Flt) (neg : Bool) (g g' : Int) : f.code neg 0 g = f.code neg 0 g' := by
  have low : 0 < 2 ^ f.m := Nat.two_pow_pos _
  unfold Flt.code
  rw [if_neg (Nat.ne_of_lt (Nat.two_pow_pos _)), if_neg (Nat.ne_of_lt (Nat.two_pow_pos _))]
  dsimp only
  rw [if_pos low, if_pos low]

/-- Settles O51: the value lies on its format's grid, so rounding keeps it, and the parts of a code make it up. -/
theorem finiteCodesSurviveARoundTrip : Obligations.FiniteCodesSurviveARoundTrip := by
  unfold Obligations.FiniteCodesSurviveARoundTrip
  intro f c neg m q mem bound decoded
  have wide : 2 ≤ f.w := by
    have all : ∀ f ∈ [fltE5m2, fltBf16, fltFp16, fltFp32, fltFp64], 2 ≤ f.w := by decide
    exact all f mem
  obtain ⟨finite, rfl, parts⟩ := f.decode_fin c neg m q decoded
  have fields := f.code_parts c (f.negOf c)
  rw [← f.code_eq_fields c (by omega) bound] at fields
  have grid := f.grid_parts c
  have inside := f.parts_not_beyond c (ieee_of_mem f mem) wide finite
  simp only [parts] at fields grid inside
  by_cases zero : m = 0
  · subst zero
    rw [show signedOf (f.negOf c) 0 = 0 by cases f.negOf c <;> rfl, Flt.encode, if_pos rfl, f.code_zero _ 0 q]
    exact fields
  · have nonzero := signedOf_ne_zero (f.negOf c) m zero
    have kept := f.round_on_grid (signedOf (f.negOf c) m) q nonzero (by rw [signedOf_natAbs]; exact grid zero)
    unfold Flt.encode
    rw [if_neg nonzero, kept]
    dsimp only
    rw [signedOf_natAbs, inside, signedOf_neg_iff _ _ zero]
    exact fields

end Sys2Proof.Machine
end

section
/-! PROOFS. What the GLB commit, the substitution command and a quiescent point do (R22, R25, R27). -/
namespace Sys2Proof.Machine

theorem ite_not_bool {α : Type} (b : Bool) (x y : α) : (if !b then x else y) = if b then y else x := by
  cases b <;> rfl
/-- A choice between two next states is the next state of the choice. -/
theorem next_ite {c : Prop} [Decidable c] (s t : State) :
    (if c then .next s else .next t : Host.Outcome State Fault Refusal) = .next (if c then s else t) :=
  (apply_ite Host.Outcome.next c s t).symm

/-- An accepted commit takes both registers, and DUTY_ACTIVE shows the mode (R25). -/
theorem execGlbCommit_takes (v : Word) (s : State) (h : bits v.toNat 0 0 = 1)
    (descTranslation : s.shf Reg.DUTY_MODE_desc_translation = 0) (drvApi : s.shf Reg.GLB_DRV_INFO_drv_api ≤ 2) :
    execGlbCommit v s = .next (
      let u := s.commitRegs [Reg.DUTY_MODE, Reg.GLB_DRV_INFO]
      let w : State := { u with pwr := { u.pwr with missed := 0 }, time := { u.time with steerAt := if u.on Reg.DUTY_MODE_time_discipline && !u.duty 9 then u.now else u.time.steerAt } }
      (w.wr Reg.DUTY_ACTIVE_duty_active (bits (w.reg Reg.DUTY_MODE) 9 0)).commitDone Reg.GLB_COMMIT_STATUS) := by
  rw [execGlbCommit, if_neg (by simp [h])]
  exact (if_neg (by simp [descTranslation])).trans (if_neg (Nat.not_lt.mpr drvApi))

/-- An idle context in hardware mode clears its armed bit, rebinds and starts its copies. -/
theorem execQuiescentPoint_idle (ctx : Nat) (s : State) (hctx : ctx < 64) (ctxIdle : s.ctxIdle ctx = true) (duty : s.duty 5 = false) :
    execQuiescentPoint ctx s = .next (
      let t := (s.wr ⟨Reg.GLB_SUBST_ARMED, ctx, ctx⟩ 0).rebindAll ctx
      let u := (t.ownedCells ctx).foldl (fun (u : State) k => u.startCopy ctx k) t
      if u.hbm.copying.any (fun x => x.ctx == ctx) then { u with glb := { u.glb with armed := u.glb.armed ++ [64 + ctx] } } else u) := by
  rw [execQuiescentPoint, Nat.mod_eq_of_lt hctx, State.quiesce]
  exact congrArg Host.Outcome.next ((if_neg (by simp [ctxIdle, duty])).trans (ite_not_bool _ _ _))

/-- The end of a context's copies resumes what waited for them. -/
theorem execSubstitutionsEnd_armed (ctx : Nat) (s : State) (hctx : ctx < 64) (armed : s.glb.armed.contains (64 + ctx) = true) :
    execSubstitutionsEnd ctx s = .next (
      let t := (s.hbm.copying.filter (fun x => x.ctx == ctx)).foldl State.endCopy s
      let u := { t with glb := { t.glb with armed := t.glb.armed.filter (· != 64 + ctx) } }
      ((({ u with hbm := { u.hbm with copyWait := [] } }).resume u.hbm.copyWait).homeRetry).homeKick) := by
  rw [execSubstitutionsEnd, Nat.mod_eq_of_lt hctx]
  exact if_neg (by rw [armed]; decide)

/-- Settles O1: each command passes its guard; a context below 64 is its own remainder. -/
theorem glbAndSubstitutionCommandsTakeEffect : Obligations.GlbAndSubstitutionCommandsTakeEffect := by
  unfold Obligations.GlbAndSubstitutionCommandsTakeEffect
  refine ⟨?commit, ?substitute, ?quiescent, ?copied⟩
  case commit => exact execGlbCommit_takes
  case substitute => exact fun _ _ duty => if_neg (by simp [duty])
  case quiescent => exact execQuiescentPoint_idle
  case copied => exact execSubstitutionsEnd_armed

end Sys2Proof.Machine
end

section
/-! PROOFS. What the commands of the on-chip network do (R139–R156). -/
namespace Sys2Proof.Machine

/-- A tile's DMA commands that waited too long end its kernel. -/
theorem execNocRequestTimeout_tile (t : Nat) (s : State) (running : (s.tile t).run.isSome = true)
    (late : (s.tile t).tdma.any (fun c => s.endsByTimeout (.tile t c.tag)) = true) :
    execNocRequestTimeout (.tile t) s = .next ((((s.tile t).tdma.filter (fun c => s.endsByTimeout (.tile t c.tag))).foldl (fun (s : State)
    (c : TdmaCmd) => s.dropReqs (.tile t c.tag)) (s.sat Reg.NOC_TIMEOUTS_timeouts 1)).endKernel t stNocTimeout 0) :=
  if_pos (by
    rw [Bool.and_eq_true, Bool.not_eq_true', List.isEmpty_eq_false_iff_exists_mem]
    obtain ⟨c, waits, ended⟩ := List.any_eq_true.1 late
    exact ⟨running, c, List.mem_filter.2 ⟨waits, ended⟩⟩)

/-- A descriptor whose request waited too long fails. -/
theorem execNocRequestTimeout_run (r seq : Nat) (d : Run) (s : State) (runOf : s.runOf r seq = some d) (status : d.status = none)
    (endsByTimeout : s.endsByTimeout (.run r seq) = true) :
    execNocRequestTimeout (.ring r seq) s = .next (((s.sat Reg.NOC_TIMEOUTS_timeouts 1).dropReqs (.run r seq)).failMove r seq stNocTimeout) := by
  simp only [execNocRequestTimeout, runOf]
  exact if_neg (by simp [status, endsByTimeout])

/-- With routes that may be used, the clusters that they do not reach are lost and the routes taken. -/
theorem execNocCommit_takes (v : Word) (s : State) (h : bit v.toNat 0 = true) (timeoutUs : 100 ≤ s.shf Reg.NOC_CFG_timeout_us)
    (timeoutUs2 : s.shf Reg.NOC_CFG_timeout_us ≤ 10000) (badRoute : s.badRoute = none) :
    execNocCommit v s = .next (
      (s.loseUnreachable 128).routesTaken) := by
  rw [execNocCommit, if_neg (by simp [h])]
  refine (if_neg (by omega)).trans ?_
  rw [badRoute]

/-- Settles O7: most are one operation of the network; a timeout asks who waited, and a commit passes its two checks. -/
theorem networkCommandsTakeEffect : Obligations.NetworkCommandsTakeEffect := by
  unfold Obligations.NetworkCommandsTakeEffect
  refine ⟨?packet, ?link, ?switchover, ?router, ?tileTimeout, ?runTimeout, ?late, ?commit, ?unlock⟩
  case packet => exact fun _ _ => rfl
  case link => exact fun _ _ _ _ => rfl
  case switchover => exact fun _ => rfl
  case router => exact fun _ _ => rfl
  case tileTimeout => exact execNocRequestTimeout_tile
  case runTimeout => exact execNocRequestTimeout_run
  case late => exact fun _ => rfl
  case commit => exact execNocCommit_takes
  case unlock => exact fun _ => rfl

end Sys2Proof.Machine
end

section
/-! PROOFS. What the commands of the memory controllers do (R157–R199). -/
namespace Sys2Proof.Machine

@[simp] theorem State.own_useInjection (s : State) (a n g : Nat) : (s.useInjection a n).own g = s.own g := by
  unfold State.useInjection
  split
  · split <;> rfl
  · rfl

/-- An entry of the buffer retires at its age. -/
theorem execWcbAgeExpiry_found (line : Nat) (e : WcbEntry) (s : State) (wcbOf : s.wcbOf line = some e) :
    execWcbAgeExpiry line s = .next (s.wcbRetire e) := by
  rw [execWcbAgeExpiry, wcbOf]

/-- A corrected sector is counted. -/
theorem execScrubVisit_corrected (addr : Nat) (ecc : Ecc) (s : State) (memTop : addr < s.memTop) (serves : s.serves addr = true)
    (injected : s.injected addr 32 ecc = .corrected) :
    execScrubVisit addr ecc s = .next ((s.useInjection addr 32).sectorCorrected addr) := by
  rw [execScrubVisit, if_pos memTop, if_neg (by simp [serves])]
  dsimp only
  rw [injected]

/-- A sector that cannot be corrected is poisoned. -/
theorem execScrubVisit_lost (addr : Nat) (ecc : Ecc) (s : State) (memTop : addr < s.memTop) (serves : s.serves addr = true)
    (injected : s.injected addr 32 ecc = .uncorrectable) (own : (s.own (addr / granuleBytes)).bedrock = false)
    (sound : (s.useInjection addr 32).sectorPoisoned (addr / 32) = false) :
    execScrubVisit addr ecc s = .next ((s.useInjection addr 32).sectorLost addr) := by
  rw [execScrubVisit, if_pos memTop, if_neg (by simp [serves])]
  dsimp only
  rw [injected]
  calc
    _ = _ := if_neg (by rw [State.own_useInjection, own]; exact Bool.false_ne_true)
    _ = _ := if_neg (by simp [sound])

theorem execPprRepair_oldest (r : RowErr) (t : List RowErr) (s : State) (rowList : s.hbm.rowList = r :: t) :
    execPprRepair s = .next ((({ s with hbm := { s.hbm with rowList := t } }).showRows).repairRow r) := by
  rw [execPprRepair, rowList]

theorem execPprDismiss_oldest (r : RowErr) (t : List RowErr) (s : State) (rowList : s.hbm.rowList = r :: t) :
    execPprDismiss s = .next (({ s with hbm := { s.hbm with rowList := t } }).showRows) := by
  rw [execPprDismiss, rowList]

/-- A reading moves the stack through its thermal states (R188). -/
theorem execStackTempRead_reads (stack : Nat) (tempC : Nat) (s : State) (hstack : stack < 8)
    (state : s.rd (Reg.HBM_STACK_STATUS_state stack) < 5) (present : (s.fuse.part ≠ Part.x672 ∨ stack ≠ 7)) :
    execStackTempRead stack tempC s = .next (
      let st := s.rd (Reg.HBM_STACK_STATUS_state stack)
      let n := s.hbm.tempReads.get 0 stack + 1
      let s := { s with hbm := { s.hbm with tempReads := s.hbm.tempReads.put stack (n % 100) } }
      let s := if n = 100 then
          let s := s.wr (Reg.HBM_STACK_STATUS_temp_c stack) (min tempC 255)
          s.wr Reg.PWR_TEMP_stack_max_c s.hottest
        else s
      if st = 4 then s
      else if 105 ≤ tempC then (s.haltStack stack)
      else (s.wr (Reg.HBM_STACK_STATUS_state stack) (thermalStep st tempC))) :=
  (if_neg (not_or.mpr ⟨Nat.not_le.mpr hstack, not_or.mpr ⟨Nat.not_le.mpr state, fun ⟨part, last⟩ => present.elim (· part) (· last)⟩⟩)).trans
    ((congrArg (ite _ _) (next_ite _ _)).trans (next_ite _ _))

/-- A range that lies in memory, with a mode that is none, starts an operation on its first granule (R176). -/
theorem State.granStart_starts (s : State) (zero : Bool) (idle : s.on Reg.HBM_GRAN_STATUS_busy = false)
    (inside : s.rd Reg.HBM_GRAN_RANGE_first + s.rd Reg.HBM_GRAN_RANGE_count_m1 + 1 ≤ s.granules) (mode : s.rd Reg.HBM_GRAN_ATTR_mode ≠ 3) :
    s.granStart zero =
      let first := s.rd Reg.HBM_GRAN_RANGE_first
      let op : GranOp := { zero := zero, next := first, last := first + s.rd Reg.HBM_GRAN_RANGE_count_m1, owner := s.rd Reg.HBM_GRAN_ATTR_owner, mode := s.rd Reg.HBM_GRAN_ATTR_mode }
      ((({ s with hbm := { s.hbm with gran := some op } }).wr Reg.HBM_GRAN_STATUS_busy 1).wr Reg.HBM_GRAN_STATUS_result 0).granNext := by
  unfold State.granStart
  dsimp only
  rw [if_neg (by simp [idle]), if_neg (by omega), if_neg mode, ← Nat.add_assoc, Nat.add_sub_cancel]

/-- A granule whose lines have drained is taken. -/
theorem execGranDrainDone_free (op : GranOp) (s : State) (gran : s.hbm.gran = some op)
    (rangeHeld : s.rangeHeld (op.next * granuleBytes) granuleBytes = false) :
    execGranDrainDone s = .next (s.granDrained.granRecall.homeRetry.homeKick) := by
  simp only [execGranDrainDone, gran]
  exact if_neg (by simp [rangeHeld])

/-- A block that the manager or the deputy sent, with the manifest's digest, is accepted. -/
theorem execBedrockBlock_accepted (granule : Nat) (data : List Byte) (digest : Nat) (rep : BrRepair) (s : State)
    (staged : s.rd Reg.HBM_BEDROCK_state ≠ 1) (repairOf : s.repairOf granule = some rep)
    (stage : (rep.stage = .manager ∨ rep.stage = .deputy)) (same : (s.mram.manifest.map Manifest.digest) = some digest)
    (good : s.bedrockOk granule data = true) :
    execBedrockBlock granule data digest s = .next (s.brAccept granule data) := by
  have current : (s.mram.manifest.map Manifest.digest == some digest) = true := by rw [same]; exact BEq.rfl
  rw [execBedrockBlock]
  rw [if_neg staged, repairOf]
  calc
    _ = _ := if_neg (by tauto)
    _ = _ := if_pos (by rw [current, good]; rfl)

/-- A peer that does not answer is passed over. -/
theorem execBedrockFetchTimeout_peer (granule : Nat) (rep : BrRepair) (s : State) (repairOf : s.repairOf granule = some rep)
    (stage : (rep.stage = .manager ∨ rep.stage = .deputy)) :
    execBedrockFetchTimeout granule s = .next ((s.event blkHbm 0x0A 0 rep.ctl (20000 + (if rep.stage = .manager then s.managerDev else
    s.deputyDev) * 2 ^ 32)).brOnward rep) := by
  rw [execBedrockFetchTimeout, repairOf]
  exact if_neg (by tauto)

/-- A driver that does not supply the block is passed over. -/
theorem execBedrockSupplyTimeout_driver (granule : Nat) (rep : BrRepair) (s : State) (repairOf : s.repairOf granule = some rep)
    (stage : rep.stage = .driver) :
    execBedrockSupplyTimeout granule s = .next (
      let u := (s.poisonParked granule).fallback 6
      (u.brStage granule (if u.isManager then .deputy else .manager)).send (.brFetch granule u.isManager)) := by
  rw [execBedrockSupplyTimeout, repairOf]
  exact if_neg (not_not.mpr stage)

theorem execHbmCommit_takes (v : Word) (s : State) (h : bits v.toNat 0 0 = 1) (scrubHours : 1 ≤ s.shf Reg.HBM_CFG_scrub_hours)
    (scrubHours2 : s.shf Reg.HBM_CFG_scrub_hours ≤ 48) (wcbAgeUs : 1 ≤ s.shf Reg.HBM_CFG_wcb_age_us)
    (wcbAgeUs2 : s.shf Reg.HBM_CFG_wcb_age_us ≤ 64) :
    execHbmCommit v s = .next (
      ((s.commitReg Reg.HBM_CFG).commitDone Reg.HBM_COMMIT_STATUS)) := by
  rw [execHbmCommit, if_neg (by simp [h])]
  calc
    _ = _ := if_neg (by omega)
    _ = _ := if_neg (by omega)

/-- A commit of class registers that pass the check waits for the next millisecond. -/
theorem execRegCommit_takes (v : Word) (s : State) (h : bits v.toNat 0 0 = 1)
    (fields : (s.showCheck (fun c => s.shd (Reg.REG_CLASS_FLOOR c))).badClassField = none)
    (load : (s.showCheck (fun c => s.shd (Reg.REG_CLASS_FLOOR c))).overload (fun c => s.shd (Reg.REG_CLASS_FLOOR c)) = none) :
    execRegCommit v s = .next (
      let set := fun c => s.shd (Reg.REG_CLASS_FLOOR c)
      let s := s.showCheck set
      let offs := (List.range 45).map Reg.REG_CLASS_FLOOR ++ (List.range 44).map Reg.REG_CLASS_CTL
      let cap := offs.map (fun o => (o, BitVec.ofNat 64 (s.shd o)))
      ({ s with regul := { s.regul with pend := some cap } }.commitDone Reg.REG_COMMIT_STATUS)) := by
  rw [execRegCommit, if_neg (by simp [h])]
  dsimp only
  rw [fields]
  dsimp only
  rw [load]

/-- A credit sends the oldest request of its class and controller. -/
theorem execCreditSend_oldest (cls : Nat) (ctl : Nat) (r : MemReq) (s : State) (hasCredit : s.hasCredit cls ctl = true)
    (find : s.hbm.credWait.find? (fun r => r.cls == cls && (s.place r.addr).1 == ctl) = some r) :
    execCreditSend cls ctl s = .next (({ s with hbm := { s.hbm with credWait := s.hbm.credWait.erase r } }).memRequest r) := by
  rw [execCreditSend, if_neg (by simp [hasCredit])]
  rw [find]

/-- Settles O8: each command passes its guard and finds the entry, the granule or the repair that it names. -/
theorem memoryCommandsTakeEffect : Obligations.MemoryCommandsTakeEffect := by
  unfold Obligations.MemoryCommandsTakeEffect
  refine ⟨?read, ?write, ?age, ?burst, ?queue, ?scrubCorrected, ?scrubLost, ?repair, ?dismiss, ?temperature, ?set, ?setZero, ?granZero,
    ?drained, ?zeroing, ?block, ?load, ?fetchTimeout, ?supply, ?supplyTimeout, ?hbmCommit, ?samples, ?regCommit, ?credit⟩
  case read => exact fun _ _ => rfl
  case write => exact fun _ _ => rfl
  case age => exact execWcbAgeExpiry_found
  case burst => exact fun _ _ _ _ => next_ite _ _
  case queue => exact fun _ _ => rfl
  case scrubCorrected => exact execScrubVisit_corrected
  case scrubLost => exact execScrubVisit_lost
  case repair => exact execPprRepair_oldest
  case dismiss => exact execPprDismiss_oldest
  case temperature => exact execStackTempRead_reads
  case set =>
    exact fun s busy first mode =>
      congrArg (fun t : State => Host.Outcome.next t.granRecall) (s.granStart_starts false busy first mode)
  case setZero =>
    exact fun s busy first mode =>
      congrArg (fun t : State => Host.Outcome.next t.granRecall) (s.granStart_starts true busy first mode)
  case granZero => exact fun _ => rfl
  case drained => exact execGranDrainDone_free
  case zeroing => exact fun _ _ own => if_pos (own)
  case block => exact execBedrockBlock_accepted
  case load => exact fun _ _ _ _ state => if_pos (state)
  case fetchTimeout => exact execBedrockFetchTimeout_peer
  case supply => exact fun _ _ pending brStaging granule => if_pos (by simp [pending, brStaging, granule])
  case supplyTimeout => exact execBedrockSupplyTimeout_driver
  case hbmCommit => exact execHbmCommit_takes
  case samples => exact fun _ _ => rfl
  case regCommit => exact execRegCommit_takes
  case credit => exact execCreditSend_oldest

end Sys2Proof.Machine
end

section
/-! PROOFS. What invalidations, fault records and site requests do (R205–R218). -/
namespace Sys2Proof.Machine

theorem execXlatInv_refused (v : Word) (internal : Bool) (f : Nat) (s : State) (xlatRefusal : s.xlatRefusal v.toNat internal = some f) :
    execXlatInv v internal s = .next (s.commitRefused Reg.XLAT_COMMIT_STATUS f) := by
  rw [execXlatInv, xlatRefusal]

/-- Settles O9: an invalidation is refused or taken; a fault record must wait; a site's request passes the site and its carrier. -/
theorem translationCommandsTakeEffect : Obligations.TranslationCommandsTakeEffect := by
  unfold Obligations.TranslationCommandsTakeEffect
  refine ⟨?refused, ?taken, ?done, ?resume, ?abort, ?site⟩
  case refused => exact execXlatInv_refused
  case taken =>
    intro v internal s xlatRefusal
    rw [show exec (.xlatInv v internal) s = execXlatInv v internal s from rfl, execXlatInv, xlatRefusal]
    exact next_ite _ _
  case done => exact fun _ => rfl
  case resume => exact fun _ _ state => if_neg (state)
  case abort => exact fun _ _ state => if_neg (state)
  case site => exact fun _ _ _ _ _ _ _ _ => (congrArg (ite _ _) (next_ite _ _)).trans (next_ite _ _)

end Sys2Proof.Machine
end

section
/-! PROOFS. What doorbells, fetches, completions and ring commands do (R225–R249). -/
namespace Sys2Proof.Machine

/-- A write of 4 bytes at the start of a ring's page moves its tail. -/
theorem execDoorbell_tail (src : BusSrc) (write : Bool) (off : Nat) (size : Nat) (v : Word) (s : State) (barOk : s.barOk src = true)
    (isWrite : write = true) (wide : size = 4) (start : off % 4096 = 0) :
    execDoorbell src write off size v s = .next (s.ringDoorbell (off / 4096 % 8192) off v) := by
  subst isWrite
  rw [execDoorbell, if_neg (by simp [barOk])]
  exact (if_pos rfl).trans (if_pos ⟨wide, start⟩)

/-- An active ring goes on with its open hamper, or fetches its next descriptor. -/
theorem execDescriptorFetch_active (ring : Nat) (s : State) (running : s.glb.stop = 0)
    (active : s.rd (Reg.QM_RING_STATE_state ring) = ringActive) (awake : s.rd Reg.HOST_STATUS_dstate ≠ 3)
    (unarmed : s.glb.armed.contains (64 + s.ringCtx ring) = false) :
    execDescriptorFetch ring s = .next (
      match s.openHamper ring with
        | some q => (s.fetchSub ring q)
        | none => (s.fetchNext ring)) := by
  rw [execDescriptorFetch, if_neg (by rw [unarmed]; simp [running, active, awake])]
  cases s.openHamper ring <;> rfl

/-- A well-formed hamper at the head of an active ring issues its descriptors in turn. -/
theorem execHamper_issues (ring : Nat) (q : QDesc) (s : State) (head : (s.ring ring).fetched.head? = some q) (running : s.glb.stop = 0)
    (active : s.rd (Reg.QM_RING_STATE_state ring) = ringActive) (mayIssue : s.mayIssue ring (s.fenceOf ring q.bytes) = true)
    (knownOp : s.knownOp ring q.bytes = true) (isOp : s.isOp ring 1 q.bytes = true)
    (free : ((s.ringCls ring ≠ clsCrc ∧ s.ringCls ring ≠ clsStream) ∨ s.streamBusy ring = false)) :
    execHamper ring s = .next (s.issueHamper ring q) := by
  rw [execHamper, head]
  calc
    _ = _ := if_neg (by simp [running, active, mayIssue])
    _ = _ := if_neg (by simp [knownOp])
    _ = _ := if_neg (by simp [isOp])
    _ = _ := if_neg fun ⟨crc, busy⟩ => free.elim (fun other => crc.elim other.1 other.2) (fun idle => by simp [idle] at busy)

/-- An open hamper that rests goes on with its next descriptor. -/
theorem execHamperNextSub_resting (ring : Nat) (d : Run) (s : State) (running : s.glb.stop = 0) (waits : s.ringWaits ring = false)
    (enabled : s.rd (Reg.QM_RING_STATE_state ring) ≠ ringDisabled) (resting : s.restingHamper ring = some d) :
    execHamperNextSub ring s = .next (s.hamperOn ring d) := by
  rw [execHamperNextSub, if_neg (by simp [running, waits, enabled]), resting]

/-- The code of a queue commit is 0 when a structural change finds its ring idle and sound (R226). -/
theorem qmCommit_code (moved was will idle : Bool) (fault : Nat) (change : moved = false ∨ (idle = true ∧ fault = 0))
    (disable : was = false ∨ will = true ∨ idle = true) (enable : was = true ∨ will = false ∨ fault = 0) :
    (if (moved || was != will) && (moved || (was && !will)) && !idle then 1 else if moved || (will && !was) then fault else 0) = 0 := by
  cases moved with
  | true =>
    obtain ⟨drained, sound⟩ := change.resolve_left (by decide)
    simp [drained, sound]
  | false =>
    cases was with
    | true =>
      have drained : will = true ∨ idle = true := disable.resolve_left (by decide)
      rcases drained with stays | drained
      · simp [stays]
      · simp [drained]
    | false =>
      have sound : will = false ∨ fault = 0 := enable.resolve_left (by decide)
      rcases sound with off | sound
      · simp [off]
      · simp [sound]

/-- A commit whose ring is idle and sound where it must be takes the five registers; enabling and disabling clear the ring. -/
theorem execQmCommit_takes (v : Word) (s : State) (asked : bit v.toNat 31 = true)
    (change : (s.ringMoved (bits v.toNat 12 0) = false ∨ (s.ringIdle (bits v.toNat 12 0) = true ∧ s.ringFault0 (bits v.toNat 12 0) = 0)))
    (disable : (s.on (Reg.QM_RING_CFG_enable (bits v.toNat 12 0)) = false ∨ s.shf (Reg.QM_RING_CFG_enable (bits v.toNat 12 0)) = 1 ∨ s.ringIdle (bits v.toNat 12 0) = true))
    (enable : (s.on (Reg.QM_RING_CFG_enable (bits v.toNat 12 0)) = true ∨ s.shf (Reg.QM_RING_CFG_enable (bits v.toNat 12 0)) ≠ 1 ∨ s.ringFault0 (bits v.toNat 12 0) = 0))
    :
    execQmCommit v s = .next (
      let r := bits v.toNat 12 0
      let was := s.on (Reg.QM_RING_CFG_enable r)
      let will := s.shf (Reg.QM_RING_CFG_enable r) == 1
      let s := s.commitRegs [Reg.QM_RING_BASE r, Reg.QM_RING_CQ r, Reg.QM_RING_CFG r, Reg.QM_RING_IRQ r, Reg.QM_RING_QUADS r]
      let s := if will && !was then
          (((s.clearRing r).unhalt r ringActive).wr (Reg.QM_RING_STATE_tail r) 0).setReg (Reg.QM_RING_SEQ r) 0
            |>.setReg (Reg.QM_RING_FETCH r) 0
        else if was && !will then (s.clearRing r).unhalt r ringDisabled
        else s
      (s.commitDone Reg.QM_COMMIT_STATUS)) := by
  have shadow : (s.shf (Reg.QM_RING_CFG_enable (bits v.toNat 12 0)) == 1) = true ↔ s.shf (Reg.QM_RING_CFG_enable (bits v.toNat 12 0)) = 1 := beq_iff_eq
  have code := qmCommit_code (s.ringMoved (bits v.toNat 12 0)) (s.on (Reg.QM_RING_CFG_enable (bits v.toNat 12 0)))
    (s.shf (Reg.QM_RING_CFG_enable (bits v.toNat 12 0)) == 1) (s.ringIdle (bits v.toNat 12 0)) (s.ringFault0 (bits v.toNat 12 0)) change
    (disable.imp_right (Or.imp_left shadow.2)) (enable.imp_right (Or.imp_left (by rw [← Bool.not_eq_true, shadow]; exact id)))
  calc
    _ = _ := if_neg (by simp [asked])
    _ = _ := if_neg (not_not.mpr code)

/-- A halted ring takes its command (R244). -/
theorem State.ringCmd_halted (s : State) (ring cmd : Nat) (halted : s.rd (Reg.QM_RING_STATE_state ring) = ringHalted) :
    s.ringCmd ring cmd = (s.setRing ring { s.ring ring with cmd := cmd }).ringCommand ring :=
  if_neg (not_not.mpr halted)

/-- Settles O10: each command passes the guard of its ring; a commit's two refusals are excluded by the state of its ring. -/
theorem queueCommandsTakeEffect : Obligations.QueueCommandsTakeEffect := by
  unfold Obligations.QueueCommandsTakeEffect
  refine ⟨?doorbell, ?fetch, ?hamper, ?next, ?completion, ?moderation, ?wake, ?commit, ?restart, ?abort⟩
  case doorbell => exact execDoorbell_tail
  case fetch => exact execDescriptorFetch_active
  case hamper => exact execHamper_issues
  case next => exact execHamperNextSub_resting
  case completion => exact fun _ _ stop => if_neg (by simp [stop])
  case moderation => exact fun _ _ irqEn modUs ring2 => if_pos (by simp [irqEn, modUs, ring2])
  case wake => exact fun _ _ => rfl
  case commit => exact execQmCommit_takes
  case restart => exact fun ring s state => congrArg Host.Outcome.next (s.ringCmd_halted ring 1 state)
  case abort => exact fun ring s state => congrArg Host.Outcome.next (s.ringCmd_halted ring 2 state)

end Sys2Proof.Machine
end

section
/-! PROOFS. What the descriptors of mover and compute rings do (R230–R248, R65). -/
namespace Sys2Proof.Machine

/-- The descriptor at the head of an active ring that may issue, is well formed, need not wait and translates: it leaves the fetched list
and its engine starts (R230). -/
theorem State.issueHead_issues (s : State) (ring : Nat) (q : QDesc) (held : Held) {isOp : List Byte → Bool} {good wait : State → QDesc → Bool}
    {go : State → Nat → State} (head : (s.ring ring).fetched.head? = some q) (running : s.glb.stop = 0)
    (active : s.rd (Reg.QM_RING_STATE_state ring) = ringActive) (may : s.mayIssue ring (s.fenceOf ring q.bytes) = true)
    (known : s.knownOp ring q.bytes = true) (op : isOp q.bytes = true) (free : wait s q = false) (form : good s q = true)
    (translated : s.checkFields ring q.phys (s.strictOf ring q.bytes) (s.addrFields ring q.bytes) q.held = .ok held)
    (engine : s.engineGone ring = false) :
    s.issueHead ring isOp good wait go = go ((s.takeHead ring q).updRun ring q.seq (fun (d : Run) => { d with held := held })) q.seq := by
  rw [State.issueHead, head]
  dsimp only
  rw [if_neg (by simp [running, active, may]), if_neg (by simp [known]), if_neg (by simp [op, free]), if_neg (by simp [form]), translated]
  exact if_neg (by simp [engine])

/-- A transfer that has bytes left moves its next piece. -/
theorem execMoverTransfer_piece (ring : Nat) (d : Run) (s : State) (running : s.glb.stop = 0) (mover : s.ringCls ring = clsMover)
    (waits : s.ringWaits ring = false) (enabled : s.rd (Reg.QM_RING_STATE_state ring) ≠ ringDisabled) (moving : s.moving ring = some d)
    (kind : (s.on (Reg.QM_RING_CFG_legacy ring) = true ∨ opOf d.cur ≠ 0)) (left : s.moveLen ring d.cur ≠ 0) :
    execMoverTransfer ring s = .next (s.moveStep ring d) := by
  have step : ((!s.on (Reg.QM_RING_CFG_legacy ring) && opOf d.cur == 0) || s.moveLen ring d.cur == 0) = false := by
    rcases kind with legacy | op
    · simp [legacy, left]
    · simp [op, left]
  rw [execMoverTransfer, if_neg (by simp [running, mover, waits, enabled]), moving]
  exact if_neg (by rw [step]; exact Bool.false_ne_true)

/-- A dispatch whose tiles are sound and have room is placed on each. -/
theorem execDispatchPlacement_places (ring : Nat) (d : Run) (s : State) (running : s.glb.stop = 0) (unplaced : s.unplaced ring = some d)
    (sound : (dispTiles d.cur).find? s.tileFenced = none)
    (room : (dispTiles d.cur).all (fun t => decide ((s.tile t).queue.length < tileQueue)) = true) :
    execDispatchPlacement ring s = .next (s.placeRun ring d) := by
  rw [execDispatchPlacement, if_neg (not_not.mpr running), unplaced]
  dsimp only
  rw [sound]
  exact if_pos room

/-- Settles O11: a descriptor issues through the head of its ring; a piece and a placement ask for a run that has one to do. -/
theorem moverAndDispatchDescriptorsIssue : Obligations.MoverAndDispatchDescriptorsIssue := by
  unfold Obligations.MoverAndDispatchDescriptorsIssue
  refine ⟨?nop, ?copy, ?fill, ?writeImm, ?legacyNop, ?legacyCopy, ?legacyFill, ?dispatch, ?transfer, ?place⟩
  case nop =>
    exact fun ring q held s head running active may known op form translated engine =>
      congrArg Host.Outcome.next (s.issueHead_issues ring q held head running active may known op rfl form translated engine)
  case copy =>
    exact fun ring q held s head running active may known op form translated engine =>
      congrArg Host.Outcome.next (s.issueHead_issues ring q held head running active may known op rfl form translated engine)
  case fill =>
    exact fun ring q held s head running active may known op form translated engine =>
      congrArg Host.Outcome.next (s.issueHead_issues ring q held head running active may known op rfl form translated engine)
  case writeImm =>
    exact fun ring q held s head running active may known op free form translated engine =>
      congrArg Host.Outcome.next (s.issueHead_issues ring q held head running active may known op free form translated engine)
  case legacyNop =>
    exact fun ring q held s head running active may known op form translated engine =>
      congrArg Host.Outcome.next (s.issueHead_issues ring q held head running active may known op rfl form translated engine)
  case legacyCopy =>
    exact fun ring q held s head running active may known op form translated engine =>
      congrArg Host.Outcome.next (s.issueHead_issues ring q held head running active may known op rfl form translated engine)
  case legacyFill =>
    exact fun ring q held s head running active may known op form translated engine =>
      congrArg Host.Outcome.next (s.issueHead_issues ring q held head running active may known op rfl form translated engine)
  case dispatch =>
    exact fun ring q held s head running active may known op free form translated engine =>
      congrArg Host.Outcome.next (s.issueHead_issues ring q held head running active may known op free form translated engine)
  case transfer => exact execMoverTransfer_piece
  case place => exact execDispatchPlacement_places

end Sys2Proof.Machine
end

section
/-! PROOFS. What the CRC units do (R251–R258). -/
namespace Sys2Proof.Machine

/-- Without an open run the descriptor at the head of a CRC ring issues. -/
theorem State.crcCommand_issues (s : State) (ring op : Nat) (ok : List Byte → Bool) (q : QDesc) (held : Held)
    (head : (s.ring ring).fetched.head? = some q) (running : s.glb.stop = 0)
    (active : s.rd (Reg.QM_RING_STATE_state ring) = ringActive) (may : s.mayIssue ring (s.fenceOf ring q.bytes) = true)
    (known : s.knownOp ring q.bytes = true) (isOp : s.isOp ring op q.bytes = true) (form : ok q.bytes = true)
    (translated : s.checkFields ring q.phys (s.strictOf ring q.bytes) (s.addrFields ring q.bytes) q.held = .ok held)
    (engine : s.engineGone ring = false)
    (shut : (s.ring ring).issued.find? (fun d => !d.allIssued && (d.subs.isEmpty || d.ends.length == d.sub)) = none)
    (idle : (s.ring ring).issued.any (fun d => d.status.isNone) = false) :
    s.crcCommand ring op ok =
      ((s.takeHead ring q).updRun ring q.seq (fun (d : Run) => { d with held := held })).startCrc ring q.seq := by
  rw [State.crcCommand, shut]
  exact (if_neg (by rw [idle]; exact Bool.false_ne_true)).trans
    (s.issueHead_issues ring q held head running active may known isOp rfl form translated engine)

/-- The next step of a CRC descriptor, by its operation. -/
def State.crcStepOf (s : State) (ring : Nat) (d : Run) : Nat → State
  | 0x30 => s.crcDataStep ring d
  | 0x31 => s.crcBlocksStep ring d
  | 0x32 => s.crcSaveStep ring d
  | 0x33 => s.crcLoadStep ring d
  | _ => s

/-- A run that is open steps while it holds its unit. -/
theorem State.crcCommand_steps (s : State) (ring op : Nat) (ok : List Byte → Bool) (d : Run)
    (run : (s.ring ring).issued.find? (fun d => !d.allIssued && (d.subs.isEmpty || d.ends.length == d.sub)) = some d)
    (isOp : opOf d.cur = op) (running : s.glb.stop = 0) (holds : s.holdsUnit (s.ringUnit ring) ring d.seq = true)
    (waits : s.ringWaits ring = false) : s.crcCommand ring op ok = s.crcStepOf ring d op := by
  have step : s.crcStep ring d = s.crcStepOf ring d (opOf d.cur) := if_neg (by simp [running, holds, waits])
  rw [State.crcCommand, run]
  exact (if_pos isOp).trans (step.trans (by rw [isOp]))

/-- A free unit is claimed by the first that waits. -/
theorem execCrcUnitClaim_free (unit : Nat) (r seq : Nat) (t : List (Nat × Nat)) (s : State) (free : (s.crc unit).holder = none)
    (waits : (s.crc unit).waiting = (r, seq) :: t) :
    execCrcUnitClaim unit s = .next ((s.setCrc unit { s.crc unit with waiting := t }).claim unit r seq) := by
  simp only [execCrcUnitClaim, free, waits]

/-- An access that the gate of BAR0 lets through. -/
theorem State.gated_open (s : State) (src : BusSrc) (off size : Nat) (f : State → State) (served : s.barOk src = true) :
    s.gated src off size f = f s :=
  if_pos served

/-- Settles O12: a CRC descriptor issues through the head of its ring and steps while it holds the unit; the unit's registers go through BAR0's gate. -/
theorem crcCommandsTakeEffect : Obligations.CrcCommandsTakeEffect := by
  unfold Obligations.CrcCommandsTakeEffect
  refine ⟨?data, ?blocks, ?save, ?load, ?dataStep, ?blocksStep, ?saveStep, ?loadStep, ?claim, ?parity, ?control, ?value⟩
  case data =>
    exact fun ring q held s head running active may known op form translated engine shut idle =>
      congrArg Host.Outcome.next (s.crcCommand_issues ring 0x30 _ q held head running active may known op form translated engine shut idle)
  case blocks =>
    exact fun ring q held s head running active may known op form translated engine shut idle =>
      congrArg Host.Outcome.next (s.crcCommand_issues ring 0x31 _ q held head running active may known op form translated engine shut idle)
  case save =>
    exact fun ring q held s head running active may known op form translated engine shut idle =>
      congrArg Host.Outcome.next (s.crcCommand_issues ring 0x32 _ q held head running active may known op form translated engine shut idle)
  case load =>
    exact fun ring q held s head running active may known op form translated engine shut idle =>
      congrArg Host.Outcome.next (s.crcCommand_issues ring 0x33 _ q held head running active may known op form translated engine shut idle)
  case dataStep =>
    exact fun ring d s run isOp running holds waits =>
      congrArg Host.Outcome.next (s.crcCommand_steps ring 0x30 _ d run isOp running holds waits)
  case blocksStep =>
    exact fun ring d s run isOp running holds waits =>
      congrArg Host.Outcome.next (s.crcCommand_steps ring 0x31 _ d run isOp running holds waits)
  case saveStep =>
    exact fun ring d s run isOp running holds waits =>
      congrArg Host.Outcome.next (s.crcCommand_steps ring 0x32 _ d run isOp running holds waits)
  case loadStep =>
    exact fun ring d s run isOp running holds waits =>
      congrArg Host.Outcome.next (s.crcCommand_steps ring 0x33 _ d run isOp running holds waits)
  case claim => exact execCrcUnitClaim_free
  case parity => exact fun _ _ => rfl
  case control => exact fun _ _ _ s barOk => congrArg Host.Outcome.next (s.gated_open _ _ _ _ barOk)
  case value => exact fun _ _ _ s barOk => congrArg Host.Outcome.next (s.gated_open _ _ _ _ barOk)

end Sys2Proof.Machine
end

section
/-! PROOFS. What the commands of a site's modules and links do (R50, R259–R285). -/
namespace Sys2Proof.Machine

/-- A module that trains at a rate and version that it may have goes to its width check. -/
theorem execModuleTrained_accepted (n : Nat) (m : Nat) (rate : Nat) (repaired : Nat) (version : Nat) (s : State)
    (ok : Machine.moduleOk n m = true) (training : (3 ≤ s.modState n m ∧ s.modState n m ≤ 5 ∨ s.modState n m = 9))
    (known : (version = 1 ∨ version = 2)) (low : rate ≤ 4) (slower : (s.searches n m = false ∨ rate ≤ s.rd (Reg.SITE_MOD_STATUS_rate n m)))
    :
    execModuleTrained n m rate repaired version s = .next (
      let s := if s.searches n m then s.wr (Reg.SITE_MOD_STATUS_rate n m) rate else s
      let s := s.wr (Reg.SITE_MOD_STATUS_repairs n m) (min 15 (s.rd (Reg.SITE_MOD_STATUS_repairs n m) + repaired))
      let s := s.setModule n m { s.module n m with version := version }
      ((s.setModState n m 6).sideband n (some m) (.widthCheck m))) := by
  have state : (decide (3 ≤ s.modState n m ∧ s.modState n m ≤ 5) || s.modState n m == 9) = true := by
    rcases training with early | again
    · simp [early]
    · simp [again]
  have accepted : (!(version == 1 || version == 2) || decide (4 < rate) ||
      (s.searches n m && decide (s.rd (Reg.SITE_MOD_STATUS_rate n m) < rate))) = false := by
    have version' : (version == 1 || version == 2) = true := by simpa using known
    have rate' : (s.searches n m && decide (s.rd (Reg.SITE_MOD_STATUS_rate n m) < rate)) = false := by
      rcases slower with fixed | below
      · simp [fixed]
      · simp [Nat.not_lt.mpr below]
    simp [version', rate', low]
  calc
    _ = _ := if_neg (by rw [ok, state]; decide)
    _ = _ := if_neg (by rw [accepted]; exact Bool.false_ne_true)

/-- A module that may go no slower fails. -/
theorem execRateAttemptTimeout_lowest (n : Nat) (m : Nat) (spent : Bool) (s : State) (ok : Machine.moduleOk n m = true)
    (training : (2 ≤ s.modState n m ∧ s.modState n m ≤ 5 ∨ s.modState n m = 9))
    (lowest : (s.searches n m = false ∨ s.rd (Reg.SITE_MOD_STATUS_rate n m) = 0)) :
    execRateAttemptTimeout n m spent s = .next (s.moduleFails n m (if spent then 1 else 2)) := by
  have state : (decide (2 ≤ s.modState n m ∧ s.modState n m ≤ 5) || s.modState n m == 9) = true := by
    rcases training with early | again
    · simp [early]
    · simp [again]
  refine (if_neg (by rw [ok, state]; decide)).trans (if_neg ?_)
  rcases lowest with fixed | zero
  · simp [fixed]
  · simp [zero]

/-- A module that searches for its rate trains. -/
theorem State.searches_trains (s : State) (n m : Nat) (searches : s.searches n m = true) :
    (decide (2 ≤ s.modState n m ∧ s.modState n m ≤ 5) || s.modState n m == 9) = true := by
  have state : s.modState n m = 3 ∨ s.modState n m = 4 := of_decide_eq_true (Bool.and_eq_true_iff.1 searches).1
  rcases state with first | lower
  · simp [first]
  · simp [lower]

/-- A module that searches tries the next lower rate. -/
theorem execRateAttemptTimeout_steps (n : Nat) (m : Nat) (spent : Bool) (s : State) (ok : Machine.moduleOk n m = true)
    (searches : s.searches n m = true) (higher : s.rd (Reg.SITE_MOD_STATUS_rate n m) ≠ 0) :
    execRateAttemptTimeout n m spent s = .next ((s.wr (Reg.SITE_MOD_STATUS_rate n m) (s.rd (Reg.SITE_MOD_STATUS_rate n m) - 1)).setModState
    n m 4) := by
  refine (if_neg (by rw [ok, s.searches_trains n m searches]; decide)).trans (if_pos ?_)
  simp [searches, higher]

theorem execWidthCheckAnswer_passes (n : Nat) (m : Nat) (half : Bool) (rate : Nat) (version : Nat) (lanesMatch : Bool) (s : State)
    (ok : Machine.moduleOk n m = true) (checking : s.modState n m = 6) (same : half = s.on (Reg.SITE_MOD_STATUS_half n m))
    (rate' : rate = s.rd (Reg.SITE_MOD_STATUS_rate n m)) (version' : version = (s.module n m).version) (lanes : lanesMatch = true) :
    execWidthCheckAnswer n m half rate version lanesMatch s = .next (s.modulePasses n m) :=
  (if_neg (by simp [ok, checking])).trans (if_pos ⟨same, rate', version', lanes⟩)

theorem execWidthCheckAnswer_lanes (n : Nat) (m : Nat) (half : Bool) (rate : Nat) (version : Nat) (lanesMatch : Bool) (s : State)
    (ok : Machine.moduleOk n m = true) (checking : s.modState n m = 6) (lanes : lanesMatch = false) :
    execWidthCheckAnswer n m half rate version lanesMatch s = .next (s.mismatch n m) :=
  (if_neg (by simp [ok, checking])).trans (if_neg (by simp [lanes]))

/-- The answer to the exchange that runs brings its maps into force. -/
theorem execSpreadAnswer_current (n : Nat) (epoch : Nat) (e : SpreadExch) (s : State) (exch : (s.link n).exch = some e)
    (current : epoch = (s.rd (Reg.SITE_SPREAD_EPOCH_epoch n) + 1) % 256) (sent : e.sent ≠ 0) :
    execSpreadAnswer n epoch s = (
      let want := (s.rd (Reg.SITE_SPREAD_EPOCH_epoch n) + 1) % 256
      let old := s.mapsInForce n
      let down := (List.range 64).filter (fun i =>
        let p := lmapGet old.1 ((old.2[i]?).getD 0)
        ((old.2[i]?).getD 0 != (e.entries[i]?).getD 0 || p != lmapGet e.lmap ((e.entries[i]?).getD 0)) && !s.inService n p)
      let s := (s.setReg (Reg.SITE_LMAP n) e.lmap).wr (Reg.SITE_SPREAD_EPOCH_epoch n) want
      let s := (List.range 4).foldl (fun (s : State) i => s.setReg (Reg.SITE_SPREAD n i)
        (((e.entries.drop (16 * i)).take 16).zipIdx.foldl (fun v (p : Nat × Nat) => v + p.1 * 16 ^ p.2) 0)) s
      let s := (s.setLink n { s.link n with exch := none }).wr (Reg.SITE_SPREAD_EPOCH_moving n) 0
      let s := ((s.reissue n (fun i => down.contains i)).showLink n).releaseHeld n
      match (s.link n).next with
      | [] => .next (if (s.site n).opening then s.finishOpen n else s)
      | m :: t => .next ((s.setLink n { s.link n with next := t }).beginExch n m)) := by
  subst current
  rw [execSpreadAnswer, exch]
  exact if_neg (by simp [sent])

theorem execSpreadTimeout_repeats (n : Nat) (e : SpreadExch) (s : State) (exch : (s.link n).exch = some e) (sent : e.sent ≠ 0)
    (few : e.sent < 3) :
    execSpreadTimeout n s = .next ((s.setLink n { s.link n with exch := some { e with sent := e.sent + 1 } }).sendSpread n) := by
  simp only [execSpreadTimeout, exch]
  exact (if_neg sent).trans (if_pos few)

theorem execSpreadTimeout_fences (n : Nat) (e : SpreadExch) (s : State) (exch : (s.link n).exch = some e) (sent : 3 ≤ e.sent) :
    execSpreadTimeout n s = .next (s.fenceSite n 2) := by
  simp only [execSpreadTimeout, exch]
  exact (if_neg (by omega)).trans (if_neg (by omega))

theorem execEntryLend_late (n : Nat) (m : Nat) (t : Nat) (s : State) (held : (s.module n m).heldAt = some t)
    (ok : Machine.moduleOk n m = true) (down : s.inService n m = false) (late : lendUnits ≤ s.now - t) :
    execEntryLend n m s = .next (s.lend n m) := by
  simp only [execEntryLend, held]
  exact if_neg (by simp [ok, down, late])

/-- A recovery choice that the waiting module allows is carried out (R267). -/
theorem State.recChoice_allowed (s : State) (n m c : Nat) (f : State → State) (pending : bit (s.reg (Reg.SITE_REC_PEND n)) 31 = true)
    (module : bits (s.reg (Reg.SITE_REC_PEND n)) 27 24 = m) (allowed : bit (bits (s.reg (Reg.SITE_REC_PEND n)) 4 1) (c - 1) = true) :
    s.recChoice n m c f = (f s).showLink n :=
  if_pos (by rw [pending, module, allowed, BEq.rfl]; rfl)

theorem execSbResponse_running (n : Nat) (refused : Bool) (data : DWord) (write : Bool) (addr size : Nat) (s : State)
    (access : (s.link n).sb = some (write, addr, size)) :
    execSbResponse n refused data s = .next (
      let u := if write || refused then s else s.setReg (Reg.SITE_SB_DATA n) (data.toNat % 2 ^ (8 * size))
      u.endMailbox n (if refused then 2 else 1)) := by
  rw [execSbResponse, access]

/-- Settles O13: a module or link of the site passes its guard, and its state, its exchange or its mailbox picks the branch. -/
theorem moduleAndLinkCommandsTakeEffect : Obligations.ModuleAndLinkCommandsTakeEffect := by
  unfold Obligations.ModuleAndLinkCommandsTakeEffect
  refine ⟨?trained, ?attemptFails, ?attemptSteps, ?passes, ?mismatches, ?silent, ?retrain, ?down, ?spreadAnswer, ?spreadRepeat,
    ?spreadFence, ?lend, ?sleep, ?retry, ?spare, ?half, ?retire, ?forced, ?await, ?mailRead, ?mailWrite, ?mailEnd⟩
  case trained => exact execModuleTrained_accepted
  case attemptFails => exact execRateAttemptTimeout_lowest
  case attemptSteps => exact execRateAttemptTimeout_steps
  case passes => exact execWidthCheckAnswer_passes
  case mismatches => exact execWidthCheckAnswer_lanes
  case silent => exact fun _ _ _ ok checking => if_neg (by simp [ok, checking])
  case retrain => exact fun _ _ _ _ _ _ ok serves => (if_neg (by simp [ok, serves])).trans (next_ite _ _)
  case down => exact fun _ _ _ moduleOk => if_pos (moduleOk)
  case spreadAnswer => exact execSpreadAnswer_current
  case spreadRepeat => exact execSpreadTimeout_repeats
  case spreadFence => exact execSpreadTimeout_fences
  case lend => exact execEntryLend_late
  case sleep => exact fun _ _ _ ok state enabled => if_pos ⟨ok, state, enabled⟩
  case retry =>
    exact fun n m s pending module allowed =>
      congrArg Host.Outcome.next (s.recChoice_allowed n m 1 _ pending module allowed)
  case spare =>
    exact fun n m s pending module allowed =>
      congrArg Host.Outcome.next (s.recChoice_allowed n m 2 _ pending module allowed)
  case half =>
    exact fun n m s pending module allowed =>
      congrArg Host.Outcome.next (s.recChoice_allowed n m 3 _ pending module allowed)
  case retire =>
    exact fun n m s pending module allowed =>
      congrArg Host.Outcome.next (s.recChoice_allowed n m 4 _ pending module allowed)
  case forced => exact fun _ _ _ moduleOk inService => if_neg (by simp [moduleOk, inService])
  case await => exact fun _ _ _ moduleOk modState now => if_neg (by simp [moduleOk, modState, now])
  case mailRead => exact fun _ _ _ free => congrArg Host.Outcome.next (if_neg (by simp [free]))
  case mailWrite => exact fun _ _ _ free => congrArg Host.Outcome.next (if_neg (by simp [free]))
  case mailEnd => exact execSbResponse_running

end Sys2Proof.Machine
end

section
/-! PROOFS. What the messages of sites to the home agent do (R219–R224, R280, R285). -/
namespace Sys2Proof.Machine

@[simp] theorem State.siteCoherent_siteAdmit (s : State) (n tag c seg k : Nat) : (s.siteAdmit n tag c seg).siteCoherent k = s.siteCoherent k := rfl

@[simp] theorem State.own_siteAdmit (s : State) (n tag c seg g : Nat) : (s.siteAdmit n tag c seg).own g = s.own g := rfl

@[simp] theorem State.segPermits_siteAdmit (s : State) (n tag c seg ctx k : Nat) (p : Acc) :
    (s.siteAdmit n tag c seg).segPermits ctx k p = s.segPermits ctx k p := rfl

/-- A message on the right module of a site that is open is acted on once the module has left its low-power state. -/
theorem State.siteHears_acts (s : State) (n : Nat) (m : SysMsg) (refuse act : State → State)
    (isOpen : (s.leaveL1 n m.module).siteOpen n = true) (ok : (s.leaveL1 n m.module).msgOk n m = true) :
    s.siteHears n m refuse act = act (s.leaveL1 n m.module) :=
  (if_neg (by simp [isOpen])).trans (if_neg (by simp [ok]))

/-- The request that a site's message makes, at a line of its home. -/
def siteReq (s : State) (n : Nat) (m : SysMsg) (op : HomeOp) (cxl goOnly : Bool) (bytes : List (Option Byte)) (poison : Bool) (line seg : Nat) : HomeReq :=
  { site := n, op := op, cxl := cxl, goOnly := goOnly, tag := m.tag, line := line, va := m.va.getD 0 / lineSize * lineSize,
    ctx := s.rd (siteCtx n), seg := seg, bytes := bytes, poison := poison }

/-- A request whose address translates to memory asks the home of its line, where the site may cache the line if it asks to, and may
own it if it asks to (R220, R280). -/
theorem State.siteServe_asks (s : State) (m : SysMsg) (r : HomeReq) (a left : Nat) (coh : Bool) (seg : Option (Nat × Nat))
    (translated : s.siteXlat r.site r.va r.op.writes = .ok (.mem a coh) seg left)
    (caches : r.op.cacheable = true → (coh && s.siteCoherent r.site) = true)
    (owns : (r.op == .rdOwn || r.op == .upgrade) = true →
      (s.own (a / granuleBytes)).bedrock = false ∧ s.segPermits r.ctx ((seg.map Prod.fst).getD 0) .read = true) :
    s.siteServe m r = (s.siteAdmit r.site r.tag r.ctx ((seg.map Prod.fst).getD 0)).homeAsk
      (.site { r with line := a / lineSize, seg := (seg.map Prod.fst).getD 0 }) := by
  have cached : ¬ (r.op.cacheable && !(coh && (s.siteAdmit r.site r.tag r.ctx ((seg.map Prod.fst).getD 0)).siteCoherent r.site)) = true := by
    intro guard
    obtain ⟨asks, denied⟩ := Bool.and_eq_true_iff.1 guard
    rw [State.siteCoherent_siteAdmit, caches asks] at denied
    exact absurd denied (by decide)
  have sound : ¬ ((r.op == .rdOwn || r.op == .upgrade) &&
      ((s.siteAdmit r.site r.tag r.ctx ((seg.map Prod.fst).getD 0)).own (a / granuleBytes)).bedrock) = true := by
    intro guard
    obtain ⟨asks, bedrock⟩ := Bool.and_eq_true_iff.1 guard
    rw [State.own_siteAdmit, (owns asks).1] at bedrock
    exact absurd bedrock (by decide)
  have permitted : ¬ ((r.op == .rdOwn || r.op == .upgrade) && !(s.siteAdmit r.site r.tag r.ctx ((seg.map Prod.fst).getD 0)).segPermits
      r.ctx ((seg.map Prod.fst).getD 0) .read) = true := by
    intro guard
    obtain ⟨asks, denied⟩ := Bool.and_eq_true_iff.1 guard
    rw [State.segPermits_siteAdmit, (owns asks).2] at denied
    exact absurd denied (by decide)
  unfold State.siteServe
  dsimp only
  rw [translated]
  exact (if_neg cached).trans ((if_neg sound).trans (if_neg permitted))

/-- A message that is heard and was not asked before is served. -/
theorem State.siteAsk_asks (s : State) (n : Nat) (m : SysMsg) (op : HomeOp) (cxl goOnly : Bool) (bytes : List (Option Byte)) (poison : Bool)
    (a left : Nat) (coh : Bool) (seg : Option (Nat × Nat)) (isOpen : (s.leaveL1 n m.module).siteOpen n = true)
    (ok : (s.leaveL1 n m.module).msgOk n m = true)
    (fresh : ((s.leaveL1 n m.module).askedAgain (siteReq s n m op cxl goOnly bytes poison 0 0)).isNone = true)
    (translated : (s.leaveL1 n m.module).siteXlat n (m.va.getD 0 / lineSize * lineSize) op.writes = .ok (.mem a coh) seg left)
    (caches : op.cacheable = true → (coh && (s.leaveL1 n m.module).siteCoherent n) = true)
    (owns : (op == .rdOwn || op == .upgrade) = true → ((s.leaveL1 n m.module).own (a / granuleBytes)).bedrock = false ∧
      (s.leaveL1 n m.module).segPermits (s.rd (siteCtx n)) ((seg.map Prod.fst).getD 0) .read = true) :
    s.siteAsk n m op cxl goOnly bytes poison =
      ((s.leaveL1 n m.module).siteAdmit n m.tag (s.rd (siteCtx n)) ((seg.map Prod.fst).getD 0)).homeAsk
        (.site (siteReq s n m op cxl goOnly bytes poison (a / lineSize) ((seg.map Prod.fst).getD 0))) := by
  rw [State.siteAsk, State.siteHears_acts s n m _ _ isOpen ok]
  have again := Option.isNone_iff_eq_none.1 fresh
  unfold siteReq at again
  rw [again]
  exact State.siteServe_asks _ m (siteReq s n m op cxl goOnly bytes poison 0 0) a left coh seg translated caches owns

theorem execSystiniAck_grant (site : Nat) (m : SysMsg) (t : HomeTxn) (s : State)
    (isOpen : (s.leaveL1 site m.module).siteOpen site = true) (ok : (s.leaveL1 site m.module).msgOk site m = true)
    (grant : (s.leaveL1 site m.module).grantOf site m.tag = some t) :
    execSystiniAck site m s = .next (((s.leaveL1 site m.module).endTxn t.id).homeKick) := by
  rw [execSystiniAck, State.siteHears_acts s site m _ _ isOpen ok, grant]

theorem execAprsp_line (site : Nat) (m : SysMsg) (data : List Byte) (poison : Bool) (o : OutReq) (i : Nat) (s : State)
    (isOpen : (s.leaveL1 site m.module).siteOpen site = true) (ok : (s.leaveL1 site m.module).msgOk site m = true)
    (line : (s.leaveL1 site m.module).acc.outq.findSome? (fun (o : OutReq) => (o.lineOf site m.tag).map (fun i => (o, i))) = some (o, i)) :
    execAprsp site m data poison s = .next (((s.leaveL1 site m.module).lineAnswered o i (((data ++ List.replicate lineSize 0).take
    lineSize).map (fun (b : Byte) => (b, poison)))).exchKick site) := by
  rw [execAprsp, State.siteHears_acts s site m _ _ isOpen ok, line]

theorem execAckLimitExpiry_grant (site : Nat) (tag : Nat) (t : HomeTxn) (s : State) (grant : s.grantOf site tag = some t) :
    execAckLimitExpiry site tag s = .next (((s.homeLate site).endTxn t.id).homeKick) := by
  rw [execAckLimitExpiry, grant]

theorem execCohCommit_takes (v : Word) (s : State) (asked : bits v.toNat 0 0 = 1) (least : 50 ≤ s.shf Reg.COH_CFG_snoop_limit_us)
    (most : s.shf Reg.COH_CFG_snoop_limit_us ≤ 1000) :
    execCohCommit v s = .next (
      ((s.commitReg Reg.COH_CFG).commitDone Reg.COH_COMMIT_STATUS)) :=
  (if_neg (by simp [asked])).trans (if_neg (by omega))

/-- Settles O14: a message that is heard, new and translated asks the home of its line; answers and limits find what waits for them. -/
theorem coherenceCommandsTakeEffect : Obligations.CoherenceCommandsTakeEffect := by
  unfold Obligations.CoherenceCommandsTakeEffect
  refine ⟨?rdshared, ?rdown, ?upgrade, ?rdcurr, ?wrline, ?wrpartial, ?wbdirty, ?evictclean, ?cxlRdshared, ?cxlRdany, ?cxlRdown,
    ?cxlRdownnodata, ?cxlRdcurr, ?cxlWrinv, ?cxlCleanevict, ?cxlDirtyevict, ?cxlClflush, ?ack, ?snoopAnswer, ?apertureAnswer, ?snoopLimit,
    ?ackLimit, ?commit⟩
  case rdshared =>
    exact fun site m a left coh seg s isOpen ok fresh translated cached coherent =>
      congrArg Host.Outcome.next (s.siteAsk_asks site m .rdShared false false [] false a left coh seg isOpen ok fresh translated
          (fun _ => by rw [cached, coherent]; rfl) (fun no => nomatch no))
  case rdown =>
    exact fun site m a left coh seg s isOpen ok fresh translated cached coherent sound permitted =>
      congrArg Host.Outcome.next (s.siteAsk_asks site m .rdOwn false false [] false a left coh seg isOpen ok fresh translated
          (fun _ => by rw [cached, coherent]; rfl) (fun _ => ⟨sound, permitted⟩))
  case upgrade =>
    exact fun site m a left coh seg s isOpen ok fresh translated cached coherent sound permitted =>
      congrArg Host.Outcome.next (s.siteAsk_asks site m .upgrade false false [] false a left coh seg isOpen ok fresh translated
          (fun _ => by rw [cached, coherent]; rfl) (fun _ => ⟨sound, permitted⟩))
  case rdcurr =>
    exact fun site m a left coh seg s isOpen ok fresh translated =>
      congrArg Host.Outcome.next (s.siteAsk_asks site m .rdCurr false false [] false a left coh seg isOpen ok fresh translated
          (fun no => nomatch no) (fun no => nomatch no))
  case wrline =>
    exact fun site m bytes poison a left coh seg s isOpen ok fresh translated =>
      congrArg Host.Outcome.next (s.siteAsk_asks site m .wrLine false false
        (wholeLine bytes) poison a left coh seg isOpen ok fresh translated
          (fun no => nomatch no) (fun no => nomatch no))
  case wrpartial =>
    exact fun site m bytes poison a left coh seg s isOpen ok fresh translated =>
      congrArg Host.Outcome.next (s.siteAsk_asks site m .wrPartial false false
        (bytes.take lineSize) poison a left coh seg isOpen ok fresh translated
          (fun no => nomatch no) (fun no => nomatch no))
  case wbdirty =>
    exact fun site m bytes poison a left coh seg s isOpen ok fresh translated =>
      congrArg Host.Outcome.next (s.siteAsk_asks site m .wbDirty false false
        (wholeLine bytes) poison a left coh seg isOpen ok fresh translated
          (fun no => nomatch no) (fun no => nomatch no))
  case evictclean =>
    exact fun site m a left coh seg s isOpen ok fresh translated =>
      congrArg Host.Outcome.next (s.siteAsk_asks site m .evictClean false false [] false a left coh seg isOpen ok fresh translated
          (fun no => nomatch no) (fun no => nomatch no))
  case cxlRdshared =>
    exact fun site m a left coh seg s isOpen ok fresh translated cached coherent =>
      congrArg Host.Outcome.next (s.siteAsk_asks site m .rdShared true true [] false a left coh seg isOpen ok fresh translated
          (fun _ => by rw [cached, coherent]; rfl) (fun no => nomatch no))
  case cxlRdany =>
    exact fun site m a left coh seg s isOpen ok fresh translated cached coherent =>
      congrArg Host.Outcome.next (s.siteAsk_asks site m .rdShared true false [] false a left coh seg isOpen ok fresh translated
          (fun _ => by rw [cached, coherent]; rfl) (fun no => nomatch no))
  case cxlRdown =>
    exact fun site m a left coh seg s isOpen ok fresh translated cached coherent sound permitted =>
      congrArg Host.Outcome.next (s.siteAsk_asks site m .rdOwn true false [] false a left coh seg isOpen ok fresh translated
          (fun _ => by rw [cached, coherent]; rfl) (fun _ => ⟨sound, permitted⟩))
  case cxlRdownnodata =>
    exact fun site m a left coh seg s isOpen ok fresh translated cached coherent sound permitted =>
      congrArg Host.Outcome.next (s.siteAsk_asks site m .upgrade true false [] false a left coh seg isOpen ok fresh translated
          (fun _ => by rw [cached, coherent]; rfl) (fun _ => ⟨sound, permitted⟩))
  case cxlRdcurr =>
    exact fun site m a left coh seg s isOpen ok fresh translated =>
      congrArg Host.Outcome.next (s.siteAsk_asks site m .rdCurr true false [] false a left coh seg isOpen ok fresh translated
          (fun no => nomatch no) (fun no => nomatch no))
  case cxlWrinv =>
    exact fun site m bytes poison a left coh seg s isOpen ok fresh translated =>
      congrArg Host.Outcome.next (s.siteAsk_asks site m .wrLine true false
        (wholeLine bytes) poison a left coh seg isOpen ok fresh translated
          (fun no => nomatch no) (fun no => nomatch no))
  case cxlCleanevict =>
    exact fun site m a left coh seg s isOpen ok fresh translated =>
      congrArg Host.Outcome.next (s.siteAsk_asks site m .evictClean true false [] false a left coh seg isOpen ok fresh translated
          (fun no => nomatch no) (fun no => nomatch no))
  case cxlDirtyevict =>
    exact fun site m bytes poison a left coh seg s isOpen ok fresh translated =>
      congrArg Host.Outcome.next (s.siteAsk_asks site m .wbDirty true false
        (wholeLine bytes) poison a left coh seg isOpen ok fresh translated
          (fun no => nomatch no) (fun no => nomatch no))
  case cxlClflush =>
    exact fun site m a left coh seg s isOpen ok fresh translated =>
      congrArg Host.Outcome.next (s.siteAsk_asks site m .clFlush true false [] false a left coh seg isOpen ok fresh translated
          (fun no => nomatch no) (fun no => nomatch no))
  case ack => exact execSystiniAck_grant
  case snoopAnswer =>
    intro site m _ _ _ _ _ s isOpen ok snoop
    refine congrArg Host.Outcome.next ((s.siteHears_acts site m _ _ isOpen ok).trans ?_)
    dsimp only
    rw [snoop] <;> rfl
  case apertureAnswer => exact execAprsp_line
  case snoopLimit =>
    intro site tag _ _ s snoop
    refine Eq.trans (b := execSnoopLimitExpiry site tag s) rfl ?_
    rw [execSnoopLimitExpiry, snoop] <;> rfl
  case ackLimit => exact execAckLimitExpiry_grant
  case commit => exact execCohCommit_takes

end Sys2Proof.Machine
end

section
/-! PROOFS. What the host's commands and the events of its link do (R276–R301). -/
namespace Sys2Proof.Machine

theorem execConfigRequest_write (write : Bool) (off : Nat) (v : Word) (s : State) (reached : s.reached = true)
    (ready : s.cfgRetry = false) (writes : write = true) :
    execConfigRequest write off v s = .next ((s.cfgWrite (off % 4096 / 4 * 4) v.toNat).send (.config (off % 4096 / 4 * 4) false 0)) :=
  (if_neg (by simp [reached])).trans ((if_neg (by simp [ready])).trans (if_pos writes))

theorem execConfigRequest_read (write : Bool) (off : Nat) (v : Word) (s : State) (reached : s.reached = true)
    (ready : s.cfgRetry = false) (reads : write = false) :
    execConfigRequest write off v s = .next (s.send (.config (off % 4096 / 4 * 4) false (BitVec.ofNat 32 (s.cfgRead (off % 4096 / 4 * 4))))) :=
  (if_neg (by simp [reached])).trans ((if_neg (by simp [ready])).trans (if_neg (by simp [reads])))

theorem execOutboundCompletion_data (tag : Nat) (ok : Bool) (poison : Bool) (data : List Byte) (o : OutReq) (s : State)
    (read : s.outRead tag = some o) (good : ok = true) :
    execOutboundCompletion tag ok poison data s = .next ((if poison then s.countHost else s).answerReq tag (.data (((data ++ List.replicate
    o.len 0).take o.len).map (fun (b : Byte) => (b, poison))))) := by
  subst good
  rw [execOutboundCompletion, read]
  rfl

theorem execOutboundCompletion_error (tag : Nat) (ok : Bool) (poison : Bool) (data : List Byte) (o : OutReq) (s : State)
    (read : s.outRead tag = some o) (bad : ok = false) :
    execOutboundCompletion tag ok poison data s = .next (s.countHost.answerReq tag (.error stHostError)) := by
  subst bad
  rw [execOutboundCompletion, read]
  rfl

theorem execOutboundTimeout_read (tag : Nat) (o : OutReq) (s : State) (read : s.outRead tag = some o)
    (awake : s.rd Reg.HOST_STATUS_dstate ≠ 3) :
    execOutboundTimeout tag s = .next (s.countHost.answerReq tag (.error stHostError)) := by
  rw [execOutboundTimeout, read]
  exact if_neg awake

theorem execHostCommit_takes (v : Word) (s : State) (asked : bits v.toNat 0 0 = 1) (sound : s.hostRefusal = none) :
    execHostCommit v s = .next (
      ((s.hostSet.commitDone Reg.HOST_COMMIT_STATUS).msixFlush)) := by
  rw [execHostCommit, if_neg (by simp [asked]), sound]

/-- Settles O15: each command passes the guard of the link or of the function, or finds the read that it answers. -/
theorem hostInterfaceCommandsTakeEffect : Obligations.HostInterfaceCommandsTakeEffect := by
  unfold Obligations.HostInterfaceCommandsTakeEffect
  refine ⟨?configWrite, ?configRead, ?bar4, ?unsupported, ?completion, ?errorCompletion, ?outboundTimeout, ?keepalive, ?unmask, ?l0p,
    ?l0pExit, ?l1, ?l12, ?exit, ?d3, ?d0, ?flr, ?hotReset, ?disable, ?loss, ?retrained, ?commit⟩
  case configWrite => exact execConfigRequest_write
  case configRead => exact execConfigRequest_read
  case bar4 => exact fun _ _ _ _ _ _ _ served some_ => (if_neg (by simp [served])).trans (if_neg some_)
  case unsupported => exact fun _ _ => rfl
  case completion => exact execOutboundCompletion_data
  case errorCompletion => exact execOutboundCompletion_error
  case outboundTimeout => exact execOutboundTimeout_read
  case keepalive => exact fun _ => rfl
  case unmask => exact fun _ _ inTable => if_neg (Nat.not_le.mpr inTable)
  case l0p => exact fun _ up enabled full => if_pos ⟨up, enabled, full⟩
  case l0pExit => exact fun _ partial_ => if_pos partial_
  case l1 => exact fun _ up awake quiet enabled => if_pos ⟨up, awake, quiet, enabled⟩
  case l12 => exact fun _ up l1 enabled => if_pos ⟨up, l1, enabled⟩
  case exit => exact fun _ asleep => if_pos asleep
  case d3 => exact fun _ => rfl
  case d0 => exact fun _ => rfl
  case flr => exact fun _ reached => congrArg Host.Outcome.next (if_pos reached)
  case hotReset => exact fun _ reached => congrArg Host.Outcome.next (if_pos reached)
  case disable => exact fun _ reached => congrArg Host.Outcome.next (if_pos reached)
  case loss => exact fun _ reached => congrArg Host.Outcome.next (if_pos reached)
  case retrained => exact fun _ _ _ _ up => (if_neg (by simp [up])).trans (next_ite _ _)
  case commit => exact execHostCommit_takes

end Sys2Proof.Machine
end

section
/-! PROOFS. What the security messages of the host do (R297–R310, R440–R449). -/
namespace Sys2Proof.Machine

/-- A message of the mailbox is taken while the mailbox is up. -/
theorem State.ifDoeUp (s t : State) (up : s.doeUp = true) : (if !s.doeUp then s else t) = t :=
  if_neg (by simp [up])

/-- What a secure session asks of a key change of a site's slot (R446). -/
theorem keyChange_guards (slot : Nat) (s t u v w x : State) (session : s.host.session = true) (least : 11 ≤ slot) (most : slot ≤ 15)
    (lone : s.role ≠ 0) (lost : s.role ≠ 4) (sound : s.rd Reg.HOST_STATUS_tdisp ≠ 3) :
    (if !s.host.session then .next t
      else if slot < 11 ∨ 15 < slot then .next u
      else if s.role = 0 ∨ s.role = 4 then .next v
      else if s.rd Reg.HOST_STATUS_tdisp = 3 then .next w
      else .next x : Host.Outcome State Fault Refusal) = .next x :=
  calc
    _ = _ := if_neg (by simp [session])
    _ = _ := if_neg (by omega)
    _ = _ := if_neg (not_or.mpr ⟨lone, lost⟩)
    _ = _ := if_neg sound

/-- Settles O16: a message of the mailbox is taken while the mailbox is up; the rest ask for the session, the slot and the interface's state. -/
theorem securityMessagesTakeEffect : Obligations.SecurityMessagesTakeEffect := by
  unfold Obligations.SecurityMessagesTakeEffect
  refine ⟨?version, ?capabilities, ?algorithms, ?digests, ?certificate, ?challenge, ?measurement, ?count, ?allMeasurements, ?exchange,
    ?finish, ?finishRefused, ?keyUpdate, ?heartbeat, ?endSession, ?keySet, ?keyClear, ?ideProgram, ?ideFailure, ?lock, ?start, ?stop⟩
  case version => exact fun _ up => congrArg Host.Outcome.next (if_pos up)
  case capabilities => exact fun _ up => congrArg Host.Outcome.next (if_pos up)
  case algorithms => exact fun _ up => congrArg Host.Outcome.next (if_pos up)
  case digests => exact fun _ up => congrArg Host.Outcome.next (if_pos up)
  case certificate => exact fun _ up => congrArg Host.Outcome.next (if_pos up)
  case challenge => exact fun _ _ up => congrArg Host.Outcome.next (if_pos up)
  case measurement =>
    exact fun _ _ s up notCount notAll known =>
      congrArg Host.Outcome.next ((s.ifDoeUp _ up).trans ((if_neg notCount).trans ((if_neg notAll).trans (if_pos known))))
  case count => exact fun _ _ s up count => congrArg Host.Outcome.next ((s.ifDoeUp _ up).trans (if_pos count))
  case allMeasurements =>
    exact fun _ _ s up all =>
      congrArg Host.Outcome.next ((s.ifDoeUp _ up).trans ((if_neg (by rw [all]; decide)).trans (if_pos all)))
  case exchange => exact fun _ s up free => congrArg Host.Outcome.next ((s.ifDoeUp _ up).trans (if_neg (by simp [free])))
  case finish =>
    exact fun _ s up handshake genuine' =>
      congrArg Host.Outcome.next ((s.ifDoeUp _ up).trans ((if_neg (by simp [handshake])).trans (if_pos genuine')))
  case finishRefused =>
    exact fun _ s up handshake forged =>
      congrArg Host.Outcome.next ((s.ifDoeUp _ up).trans ((if_neg (by simp [handshake])).trans (if_neg (by simp [forged]))))
  case keyUpdate => exact fun s up session => congrArg Host.Outcome.next ((s.ifDoeUp _ up).trans (if_pos session))
  case heartbeat => exact fun s up session => congrArg Host.Outcome.next ((s.ifDoeUp _ up).trans (if_pos session))
  case endSession => exact fun s up session => congrArg Host.Outcome.next ((s.ifDoeUp _ up).trans (if_pos session))
  case keySet =>
    exact fun slot _ s session least most lone lost sound =>
      keyChange_guards slot s _ _ _ _ _ session least most lone lost sound
  case keyClear =>
    exact fun slot s session least most lone lost sound =>
      keyChange_guards slot s _ _ _ _ _ session least most lone lost sound
  case ideProgram =>
    exact fun _ _ s up session known =>
      congrArg Host.Outcome.next ((s.ifDoeUp _ up).trans ((if_neg (by simp [session])).trans (if_neg (Nat.not_le.mpr known))))
  case ideFailure => exact fun _ _ known reached => if_neg (not_or.mpr ⟨Nat.not_le.mpr known, by simp [reached]⟩)
  case lock =>
    exact fun s up unlocked noBlanket notPending wiped keyed =>
      congrArg Host.Outcome.next ((s.ifDoeUp _ up).trans (if_neg (by simp [unlocked, noBlanket, notPending, wiped, keyed])))
  case start => exact fun s up locked => congrArg Host.Outcome.next ((s.ifDoeUp _ up).trans (if_pos locked))
  case stop => exact fun s up held => congrArg Host.Outcome.next ((s.ifDoeUp _ up).trans (if_neg held))

end Sys2Proof.Machine
end

section
/-! PROOFS. What the commands of the fabric ports and links do (R311–R330). -/
namespace Sys2Proof.Machine

theorem execPortTrained_neighbour (port : Nat) (neighbour : Nat) (version : Nat) (s : State) (training : s.portState port = 1)
    (inRange : port < 16) (other : (s.on Reg.FAB_IDENT_configured = false ∨ neighbour ≠ s.deviceId))
    (known : (version = 2 ∨ (version = 1 ∧ (s.port port).mode = 2))) :
    execPortTrained port neighbour version s = .next (
      let s := (s.wr (Reg.FAB_PORT_STATUS_neighbour port) neighbour).wr (Reg.FAB_PORT_STATUS_version port) version
      let s := s.setPort port { PortSt.off with mode := (s.port port).mode }
      (s.setPortState port 2)) := by
  have own : (s.on Reg.FAB_IDENT_configured && neighbour == s.deviceId) = false := by
    rcases other with unconfigured | other
    · simp [unconfigured]
    · simp [other]
  have version' : (version == 2 || (version == 1 && (s.port port).mode == 2)) = true := by
    rcases known with two | ⟨one, mode⟩
    · simp [two]
    · simp [one, mode]
  calc
    _ = _ := if_neg (by omega)
    _ = _ := if_neg (by rw [own, version']; decide)

theorem execPortRetrainResult_ok (port : Nat) (ok : Bool) (s : State) (training : s.portState port = 4) (inRange : port < 16)
    (good : ok = true) :
    execPortRetrainResult port ok s = .next ((s.setPortState port (if (s.port port).step = 0 then 2 else 3)).pump port (s.port
    port).queue.length) :=
  (if_neg (by omega)).trans (if_pos good)

theorem execPortRetrainResult_fails (port : Nat) (ok : Bool) (s : State) (training : s.portState port = 4) (inRange : port < 16)
    (bad : ok = false) :
    execPortRetrainResult port ok s = .next (if (s.port port).step = 0 then s.portFailed port 1 else if (s.port port).step = 1 then
    s.retrainPort port 2 else s.portFailed port 2) := by
  subst bad
  refine (if_neg (by omega)).trans ((if_neg Bool.false_ne_true).trans ?_)
  exact (congrArg (ite _ _) (next_ite _ _)).trans (next_ite _ _)

/-- A choice that the waiting port offers is carried out (R317). -/
theorem State.portChoice_offered (s : State) (port op : Nat) (f : State → Nat → State) (inRange : port < 16)
    (pending : s.on (Reg.FAB_PORT_REC_pending port) = true) (offered : bit (s.rd (Reg.FAB_PORT_REC_offered port)) op = true) :
    s.portChoice port op f = f (s.endAwait port) (s.rd (Reg.FAB_PORT_REC_reason port)) :=
  (if_neg (Nat.not_le.mpr inRange)).trans (if_pos (by rw [pending, offered]; rfl))

theorem execLinkBlockReceive_bad (port : Nat) (b : LinkBlock) (crcOk : Bool) (s : State) (up : s.portUp port = true)
    (inRange : port < 16) (bad : crcOk = false) :
    execLinkBlockReceive port b crcOk s = .next ((s.sat (Reg.FAB_PORT_ERR_crc_errors port) 1).linkDiscard port) :=
  (if_neg (by simp [up, inRange])).trans (if_pos (by simp [bad]))

theorem execLinkBlockReceive_good (port : Nat) (b : LinkBlock) (crcOk : Bool) (s : State) (up : s.portUp port = true)
    (inRange : port < 16) (good : crcOk = true) :
    execLinkBlockReceive port b crcOk s = .next (
      let u := s.linkHeader port b
      if b.kind ≠ 0 then u else if b.seq % 2 ^ 24 = (u.port port).recvSeq ∧ b.lane < 48 then u.linkAccept port b else u.linkDiscard port) :=
  (if_neg (by simp [up, inRange])).trans
    ((if_neg (by simp [good])).trans ((congrArg (ite _ _) (next_ite _ _)).trans (next_ite _ _)))

theorem execFabCommit_takes (v : Word) (s : State) (asked : bits v.toNat 0 0 = 1) (sound : s.fabRefusal = none) :
    execFabCommit v s = .next (
      let es := s.connShadow.map (·.1)
      let s := s.commitRegs (Reg.FAB_CFG :: (List.range 16).map Reg.FAB_PORT_CFG)
      let s := es.foldl State.commitConn s
      ({ s with connShadow := [] }.commitDone Reg.FAB_COMMIT_STATUS)) := by
  rw [execFabCommit, if_neg (by simp [asked]), sound]

/-- Settles O17: each command passes the guard of its port; a retrain's end and a block branch on what came of it. -/
theorem fabricPortCommandsTakeEffect : Obligations.FabricPortCommandsTakeEffect := by
  unfold Obligations.FabricPortCommandsTakeEffect
  refine ⟨?trained, ?mismatch, ?retrain, ?retrained, ?retrainFails, ?retry, ?half, ?down, ?await, ?badBlock, ?block, ?resend, ?commit⟩
  case trained => exact execPortTrained_neighbour
  case mismatch => exact fun _ _ training inRange => if_pos ⟨training, inRange⟩
  case retrain => exact fun _ _ up inRange => if_pos ⟨up, inRange⟩
  case retrained => exact execPortRetrainResult_ok
  case retrainFails => exact execPortRetrainResult_fails
  case retry =>
    exact fun port s inRange pending offered =>
      congrArg Host.Outcome.next (s.portChoice_offered port 1 _ inRange pending offered)
  case half =>
    exact fun port s inRange pending offered =>
      congrArg Host.Outcome.next (s.portChoice_offered port 2 _ inRange pending offered)
  case down =>
    exact fun port s inRange pending offered =>
      congrArg Host.Outcome.next (s.portChoice_offered port 3 _ inRange pending offered)
  case await => exact fun _ _ waiting inRange => if_pos ⟨waiting, inRange⟩
  case badBlock => exact execLinkBlockReceive_bad
  case block => exact execLinkBlockReceive_good
  case resend => exact fun _ _ up inRange => if_pos ⟨up, inRange⟩
  case commit => exact execFabCommit_takes

end Sys2Proof.Machine
end

section
/-! PROOFS. What the messages and timers of fabric connections do (R331–R349, R373). -/
namespace Sys2Proof.Machine

/-- A message in order on a live connection of version 2 is taken when its room allows it (R336). -/
theorem State.arrive_takes (s : State) (h : FabHdr) (m : FabMsg) (live : s.connLive h = true) (v2 : (s.connState h.conn).v1 = false)
    (inOrder : h.seq % 2 ^ 24 = (s.connState h.conn).recvSeq) (room : s.acceptable h.conn m = true) :
    s.arrive h m = (s.setConn h.conn { s.connState h.conn with
      recvSeq := (h.seq % 2 ^ 24 + 1) % 2 ^ 24
      undone := (s.connState h.conn).undone ++ [h.seq % 2 ^ 24]
      held := (s.connState h.conn).held ++ [{ m with seq := h.seq % 2 ^ 24 }] }).connKick h.conn ((s.connState h.conn).held.length + 1) :=
  calc
    _ = _ := if_neg (by simp [live])
    _ = _ := if_neg (by simp [v2])
    _ = _ := if_neg (not_not.mpr inOrder)
    _ = _ := if_neg (by simp [room])

theorem execOpenMsg_accepted (src : Nat) (index : Nat) (slot : Nat) (nonce : Nat) (e : Nat) (s : State)
    (found : s.connFor src slot = some e) (free : s.connHeld e = false) (loaded : s.slotLoaded slot = true)
    (up : s.connRd e Reg.FAB_CONN_DATA_state ≠ 4) :
    execOpenMsg src index slot nonce s = .next (
      let opening := s.connRd e Reg.FAB_CONN_DATA_state == 1 || s.connRd e Reg.FAB_CONN_DATA_state == 3
      let s := if opening then s else (s.endTransfers e)
      let own := if opening then (s.connState e).nonce else s.freeVal
      let s := if opening then s else s.useFree
      let s := s.setConn e { s.connState e with v1 := s.peerV1 src }
      let s := s.connWr e Reg.FAB_CONN_DATA_peer_index index
      ((s.ctl e 0x11 [e, own]).nowOpen e index own nonce)) := by
  rw [execOpenMsg, found]
  exact if_neg (by simp [free, loaded, up])

/-- Settles O18: a message in order on a live connection is taken, whatever its operation; the timers ask for the connection's state. -/
theorem connectionCommandsTakeEffect : Obligations.ConnectionCommandsTakeEffect := by
  unfold Obligations.ConnectionCommandsTakeEffect
  refine ⟨?write, ?read, ?atomic, ?readResponse, ?atomicResponse, ?ack, ?ackTimer, ?resend, ?open_, ?openAck, ?openRetry, ?close, ?rekey,
    ?threshold, ?sessionLimit, ?peerLimit, ?ready, ?data, ?abort, ?extend, ?lost⟩
  case write => exact fun h _ s live v2 inOrder room => congrArg Host.Outcome.next (s.arrive_takes h _ live v2 inOrder room)
  case read => exact fun h _ s live v2 inOrder room => congrArg Host.Outcome.next (s.arrive_takes h _ live v2 inOrder room)
  case atomic => exact fun h _ _ _ s live v2 inOrder room => congrArg Host.Outcome.next (s.arrive_takes h _ live v2 inOrder room)
  case readResponse =>
    exact fun h _ s live v2 inOrder room =>
      congrArg Host.Outcome.next (s.arrive_takes h _ live v2 inOrder room)
  case atomicResponse =>
    exact fun h _ s live v2 inOrder room =>
      congrArg Host.Outcome.next (s.arrive_takes h _ live v2 inOrder room)
  case ack => exact fun _ _ _ live => if_neg (by simp [live])
  case ackTimer => exact fun _ _ owed => if_neg owed
  case resend => exact fun _ _ => rfl
  case open_ => exact execOpenMsg_accepted
  case openAck => exact fun _ _ _ _ _ opening same => if_pos ⟨opening, same⟩
  case openRetry => exact fun _ _ opening => if_pos opening
  case close => exact fun _ _ live => if_neg (by simp [live])
  case rekey => exact fun _ _ _ live v2 => if_neg (by simp [live, v2])
  case threshold => exact fun _ _ isOpen v2 => if_neg (by simp [isOpen, v2])
  case sessionLimit => exact fun _ _ isOpen v1 => if_pos ⟨isOpen, v1⟩
  case peerLimit => exact fun _ _ late => if_pos late
  case ready =>
    exact fun h _ _ _ _ _ _ _ _ _ _ s live v2 inOrder room =>
      congrArg Host.Outcome.next (s.arrive_takes h _ live v2 inOrder room)
  case data =>
    exact fun h _ _ _ _ _ s live v2 inOrder room =>
      congrArg Host.Outcome.next (s.arrive_takes h _ live v2 inOrder room)
  case abort =>
    exact fun h _ _ _ _ _ s live v2 inOrder room =>
      congrArg Host.Outcome.next (s.arrive_takes h _ live v2 inOrder room)
  case extend => exact fun h _ _ _ s live v2 inOrder room => congrArg Host.Outcome.next (s.arrive_takes h _ live v2 inOrder room)
  case lost => exact fun h _ s live v2 inOrder room => congrArg Host.Outcome.next (s.arrive_takes h _ live v2 inOrder room)

end Sys2Proof.Machine
end

section
/-! PROOFS. What cairns, claims, joins, rosters and maps do (R350–R380). -/
namespace Sys2Proof.Machine

/-- A control message on a live connection of version 2 acts (R349). -/
theorem State.control_acts (s : State) (h : FabHdr) (f : State → State) (live : s.connLive h = true) (inRange : h.conn < 2048)
    (v2 : (s.connState h.conn).v1 = false) : s.control h f = f s :=
  (if_neg (by simp [live, inRange])).trans (if_neg (by simp [v2]))

theorem State.isManager_fab (s : State) (f : FabSt) : ({ s with fab := f } : State).isManager = s.isManager := rfl

theorem execClaim_group (h : FabHdr) (top : Bool) (epoch : Nat) (deputy : Nat) (s : State) (authentic : h.authentic = true)
    (role : s.role ≠ 0) (group_ : top = false) (same : h.src / 64 = s.group) (other : h.src % 64 ≠ s.me)
    (winning : wins epoch (h.src % 64) s.epoch s.manager = true) (member : s.enrolled (h.src % 64) = true) :
    execClaim h top epoch deputy s = .next (s.follow epoch (h.src % 64) (deputy % 64)) := by
  subst group_
  calc
    _ = _ := if_neg (by simp [authentic, role])
    _ = _ := if_neg Bool.false_ne_true
    _ = _ := if_pos ⟨same, other, winning, member⟩

theorem execClaim_top (h : FabHdr) (top : Bool) (epoch : Nat) (deputy : Nat) (s : State) (authentic : h.authentic = true)
    (role : s.role = 3) (top_ : top = true) (winning : wins epoch (h.src / 64) s.hier.topEpoch (s.rd Reg.FAB_TOP_top_group) = true)
    (other : h.src / 64 ≠ s.group) :
    execClaim h top epoch deputy s = .next (s.followTop epoch (h.src / 64) deputy) := by
  subst top_
  calc
    _ = _ := if_neg (by simp [authentic, role])
    _ = _ := if_pos rfl
    _ = _ := if_pos ⟨role, winning, other⟩

/-- Settles O19: each message passes the guard of its sender and of this package's role; a control message asks for a live connection of version 2. -/
theorem hierarchyCommandsTakeEffect : Obligations.HierarchyCommandsTakeEffect := by
  unfold Obligations.HierarchyCommandsTakeEffect
  refine ⟨?cairnSend, ?cairn, ?silent, ?deputy, ?worker, ?top_, ?listen, ?claim, ?topClaim, ?join, ?joinSystem, ?joinAck, ?joinRetry,
    ?rosterAsked, ?rosterAnswer, ?map_, ?forward⟩
  case cairnSend =>
    intro s configured running
    have configured' : (s.wr Reg.RAS_STATUS_health s.healthCode).on Reg.FAB_IDENT_configured = true := by
      rw [State.on, State.rd_wr_other _ _ _ _ (by decide)]
      exact configured
    exact if_neg (by rw [configured']; exact not_or.mpr ⟨by decide, running⟩)
  case cairn =>
    intro h c s sender _ live v2
    have heard : ¬ (c.device ≠ h.src ∨
        ((s.role == 0 && s.on Reg.FAB_IDENT_configured && c.kind == 2 && c.device / 64 == s.group) = false ∧
          (s.connLive h = false ∨ 2048 ≤ h.conn))) := by
      rintro (other | ⟨-, dead | far⟩)
      · exact other sender
      · exact absurd live (by rw [dead]; decide)
      · omega
    refine (if_neg heard).trans ((if_neg (by simp [v2])).trans ?_)
    simp only [apply_ite Host.Outcome.next]
  case silent =>
    intro _ s _ joined found other late
    have role' : ¬ (s.role ≠ 2 ∧ s.role ≠ 3) := by omega
    exact if_neg (by simp only [role', joined, found, other, late]; decide)
  case deputy => exact fun _ role late may => if_pos ⟨role, late, may⟩
  case worker => exact fun _ role late may => if_pos ⟨role, late, may⟩
  case top_ => exact fun _ role below late may => if_pos ⟨role, below, late, may⟩
  case listen =>
    exact fun _ configured ready role own silent =>
      (if_neg (by simp [configured, ready, role, own])).trans (if_neg (by simp [silent]))
  case claim => exact execClaim_group
  case topClaim => exact execClaim_top
  case join =>
    exact fun _ _ _ _ _ genuine other same manages =>
      (if_neg (by simp [genuine, other])).trans ((if_pos same).trans (if_pos manages))
  case joinSystem =>
    exact fun _ _ _ _ _ genuine other alien top_ =>
      (if_neg (by simp [genuine, other])).trans ((if_neg alien).trans (if_pos (by simpa using top_)))
  case joinAck =>
    intro src _ epoch manager deputy quarantined roster groupKey sysKey s group_ same role joining
    subst group_
    refine Eq.trans (b := execJoinAck src false epoch manager deputy quarantined roster groupKey sysKey s) rfl ?_
    rw [execJoinAck, if_neg Bool.false_ne_true]
    refine (if_neg (not_or.mpr ⟨not_not.mpr same, role⟩)).trans ?_
    exact if_pos joining
  case joinRetry => exact fun _ configured ready joining => (if_neg (by simp [configured, ready])).trans (if_pos joining)
  case rosterAsked =>
    intro h _ s live inRange v2 asks manages trusted
    subst asks
    exact congrArg Host.Outcome.next ((s.control_acts h _ live inRange v2).trans (if_pos ⟨manages, trusted⟩))
  case rosterAnswer =>
    intro h _ _ s live v2 answer own member digest
    subst answer
    exact congrArg Host.Outcome.next ((s.control_acts h _ live (by omega) v2).trans (if_pos ⟨own, member, digest⟩))
  case map_ => exact fun h _ _ s live inRange v2 => congrArg Host.Outcome.next (s.control_acts h _ live inRange v2)
  case forward =>
    exact fun _ configured worker =>
      (if_neg (by simp [configured])).trans (if_pos (by rw [State.isManager_fab, State.isManager_fab, worker]; rfl))

end Sys2Proof.Machine
end

section
/-! PROOFS. What the management commands (R484–R506) and the accesses of BAR0 (R8, R276) do. -/
namespace Sys2Proof.Machine

/-- A management command that may run is performed, and the next read finds its answer (R506). -/
theorem State.mgmtTake_performs {s t : State} {code tag st : Nat} {status : Bool} {payload : List Byte} {f : State → State × MgAnswer}
    (powered : s.boot.vaon = true) (idle : s.mgmt.running = none) (available : s.mgAvailable code status = true) (steady : s.sag = none)
    (performs : f s = (t, .now st payload)) : s.mgmtTake code tag status f = t.mgLast code tag st payload := by
  rw [State.mgmtTake, if_neg (by simp [powered]), if_neg (by simp [idle]), if_neg (by simp [available]), if_neg (by simp [steady]), performs]

/-- A command that writes the store answers by whether the store has room (R424). -/
theorem State.mgmtTake_stores {s : State} {code tag kind : Nat} {status : Bool} {f : State → State × MgAnswer} {g : State → State}
    (powered : s.boot.vaon = true) (idle : s.mgmt.running = none) (available : s.mgAvailable code status = true) (steady : s.sag = none)
    (stores : f s = s.mgStore kind g) :
    s.mgmtTake code tag status f = (s.storeWrite kind g).mgLast code tag (if s.storeOk kind then mgDone else mgRefused) [] :=
  State.mgmtTake_performs powered idle available steady stores

/-- An item of the record that is not shown in a register now is stored. -/
theorem execConfig_stored (tag : Nat) (item : Nat) (sub : Nat) (vals : List Nat) (s : State) (powered : s.boot.vaon = true)
    (idle : s.mgmt.running = none) (available : s.mgAvailable 0x12 false = true) (steady : s.sag = none)
    (form : configForm item sub vals = true) (entry : (item ≠ 2 ∨ s.portFused sub = false))
    (range : configRefused item sub (vals.headD 0) = false) (later : (item = 4 ∨ s.configNow = false)) :
    execConfig tag item sub vals s = .next ((s.storeWrite 7 (fun (u : State) =>
    { u with mram := { u.mram with config := u.mram.config.put (configKey item (configSub item sub)) vals } })).mgLast 0x12 tag (if
    s.storeOk 7 then mgDone else mgRefused) []) := by
  have notRefused : ¬ ((item = 2 ∧ s.portFused sub = true) ∨ configRefused item sub (vals.headD 0) = true) := by
    rintro (⟨port, fused⟩ | bad)
    · exact absurd fused (by simp [entry.resolve_left (not_not.mpr port)])
    · exact absurd bad (by rw [range]; exact Bool.false_ne_true)
  refine congrArg Host.Outcome.next (State.mgmtTake_stores powered idle available steady ?_)
  calc
    _ = _ := if_neg (by simp [form])
    _ = _ := if_neg notRefused
    _ = _ := if_pos later

/-- An item that is shown now is taken by its registers and stored. -/
theorem execConfig_shown (tag : Nat) (item : Nat) (sub : Nat) (vals : List Nat) (t : State) (st : Option Nat) (s : State)
    (powered : s.boot.vaon = true) (idle : s.mgmt.running = none) (available : s.mgAvailable 0x12 false = true) (steady : s.sag = none)
    (form : configForm item sub vals = true) (entry : (item ≠ 2 ∨ s.portFused sub = false))
    (range : configRefused item sub (vals.headD 0) = false) (kind : item ≠ 4) (now : s.configNow = true)
    (writes : s.configWrite item sub (vals.headD 0) = (t, st)) (taken : st.all (fun (o : Nat) => t.rd ⟨o, 0, 0⟩ != 1) = true) :
    execConfig tag item sub vals s = .next ((t.storeWrite 7 (fun (u : State) =>
    { u with mram := { u.mram with config := u.mram.config.put (configKey item (configSub item sub)) vals } })).mgLast 0x12 tag (if
    t.storeOk 7 then mgDone else mgRefused) []) := by
  have notRefused : ¬ ((item = 2 ∧ s.portFused sub = true) ∨ configRefused item sub (vals.headD 0) = true) := by
    rintro (⟨port, fused⟩ | bad)
    · exact absurd fused (by simp [entry.resolve_left (not_not.mpr port)])
    · exact absurd bad (by rw [range]; exact Bool.false_ne_true)
  refine congrArg Host.Outcome.next (State.mgmtTake_performs powered idle available steady ?_)
  refine (if_neg (by simp [form])).trans ((if_neg notRefused).trans ((if_neg (by simp [kind, now])).trans ?_))
  rw [writes]
  refine if_neg ?_
  cases st with
  | none => exact Nat.zero_ne_one
  | some o => simpa using taken

/-- The first population record of a package is stored. -/
theorem execPopWrite_first (tag : Nat) (record : PopRecord) (genuine : Bool) (s : State) (powered : s.boot.vaon = true)
    (idle : s.mgmt.running = none) (available : s.mgAvailable 0x20 (false) = true) (steady : s.sag = none) (bare : s.mram.pop = none)
    (signed : genuine = true) (first : record.reworkCount = 0) (form : popOk s.fuse.part record = true) :
    execPopWrite tag record genuine s = .next ((s.storeWrite 8 (fun (u : State) =>
    { u with mram := { u.mram with pop := some record } })).mgLast 0x20 tag (if s.storeOk 8 then mgDone else mgRefused) []) := by
  refine congrArg Host.Outcome.next (State.mgmtTake_stores powered idle available steady ?_)
  exact if_neg (by simp [bare, signed, first, form])

/-- A record of a package that was reworked fewer than twice is stored with the next count. -/
theorem execRework_second (tag : Nat) (record : PopRecord) (genuine : Bool) (old : PopRecord) (s : State) (powered : s.boot.vaon = true)
    (idle : s.mgmt.running = none) (available : s.mgAvailable 0x21 (false) = true) (steady : s.sag = none) (had : s.mram.pop = some old)
    (signed : genuine = true) (fewer : old.reworkCount < 2) (form : popOk s.fuse.part record = true) :
    execRework tag record genuine s = .next ((s.storeWrite 8 (fun (u : State) =>
    { u with mram := { u.mram with pop := some { record with reworkCount := old.reworkCount + 1 } } })).mgLast 0x21 tag (if s.storeOk 8 then
    mgDone else mgRefused) []) := by
  refine congrArg Host.Outcome.next (State.mgmtTake_stores powered idle available steady ?_)
  rw [had]
  exact if_neg (by simp [signed, fewer, form])

/-- The manager enrols a member; a changed digest of an enrolled one makes a new group key. -/
theorem execRosterCmd_enrols (tag : Nat) (op : Nat) (m : Nat) (e : RosterEntry) (cm2 : Bool) (s : State) (powered : s.boot.vaon = true)
    (idle : s.mgmt.running = none) (available : s.mgAvailable 0x23 (false) = true) (steady : s.sag = none) (enrol : op = 0)
    (member : m < 64) (manager : s.isManager = true) (may : s.mayEnrol m e cm2 = true) :
    execRosterCmd tag op m e cm2 s = .next ((s.storeWrite 9 (fun (u : State) => if (s.enrolled m && (s.rosterOf m).digest != e.digest) =
    true then (u.putRoster (u.hier.roster.put m { e with enrolled := true })).newGroupKey else u.putRoster (u.hier.roster.put m
    { e with enrolled := true }))).mgLast 0x23 tag (if s.storeOk 9 then mgDone else mgRefused) []) := by
  subst enrol
  refine congrArg Host.Outcome.next (State.mgmtTake_stores powered idle available steady ?_)
  calc
    _ = _ := if_neg (by omega)
    _ = _ := if_neg (by simp [manager])
    _ = _ := if_pos rfl
    _ = _ := if_neg (by simp [may])

/-- The manager removes a member; an enrolled one makes a new group key. -/
theorem execRosterCmd_removes (tag : Nat) (op : Nat) (m : Nat) (e : RosterEntry) (cm2 : Bool) (s : State) (powered : s.boot.vaon = true)
    (idle : s.mgmt.running = none) (available : s.mgAvailable 0x23 (false) = true) (steady : s.sag = none) (remove : op = 1)
    (member : m < 64) (manager : s.isManager = true) :
    execRosterCmd tag op m e cm2 s = .next ((s.storeWrite 9 (fun (u : State) => if s.enrolled m = true then (u.putRoster (u.hier.roster.del
    m)).newGroupKey else u.putRoster (u.hier.roster.del m))).mgLast 0x23 tag (if s.storeOk 9 then mgDone else mgRefused) []) := by
  subst remove
  refine congrArg Host.Outcome.next (State.mgmtTake_stores powered idle available steady ?_)
  calc
    _ = _ := if_neg (by omega)
    _ = _ := if_neg (by simp [manager])
    _ = _ := if_neg (by decide)
    _ = _ := if_pos rfl

/-- Without a running command a read takes the last answer. -/
theorem execMgmtResponseRead_idle (s : State) (vaon : s.boot.vaon = true) (running : s.mgmt.running = none) :
    execMgmtResponseRead s = .next (({ s with mgmt := { s.mgmt with bounced := none } } : State).send (.mgmt s.mgmt.last.1 s.mgmt.last.2.1
    s.mgmt.last.2.2.1 s.mgmt.last.2.2.2)) := by
  rw [execMgmtResponseRead, if_neg (by simp [vaon]), running]
  cases s.mgmt.bounced <;> rfl

/-- While a command runs a read finds it in progress. -/
theorem execMgmtResponseRead_running (c : Nat) (t : Nat) (s : State) (vaon : s.boot.vaon = true)
    (running : s.mgmt.running = some (c, t)) (bounced : s.mgmt.bounced = none) :
    execMgmtResponseRead s = .next (s.send (.mgmt c t mgInProgress [])) := by
  rw [execMgmtResponseRead, if_neg (by simp [vaon]), running, bounced]

/-- Settles O27: an available command is performed and leaves its answer; an access passes the gate of BAR0. -/
theorem managementAndRegisterCommandsTakeEffect : Obligations.ManagementAndRegisterCommandsTakeEffect := by
  unfold Obligations.ManagementAndRegisterCommandsTakeEffect
  refine ⟨?fatalClear, ?read, ?alertEnable, ?alertWrite, ?evtAck, ?wake, ?configLater, ?configNow, ?pop, ?rework, ?fences, ?enrol,
    ?remove, ?flint, ?response, ?progress, ?entdaa, ?setdasa, ?rstdaa, ?write, ?badWrite, ?regRead, ?badRead⟩
  case fatalClear =>
    exact fun _ _ _ powered idle available steady =>
      congrArg Host.Outcome.next (State.mgmtTake_stores powered idle available steady rfl)
  case read =>
    exact fun _ _ _ _ powered idle available steady _ _ _ _ _ =>
      congrArg Host.Outcome.next (State.mgmtTake_performs powered idle available steady (if_neg (by omega)))
  case alertEnable =>
    intro _ _ _ _ powered idle available steady register
    subst register
    exact congrArg Host.Outcome.next (State.mgmtTake_performs powered idle available steady rfl)
  case alertWrite =>
    exact fun _ _ _ _ powered idle available steady register =>
      congrArg Host.Outcome.next (State.mgmtTake_performs powered idle available steady (if_pos register))
  case evtAck =>
    exact fun _ _ _ powered idle available steady =>
      congrArg Host.Outcome.next (State.mgmtTake_performs powered idle available steady rfl)
  case wake =>
    exact fun _ _ powered idle available steady =>
      congrArg Host.Outcome.next (State.mgmtTake_performs powered idle available steady rfl)
  case configLater => exact execConfig_stored
  case configNow => exact execConfig_shown
  case pop => exact execPopWrite_first
  case rework => exact execRework_second
  case fences =>
    exact fun _ _ _ powered idle available steady =>
      congrArg Host.Outcome.next (State.mgmtTake_stores powered idle available steady rfl)
  case enrol => exact execRosterCmd_enrols
  case remove => exact execRosterCmd_removes
  case flint =>
    exact fun _ _ _ powered idle available steady ended =>
      congrArg Host.Outcome.next (State.mgmtTake_performs powered idle available steady (if_neg (not_not.mpr ended)))
  case response => exact execMgmtResponseRead_idle
  case progress => exact execMgmtResponseRead_running
  case entdaa => exact fun _ _ vaon i3c => if_neg (by simp [vaon, i3c])
  case setdasa => exact fun _ _ _ vaon i3c maddr => if_neg (by simp [vaon, i3c, maddr])
  case rstdaa => exact fun _ vaon => if_neg (by simp [vaon])
  case write =>
    exact fun _ _ _ _ s barOk accessOk =>
      congrArg Host.Outcome.next ((s.gated_open _ _ _ _ barOk).trans (if_pos accessOk))
  case badWrite =>
    exact fun _ _ _ _ s barOk accessOk =>
      congrArg Host.Outcome.next ((s.gated_open _ _ _ _ barOk).trans (if_neg (by simp [accessOk])))
  case regRead =>
    exact fun _ _ _ s barOk accessOk =>
      congrArg Host.Outcome.next ((s.gated_open _ _ _ _ barOk).trans (if_pos accessOk))
  case badRead =>
    exact fun _ _ _ s barOk accessOk =>
      congrArg Host.Outcome.next ((s.gated_open _ _ _ _ barOk).trans (if_neg (by simp [accessOk])))

end Sys2Proof.Machine
end

section
/-! PROOFS. What the collective and mirror engines do (R381–R398). -/
namespace Sys2Proof.Machine

/-- A collective at the head of its ring starts in a free slot, and its ring's collectives go as far as they can (R385). -/
theorem State.collIssue_issues (s : State) (ring op : Nat) (q : QDesc) (held : Held) (head : (s.ring ring).fetched.head? = some q)
    (running : s.glb.stop = 0) (active : s.rd (Reg.QM_RING_STATE_state ring) = ringActive)
    (may : s.mayIssue ring (s.fenceOf ring q.bytes) = true) (known : s.knownOp ring q.bytes = true) (isOp : s.isOp ring op q.bytes = true)
    (slot : (s.freeSlot (s.ringEngine ring)).isNone = false) (form : collOk q.bytes = true)
    (translated : s.checkFields ring q.phys (s.strictOf ring q.bytes) (s.addrFields ring q.bytes) q.held = .ok held)
    (engine : s.engineGone ring = false) :
    s.collIssue ring op =
      let u := ((s.takeHead ring q).updRun ring q.seq (fun (d : Run) => { d with held := held })).startColl ring q.seq
      ((u.coll.slots.filter (fun p => p.2.ring == ring)).map (·.1)).foldl (fun (s : State) key => s.collAdvance key collFuel) u := by
  unfold State.collIssue
  rw [s.issueHead_issues ring q held head running active may known isOp slot form translated engine]

/-- A step that waits for the driver is released (R392). -/
theorem State.releaseStep_waiting (s : State) (engine slot : Nat) (x : CollRun)
    (run : s.collRun (collKey (engine % 16) (slot % 4)) = some x)
    (waits : bit (s.rd Reg.COLL_PEND_waiting) (collKey (engine % 16) (slot % 4)) = true) :
    s.releaseStep false engine slot =
      let key := collKey (engine % 16) (slot % 4)
      ((s.collPend key false).setColl key { x with released := true }).collAdvance key collFuel := by
  unfold State.releaseStep
  dsimp only
  rw [run]
  refine (if_pos waits).trans ?_
  rw [Bool.or_false]

theorem execCollDeadline_late (engine : Nat) (slot : Nat) (x : CollRun) (s : State) (run : s.collRun (collKey engine slot) = some x)
    (late : x.deadline ≤ s.now) :
    execCollDeadline engine slot s = .next (s.collFail (collKey engine slot) stCollTimeout s.deviceId) := by
  rw [execCollDeadline, run]
  exact if_pos late

theorem execCollCommit_takes (v : Word) (s : State) (asked : bits v.toNat 0 0 = 1) (least : 10 ≤ s.shf Reg.COLL_CFG_default_timeout_ms)
    (most : s.shf Reg.COLL_CFG_mirror_gbps ≤ 200) (limit : s.shf Reg.COLL_CFG_ext_limit_s ≠ 0) :
    execCollCommit v s = .next (
      ((s.commitReg Reg.COLL_CFG).commitDone Reg.COLL_COMMIT_STATUS)) :=
  calc
  _ = _ := if_neg (by simp [asked])
  _ = _ := if_neg (Nat.not_lt.mpr least)
  _ = _ := if_neg (Nat.not_lt.mpr most)
  _ = _ := if_neg limit

/-- Settles O20: a descriptor issues through the head of its ring; a step and a deadline find their collective. -/
theorem collectiveCommandsTakeEffect : Obligations.CollectiveCommandsTakeEffect := by
  unfold Obligations.CollectiveCommandsTakeEffect
  refine ⟨?allreduce, ?reduceScatter, ?allgather, ?broadcast, ?barrier, ?step_, ?release, ?deadline, ?parity, ?mirrorSet, ?mirrorSync,
    ?mirrorClear, ?block, ?commit⟩
  case allreduce =>
    exact fun ring q held s head running active may known op slot form translated engine =>
      congrArg Host.Outcome.next (s.collIssue_issues ring 0x40 q held head running active may known op slot form translated engine)
  case reduceScatter =>
    exact fun ring q held s head running active may known op slot form translated engine =>
      congrArg Host.Outcome.next (s.collIssue_issues ring 0x41 q held head running active may known op slot form translated engine)
  case allgather =>
    exact fun ring q held s head running active may known op slot form translated engine =>
      congrArg Host.Outcome.next (s.collIssue_issues ring 0x42 q held head running active may known op slot form translated engine)
  case broadcast =>
    exact fun ring q held s head running active may known op slot form translated engine =>
      congrArg Host.Outcome.next (s.collIssue_issues ring 0x43 q held head running active may known op slot form translated engine)
  case barrier =>
    exact fun ring q held s head running active may known op slot form translated engine =>
      congrArg Host.Outcome.next (s.collIssue_issues ring 0x44 q held head running active may known op slot form translated engine)
  case step_ => exact fun _ _ _ _ _ _ => rfl
  case release => exact fun _ x s run waits => congrArg Host.Outcome.next (s.releaseStep_waiting _ _ x run waits)
  case deadline => exact execCollDeadline_late
  case parity => exact fun _ _ => rfl
  case mirrorSet =>
    exact fun ring q held s head running active may known op form translated engine =>
      congrArg Host.Outcome.next (s.issueHead_issues ring q held head running active may known op rfl form translated engine)
  case mirrorSync =>
    intro ring q held s head running active may known op quiet form translated engine
    have idle : (match s.mirror (mirEntry q.bytes) with | some m => m.sync.isSome | none => false) = false := by
      cases found : s.mirror (mirEntry q.bytes) with
      | none => rfl
      | some m =>
        rw [found, Option.bind_some] at quiet
        simp [quiet]
    exact congrArg Host.Outcome.next (s.issueHead_issues ring q held head running active may known op idle form translated engine)
  case mirrorClear =>
    exact fun ring q held s head running active may known op quiet form translated engine =>
      congrArg Host.Outcome.next (s.issueHead_issues ring q held head running active may known op quiet form translated engine)
  case block => exact fun _ _ => rfl
  case commit => exact execCollCommit_takes

end Sys2Proof.Machine
end

section
/-! PROOFS. What frames, flows, records and decisions do (R399–R430, chapter Instrument streams). -/
namespace Sys2Proof.Machine

/-- A port that is down, or a package that has stopped, drops the frame (R399). -/
theorem State.frameIn_down (s : State) (port : Nat) (frame : StreamFrame) (down : s.streamUp port = false) : s.frameIn port frame = s :=
  if_pos (by simp [down])

theorem State.frameIn_checkFail (s : State) (port : Nat) (frame : StreamFrame) (up : s.streamUp port = true) (running : s.glb.stop ≠ 2)
    (fate : s.frameFate port frame = .checkFail) : s.frameIn port frame = s.frameCheckFail port := by
  rw [State.frameIn, if_neg (by simp [up, running]), fate]

/-- A good frame of a known flow runs on its flow. -/
theorem State.frameIn_good (s : State) (port : Nat) (frame : StreamFrame) (k : Nat) (up : s.streamUp port = true)
    (running : s.glb.stop ≠ 2) (fate : s.frameFate port frame = .good)
    (flow : s.flowFor port (frameSource frame) (frameField frame 4 4) = some k) : s.frameIn port frame = s.flowFrame port k frame := by
  rw [State.frameIn, if_neg (by simp [up, running]), fate]
  dsimp only
  rw [flow]

theorem execSpillWriteAck_spilled (flow : Nat) (f : FlowSt) (r : FlowRec) (u : State) (t : State) (s : State)
    (found : s.flow flow = some f) (record : f.recs.find? (fun (x : FlowRec) => x.valid && !x.hdr) = some r) (sound : f.fault = 0)
    (body : s.spillBody f r = (.done, u)) (header : u.spill f.ctx (f.slotAt r.n) (f.recHeader flow r) = (.done, t)) :
    execSpillWriteAck flow s = .next ((t.setFlow flow
    { f with recs := f.recs.map (fun (x : FlowRec) => if x = r then ({ r with hdr := true, bytes := [] }) else x) }).flowMoved flow) := by
  simp only [execSpillWriteAck, found, record, sound, ne_eq, not_true_eq_false, if_false, body, header]

theorem execSpillWriteAck_fails (flow : Nat) (f : FlowSt) (r : FlowRec) (st : Nat) (t : State) (s : State)
    (found : s.flow flow = some f) (record : f.recs.find? (fun (x : FlowRec) => x.valid && !x.hdr) = some r) (sound : f.fault = 0)
    (body : s.spillBody f r = (.fail st, t)) :
    execSpillWriteAck flow s = .next (((t.setFlow flow
    (({ f with recs := f.recs.map (fun (x : FlowRec) => if x = r then ({ r with valid := false, hdr := true, asked := true }) else x) } :
    FlowSt).lose 1)).faultFlow flow st).flowMoved flow) := by
  simp only [execSpillWriteAck, found, record, sound, ne_eq, not_true_eq_false, if_false, body]

theorem execDecisionWord_oldest (k : Nat) (word : Nat) (rest : List (Nat × Nat)) (s : State) (queued : s.strm.fwd = (k, word) :: rest)
    (engine : s.on Reg.STRM_STATUS_engine_fenced = false) :
    execDecisionWord s = .next (({ s with strm := { s.strm with fwd := rest } } : State).decisionWord k word) := by
  rw [execDecisionWord, queued]
  exact if_neg (by rw [show ({ s with strm := { s.strm with fwd := rest } } : State).on Reg.STRM_STATUS_engine_fenced = false from engine]; decide)

theorem execFlowIdleTimeout_late (flow : Nat) (f : FlowSt) (s : State) (found : s.flow flow = some f) (learned : f.learned = true)
    (timed : f.idle ≠ 0) (open_ : f.state ≠ flowClosing) (late : f.lastAt + msTime f.idle ≤ s.now) :
    execFlowIdleTimeout flow s = .next (s.closeFlow flow false) := by
  rw [execFlowIdleTimeout, found]
  exact if_pos ⟨learned, timed, open_, late⟩

theorem execInstall_generator (src : BusSrc) (s : State) (kind : (s.ctxImage.headD 0) % 256 = 2)
    (free : s.flow (s.rd Reg.STRM_CTX_SEL_entry) = none) (form : genOk s.ctxImage = true)
    (quiet : s.genInFlight (s.rd Reg.STRM_CTX_SEL_entry) = false) :
    execInstall src s = .next (({ s with gens := s.gens.put (s.rd Reg.STRM_CTX_SEL_entry) (genImage s.ctxImage) } : State).ctxResult (s.rd
    Reg.STRM_CTX_SEL_entry) 0) :=
  calc
  _ = _ := if_neg (by rw [kind]; decide)
  _ = _ := if_pos kind
  _ = _ := if_neg (by simp [free])
  _ = _ := if_neg (by simp [form])
  _ = _ := if_neg (by simp [quiet])

theorem execInstall_flow (src : BusSrc) (f : FlowSt) (s : State) (kind : (s.ctxImage.headD 0) % 256 = 1)
    (image : f = { words := ([putBits (putBits (s.ctxImage.headD 0) 11 8 flowOpen) 23 20 0] ++ (s.ctxImage.drop 1).take 5 ++ [0, 0]).map (BitVec.ofNat 64), next := none, marker := none, tokens := 0, tokensAt := 0, missing := [], recs := [], rr := 0, pool := 0, idle := 0, lastAt := 0, woke := false, fault := 0, drop := false })
    (taken : s.flowRefused src (s.rd Reg.STRM_CTX_SEL_entry) s.ctxImage f = 0) :
    execInstall src s = .next (((s.openFlow (s.rd Reg.STRM_CTX_SEL_entry) f.words 0 0).ctxResult (s.rd Reg.STRM_CTX_SEL_entry) 0)) := by
  subst image
  refine (if_pos kind).trans ?_
  exact if_neg (not_not.mpr taken)

theorem execFree_flow (src : BusSrc) (f : FlowSt) (s : State) (found : s.flow (s.rd Reg.STRM_CTX_SEL_entry) = some f)
    (owned : (f.ctx ≠ 0 ∨ isFirmware src = true)) :
    execFree src s = .next ((s.closeFlow (s.rd Reg.STRM_CTX_SEL_entry) false).ctxResult (s.rd Reg.STRM_CTX_SEL_entry) 0) := by
  have may : ¬ (f.ctx = 0 ∧ isFirmware src = false) := by
    rintro ⟨zero, other⟩
    exact owned.elim (· zero) (fun own => absurd own (by rw [other]; decide))
  simp only [execFree, found]
  exact if_neg may

theorem execCtxRead_flow (src : BusSrc) (f : FlowSt) (s : State) (found : s.flow (s.rd Reg.STRM_CTX_SEL_entry) = some f)
    (owned : (f.ctx ≠ 0 ∨ isFirmware src = true)) :
    execCtxRead src s = .next (((List.range 8).foldl (fun (s : State) i => s.setReg (Reg.STRM_CTX_DATA i) (((f.words.map
    BitVec.toNat)[i]?).getD 0)) s).ctxResult (s.rd Reg.STRM_CTX_SEL_entry) 0) := by
  have may : ¬ (f.ctx = 0 ∧ isFirmware src = false) := by
    rintro ⟨zero, other⟩
    exact owned.elim (· zero) (fun own => absurd own (by rw [other]; decide))
  simp only [execCtxRead, found]
  exact if_neg may

theorem execStrmCommit_takes (v : Word) (s : State) (asked : bits v.toNat 0 0 = 1)
    (tags : (List.range 16).any (fun p => s.shf (Reg.STRM_PORT_CFG_vlan p) == 0xFFF) = false)
    (templates : (List.range 16).find? s.templateBad = none) :
    execStrmCommit v s = .next (
      let offs := (List.range 16).map Reg.STRM_PORT_CFG ++ (List.range 16).flatMap (fun t => (List.range 8).map (Reg.STRM_TMPL t))
      ((s.commitRegs offs).commitDone Reg.STRM_COMMIT_STATUS)) := by
  rw [execStrmCommit, if_neg (by simp [asked]), if_neg (by rw [tags]; decide), templates]

/-- Settles O21: a frame runs by its fate; a record and an entry are found in their flow; a descriptor issues through the head of its ring. -/
theorem streamCommandsTakeEffect : Obligations.StreamCommandsTakeEffect := by
  unfold Obligations.StreamCommandsTakeEffect
  refine ⟨?checkFail, ?flowFrame, ?down, ?lastFrame, ?arp, ?neighbour, ?link, ?spilled, ?spillFails, ?deliver, ?word, ?cutoff, ?idle,
    ?installGen, ?installFlow, ?free, ?read, ?release, ?watch, ?commit, ?parity⟩
  case checkFail =>
    exact fun port frame s up running fate =>
      congrArg Host.Outcome.next (s.frameIn_checkFail port frame up running fate)
  case flowFrame =>
    exact fun port frame k s up running fate flow =>
      congrArg Host.Outcome.next (s.frameIn_good port frame k up running fate flow)
  case down => exact fun port frame s down => congrArg Host.Outcome.next (s.frameIn_down port frame down)
  case lastFrame =>
    exact fun port frame k s up running fate flow =>
      congrArg Host.Outcome.next (s.frameIn_good port frame k up running fate flow)
  case arp => exact fun _ _ _ up own => if_pos (by rw [up, own]; rfl)
  case neighbour => exact fun _ _ _ up own => if_pos (by rw [up, own]; rfl)
  case link => exact fun _ _ _ stream => if_pos stream
  case spilled => exact execSpillWriteAck_spilled
  case spillFails => exact execSpillWriteAck_fails
  case deliver =>
    intro flow _ _ _ _ _ _ _ s found record tile awake read
    refine Eq.trans (b := execInboxDelivery flow s) rfl ?_
    rw [execInboxDelivery, found]
    dsimp only
    rw [record]
    dsimp only
    rw [tile]
    refine (if_neg (by rw [awake]; decide)).trans ?_
    rw [read]
  case word => exact execDecisionWord_oldest
  case cutoff => exact fun _ _ => rfl
  case idle => exact execFlowIdleTimeout_late
  case installGen => exact execInstall_generator
  case installFlow => exact execInstall_flow
  case free => exact execFree_flow
  case read => exact execCtxRead_flow
  case release =>
    exact fun ring q held s head running active may known op free form translated engine =>
      congrArg Host.Outcome.next (s.issueHead_issues ring q held head running active may known op free form translated engine)
  case watch =>
    exact fun ring q held s head running active may known op free form translated engine =>
      congrArg Host.Outcome.next (s.issueHead_issues ring q held head running active may known op free form translated engine)
  case commit => exact execStrmCommit_takes
  case parity => exact fun _ => rfl

end Sys2Proof.Machine
end

section
/-! PROOFS. What edges of PPS_IN, TRIG_IN and the schedule do, and how time is steered (R381–R404, chapter Time). -/
namespace Sys2Proof.Machine

/-- An edge of the configured polarity counts on the manager while time runs. -/
theorem ppsInEdge_guard {falling : Bool} {s : State} (edge : falling = s.on Reg.TIME_CFG_pps_falling) (manager : s.isManager = true)
    (running : s.timeState ≠ 0) : ¬ (falling ≠ s.on Reg.TIME_CFG_pps_falling ∨ s.isManager = false ∨ s.timeState = 0) := by
  rintro (other | member | stopped)
  · exact other edge
  · exact absurd manager (by rw [member]; decide)
  · exact running stopped

/-- An edge near the second steers (R386). -/
theorem execPpsInEdge_near (falling : Bool) (age : Nat) (s : State) (edge : falling = s.on Reg.TIME_CFG_pps_falling)
    (manager : s.isManager = true) (locked : s.timeState = 3) (source : s.rd Reg.TIME_STATUS_source = 1)
    (near : (signed 32 ((s.now - age) % 2 ^ 32)).natAbs ≤ ppsSlack) :
    execPpsInEdge falling age s = .next (s.ppsAccept (signed 32 ((s.now - age) % 2 ^ 32))) :=
  calc
  _ = _ := if_neg (ppsInEdge_guard edge manager (by omega))
  _ = _ := if_pos ⟨locked, by simp [source]⟩
  _ = _ := if_pos near

/-- The third edge that is ignored loses the source (log 125). -/
theorem execPpsInEdge_third (falling : Bool) (age : Nat) (s : State) (edge : falling = s.on Reg.TIME_CFG_pps_falling)
    (manager : s.isManager = true) (locked : s.timeState = 3) (source : s.rd Reg.TIME_STATUS_source = 1)
    (far : ppsSlack < (signed 32 ((s.now - age) % 2 ^ 32)).natAbs) (third : 2 ≤ s.time.ignored) :
    execPpsInEdge falling age s = .next (s.noSource.toTime 2) :=
  calc
  _ = _ := if_neg (ppsInEdge_guard edge manager (by omega))
  _ = _ := if_pos ⟨locked, by simp [source]⟩
  _ = _ := if_neg (by omega)
  _ = _ := if_neg (by omega)

/-- An edge while time is acquired steps it. -/
theorem execPpsInEdge_acquiring (falling : Bool) (age : Nat) (s : State) (edge : falling = s.on Reg.TIME_CFG_pps_falling)
    (manager : s.isManager = true) (acquiring : s.timeState = 2) (source : s.rd Reg.TIME_STATUS_source = 1) (steps : s.time.slew = false) :
    execPpsInEdge falling age s = .next (({ s with time := { s.time with ppsAt := s.now } } : State).ppsAcquire age) :=
  calc
  _ = _ := if_neg (ppsInEdge_guard edge manager (by omega))
  _ = _ := if_neg (by omega)
  _ = _ := if_neg (by omega)
  _ = _ := if_pos ⟨acquiring, by simp [source]⟩
  _ = _ := if_pos steps

/-- An edge while time is free is searched for a rate. -/
theorem execPpsInEdge_searching (falling : Bool) (age : Nat) (s : State) (edge : falling = s.on Reg.TIME_CFG_pps_falling)
    (manager : s.isManager = true) (searching : s.timeState = 1) :
    execPpsInEdge falling age s = .next (s.ppsSearch (s.now - age)) :=
  calc
  _ = _ := if_neg (ppsInEdge_guard edge manager (by omega))
  _ = _ := if_neg (by omega)
  _ = _ := if_neg (by omega)
  _ = _ := if_neg (by omega)

/-- A commit whose fields are in range takes both registers. -/
theorem execTimeCommit_takes (src : BusSrc) (v : Word) (s : State) (firmware : isFirmware src = true) (asked : bits v.toNat 0 0 = 1)
    (some_ : s.shf Reg.TIME_CFG_pps_out_ms ≠ 0) (most : s.shf Reg.TIME_CFG_pps_out_ms ≤ 200) (step : s.shf Reg.TIME_CFG_step_limit_us ≠ 0)
    (widths : (List.range 4).all (fun (o : Nat) => decide (4 ≤ bits (s.shd Reg.TIME_TOUT_CFG) (8 * o + 4) (8 * o)) && decide (bits (s.shd Reg.TIME_TOUT_CFG) (8 * o + 4) (8 * o) ≤ 16)) = true)
    :
    execTimeCommit src v s = .next (
      ((s.commitRegs [Reg.TIME_CFG, Reg.TIME_TOUT_CFG]).commitDone Reg.TIME_COMMIT_STATUS)) := by
  have inRange : (List.range 4).any (fun o => decide (bits (s.shd Reg.TIME_TOUT_CFG) (8 * o + 4) (8 * o) < 4 ∨
      16 < bits (s.shd Reg.TIME_TOUT_CFG) (8 * o + 4) (8 * o))) = false := by
    rw [List.any_eq_false]
    intro o mem
    have width := List.all_eq_true.1 widths o mem
    rw [Bool.and_eq_true, decide_eq_true_iff, decide_eq_true_iff] at width
    rw [decide_eq_true_iff]
    omega
  calc
    _ = _ := if_neg (by simp [firmware])
    _ = _ := if_neg (by simp [asked])
    _ = _ := if_neg (by omega)
    _ = _ := if_neg (by rw [inRange]; decide)

theorem execTrigOutEdge_due (o : Nat) (e : Edge) (t : List Edge) (s : State) (edges : s.edges o = e :: t) (due : e.due ≤ s.now) :
    execTrigOutEdge o s = .next (s.makeEdge o) := by
  rw [execTrigOutEdge, edges]
  exact if_pos due

/-- Settles O22: an edge branches on the state of time; the other commands pass the guard of their source, input or output. -/
theorem timeCommandsTakeEffect : Obligations.TimeCommandsTakeEffect := by
  unfold Obligations.TimeCommandsTakeEffect
  refine ⟨?ppsLocked, ?ppsThird, ?ppsAcquiring, ?ppsSearching, ?ppsLoss, ?exchange, ?request, ?response, ?servoLocked, ?servoAcquires,
    ?orphan, ?parent, ?sysrefLoss, ?sysrefReturn, ?steer, ?steerTimeout, ?second, ?commit, ?trigIn, ?pop, ?schedule, ?trigOut, ?pulse⟩
  case ppsLocked => exact execPpsInEdge_near
  case ppsThird => exact execPpsInEdge_third
  case ppsAcquiring => exact execPpsInEdge_acquiring
  case ppsSearching => exact execPpsInEdge_searching
  case ppsLoss => exact fun _ source late => if_pos ⟨source, late⟩
  case exchange => exact fun _ running member up keyed => if_neg (by simp [running, member, up, keyed])
  case request =>
    exact fun _ _ _ _ running up genuine version keyed =>
      if_neg (by simp [running, up, genuine, version, keyed])
  case response =>
    intro _ _ _ _ _ _ _ _ _ port' member asked genuine up version
    subst port'
    exact if_neg (by simp [member, asked, genuine, up, version])
  case servoLocked =>
    intro _ _ s best _ locked
    refine Eq.trans (b := execParentServoUpdate s) rfl ?_
    rw [execParentServoUpdate, best]
    calc
      _ = _ := if_neg (by omega)
      _ = _ := if_neg (by omega)
      _ = _ := if_pos locked
  case servoAcquires =>
    intro _ _ s best _ free
    refine Eq.trans (b := execParentServoUpdate s) rfl ?_
    rw [execParentServoUpdate, best]
    exact (if_neg (by omega)).trans (if_pos free)
  case orphan =>
    intro s member none_
    refine Eq.trans (b := execParentReselect s) rfl ?_
    rw [execParentReselect, none_]
    simp only [List.foldl_nil, ite_self]
    exact (if_neg (by omega)).trans (if_pos member)
  case parent =>
    intro p _ s role below _ parent running
    have state : (({ s with time := { s.time with exch := [], req := none } } : State).wr Reg.TIME_STATUS_parent_port p).timeState = s.timeState :=
      State.rd_wr_disjoint _ _ _ _ rfl (by decide) (by decide) (by decide)
    refine Eq.trans (b := execParentReselect s) rfl ?_
    rw [execParentReselect, parent]
    simp only [List.foldl_cons, List.foldl_nil]
    rw [if_neg (by omega : ¬ s.rd Reg.TIME_STATUS_source = 1), if_neg (by simp [role, below])]
    exact (if_neg (by omega)).trans (if_neg (by rw [state]; exact running))
  case sysrefLoss => exact fun _ had => if_neg (by simp [had])
  case sysrefReturn => exact fun _ gone => if_neg (by simp [gone])
  case steer => exact fun _ _ driver => if_neg (by simp [driver])
  case steerTimeout => exact fun _ driver locked late => if_pos ⟨driver, locked, late⟩
  case second => exact fun _ _ _ firmware => if_pos firmware
  case commit => exact execTimeCommit_takes
  case trigIn =>
    intro k falling s _ enabled edge
    have counts : ¬ (4 ≤ k ∨ bit (bits (s.rd Reg.TIME_TIN_CFG_input) (4 * k + 2) (4 * k)) 0 = false ∨
        falling ≠ bit (bits (s.rd Reg.TIME_TIN_CFG_input) (4 * k + 2) (4 * k)) 1) := by
      rintro (far | disabled | other)
      · omega
      · exact absurd enabled (by rw [disabled]; decide)
      · exact other edge
    exact (if_neg counts).trans (next_ite _ _)
  case pop => exact fun _ _ input => if_neg (Nat.not_le.mpr input)
  case schedule => exact fun _ _ _ output => if_neg (Nat.not_le.mpr output)
  case trigOut => exact execTrigOutEdge_due
  case pulse => exact fun _ second live => (if_neg second).trans (congrArg Host.Outcome.next (if_pos live))

end Sys2Proof.Machine
end

section
/-! PROOFS. What readings, clocks, brakes and sags do (R401–R414, R422). -/
namespace Sys2Proof.Machine

/-- A quad that nothing uses sleeps once its idle time is set (R409). -/
theorem execQuadSleep_idle (quad : Nat) (s : State) (runs : s.quadRuns (quad % 32) = true) (idle : s.quadBusy (quad % 32) = false)
    (free : s.quadHeld (quad % 32) = false) (noFilter : s.quadFilters (quad % 32) = false)
    (noEject : s.noc.eject.any (fun (p : Packet) => p.quad == quad % 32) = false)
    (noStall : s.pwr.stalled.any (fun (a : RegWait) => a.quad == quad % 32) = false) (noBrake : s.braking = false)
    (ready : s.on Reg.HUB_READY_ready = true) (timed : s.rd Reg.PWR_SLEEP_sleep_idle_us ≠ 0) :
    execQuadSleep quad s = .next (s.quadClock (quad % 32) false) :=
  if_pos (by simp only [runs, idle, free, noFilter, noEject, noStall, noBrake, ready, bne_iff_ne.2 timed]; decide)

/-- A register read whose quad does not wake is answered with ones. -/
theorem execRegisterPathTimeout_read (a : RegWait) (t : List RegWait) (s : State) (stalled : s.pwr.stalled = a :: t)
    (read : a.write = none) :
    execRegisterPathTimeout s = .next ((({ s with pwr := { s.pwr with stalled := t } } : State).refusal (blockOf a.off) 0 0x0B a.off).send
    (.regRead a.off a.size (BitVec.ofNat 64 (2 ^ (8 * a.size) - 1)))) := by
  rw [execRegisterPathTimeout, stalled]
  exact congrArg Host.Outcome.next (if_neg (by simp [read]))

/-- A commit whose fields are in range waits for the next period. -/
theorem execPwrCommit_takes (v : Word) (s : State) (asked : bits v.toNat 0 0 = 1)
    (share : 400 ≤ s.worstShare (s.shf Reg.PWR_ENVELOPE_envelope_w)) (envelope : s.shf Reg.PWR_ENVELOPE_envelope_w ≤ partCapW s.fuse.part)
    (cool : 70 ≤ s.shf Reg.PWR_CTL_tj_target_c) (hot : s.shf Reg.PWR_CTL_tj_target_c ≤ 95) (some_ : s.shf Reg.PWR_CTL_period_ms ≠ 0)
    (most : s.shf Reg.PWR_CTL_period_ms ≤ 100) (slow : 250 ≤ s.shf Reg.PWR_CTL_tile_mhz)
    (fast : s.shf Reg.PWR_CTL_tile_mhz ≤ partMhz s.fuse.part) (step : s.shf Reg.PWR_CTL_tile_mhz % 25 = 0) :
    execPwrCommit v s = .next (
      let set : List (Nat × DWord) := [(Reg.PWR_ENVELOPE, BitVec.ofNat 64 (putBits (s.shd Reg.PWR_ENVELOPE) 12 0 (s.shf Reg.PWR_ENVELOPE_envelope_w))), (Reg.PWR_CTL, BitVec.ofNat 64 (putBits (s.shd Reg.PWR_CTL) 11 0 (s.shf Reg.PWR_CTL_tile_mhz))), (Reg.PWR_SLEEP, BitVec.ofNat 64 (s.shd Reg.PWR_SLEEP))]
      ({ s with pwr := { s.pwr with pend := some set } } : State).commitDone Reg.PWR_COMMIT_STATUS) := by
  have share' : s.worstShare (min (s.shf Reg.PWR_ENVELOPE_envelope_w) (partCapW s.fuse.part)) = s.worstShare (s.shf Reg.PWR_ENVELOPE_envelope_w) := by
    rw [Nat.min_eq_left envelope]
  rw [execPwrCommit, if_neg (by simp [asked])]
  rw [if_neg (by rw [share']; omega), if_neg (by omega), if_neg (by omega), if_neg (by omega), if_neg (Nat.not_lt.mpr envelope)]
  dsimp only
  rw [if_neg (Nat.not_lt.mpr fast), Nat.min_eq_left envelope, Nat.min_eq_left fast]

theorem State.boot_ite_wr (c : Prop) [Decidable c] (t : State) (f : Fld) (v : Nat) : (if c then t.wr f v else t).boot = t.boot := by
  split <;> rfl

/-- Settles O23: each command passes its guard, and its branches are decided by the quad's, the reading's or the commit's values. -/
theorem powerCommandsTakeEffect : Obligations.PowerCommandsTakeEffect := by
  unfold Obligations.PowerCommandsTakeEffect
  refine ⟨?sleep, ?wake, ?locked, ?lockLate, ?lockLost, ?pathTimeout, ?reading, ?mean, ?capping, ?setpoint, ?fallback, ?commit, ?brake,
    ?brakeRelease, ?cool, ?trip, ?sag, ?sagEnd, ?rail, ?palert⟩
  case sleep => exact execQuadSleep_idle
  case wake => exact fun _ _ => rfl
  case locked => exact fun _ _ waking => if_neg (by rw [waking]; decide)
  case lockLate =>
    exact fun _ _ waking fresh =>
      (if_neg (by rw [waking]; decide)).trans (if_pos (by rw [fresh]; decide))
  case lockLost =>
    exact fun _ _ waking again =>
      (if_neg (by rw [waking]; decide)).trans (if_neg (by rw [again]; decide))
  case pathTimeout => exact execRegisterPathTimeout_read
  case reading => exact fun _ _ _ _ _ => if_pos (by rw [List.length_append, List.length_singleton]; omega)
  case mean => exact fun _ _ _ _ _ => if_neg (by rw [List.length_append, List.length_singleton]; omega)
  case capping => exact fun _ _ ready cool => if_neg (by simp [ready, cool])
  case setpoint => exact fun _ _ driver _ _ => (if_neg (by simp [driver])).trans (if_neg (by omega))
  case fallback => exact fun _ driver missed => if_neg (by simp [driver, Nat.lt_of_succ_le missed])
  case commit => exact execPwrCommit_takes
  case brake => exact fun s cool released ready free => if_neg (by
      show ¬ (s.boot.trip || s.boot.perst || !s.on Reg.HUB_READY_ready || s.on Reg.PWR_STATUS_brake) = true
      simp [cool, released, ready, free])
  case brakeRelease => exact fun _ => rfl
  case cool =>
    intro _ _ untripped cool
    refine (if_neg (by rw [State.boot_ite_wr]; simp [untripped])).trans ?_
    exact (if_neg (by omega)).trans ((if_neg (by omega)).trans (if_pos cool))
  case trip =>
    intro _ _ untripped hot
    refine (if_neg (by rw [State.boot_ite_wr]; simp [untripped])).trans ?_
    exact if_pos hot
  case sag => exact fun _ _ _ low => if_neg (by
      rw [← Bool.not_or, low]
      decide)
  case sagEnd => exact fun _ => rfl
  case rail =>
    intro _ _ known released first
    refine if_neg ?_
    rw [first]
    simp [known, released]
  case palert => exact fun _ _ => rfl

end Sys2Proof.Machine
end

section
/-! PROOFS. What power-on, PERST_N and the stages of bring-up do (R410–R424, chapter Bring-up). -/
namespace Sys2Proof.Machine

/-- Without firmware to start, power-on resets and keeps what VAON does not hold. -/
theorem execVaonPowerOn_idle (maddr : Nat) (s : State) (dark : s.boot.vaon = false) (lc : (s.fuse.lc = .lost ∨ s.fuse.lc = .blank)) :
    execVaonPowerOn maddr s = .next (
      let t := { State.reset with pending := s.pending, free := s.free, out := s.out, fuse := s.fuse }
      let t := { t with mram := { s.mram with powerOns := s.mram.powerOns + 1 } }
      let t := { t with mgmt := { MgmtSt.reset with maddr := maddr % 4 }, pwr := { t.pwr with pinLow := s.pwr.pinLow } }
      { t with boot := { t.boot with lc := s.fuse.lc } }) :=
  calc
  _ = _ := if_neg (by simp [dark])
  _ = _ := if_neg (by rcases lc with h | h <;> simp [h])
  _ = _ := if_pos lc

/-- In TEST and PRODUCTION the newer fit copy is chosen (R415, log 137). -/
theorem execVaonPowerOn_firmware (maddr : Nat) (s : State) (dark : s.boot.vaon = false)
    (lc : (s.fuse.lc = .production ∨ s.fuse.lc = .test)) :
    execVaonPowerOn maddr s = .next (
      let t := { State.reset with pending := s.pending, free := s.free, out := s.out, fuse := s.fuse }
      let t := { t with mram := { s.mram with powerOns := s.mram.powerOns + 1 } }
      let t := { t with mgmt := { MgmtSt.reset with maddr := maddr % 4 }, pwr := { t.pwr with pinLow := s.pwr.pinLow } }
      let t := { t with boot := { t.boot with lc := s.fuse.lc } }
      let a := t.fwFit t.mram.fwA
      let b := t.fwFit t.mram.fwB
      let runB := b && (!a || decide (fwVersion t.mram.fwA < fwVersion t.mram.fwB))
      { t with boot := { t.boot with recovery := !a && !b, runB := runB } }) :=
  calc
  _ = _ := if_neg (by simp [dark])
  _ = _ := if_neg (by rcases lc with h | h <;> simp [h])
  _ = _ := if_neg (by rcases lc with h | h <;> simp [h])

/-- Settles O24: power and PERST_N pass the guard of their level, a stage the guard of the stage that runs. -/
theorem bringUpCommandsTakeEffect : Obligations.BringUpCommandsTakeEffect := by
  unfold Obligations.BringUpCommandsTakeEffect
  refine ⟨?powerOnUnfit, ?powerOnFit, ?powerOff, ?assertPerst, ?releasePerst, ?routeFlint, ?tileFlint, ?stackTraining, ?binding, ?ready⟩
  case powerOnUnfit => exact execVaonPowerOn_idle
  case powerOnFit => exact execVaonPowerOn_firmware
  case powerOff => exact fun _ powered => if_neg (by simp [powered])
  case assertPerst => exact fun _ powered released => if_neg (by simp [powered, released])
  case releasePerst =>
    intro rails sysref late s powered asserted
    refine Eq.trans (b := execPerstNRelease rails sysref late s) rfl ?_
    rw [execPerstNRelease, if_neg (by simp [powered, asserted])]
    exact congrArg (fun start => Host.Outcome.next (s.withAlert start)) (funext fun _ => State.startMain.eq_1 _ _ _ _)
  case routeFlint => exact fun _ _ _ _ _ _ stage locked => calc
    _ = _ := if_neg (by simp [stage])
    _ = _ := if_neg (by simp [locked])
  case tileFlint => exact fun _ _ _ _ _ _ _ _ _ stage passed => calc
    _ = _ := if_neg (by simp [stage])
    _ = _ := if_neg (by simp [passed])
  case stackTraining => exact fun _ _ _ stage => if_neg (by simp [stage])
  case binding => exact fun _ stage => if_neg (by simp [stage])
  case ready => exact fun _ _ released untripped last => if_neg (by simp [released, untripped, last])

end Sys2Proof.Machine
end

section
/-! PROOFS. What the blanket, key slots, the life cycle and firmware commands do (R425–R464, chapter Security). -/
namespace Sys2Proof.Machine

/-- A management command that answers later runs until then (R506). -/
theorem State.mgmtTake_waits {s t : State} {code tag : Nat} {status : Bool} {f : State → State × MgAnswer} (powered : s.boot.vaon = true)
    (idle : s.mgmt.running = none) (available : s.mgAvailable code status = true) (steady : s.sag = none) (waits : f s = (t, .later)) :
    s.mgmtTake code tag status f = { t with mgmt := { t.mgmt with running := some (code, tag) } } := by
  rw [State.mgmtTake, if_neg (by simp [powered]), if_neg (by simp [idle]), if_neg (by simp [available]), if_neg (by simp [steady]), waits]

/-- The gate of the TEE lets a write pass outside RUN or from the TEE. -/
theorem teeGate_passes {s : State} {src : BusSrc} (gate : s.rd Reg.HOST_STATUS_tdisp ≠ 2 ∨ teeOk src = true) :
    ¬ (s.rd Reg.HOST_STATUS_tdisp = 2 ∧ teeOk src = false) := by
  rintro ⟨run, outside⟩
  rcases gate with other | inside
  · exact other run
  · exact absurd inside (by rw [outside]; decide)

/-- A request for END_OF_LIFE waits where it begins, else it is refused. -/
theorem execLcEol_begins (tag : Nat) (nonce : Nat) (genuine : Bool) (t : State) (ok : Bool) (s : State) (powered : s.boot.vaon = true)
    (idle : s.mgmt.running = none) (available : s.mgAvailable 0x44 false = true) (steady : s.sag = none) (none_ : s.blanket.row = 0)
    (begins : s.beginEol nonce genuine = (t, ok)) :
    execLcEol tag nonce genuine s = .next (if ok = true then { t with mgmt := { t.mgmt with running := some (0x44, tag) } } else t.mgLast
    0x44 tag mgRefused []) := by
  cases ok with
  | false => exact congrArg Host.Outcome.next (State.mgmtTake_performs powered idle available steady ((if_neg (by simp [none_])).trans (by simp [begins])))
  | true => exact congrArg Host.Outcome.next (State.mgmtTake_waits powered idle available steady ((if_neg (by simp [none_])).trans (by simp [begins])))

/-- Settles O25: an available management command is performed and leaves its answer or waits; a register write passes the gate of the TEE. -/
theorem blanketAndLifeCycleCommandsTakeEffect : Obligations.BlanketAndLifeCycleCommandsTakeEffect := by
  unfold Obligations.BlanketAndLifeCycleCommandsTakeEffect
  refine ⟨?starts, ?register, ?drained, ?attested, ?slotCmd, ?slotDrain, ?nonce_, ?endOfLife, ?version, ?writesA, ?writesB, ?install,
    ?remove_⟩
  case starts =>
    exact fun _ _ powered idle available steady =>
      congrArg Host.Outcome.next (State.mgmtTake_waits powered idle available steady rfl)
  case register =>
    intro _ _ _ asked gate
    refine if_neg ?_
    rintro (unasked | closed)
    · exact absurd asked (by rw [unasked]; decide)
    · exact teeGate_passes gate closed
  case drained => exact fun _ row going idle => if_neg (by simp [row, going, idle])
  case attested => exact fun _ row going => if_neg (by simp [row, going])
  case slotCmd => exact fun _ _ _ _ gate clears => calc
    _ = _ := if_neg (by omega)
    _ = _ := if_neg (teeGate_passes gate)
    _ = _ := if_pos clears
  case slotDrain => exact fun _ _ => rfl
  case nonce_ =>
    exact fun _ _ powered idle available steady none_ =>
      congrArg Host.Outcome.next (State.mgmtTake_performs powered idle available steady (if_neg (by simp [none_])))
  case endOfLife => exact execLcEol_begins
  case version =>
    intro _ _ _ powered idle available steady firmware _ _
    refine congrArg Host.Outcome.next (State.mgmtTake_performs powered idle available steady ?_)
    rw [firmware]
    dsimp only
    exact if_neg (by omega)
  case writesA =>
    exact fun _ _ _ _ _ _ s powered idle available steady fromB =>
      congrArg Host.Outcome.next (State.mgmtTake_stores powered idle available steady
      (congrArg (s.mgStore 6) (funext fun _ => by rw [if_pos fromB])))
  case writesB =>
    exact fun _ _ _ _ _ _ s powered idle available steady fromA =>
      congrArg Host.Outcome.next (State.mgmtTake_stores powered idle available steady
      (congrArg (s.mgStore 6) (funext fun _ => by rw [if_neg (by simp [fromA])])))
  case install =>
    exact fun _ _ _ _ powered idle available steady none_ =>
      congrArg Host.Outcome.next (State.mgmtTake_performs powered idle available steady (if_neg (by simp [none_])))
  case remove_ =>
    exact fun _ _ powered idle available steady none_ =>
      congrArg Host.Outcome.next (State.mgmtTake_performs powered idle available steady (if_neg (by simp [none_])))

end Sys2Proof.Machine
end

section
/-! PROOFS. What losses, parity errors, injections and the coalescing timer do (R465–R484, chapter Reliability). -/
namespace Sys2Proof.Machine

/-- A request for an injection of a kind from 1 to 4 is no unknown field. -/
theorem rasInject_kind_known {kind : Nat} (least : 1 ≤ kind) (most : kind ≤ 4) : ¬ (kind = 0 ∨ 4 < kind) := by
  omega

/-- An injection that fits is held. -/
theorem execRasInject_held (v : DWord) (s : State) (valid : bit v.toNat 63 = true) (least : 1 ≤ bits v.toNat 51 48)
    (most : bits v.toNat 51 48 ≤ 4) (idle : s.evt.inject = none)
    (fits : s.injectable (bits v.toNat 51 48) (bits v.toNat 57 52) (bits v.toNat 47 0) = true) :
    execRasInject v s = .next (({ s with evt := { s.evt with inject := some (bits v.toNat 51 48, bits v.toNat 47 0) } } : State).wr
    Reg.RAS_INJECT_STATUS_result 1) := by
  refine Eq.trans (b := execRasInject v s) rfl ?_
  rw [execRasInject, if_neg (by simp [valid])]
  dsimp only
  rw [if_neg (rasInject_kind_known least most), if_neg (by simp [idle, fits])]

/-- A second injection, or one that does not fit, is refused. -/
theorem execRasInject_refused (v : DWord) (s : State) (valid : bit v.toNat 63 = true) (least : 1 ≤ bits v.toNat 51 48)
    (most : bits v.toNat 51 48 ≤ 4)
    (busy : (s.evt.inject.isSome = true ∨ s.injectable (bits v.toNat 51 48) (bits v.toNat 57 52) (bits v.toNat 47 0) = false)) :
    execRasInject v s = .next (s.wr Reg.RAS_INJECT_STATUS_result 3) := by
  refine Eq.trans (b := execRasInject v s) rfl ?_
  rw [execRasInject, if_neg (by simp [valid])]
  dsimp only
  rw [if_neg (rasInject_kind_known least most), if_pos (by simpa using busy)]

/-- Settles O26: each command passes the guard of its state and acts; a segment counts its losses. -/
theorem reliabilityCommandsTakeEffect : Obligations.ReliabilityCommandsTakeEffect := by
  unfold Obligations.ReliabilityCommandsTakeEffect
  refine ⟨?heartbeat, ?parity, ?coalesce, ?injects, ?refusesInject, ?moverParity, ?firstLoss, ?secondLoss, ?leavesBlank, ?leavesTest,
    ?groupKey⟩
  case heartbeat => exact fun _ running level => if_neg (by simp [running, level])
  case parity => exact fun _ _ running => if_neg (by simp [running])
  case coalesce => exact fun _ _ _ powered => if_pos powered
  case injects => exact execRasInject_held
  case refusesInject => exact execRasInject_refused
  case moverParity => exact fun _ _ => rfl
  case firstLoss =>
    intro segment s whole
    refine Eq.trans (b := execExpressLinkLoss segment s) rfl ?_
    rw [execExpressLinkLoss, whole]
    exact if_pos rfl
  case secondLoss =>
    intro segment s once
    refine Eq.trans (b := execExpressLinkLoss segment s) rfl ?_
    rw [execExpressLinkLoss, once]
    rfl
  case leavesBlank => exact fun _ _ _ _ quiet powered settled blank => calc
    _ = _ := if_neg (by simp [quiet, powered, settled])
    _ = _ := if_pos blank
  case leavesTest =>
    intro serial part quads _ s quiet powered settled test firmware
    refine Eq.trans (b := execLcTestTransition serial part quads s) rfl ?_
    rw [execLcTestTransition, if_neg (by simp [quiet, powered, settled]), if_neg (by simp [test]), if_pos test]
    rw [firmware]
  case groupKey => exact fun _ => rfl

end Sys2Proof.Machine
end

section
/-! PROOFS. What each vector instruction of a kernel does (R70–R72, R80). -/
namespace Sys2Proof.Machine

/-! ### The instruction at the pc -/

/-- A core that runs executes the word at its pc when the command is that word's operation. -/
theorem State.execOp_fetched {s u : State} {t w len : Nat} {op : Op} (runs : s.coreRuns t = true)
    (fetched : s.fetchInst t = (.inst w len, u)) (decoded : opOfInst w len = op) :
    s.execOp t op = .next (u.retire t (u.opInst t w len op)) := by
  rw [State.execOp, State.runOp, if_neg (by simp [runs]), fetched]
  simp only [decoded, beq_self_eq_true, if_true]

/-- An instruction of custom-0 is none of the vector unit. -/
theorem custom0_ne_vec (w k : Nat) : custom0 w ≠ .vec k := by
  unfold custom0
  dsimp only
  repeat' split
  all_goals simp only [ne_eq, reduceCtorEq, not_false_eq_true]

/-- A vector instruction of custom-1 has its operation in bits 31:25. -/
theorem custom1_vec {w k : Nat} (decoded : custom1 w = .vec k) : bits w 31 25 = k := by
  unfold custom1 at decoded
  dsimp only at decoded
  split at decoded <;> (repeat' split at decoded) <;> simp_all

/-- A word that decodes to a vector operation has it in bits 31:25. -/
theorem bits_of_opOfInst_vec {w k : Nat} (decoded : opOfInst w 4 = .vec k) : bits w 31 25 = k := by
  rw [opOfInst, if_neg (by decide)] at decoded
  split at decoded
  · exact absurd decoded (custom0_ne_vec w k)
  · exact custom1_vec decoded
  · split at decoded <;> cases decoded
  · cases decoded

/-- A vector instruction but VSIDE that completes counts one cycle of the vector unit. -/
theorem State.execOp_vec {s u v : State} {t w k : Nat} (runs : s.coreRuns t = true) (fetched : s.fetchInst t = (.inst w 4, u))
    (decoded : opOfInst w 4 = .vec k) (plain : k ≠ 16) 
    (computes : bits w 31 25 = k → u.vecInst t w = .go v ((u.tile t).pc + 4)) :
    s.execOp t (.vec k) = .next (u.retire t (.go (v.perf t 4 1) ((u.tile t).pc + 4))) := by
  have unit : u.opInst t w 4 (.vec k) = (u.vecInst t w).vectorCycles t 1 := by
    simp only [State.opInst]
    exact State.unitInst.eq_7 u t w k plain
  rw [State.execOp_fetched runs fetched decoded, unit, computes (bits_of_opOfInst_vec decoded), Ran.vectorCycles]

/-! ### The branches of the vector unit -/

/-- An instruction between vector registers. -/
theorem State.vecInst_lanes {u : State} {t w k : Nat} (op : bits w 31 25 = k) (registers : k ≠ 0 ∧ k ≠ 1 ∧ k ≠ 10 ∧ k ≠ 11) :
    u.vecInst t w = .go (u.setV t (bits w 11 7) (vCompute k (bits w 14 12) (bits w 24 20 % 8) (u.vreg t (bits w 11 7))
      (u.vreg t (bits w 19 15)) (u.vreg t (bits w 24 20)))) ((u.tile t).pc + 4) := by
  obtain ⟨load, store, broadcast, toCore⟩ := registers
  simp only [State.vecInst, op]
  rw [if_neg load, if_neg store, if_neg broadcast, if_neg toCore]

/-- A load of 64 bytes that are clean. -/
theorem State.vecInst_load {u v : State} {t w : Nat} {bs : List Byte} (op : bits w 31 25 = 0)
    (inside : accessTrap (u.rs1 t w) 64 cLoadAlign cLoadAccess = none) (read : u.tileRead t agVector (u.rs1 t w) 64 = (some bs, v))
    (runs : (v.tile t).run.isSome = true) :
    u.vecInst t w = .go (v.setV t (bits w 11 7) (leValue bs)) ((u.tile t).pc + 4) := by
  rw [State.rs1] at inside read
  simp only [State.vecInst, op, if_true, inside, State.readFor, read, runs]

/-- A store of 64 bytes. -/
theorem State.vecInst_store {u : State} {t w : Nat} (op : bits w 31 25 = 1)
    (inside : accessTrap (u.rs1 t w) 64 cStoreAlign cStoreAccess = none) :
    u.vecInst t w = .go (u.tileWrite t agVector (u.rs1 t w) (leBytes 64 (u.vreg t (bits w 24 20)))) ((u.tile t).pc + 4) := by
  rw [State.rs1] at inside ⊢
  simp only [State.vecInst, op, if_neg Nat.one_ne_zero, if_true, inside]

/-- A broadcast of a core register. -/
theorem State.vecInst_broadcast {u : State} {t w : Nat} (op : bits w 31 25 = 10) :
    u.vecInst t w = .go (u.setV t (bits w 11 7) (ofLanes (bits w 14 12) (List.replicate (vLanes (bits w 14 12))
      (u.xreg t (bits w 19 15)).toNat))) ((u.tile t).pc + 4) := by
  simp only [State.vecInst, op]
  rfl

/-- The lowest lane moved to a core register. -/
theorem State.vecInst_toCore {u : State} {t w : Nat} (op : bits w 31 25 = 11) :
    u.vecInst t w = .go (u.setX t (bits w 11 7) (BitVec.ofInt 64 (Machine.signed (vBits (bits w 14 12)) (u.vreg t (bits w 19 15)))))
      ((u.tile t).pc + 4) := by
  simp only [State.vecInst, op]
  rfl

/-- Settles O4: the word at the pc is executed; its operation selects the branch of the vector unit. -/
theorem vectorInstructionsExecute : Obligations.VectorInstructionsExecute := by
  unfold Obligations.VectorInstructionsExecute
  refine ⟨?vld, ?vst, ?vadd, ?vsub, ?vmul, ?vfma, ?vmax, ?vmin, ?vcvt, ?vredsum, ?vbcast, ?vmvx, ?vexp2, ?vrecip, ?vside⟩
  case vld =>
    exact fun _ _ _ _ _ _ runs fetched decoded inside read stays =>
      State.execOp_vec runs fetched decoded (by decide) (State.vecInst_load · inside read stays)
  case vst =>
    exact fun _ _ _ _ runs fetched decoded inside =>
      State.execOp_vec runs fetched decoded (by decide) (State.vecInst_store · inside)
  case vadd =>
    exact fun _ _ _ _ runs fetched decoded =>
      State.execOp_vec runs fetched decoded (by decide) (State.vecInst_lanes · (by decide))
  case vsub =>
    exact fun _ _ _ _ runs fetched decoded =>
      State.execOp_vec runs fetched decoded (by decide) (State.vecInst_lanes · (by decide))
  case vmul =>
    exact fun _ _ _ _ runs fetched decoded =>
      State.execOp_vec runs fetched decoded (by decide) (State.vecInst_lanes · (by decide))
  case vfma =>
    exact fun _ _ _ _ runs fetched decoded =>
      State.execOp_vec runs fetched decoded (by decide) (State.vecInst_lanes · (by decide))
  case vmax =>
    exact fun _ _ _ _ runs fetched decoded =>
      State.execOp_vec runs fetched decoded (by decide) (State.vecInst_lanes · (by decide))
  case vmin =>
    exact fun _ _ _ _ runs fetched decoded =>
      State.execOp_vec runs fetched decoded (by decide) (State.vecInst_lanes · (by decide))
  case vcvt =>
    exact fun _ _ _ _ runs fetched decoded =>
      State.execOp_vec runs fetched decoded (by decide) (State.vecInst_lanes · (by decide))
  case vredsum =>
    exact fun _ _ _ _ runs fetched decoded =>
      State.execOp_vec runs fetched decoded (by decide) (State.vecInst_lanes · (by decide))
  case vbcast =>
    exact fun _ _ _ _ runs fetched decoded =>
      State.execOp_vec runs fetched decoded (by decide) State.vecInst_broadcast
  case vmvx =>
    exact fun _ _ _ _ runs fetched decoded =>
      State.execOp_vec runs fetched decoded (by decide) State.vecInst_toCore
  case vexp2 =>
    exact fun _ _ _ _ runs fetched decoded =>
      State.execOp_vec runs fetched decoded (by decide) (State.vecInst_lanes · (by decide))
  case vrecip =>
    exact fun _ _ _ _ runs fetched decoded =>
      State.execOp_vec runs fetched decoded (by decide) (State.vecInst_lanes · (by decide))
  case vside =>
    intro tile _ u _ runs fetched decoded plain low low2 aligned activations scales _ _
    refine (State.execOp_fetched runs fetched decoded).trans ?_
    refine congrArg (fun r : Ran => Host.Outcome.next (u.retire tile (r.vectorCycles tile (if cfgForm (u.tile tile).cfg = 1 then 32 else 8)))) ?_
    rw [State.vside]
    refine (if_neg ?_).trans (if_neg ?_)
    · rintro (slice | high | high2 | odd | ⟨formed, second⟩ | ⟨unformed, unblocked, upper⟩)
      · exact absurd slice (by rw [plain]; decide)
      · exact high low
      · exact high2 low2
      · exact odd aligned
      · exact activations.elim formed second
      · rcases scales with formed | blocked | zero
        · exact formed unformed
        · exact absurd blocked (by rw [unblocked]; decide)
        · exact upper zero
    · omega

end Sys2Proof.Machine
end

section
/-! PROOFS. What each matrix, DMA and control instruction of a kernel does (R61–R69, R73, R74, R81). -/
namespace Sys2Proof.Machine

/-- A core that runs executes the word at its pc to the outcome of the word's unit. -/
theorem State.execOp_outcome {s u : State} {t w len : Nat} {op : Op} {r : Ran} (runs : s.coreRuns t = true)
    (fetched : s.fetchInst t = (.inst w len, u)) (decoded : opOfInst w len = op) (outcome : u.opInst t w len op = r) :
    s.execOp t op = .next (u.retire t r) := by
  rw [State.execOp_fetched runs fetched decoded, outcome]

/-- A bank is zeroed; in slice mode the first bank is the combined one. -/
theorem execMzero_zeroes (tile : Nat) (w : Nat) (u : State) (s : State) (runs : s.coreRuns tile = true)
    (fetched : s.fetchInst tile = (.inst w 4, u)) (decoded : opOfInst w 4 = .mzero)
    (plain : (cfgSlice (u.tile tile).cfg = false ∨ bit w 31 = false)) :
    execMzero tile s = .next (u.retire tile (
      let s := u
      let t := tile
      let x := s.tile t
      .go (s.setTile t (if cfgSlice x.cfg then { x with comb := [] } else if bit w 31 then { x with k1 := Bank.empty } else { x with k0 := Bank.empty })) (s.after t))) := by
  refine State.execOp_outcome runs fetched decoded (Eq.trans (b := u.mzero tile w) rfl ?_)
  rw [State.mzero]
  cases slice : cfgSlice (u.tile tile).cfg with
  | false => simp only [slice, if_neg Bool.false_ne_true]
  | true =>
    have first : bit w 31 = false := plain.resolve_left (by rw [slice]; decide)
    simp only [slice, first, if_true, if_neg Bool.false_ne_true]

/-- An outstanding command of a kernel that is not paused moves its pieces and ends. -/
theorem execTdmaComplete_moves (tile : Nat) (tag : Nat) (d : TileDisp) (s : State) (dispatched : (s.tile tile).run = some d)
    (outstanding : (s.tdmaOf tile tag).isSome = true) (going : s.tilePaused tile = false) (clocked : s.quadRuns (s.quadOf tile) = true) :
    execTdmaComplete tile tag s = .next (
      let s := if s.classBelow (s.quadOf tile) then s.updRun d.ring d.seq (fun (r : Run) => { r with oversub := true }) else s
      ((s.tdmaPieces tile tag tdmaMaxPieces).tdmaEnd tile tag)) := by
  obtain ⟨command, found⟩ := Option.isSome_iff_exists.mp outstanding
  refine Eq.trans (b := execTdmaComplete tile tag s) rfl ?_
  simp only [execTdmaComplete, dispatched, found]
  unfold State.tilePaused at going
  split
  next paused => exact absurd going (by simp [paused])
  next => exact if_neg (by simp [clocked])

/-- Settles O5: the word at the pc is executed with operands on which its unit does not trap; a wait ends on its condition. -/
theorem matrixAndDmaInstructionsExecute : Obligations.MatrixAndDmaInstructionsExecute := by
  unfold Obligations.MatrixAndDmaInstructionsExecute
  refine ⟨?mcfg, ?mloadb, ?mstream, ?mdrain, ?mzero, ?mfence, ?tdma, ?tdmaf, ?twait, ?tpoll, ?tend, ?fenceI, ?core, ?fenceRelease,
    ?waitRelease, ?pollRelease, ?tdmaDone⟩
  case mcfg => exact fun _ _ _ _ runs fetched decoded legal => State.execOp_outcome runs fetched decoded (if_pos legal)
  case mloadb =>
    intro _ _ _ _ runs fetched decoded aligned _
    refine State.execOp_outcome runs fetched decoded (if_neg ?_)
    rintro (odd | beyond)
    · exact odd aligned
    · omega
  case mstream =>
    intro _ _ _ _ runs fetched decoded low _ aligned plain narrow _
    refine State.execOp_outcome runs fetched decoded ((if_neg ?_).trans (if_neg (by omega)))
    rintro (high | many | past | odd | ⟨slice, bank⟩ | ⟨escaped, wideA | wideB⟩)
    · exact high low
    · omega
    · omega
    · exact odd aligned
    · rcases plain with other | first
      · exact absurd slice (by rw [other]; decide)
      · exact absurd bank (by rw [first]; decide)
    · rcases narrow with unescaped | ⟨narrowA, _⟩
      · exact absurd escaped (by rw [unescaped]; decide)
      · omega
    · rcases narrow with unescaped | ⟨_, narrowB⟩
      · exact absurd escaped (by rw [unescaped]; decide)
      · omega
  case mdrain =>
    intro _ _ _ _ runs fetched decoded low aligned _ step _ _ _ plain
    refine State.execOp_outcome runs fetched decoded (if_neg ?_)
    rintro (high | odd | past | oddStep | narrow | beyond | unknown | ⟨slice, bank | ⟨wideFormat, notLast⟩⟩)
    · exact high low
    · exact odd aligned
    · omega
    · exact oddStep step
    · omega
    · rw [Nat.add_sub_cancel] at beyond
      omega
    · omega
    · rcases plain with other | ⟨first, _⟩
      · exact absurd slice (by rw [other]; decide)
      · exact absurd bank (by rw [first]; decide)
    · rcases plain with other | ⟨_, format⟩
      · exact absurd slice (by rw [other]; decide)
      · omega
  case mzero => exact execMzero_zeroes
  case mfence => exact fun _ _ _ _ runs fetched decoded => State.execOp_outcome runs fetched decoded rfl
  case tdma =>
    exact fun _ _ _ _ runs fetched decoded legal going room unused =>
      State.execOp_outcome runs fetched decoded (calc
      _ = _ := if_neg (by simp [legal])
      _ = _ := if_neg (by simp [going])
      _ = _ := if_neg (by simp [unused, Nat.not_le.mpr room]))
  case tdmaf =>
    exact fun _ _ _ _ runs fetched decoded legal going idle =>
      State.execOp_outcome runs fetched decoded (calc
      _ = _ := if_neg (by simp [legal])
      _ = _ := if_neg (by simp [going])
      _ = _ := if_neg (by simp [idle]))
  case twait => exact fun _ _ _ _ runs fetched decoded => State.execOp_outcome runs fetched decoded rfl
  case tpoll =>
    intro tile w u _ runs fetched decoded inside
    refine State.execOp_outcome runs fetched decoded (Eq.trans (b := u.tpollInst tile w) rfl ?_)
    simp only [State.tpollInst, inside]
  case tend => exact fun _ _ _ _ runs fetched decoded idle => State.execOp_outcome runs fetched decoded (if_pos idle)
  case fenceI => exact fun _ _ _ _ runs fetched decoded => State.execOp_outcome runs fetched decoded rfl
  case core => exact fun _ _ _ _ _ runs fetched decoded => State.execOp_outcome runs fetched decoded rfl
  case fenceRelease => exact fun _ _ waits => if_pos waits
  case waitRelease =>
    intro tile _ s waits done
    refine Eq.trans (b := execTwaitRelease tile s) rfl ?_
    simp only [execTwaitRelease, waits]
    exact if_neg (by simp [done])
  case pollRelease =>
    intro tile _ _ _ _ s waits read changed
    refine Eq.trans (b := execTpollRelease tile s) rfl ?_
    simp only [execTpollRelease, waits, read]
    exact if_neg changed
  case tdmaDone => exact execTdmaComplete_moves

end Sys2Proof.Machine
end
